-- ==== Sys2Proof/Word.lean ====
section
/-! DEFINITION. The word types of the device: bytes, register words and doublewords. -/

namespace Sys2Proof

/-- One byte. -/
abbrev Byte := BitVec 8

/-- One 32-bit register word (00, "Registers"). -/
abbrev Word := BitVec 32

/-- One 64-bit value: a Malax register, a Sidereal stamp, a full epoch. -/
abbrev DWord := BitVec 64

end Sys2Proof
end

