-- ==== Sys2Proof/Syntax.lean ====
section
/-! DEFINITION. The commands the block takes: one constructor of Instr for each row of the opcode table.
What only the outside knows (pin samples, received frames, the instant a crossing completes) is an operand;
everything else a command does is computed from the state. An operand with a default may be left out
(log entries 30 and 107). Times are Sidereal nanoseconds (R47). -/

namespace Sys2Proof

/-- The three access paths with a read latch and a staging register each (R12). -/
inductive Path | pcie | jtag | saf
  deriving DecidableEq, Repr

/-- The blocks that have a PREFIX_COMMIT register (R36), in ascending BAR0 offset. -/
inductive CBlock | alm | pln | slv | ctl | fln | fbk | aux | lin | cap
  deriving DecidableEq, Repr

/-- The two Meridian channels. -/
inductive Channel | a | b
  deriving DecidableEq, Repr

/-- A source of the speed estimator (R303). -/
inductive EstSrc | axis (a : Fin 128) | line (n : Fin 8)
  deriving DecidableEq, Repr

/-- A schedule frame as it was received (R419): the header fields, the payload, the CRC word and whether it
ended in ABORT. `start` is the fabric time at which its first symbol arrived. -/
structure SchedFrame where
  cls     : BitVec 4
  fid     : BitVec 12
  src     : BitVec 16
  len     : BitVec 16
  bc      : Byte
  rsv     : Byte
  payload : List Byte
  crc     : Word
  abort   : Bool
  start   : DWord
  deriving DecidableEq, Repr

/-- A setpoint record (R424). -/
structure SptRec where
  dest  : BitVec 10
  kind  : BitVec 6
  index : Byte
  flags : Byte
  value : Word
  deriving DecidableEq, Repr

/-- The operand fields of a tap instruction (R286, format T): SRC, K, and the X and Y address fields. -/
structure TapOp where
  src : Fin 3
  k   : Fin 4
  ax  : Fin 8
  mx  : Fin 8
  nx  : Bool
  ay  : Fin 8
  my  : Fin 8
  ny  : Bool
  deriving DecidableEq, Repr

/-- The memory operand of a format A instruction (R286): the memory, its address register, the offset register
and the no-modify bit. -/
structure MemOp where
  y : Bool
  a : Fin 8
  m : Fin 8
  n : Bool
  deriving DecidableEq, Repr

/-- The two ports of a channel (R390). -/
inductive LPort | north | south
  deriving DecidableEq, Repr

/-- A link frame as it was received or sent (R398); `crc` is the check value it carries. -/
structure LinkFrame where
  type    : Byte
  scope   : Byte
  seq     : Byte
  rsv     : Byte
  uid     : BitVec 48
  addr    : BitVec 16
  payload : List Byte
  crc     : Word
  deriving DecidableEq, Repr

/-- A frame that a repeater sees on one port (R392). -/
inductive MerFrame | sched (f : SchedFrame) | link (f : LinkFrame)
  deriving DecidableEq, Repr

/-- What the SECDED check of a memory word finds: nothing, a single-bit error that is corrected, or an uncorrectable one
(R78, R207, R275, R345). -/
inductive Ecc | clean | corrected | uncorr
  deriving DecidableEq, Repr

/-- The commands, one constructor for each row of spec/opcode_table.json. -/
inductive Instr where
  /-- REGISTER_WRITE (R25): Host write to a register that has no row of its own, taking effect at once outside the deterministic core or being discarded where the register is read-only. -/
  | registerWrite (path : Path) (off : BitVec 25) (v : Word) (t : DWord)
  /-- SHADOW_WRITE (R36): Write to a shadowed register, which changes only its shadow copy and passes the gate as source 6. -/
  | shadowWrite (path : Path) (off : BitVec 25) (v : Word) (t : DWord)
  /-- COMMIT_GO (R37): Write of PREFIX_COMMIT.GO = 1, a gate input that requests the commit of the block's shadow copies at the boundary named by its stamp. -/
  | commitGo (b : CBlock) (v : Word) (t : DWord)
  /-- LOW_WORD_READ (R10): Read of the low word of a 64-bit register, which copies the high word into the read latch of that access path. -/
  | lowWordRead (path : Path) (off : BitVec 25)
  /-- LOW_WORD_WRITE (R11): Write of the low word of a 64-bit register into the write staging register, without effect. -/
  | lowWordWrite (path : Path) (off : BitVec 25) (v : Word)
  /-- HIGH_WORD_WRITE (R11): Write of the high word of a 64-bit register, which commits it together with the staged low word in one step. -/
  | highWordWrite (path : Path) (off : BitVec 25) (v : Word) (t : DWord)
  /-- QWORD_ACCESS (R514): Aligned 8-byte BAR0 access that reads or commits both words of a 64-bit register in one step. -/
  | qwordAccess (path : Path) (off : BitVec 25) (w : Option DWord) (t : DWord)
  /-- UNMAPPED_ACCESS (R513): BAR0 access of wrong size or alignment, or to no register, which counts in GLB_ERR and completes with Unsupported Request or is discarded. -/
  | unmappedAccess (path : Path) (off : BitVec 25) (size : Nat) (isWrite : Bool)
  /-- BAR2_WRITE (R515): Host write through a BAR2 window into planner data SRAM or the flash staging buffer, bypassing the gate. -/
  | bar2Write (off : BitVec 28) (bytes : List Byte)
  /-- TICK_BOUNDARY (R26): Start of tick n at t0(n), running steps 1 to 7 within the first microsecond. -/
  | tickBoundary
  /-- PLAN_PERIOD_START (R19): Tick whose epoch is a multiple of PLANDIV: the waiting cores are woken and budgets restart. -/
  | planPeriodStart
  /-- CUTOVER (R42): A requested cut-over is validated and applied to all arms at step 4 of the next boundary. -/
  | cutover
  /-- SEGA_APPLY (R169): An accepted SEGA append is checked and joined to the active plan at step 4 of the next boundary. -/
  | segaApply
  /-- RAMP_STOP_APPLY (R172): A STOP or MISSSTOP request empties the staged queue and sets the arm's stopping state at step 4. -/
  | rampStopApply
  /-- AUXQ_APPLY (R184): An accepted auxiliary move is checked against the axis record and appended at step 4. -/
  | auxqApply
  /-- SIGNAL_DELIVER (R85): A signal from another core becomes visible as a class 0x04 event at the next boundary. -/
  | signalDeliver
  /-- JOB_ADMIT (R222): A submitted job is admitted to the solver queue just after step 2, with its measurements copied. -/
  | jobAdmit
  /-- JOB_START (R223): A waiting job starts on the lowest free allowed tiles at TCYCLE 0 or when a tile frees. -/
  | jobStart
  /-- JOB_END (R224): A running job completes its cycle count, converges, caps or overflows, and frees its tiles. -/
  | jobEnd (handle : Word) (eccErr : Ecc)
  /-- JOB_DELIVERY (R133): At step 2 the status word and output are written to the core and a class 0x11 event is queued. -/
  | jobDelivery
  /-- JOB_EXPIRE (R225): A job that reaches TICKMAX is stopped and delivered with EXPIRED. -/
  | jobExpire (handle : Word)
  /-- JOB_CANCEL_APPLY (R135): A cancel removes or stops a job at the next boundary, and the job is delivered with CANCELLED. -/
  | jobCancelApply
  /-- JOURNAL_COMMIT (R473): A JREC entry is committed at its boundary, then its CRC, then the AON sequence number. -/
  | journalCommit
  /-- JDONE_COMMIT (R474): At the boundary of a JDONE the entry is freed and its completion is posted to the host. -/
  | jdoneCommit
  /-- CORE_FREEZE (R79): TCYCLE reaches RUNCYC, so cores and tiles freeze until TCYCLE 0 of the next tick. -/
  | coreFreeze (c : Fin 9) (scrub : Option (Fin 3 × Ecc) := none)
  /-- SHARED_SLOT_ACCESS (R77): A waiting shared-region access takes effect in the core's slot cycle. -/
  | sharedSlotAccess (c : Fin 9)
  /-- CYCLE_POINT_FIRE (R91): TCYCLE reaches OFFSET of an enabled cycle point, which interrupts, pends, misses or wakes the core. -/
  | cyclePointFire (c : Fin 9) (k : Fin 4)
  /-- BUDGET_OVERRUN (R83): The plan-period budget counter reaches BUDGET and the exception is raised. -/
  | budgetOverrun (c : Fin 9)
  /-- WAIT_WAKE (R88): A WAITT, WAITP or WAITE ends at step 7 of its boundary. -/
  | waitWake (c : Fin 10)
  /-- WAITL_WAKE (R130): WAITL is re-evaluated at step 7 and ends by fault, safety event, count reached or timeout. -/
  | waitlWake (c : Fin 9)
  /-- JWAIT_WAKE (R134): JWAIT ends when its result is delivered, or by timeout or safety event. -/
  | jwaitWake (c : Fin 9)
  /-- CORE_START (R117): A commit carrying PLN_CTRLn.RUN = 1 resets and starts a stopped or halted core at PLN_ENTRYn. -/
  | coreStart (c : Fin 9)
  /-- CORE_STOP (R117): A commit carrying RUN = 0 stops the core, empties its queue and makes its clean-up. -/
  | coreStop (c : Fin 9)
  /-- HALT_CLEANUP (R148): At the first boundary after a halt the core's jobs, appends and auxiliary moves are dropped. -/
  | haltCleanup (c : Fin 9)
  /-- ADD (R101): gd = ga + gb. -/
  | add (c : Fin 10) (rd ra rb : Fin 32)
  /-- SUB (R101): gd = ga − gb. -/
  | sub (c : Fin 10) (rd ra rb : Fin 32)
  /-- AND (R101): Bitwise and. -/
  | andR (c : Fin 10) (rd ra rb : Fin 32)
  /-- OR (R101): Bitwise or. -/
  | orR (c : Fin 10) (rd ra rb : Fin 32)
  /-- XOR (R101): Bitwise exclusive or. -/
  | xorR (c : Fin 10) (rd ra rb : Fin 32)
  /-- SLL (R101): Logical left shift by gb[5:0]. -/
  | sll (c : Fin 10) (rd ra rb : Fin 32)
  /-- SRL (R101): Logical right shift. -/
  | srl (c : Fin 10) (rd ra rb : Fin 32)
  /-- SRA (R101): Arithmetic right shift. -/
  | sra (c : Fin 10) (rd ra rb : Fin 32)
  /-- SLT (R101): Signed less-than, writing 1 or 0. -/
  | slt (c : Fin 10) (rd ra rb : Fin 32)
  /-- SLTU (R101): Unsigned less-than, writing 1 or 0. -/
  | sltu (c : Fin 10) (rd ra rb : Fin 32)
  /-- MIN (R101): Signed minimum. -/
  | min (c : Fin 10) (rd ra rb : Fin 32)
  /-- MAX (R101): Signed maximum. -/
  | max (c : Fin 10) (rd ra rb : Fin 32)
  /-- MINU (R101): Unsigned minimum. -/
  | minu (c : Fin 10) (rd ra rb : Fin 32)
  /-- MAXU (R101): Unsigned maximum. -/
  | maxu (c : Fin 10) (rd ra rb : Fin 32)
  /-- CLZ (R101): Count of leading zeros. -/
  | clz (c : Fin 10) (rd ra : Fin 32)
  /-- POPC (R101): Count of set bits. -/
  | popc (c : Fin 10) (rd ra : Fin 32)
  /-- MUL (R101): Low 64 bits of the product. -/
  | mul (c : Fin 10) (rd ra rb : Fin 32)
  /-- MULH (R101): High 64 bits of the signed product. -/
  | mulh (c : Fin 10) (rd ra rb : Fin 32)
  /-- MULHU (R101): High 64 bits of the unsigned product. -/
  | mulhu (c : Fin 10) (rd ra rb : Fin 32)
  /-- DIV (R102): Signed quotient, with the defined results on division by zero and overflow. -/
  | div (c : Fin 10) (rd ra rb : Fin 32)
  /-- DIVU (R102): Unsigned quotient. -/
  | divu (c : Fin 10) (rd ra rb : Fin 32)
  /-- REM (R102): Signed remainder. -/
  | rem (c : Fin 10) (rd ra rb : Fin 32)
  /-- REMU (R102): Unsigned remainder. -/
  | remu (c : Fin 10) (rd ra rb : Fin 32)
  /-- ADDI (R101): Add sext(imm12). -/
  | addi (c : Fin 10) (rd ra : Fin 32) (imm : BitVec 12)
  /-- ANDI (R101): And with sext(imm12). -/
  | andi (c : Fin 10) (rd ra : Fin 32) (imm : BitVec 12)
  /-- ORI (R101): Or with sext(imm12). -/
  | ori (c : Fin 10) (rd ra : Fin 32) (imm : BitVec 12)
  /-- XORI (R101): Exclusive or with sext(imm12). -/
  | xori (c : Fin 10) (rd ra : Fin 32) (imm : BitVec 12)
  /-- SLLI (R101): Left shift by imm12[5:0]. -/
  | slli (c : Fin 10) (rd ra : Fin 32) (imm : BitVec 12)
  /-- SRLI (R101): Logical right shift by imm12[5:0]. -/
  | srli (c : Fin 10) (rd ra : Fin 32) (imm : BitVec 12)
  /-- SRAI (R101): Arithmetic right shift by imm12[5:0]. -/
  | srai (c : Fin 10) (rd ra : Fin 32) (imm : BitVec 12)
  /-- SLTI (R101): Signed compare with sext(imm12). -/
  | slti (c : Fin 10) (rd ra : Fin 32) (imm : BitVec 12)
  /-- SLTIU (R101): Unsigned compare with sext(imm12). -/
  | sltiu (c : Fin 10) (rd ra : Fin 32) (imm : BitVec 12)
  /-- LIW (R103): gd = sext(imm22). -/
  | liw (c : Fin 10) (rd : Fin 32) (imm : BitVec 22)
  /-- LIS (R103): gd = (gd << 22) or imm22. -/
  | lis (c : Fin 10) (rd : Fin 32) (imm : BitVec 22)
  /-- FADD (R104): Binary64 addition. -/
  | fadd (c : Fin 9) (fd fa fb : Fin 32)
  /-- FSUB (R104): Binary64 subtraction. -/
  | fsub (c : Fin 9) (fd fa fb : Fin 32)
  /-- FMUL (R104): Binary64 multiplication. -/
  | fmul (c : Fin 9) (fd fa fb : Fin 32)
  /-- FDIV (R104): Binary64 division. -/
  | fdiv (c : Fin 9) (fd fa fb : Fin 32)
  /-- FSQRT (R104): Binary64 square root. -/
  | fsqrt (c : Fin 9) (fd fa : Fin 32)
  /-- FMIN (R105): Binary64 minimum with the stated NaN and zero handling. -/
  | fmin (c : Fin 9) (fd fa fb : Fin 32)
  /-- FMAX (R105): Binary64 maximum with the stated NaN and zero handling. -/
  | fmax (c : Fin 9) (fd fa fb : Fin 32)
  /-- FSGNJ (R104): Magnitude of fa with the sign of fb. -/
  | fsgnj (c : Fin 9) (fd fa fb : Fin 32)
  /-- FSGNJN (R104): Magnitude of fa with the inverted sign of fb. -/
  | fsgnjn (c : Fin 9) (fd fa fb : Fin 32)
  /-- FSGNJX (R104): Magnitude of fa with the xor of both signs. -/
  | fsgnjx (c : Fin 9) (fd fa fb : Fin 32)
  /-- FEQ (R105): Quiet equality compare. -/
  | feq (c : Fin 9) (rd fa fb : Fin 32)
  /-- FLT (R105): Signalling less-than compare. -/
  | flt (c : Fin 9) (rd fa fb : Fin 32)
  /-- FLE (R105): Signalling less-or-equal compare. -/
  | fle (c : Fin 9) (rd fa fb : Fin 32)
  /-- FCLASS (R105): Writes the class mask of fa. -/
  | fclass (c : Fin 9) (rd fa : Fin 32)
  /-- FCVT_D_L (R104): Signed 64-bit integer to binary64. -/
  | fcvtDL (c : Fin 9) (fd ra : Fin 32)
  /-- FCVT_L_D (R106): Binary64 to signed integer, toward zero, saturating. -/
  | fcvtLD (c : Fin 9) (rd fa : Fin 32)
  /-- FCVT_L_D_N (R106): Binary64 to signed integer, nearest even, saturating. -/
  | fcvtLDN (c : Fin 9) (rd fa : Fin 32)
  /-- FMV_G_F (R104): Bit copy from an f register to a g register. -/
  | fmvGF (c : Fin 9) (rd fa : Fin 32)
  /-- FMV_F_G (R104): Bit copy from a g register to an f register. -/
  | fmvFG (c : Fin 9) (fd ra : Fin 32)
  /-- FMADD (R107): fd = fa × fb + fc, rounded once. -/
  | fmadd (c : Fin 9) (fd fa fb fc : Fin 32)
  /-- FMSUB (R107): fd = fa × fb − fc, rounded once. -/
  | fmsub (c : Fin 9) (fd fa fb fc : Fin 32)
  /-- FNMSUB (R107): fd = −(fa × fb) + fc, rounded once. -/
  | fnmsub (c : Fin 9) (fd fa fb fc : Fin 32)
  /-- FNMADD (R107): fd = −(fa × fb) − fc, rounded once. -/
  | fnmadd (c : Fin 9) (fd fa fb fc : Fin 32)
  /-- LB (R108): Load of a signed byte. -/
  | lb (c : Fin 10) (rd ra : Fin 32) (imm : BitVec 12) (err : Ecc)
  /-- LBU (R108): Load of an unsigned byte. -/
  | lbu (c : Fin 10) (rd ra : Fin 32) (imm : BitVec 12) (err : Ecc)
  /-- LH (R108): Load of a signed halfword. -/
  | lh (c : Fin 10) (rd ra : Fin 32) (imm : BitVec 12) (err : Ecc)
  /-- LHU (R108): Load of an unsigned halfword. -/
  | lhu (c : Fin 10) (rd ra : Fin 32) (imm : BitVec 12) (err : Ecc)
  /-- LW (R108): Load of a signed word. -/
  | lw (c : Fin 10) (rd ra : Fin 32) (imm : BitVec 12) (err : Ecc)
  /-- LWU (R108): Load of an unsigned word. -/
  | lwu (c : Fin 10) (rd ra : Fin 32) (imm : BitVec 12) (err : Ecc)
  /-- LD (R108): Load of a doubleword. -/
  | ld (c : Fin 10) (rd ra : Fin 32) (imm : BitVec 12) (err : Ecc)
  /-- FLD (R108): Load of a doubleword into an f register. -/
  | fld (c : Fin 9) (fd ra : Fin 32) (imm : BitVec 12) (err : Ecc)
  /-- SB (R108): Store of a byte. -/
  | sb (c : Fin 10) (rs ra : Fin 32) (imm : BitVec 12) (err : Ecc)
  /-- SH (R108): Store of a halfword. -/
  | sh (c : Fin 10) (rs ra : Fin 32) (imm : BitVec 12) (err : Ecc)
  /-- SW (R108): Store of a word. -/
  | sw (c : Fin 10) (rs ra : Fin 32) (imm : BitVec 12) (err : Ecc)
  /-- SD (R108): Store of a doubleword. -/
  | sd (c : Fin 10) (rs ra : Fin 32) (imm : BitVec 12)
  /-- FSD (R108): Store of an f register. -/
  | fsd (c : Fin 9) (fs ra : Fin 32) (imm : BitVec 12)
  /-- AMOSWAP (R109): Atomic swap. -/
  | amoswap (c : Fin 9) (rd ra rb : Fin 32) (err : Ecc)
  /-- AMOADD (R109): Atomic add. -/
  | amoadd (c : Fin 9) (rd ra rb : Fin 32) (err : Ecc)
  /-- AMOAND (R109): Atomic and. -/
  | amoand (c : Fin 9) (rd ra rb : Fin 32) (err : Ecc)
  /-- AMOOR (R109): Atomic or. -/
  | amoor (c : Fin 9) (rd ra rb : Fin 32) (err : Ecc)
  /-- AMOMAX (R109): Atomic signed maximum. -/
  | amomax (c : Fin 9) (rd ra rb : Fin 32) (err : Ecc)
  /-- AMOMIN (R109): Atomic signed minimum. -/
  | amomin (c : Fin 9) (rd ra rb : Fin 32) (err : Ecc)
  /-- AMOCAS (R109): Atomic compare-and-swap. -/
  | amocas (c : Fin 9) (rd ra rb : Fin 32) (err : Ecc)
  /-- BEQ (R110): Branch if equal. -/
  | beq (c : Fin 10) (ra rb : Fin 32) (imm : BitVec 12)
  /-- BNE (R110): Branch if not equal. -/
  | bne (c : Fin 10) (ra rb : Fin 32) (imm : BitVec 12)
  /-- BLT (R110): Branch if signed less. -/
  | blt (c : Fin 10) (ra rb : Fin 32) (imm : BitVec 12)
  /-- BGE (R110): Branch if signed greater or equal. -/
  | bge (c : Fin 10) (ra rb : Fin 32) (imm : BitVec 12)
  /-- BLTU (R110): Branch if unsigned less. -/
  | bltu (c : Fin 10) (ra rb : Fin 32) (imm : BitVec 12)
  /-- BGEU (R110): Branch if unsigned greater or equal. -/
  | bgeu (c : Fin 10) (ra rb : Fin 32) (imm : BitVec 12)
  /-- JAL (R110): Jump and link, PC-relative. -/
  | jal (c : Fin 10) (rd : Fin 32) (imm : BitVec 22)
  /-- JALR (R110): Jump to a register target and link. -/
  | jalr (c : Fin 10) (rd ra : Fin 32) (imm : BitVec 12)
  /-- CSRR (R98): Read of a CSR. -/
  | csrr (c : Fin 10) (rd : Fin 32) (csr : BitVec 12)
  /-- CSRW (R98): Swap of a CSR value, with the cycle-point write checks of R91. -/
  | csrw (c : Fin 10) (rd ra : Fin 32) (csr : BitVec 12)
  /-- CSRS (R98): Read of a CSR and setting of its bits. -/
  | csrs (c : Fin 10) (rd ra : Fin 32) (csr : BitVec 12)
  /-- CSRC (R98): Read of a CSR and clearing of its bits. -/
  | csrc (c : Fin 10) (rd ra : Fin 32) (csr : BitVec 12)
  /-- POLL (R89): Removes the oldest visible event record into gd. -/
  | poll (c : Fin 9) (rd : Fin 32)
  /-- WAITT (R88): Sleeps until the next tick boundary. -/
  | waitt (c : Fin 9) (rd : Fin 32)
  /-- WAITP (R88): Sleeps until the next plan-period start, or returns at once on a late wake. -/
  | waitp (c : Fin 10) (rd : Fin 32)
  /-- WAITE (R88): Sleeps until an event is visible. -/
  | waite (c : Fin 9) (rd : Fin 32)
  /-- SIGNAL (R90): Sends 32 bits to another core for the next tick. -/
  | signal (c : Fin 9) (ra : Fin 32) (imm : BitVec 12)
  /-- ERET (R95): Returns from a trap, restoring IE from PIE. -/
  | eret (c : Fin 10)
  /-- TRAP (R111): Raises the TRAP exception with TVAL = imm12. -/
  | trap (c : Fin 10) (imm : BitVec 12) (fetchErr : Ecc)
  /-- FLOWSIG (R341): Safety core folds imm12 into the flow signature, or checks it at the period-end checkpoint. -/
  | flowsig (c : Fin 10) (imm : BitVec 12)
  /-- SEGQ (R124): Appends a segment descriptor to the staged queue after the issue checks. -/
  | segq (c : Fin 9) (rd ra : Fin 32) (err : Ecc)
  /-- SEGA (R124): Requests the append of a segment to the tail of the active plan. -/
  | sega (c : Fin 9) (rd ra : Fin 32) (err : Ecc)
  /-- SEGCLR (R124): Empties the staged queue. -/
  | segclr (c : Fin 9) (rd : Fin 32)
  /-- CUT (R126): Requests a cut-over at the next boundary. -/
  | cut (c : Fin 9) (rd : Fin 32)
  /-- SEGSTAT (R127): Reports the staged count, the active count and the active segment ID. -/
  | segstat (c : Fin 9) (rd : Fin 32)
  /-- STOP (R128): Requests a ramp stop of the core's arm or of the arms of a mask. -/
  | stop (c : Fin 9) (rd ra : Fin 32)
  /-- AUXQ (R129): Queues an auxiliary move for an axis. -/
  | auxq (c : Fin 9) (rd ra rb : Fin 32) (err : Ecc)
  /-- WAITL (R130): Waits for a line count to reach a target, with a deadline. -/
  | waitl (c : Fin 9) (rd ra rb : Fin 32) (func : BitVec 12)
  /-- JOB (R132): Submits a solver job descriptor and returns a handle. -/
  | job (c : Fin 9) (rd ra : Fin 32) (err : Ecc)
  /-- JWAIT (R134): Collects a job result, or waits for it with a deadline. -/
  | jwait (c : Fin 9) (rd ra rb : Fin 32)
  /-- JSTAT (R134): Collects a job result without waiting, or is refused PENDING. -/
  | jstat (c : Fin 9) (rd ra : Fin 32)
  /-- JCANCEL (R135): Requests the cancellation of a job at the next boundary. -/
  | jcancel (c : Fin 9) (rd ra : Fin 32)
  /-- HPUB (R136): Publishes tool capsules or zone claims to the SAFE domain. -/
  | hpub (c : Fin 9) (rd ra rb : Fin 32) (func : BitVec 12) (err : Ecc)
  /-- APUB (R137): Copies bytes into the core's Almanac program area. -/
  | apub (c : Fin 9) (rd ra rb : Fin 32) (func : BitVec 12) (err : Ecc)
  /-- RTAKE (R138): Takes the next released ring entry and advances the consumer index. -/
  | rtake (c : Fin 9) (rd ra rb : Fin 32)
  /-- JREC (R139): Journals a command and assigns its sequence number. -/
  | jrec (c : Fin 9) (rd ra rb : Fin 32) (err : Ecc)
  /-- JDONE (R140): Marks a journal entry complete at the next boundary. -/
  | jdone (c : Fin 9) (rd ra rb : Fin 32)
  /-- JNEXT (R142): Takes the next replay entry of the journal. -/
  | jnext (c : Fin 9) (rd ra : Fin 32)
  /-- PROFQ (R143): Returns a profile item fixed since activation. -/
  | profq (c : Fin 9) (rd : Fin 32) (imm : BitVec 12)
  /-- CAPQ (R143): Returns the version byte of a capability, or 0. -/
  | capq (c : Fin 9) (rd : Fin 32) (imm : BitVec 12)
  /-- LINE_EDGE (R57): A filtered quadrature change of a line input counts one step or a QERR. -/
  | lineEdge (n : Fin 8) (a b : BitVec 3) (sample : Nat)
  /-- LINE_FAULT (R60): The 8th QERR in a 1 024-sample window sets LINE_FAULT, raised when the latch crosses into CORE. -/
  | lineFault (n : Fin 8)
  /-- LINE_INDEX (R63): A Z index event latches the extended count and its stamp. -/
  | lineIndex (n : Fin 8) (z : BitVec 3) (t : DWord)
  /-- LINE_LATCH (R69): Each line latches its extended count, uncertainty and status at the first ENC edge at or after t0(n). -/
  | lineLatch (n : Fin 8) (t : DWord)
  /-- LINE_IDLE_LATCH (R66): While the tick sequencer is stopped, lines latch every 65 536 ENC cycles to keep the extension. -/
  | lineIdleLatch
  /-- LIN_CLR_FAULT (R61): Committed CLR_FAULT clears LINE_FAULT at its boundary, subject to the window. -/
  | linClrFault (n : Fin 8) (sample : Nat)
  /-- CLR_UNCERT (R62): Committed CLR_UNCERT sets the line uncertainty to 0. -/
  | clrUncert (n : Fin 8)
  /-- CLR_QERR (R62): Committed CLR_QERR clears the QERR total. -/
  | clrQerr (n : Fin 8)
  /-- LIN_SIDEREAL_READ (R52): Host read of LIN_SIDEREAL captures the CORE Sidereal copy when the low-word read crosses into CORE. -/
  | linSiderealRead (path : Path) (t : DWord)
  /-- SSI_FRAME_START (R292): The SSI clock of tick n starts at t0(n) − ADV. -/
  | ssiFrameStart (p : Fin 16) (ts : DWord) (high : Bool)
  /-- SSI_WORD (R295): A received SSI word is decoded and checked, giving a position or an invalid cause. -/
  | ssiWord (p : Fin 16) (bits : List Bool) (td : Option Nat) (endLow : Bool)
  /-- FEEDBACK_FRAME (R422): A node's FEEDBACK frame delivers axis positions, bursts and input data. -/
  | feedbackFrame (ch : Channel) (f : SchedFrame) (t : DWord)
  /-- GATHER_END (R28): End of the gather window: positions that have not arrived are marked STALE or NOFRAME. -/
  | gatherEnd
  /-- EXTRAPOLATE_PHASE (R301): Positions are brought to the control instant, and estimators and generators run. -/
  | extrapolatePhase
  /-- STANDSTILL_TIMEOUT (R303): No change for TSTILL sets the estimator to standstill with v = 0. -/
  | standstillTimeout (src : EstSrc)
  /-- FBK_TIMEOUT (R302): The last valid latch is older than t_tick + 2 µs, so act is held and the fault is raised. -/
  | fbkTimeout (a : Fin 128)
  /-- HANDOVER_END (R170): The handover term ends after its 64th tick. -/
  | handoverEnd (k : Fin 8)
  /-- DWELL_EXPIRE (R162): A timed DWELL reaches DWELLNS and retires. -/
  | dwellExpire (k : Fin 8)
  /-- RAMP_STOP_REST (R172): The ramp stop reaches rest, the remaining segments are discarded and the arm reads stopped. -/
  | rampStopRest (k : Fin 8)
  /-- AUX_STALL (R195): STALLN consecutive ticks at IPEAK with full load take a stall lock and start a ramp stop. -/
  | auxStall (a : Fin 128)
  /-- AUX_STOP_DONE (R197): An auxiliary STOP ramp reaches v = 0 and reports OK with the discarded count. -/
  | auxStopDone (a : Fin 128)
  /-- CLR_STALL (R195): Committed CLR_STALL clears the stall lock. -/
  | clrStall (a : Fin 128)
  /-- STEP_BATCH (R190): The steps of tick n are emitted on a local channel during the following tick. -/
  | stepBatch (c : Fin 16)
  /-- AXIS_CASCADE (R260): In its fixed slot the engine runs an axis cascade and forms its setpoint. -/
  | axisCascade (a : Fin 128)
  /-- MANUAL_ENTER (R264): Committed MAN = 1 puts an axis under its manual setpoint. -/
  | manualEnter (a : Fin 128)
  /-- BUMPLESS_TRANSFER (R266): The first tick with MAN = 0 presets the integrators to the last manual setpoint. -/
  | bumplessTransfer (a : Fin 128)
  /-- CLR_INT (R260): Committed CLR_INT sets ip and iv to 0. -/
  | clrInt (a : Fin 128)
  /-- CTL_CLR_FAULT (R269): Committed CLR_FAULT clears the latched axis fault bit. -/
  | ctlClrFault (a : Fin 128)
  /-- SETPOINT_SEND (R424): The controller sends the setpoints of tick n in SETPOINT frames. -/
  | setpointSend (ch : Channel)
  /-- SETPOINT_APPLY (R425): A node applies the setpoint records of basic cycle n at t0(n + 1). -/
  | setpointApply (recs : List SptRec)
  /-- SETPOINT_LOSS (R425): A node misses expected records and repeats them, or after two cycles applies zeros and sets SPLOST. -/
  | setpointLoss (recs : List SptRec)
  /-- ALMANAC_PUBLISH (R32): The Almanac of the tick is written in ascending address order. -/
  | almanacPublish
  /-- ALMANAC_PUSH (R34): The push DMA copies the Almanac into host slot n mod 2^SLOTS_LOG2. -/
  | almanacPush (err : Ecc := .clean)
  /-- LANE_PASS (R277): Each running lane starts a pass at the end of the gather window. -/
  | lanePass (l : Fin 32) (eccErr : Ecc)
  /-- LANE_OVERRUN (R278): A pass reaches PASSCYC without END and is stopped. -/
  | laneOverrun (l : Fin 32)
  /-- LANE_START (R276): Committed FLN_CTRL.RUN = 1 clears the lane registers and starts the lane. -/
  | laneStart (l : Fin 32)
  /-- LANE_STOP (R288): Committed RUN = 0 stops the lane. -/
  | laneStop (l : Fin 32)
  /-- LANE_PATCH (R288): Committed patch entries write words into lane memory. -/
  | lanePatch
  /-- TMPY (R287): Sets acc to the product. -/
  | tmpy (l : Fin 32) (ac : Fin 2) (t : TapOp)
  /-- TMAC (R287): Adds the product to acc. -/
  | tmac (l : Fin 32) (ac : Fin 2) (t : TapOp)
  /-- TMSU (R287): Subtracts the product from acc. -/
  | tmsu (l : Fin 32) (ac : Fin 2) (t : TapOp)
  /-- LANE_PUT (R284): Stores the rounded and saturated acc to memory. -/
  | lanePut (l : Fin 32) (ac : Fin 2) (m : MemOp) (sh : Fin 32)
  /-- LANE_GET (R284): Loads a shifted word into acc. -/
  | laneGet (l : Fin 32) (ac : Fin 2) (m : MemOp) (sh : Fin 24)
  /-- LANE_ADD (R284): Adds a shifted word to acc. -/
  | laneAdd (l : Fin 32) (ac : Fin 2) (m : MemOp) (sh : Fin 24)
  /-- IDX (R287): Sets an address register from acc for a table lookup. -/
  | idx (l : Fin 32) (ac : Fin 2) (a : Fin 8) (sh : Fin 32)
  /-- LANE_CLR (R287): Clears acc. -/
  | laneClr (l : Fin 32) (ac : Fin 2)
  /-- LDS (R287): Loads a scalar register from memory. -/
  | lds (l : Fin 32) (m : MemOp) (k : Fin 4)
  /-- SETA (R287): Sets an address register and its anchor. -/
  | seta (l : Fin 32) (r : Fin 8) (v : BitVec 11)
  /-- SETM (R287): Sets an offset register. -/
  | setm (l : Fin 32) (r : Fin 8) (v : BitVec 12)
  /-- SETL (R287): Sets a length register. -/
  | setl (l : Fin 32) (r : Fin 8) (v : BitVec 12)
  /-- SETS (R287): Sets a scalar register. -/
  | sets (l : Fin 32) (k : Fin 4) (v : BitVec 16)
  /-- RPT (R287): Repeats the following instructions COUNT times. -/
  | rpt (l : Fin 32) (count len : BitVec 11)
  /-- LANE_BR (R287): Conditional lane branch. -/
  | laneBr (l : Fin 32) (cond : Fin 5) (ac : Fin 2) (target : BitVec 11)
  /-- LANE_END (R287): Ends the pass. -/
  | laneEnd (l : Fin 32)
  /-- FAULT_REPORT (R322): A fault reaches the fault queue, where it is logged, pre-empts, is queued or escalated. -/
  | faultReport (n : Nat) (t : DWord)
  /-- FAULT_DEQUEUE (R322): At the end of a reaction, queued faults are taken in queue order. -/
  | faultDequeue
  /-- STO_ENTRY (R330): STO is entered: STO_DYN goes static low, outputs switch off and plans are emptied. -/
  | stoEntry (t : DWord)
  /-- DUSK_REST (R327): The Dusk ramp reaches rest, followed by a hold or STO. -/
  | duskRest (t : DWord)
  /-- DUSK_TIMEOUT (R327): The ramp is not at rest after 1.05 × T_dusk, raising F3. -/
  | duskTimeout (t : DWord)
  /-- HOLD_END (R329): The hold ends by time, mailbox command or idle arms, and a new ramp to STO begins. -/
  | holdEnd (t : DWord)
  /-- WDOG_SERVICE (R313): The safety core writes 0x5A then 0xA5 to the watchdog key register. -/
  | wdogService (since : Nat) (t : DWord)
  /-- WDOG_EXPIRED (R313): A watchdog service comes too early or too late, so WDOG_SAFE goes static low. -/
  | wdogExpired (t : DWord)
  /-- WDOG_STO_DELAY (R313): STO has been active for longer than WDDLY, so WDOG_SAFE stops. -/
  | wdogStoDelay
  /-- STO_READBACK (R314): A read-back mismatch of STO_DYN or WDOG_SAFE forces both outputs low. -/
  | stoReadback (t : DWord)
  /-- RESET_EDGE (R331): SAFE_RST_N is released after a press, forming a reset edge or a short press. -/
  | resetEdge (released pressed : Nat) (t : DWord)
  /-- RESET_STUCK (R332): A press passes TMAX and sets STUCK. -/
  | resetStuck (t : DWord)
  /-- RESET_EDGE_EVALUATE (R333): At the first Halo-period start after the release, the edge is accepted or refused. -/
  | resetEdgeEvaluate (t : DWord)
  /-- SAFE_INPUT_CHANGE (R336): A safe input changes its filtered level. -/
  | safeInputChange (n : Fin 16) (level : Bool)
  /-- SIN_DISC (R336): A pair disagrees for longer than DISC. -/
  | sinDisc (n : Fin 16) (t : DWord)
  /-- TEST_PULSE (R337): TPk pulses low, and the tested inputs are checked. -/
  | testPulse (k : Fin 4) (lows : BitVec 16) (estLow : Bool) (t : DWord)
  /-- ESTOP_CHANGE (R338): ESTOP inputs change; both low raises ESTOP, class F2. -/
  | estopChange (a b : Bool) (t : DWord)
  /-- ESTOP_DISC (R338): ESTOP contacts disagree for longer than 50 ms. -/
  | estopDisc (t : DWord)
  /-- SOUT_WRITE (R339): The safety program sets a safe output. -/
  | soutWrite (v : Byte)
  /-- DARK_PULSE (R339): An output that is on carries a 300 µs dark pulse every 32 ms. -/
  | darkPulse (k : Fin 8)
  /-- SOUT_READBACK (R339): SOUT_RBk disagrees for longer than 200 µs. -/
  | soutReadback (k : Fin 8) (rb : Bool) (t : DWord)
  /-- MARCH_SEGMENT (R340): A background march segment of safety SRAM completes. -/
  | marchSegment (fail : Bool) (t : DWord)
  /-- HALO_CHUNK (R340): A background chunk of extended Halo pairs completes. -/
  | haloChunk (fail : Bool) (t : DWord)
  /-- DIAG_LATE (R342): A segment or chunk is still incomplete at its period plus 2 × T_halo. -/
  | diagLate (march : Bool) (t : DWord)
  /-- FLOWDL_EXPIRE (R341): No period-end checkpoint by FLOWDL raises FLOW_SIG. -/
  | flowdlExpire (t : DWord)
  /-- CLK_STOP (R491): A monitored domain stops, so STO is forced, its crossings are held in reset and waiting accesses end. -/
  | clkStop (d : Fin 9) (t : DWord)
  /-- CLK_FREQ (R490): A domain runs outside ±5 % for 1 ms. -/
  | clkFreq (d : Fin 9) (t : DWord)
  /-- VOLT_MON (R340): A rail leaves its window for 10 µs. -/
  | voltMon (t : DWord)
  /-- TEMP_WARN (R319): Tj reaches 105 °C. -/
  | tempWarn (t : DWord)
  /-- TEMP_MON (R319): Tj reaches 125 °C. -/
  | tempMon (t : DWord)
  /-- MAILBOX_GO (R347): Host writes SAF_MBX_DB.GO to submit a command, which is discarded and sets OVR if BUSY. -/
  | mailboxGo
  /-- MBX_HOST_STOP (R347): Mailbox command 0x01 raises HOST_STOP. -/
  | mbxHostStop (t : DWord)
  /-- MBX_HOLD_END (R347): Mailbox command 0x02 ends a hold. -/
  | mbxHoldEnd (t : DWord)
  /-- MBX_ECHO (R347): Mailbox command 0x03 echoes its arguments. -/
  | mbxEcho
  /-- MBX_PROGRAM (R347): Mailbox commands 0x80 to 0xFF go to the safety program. -/
  | mbxProgram (result : BitVec 16) (r0 r1 r2 r3 : Word)
  /-- MBX_UNKNOWN (R347): Any other mailbox command completes with 0xFFFF. -/
  | mbxUnknown
  /-- PROGRAM_FAULT_RAISE (R320): The safety program writes a program-defined fault to the raise register. -/
  | programFaultRaise (n : Fin 128) (cls : Fin 4) (hold : Bool) (t : DWord)
  /-- FAULT_QUEUE_POP (R346): The safety core pops the head record of the fault queue. -/
  | faultQueuePop
  /-- HALO_PERIOD_START (R354): Tick whose epoch is a multiple of HALODIV: joint latches cross into SAFE and a Halo period starts. -/
  | haloPeriodStart
  /-- ENC_PLAUS (R306): The plausibility count reaches PLAUSN and raises F3. -/
  | encPlaus (a : Fin 128) (t : DWord)
  /-- HALO_TICK_WINDOW (R21): An interval between Halo-period markers falls outside 0.90 to 1.10 × T_halo. -/
  | haloTickWindow (interval : Nat) (t : DWord)
  /-- HALO_COMPUTE (R355): The frame, pair and limit stages run and issue the limit set through the gate. -/
  | haloCompute (pairFail : Bool) (t : DWord)
  /-- HPUB_CHECK (R369): At the next period start the safety core accepts or rejects a published set. -/
  | hpubCheck (c : Fin 9) (t : DWord)
  /-- HALO_FRAME_SEND (R374): The records of period p are sent as duplicated parts on both channels. -/
  | haloFrameSend (t : DWord)
  /-- HALO_FRAME_RECEIVE (R375): The two copies of a Halo frame part are compared. -/
  | haloFrameReceive (cell part : Fin 16) (copyA copyB : Option SchedFrame) (t : DWord)
  /-- HALO_PERIOD_ACCEPT (R376): A sender's period is accepted or discarded at the end of its basic cycle. -/
  | haloPeriodAccept (cell : Fin 16) (t : DWord)
  /-- HALO_COPY_MISSING (R377): The per-channel miss count exceeds MISSMAX. -/
  | haloCopyMissing (cell : Fin 16) (t : DWord)
  /-- TELEGRAM_RECEIVE (R384): A safe telegram is checked and accepted, or discarded with a cause. -/
  | telegramReceive (bytes : List Byte) (srcIp : Word) (srcPort : Nat) (port : Fin 2) (rx : Word) (t : DWord)
  /-- SAFE_CONN_FAIL (R385): TEXP expires or errors reach ERRMAX, so the fail-safe volume or payload is installed. -/
  | safeConnFail (c : Fin 32) (t : DWord)
  /-- TELEGRAM_SEND (R387): A transmit connection sends one telegram every PERIOD ms. -/
  | telegramSend (k : Fin 8) (ts : Word) (payload : List Byte)
  /-- SAFE_TIME_INVALID (R382): Plant time of a port becomes invalid. -/
  | safeTimeInvalid (port : Fin 2) (t : DWord)
  /-- LINK_DOWN (R409): A port falls to DOWN on loss of signal, missing comma or code violations. -/
  | linkDown (c : Channel) (p : LPort) (t : DWord)
  /-- TRAIN_SEND (R409): A DOWN port sends TRAIN for 10 µs every 1 ms. -/
  | trainSend (c : Channel) (p : LPort)
  /-- TRAIN_RECEIVE (R409): TRAIN is received and the port enters TRAIN. -/
  | trainReceive (c : Channel) (p : LPort)
  /-- LINK_MEASURE (R409): 1 024 valid symbols with TRAIN seen move the port to MEASURE. -/
  | linkMeasure (c : Channel) (p : LPort)
  /-- LINK_READY (R409): After 16 delay samples the port enters READY at the next matrix start. -/
  | linkReady (c : Channel) (p : LPort) (t : DWord)
  /-- MER_RETRAIN (R409): MER_CTRL.RETRAIN forces a port to DOWN. -/
  | merRetrain (mask : BitVec 4) (t : DWord)
  /-- MER_PORTDIS (R409): MER_CTRL.PORTDIS holds a port BLOCKED, or releases it. -/
  | merPortdis (mask : BitVec 4) (t : DWord)
  /-- COLDSTART_LISTEN_END (R400): A permitted controller's listen ends without sync and it sends COLDSTART. -/
  | coldstartListenEnd (t : DWord)
  /-- COLDSTART_RECEIVE (R400): A COLDSTART frame is compared by key, or recognised as a beacon. -/
  | coldstartReceive (c : Channel) (p : LPort) (f : LinkFrame) (t : DWord)
  /-- COLDSTART_WINDOW_END (R400): The contender's 50 µs window ends, and it becomes lodestar, loading Sidereal time. -/
  | coldstartWindowEnd (t : DWord) (asTime : Option DWord)
  /-- LODESTAR_BEACON (R401): The lodestar floods a COLDSTART beacon at every BC = 0. -/
  | lodestarBeacon (t : DWord)
  /-- MER_NO_LODESTAR (R402): No sync 1 s after stage 7 began. -/
  | merNoLodestar (t : DWord)
  /-- DELAY_REQ_SEND (R403): The downstream node sends DELAY_REQ once per basic cycle. -/
  | delayReqSend (c : Channel) (p : LPort) (t1 : DWord)
  /-- DELAY_REQ_RECEIVE (R403): The upstream node answers with DELAY_RESP carrying T2 and T3. -/
  | delayReqReceive (c : Channel) (p : LPort) (f : LinkFrame) (t2 t3 : DWord)
  /-- DELAY_RESP_RECEIVE (R403): The requester adds a link delay sample. -/
  | delayRespReceive (c : Channel) (p : LPort) (f : LinkFrame) (t4 : DWord)
  /-- SYNC_SEND (R421): The lodestar sends the sync frame at t0(n) on every READY port. -/
  | syncSend (t : DWord) (asTime : Option DWord := none)
  /-- SYNC_RECEIVE (R404): Sync arrives, and the node forms the offset and corrects its rate. -/
  | syncReceive (c : Channel) (p : LPort) (f : SchedFrame) (t : DWord)
  /-- SYNC_DEGRADED (R50): The offset exceeds ±200 ns in 8 consecutive cycles. -/
  | syncDegraded
  /-- SIDEREAL_HOLDOVER (R50): No sync in 4 consecutive basic cycles. -/
  | siderealHoldover
  /-- SIDEREAL_LOST (R50): 64 basic cycles spent in HOLDOVER. -/
  | siderealLost
  /-- SYNC_RELOCK (R51): Return to LOCKED after 64 good cycles, or when sync resumes within ±1 µs. -/
  | syncRelock
  /-- ENUM_RECEIVE (R407): An ENUM frame sets HOPS, POS and path delay and is passed on. -/
  | enumReceive (c : Channel) (p : LPort) (f : LinkFrame) (t : DWord)
  /-- CTRL_REPORT_RECEIVE (R407): The lodestar records a controller report. -/
  | ctrlReportReceive (c : Channel) (p : LPort) (f : LinkFrame) (t : DWord)
  /-- CONTROLLER_ASSIGN (R408): Two matrix cycles after the last report, the lodestar floods ASSIGN frames. -/
  | controllerAssign (t : DWord)
  /-- ASSIGN_RECEIVE (R408): A controller takes its number and starts addressing its segment. -/
  | assignReceive (c : Channel) (p : LPort) (f : LinkFrame) (t : DWord)
  /-- NODE_ADDR_RECEIVE (R408): A node in a pinned segment takes its address. -/
  | nodeAddrReceive (uid : BitVec 48) (f : LinkFrame)
  /-- ADDR_ACK_RECEIVE (R430): The controller records ADDR_ACK and loads the node's schedule. -/
  | addrAckReceive (c : Channel) (p : LPort) (f : LinkFrame) (t : DWord)
  /-- EVENT_FRAME (R426): An EVENT frame becomes a class 0x02 event through the gate. -/
  | eventFrame (ch : Channel) (f : SchedFrame) (t : DWord)
  /-- SERVICE_FRAME_RECEIVE (R426): A SERVICE frame for node parameters goes to the host queue. -/
  | serviceFrameReceive (ch : Channel) (f : SchedFrame) (addr t : DWord)
  /-- SCHEDLOAD_SEND (R430): The controller sends a node its schedule entries. -/
  | schedloadSend (node : BitVec 10) (ch : Channel)
  /-- SCHEDLOAD_RECEIVE (R430): A node stores a schedule that takes effect at ACTMATRIX. -/
  | schedloadReceive (uid : BitVec 48) (ch : Channel) (f : SchedFrame)
  /-- SCHEDACK_RECEIVE (R430): A node confirms its schedule load. -/
  | schedackReceive (ch : Channel) (f : SchedFrame) (t : DWord)
  /-- MER_SCHED_LOAD (R430): No SCHEDACK after 3 loads. -/
  | merSchedLoad (node : BitVec 10) (ch : Channel)
  /-- ARBITRATING_SEND (R433): A ready frame is sent in its minislot, or deferred. -/
  | arbitratingSend (ch : Channel) (seen : List (Nat × Nat))
  /-- MER_ARB_LATE (R434): A frame has stayed ready for 64 basic cycles. -/
  | merArbLate (ch : Channel) (fid : BitVec 12)
  /-- MER_CRC (R439): 16 CRC or ABORT discards on one channel in one matrix cycle. -/
  | merCrc (ch : Channel)
  /-- MER_CP_WRITE (R437): A write of MER_CPk is refused with REJ if OFFSET is too late. -/
  | merCpWrite (k : Fin 16) (v : Word)
  /-- MERIDIAN_CYCLE_POINT (R438): A Meridian cycle point fires and raises an MSI-X vector or a gate event. -/
  | meridianCyclePoint (k : Fin 16)
  /-- CAPTURE_ASSEMBLY (R445): The samples of tick n are assembled and the triggers evaluated. -/
  | captureAssembly
  /-- RECORD_CLOSE (R449): A record closes at its last sample and is measured. -/
  | recordClose (n : Byte)
  /-- CAP_FORCE (R447): Committed CAP_SETs.FORCE triggers at sample 0 of the commit tick. -/
  | capForce (k : Fin 4)
  /-- READOUT_GO (R454): CAP_RDCTRL.GO starts the readout DMA of a record. -/
  | readoutGo (n : Byte)
  /-- READOUT_DONE (R454): The readout DMA completes and sets DONE. -/
  | readoutDone (eccErr : Ecc) (t : DWord)
  /-- RECORD_RELEASE (R450): CAP_RDCTRL.RELEASE frees a record. -/
  | recordRelease (n : Byte)
  /-- STREAM_COPY (R463): A tick block or keyframe is copied into the host stream buffer. -/
  | streamCopy (err : Ecc := .clean)
  /-- STREAM_ENABLE (R463): A write of EPH_STRCTRL.EN = 1 resets PROD and CONS. -/
  | streamEnable
  /-- KEYFRAME_CAPTURE (R466): At an epoch multiple of KFINT, or at session start, a keyframe capture begins. -/
  | keyframeCapture
  /-- KEYFRAME_COMPLETE (R468): A keyframe's CRC is written and the slot becomes complete. -/
  | keyframeComplete (bytes : Nat)
  /-- EPH_KF_ABANDON (R467): The capture exceeds 8 MiB or fills the before-image buffer and is abandoned. -/
  | ephKfAbandon (t : DWord)
  /-- PIN_COMPLETE (R464): The pinned window reaches POSTPIN ticks after the reaction, or 24 MiB. -/
  | pinComplete
  /-- PIN_RELEASE (R464): EPH_PIN.RELEASE frees a complete pin. -/
  | pinRelease
  /-- REPLAY_START (R469): EPH_RPCTRL.START starts a replay, or is refused with a cause. -/
  | replayStart (image : Nat) (revOk profOk resOk : Bool)
  /-- REPLAY_TICK (R471): One replayed tick runs and its digests are compared. -/
  | replayTick
  /-- CLOCK_SOURCE_SWITCH (R480): MA, MB or HOST switches glitch-free between recovered clock, PLL and fallback. -/
  | clockSourceSwitch (d : Fin 3) (fallback : Bool)
  /-- CROSSING_RESYNC (R488): After a one-sided reset a crossing resynchronises, discarding entries. -/
  | crossingResync (dropped : Nat)
  /-- POWER_ON_RESET (R494): PORST_N or the rail thresholds reset every domain except AON. -/
  | powerOnReset (psel : Fin 4) (standby powerLoss aonLost : Bool)
  /-- WARM_RESET (R494): WRST_N, profile switch or DBG resets the device, keeping AON, line counts and Ephemeris. -/
  | warmReset (pin dbg : Bool) (hold : Bool)
  /-- WARM_RESET_REQUEST (R494): Host write of CLK_RESET with its key requests a warm reset. -/
  | warmResetRequest (key : BitVec 16)
  /-- BOOT_STAGE_COMPLETE (R497): A boot stage ends and the next begins, or the boot halts in BOOTFAIL. -/
  | bootStageComplete (cause : Nat) (det : Word) (corrupt : List Nat) (lockH : Bool) (t : DWord)
  /-- TICK_SEQUENCER_START (R497): The tick sequencer starts at the first boundary after LOCKED, and AUTOSTART cores start. -/
  | tickSequencerStart (t : DWord)
  /-- PROFILE_SWITCH (R499): CLK_PROFSEL.GO posts the journal INTERRUPTED and warm-resets into a new slot, or is refused. -/
  | profileSwitch (slot : Fin 4) (key : BitVec 16)
  /-- QUIET_REQUEST (R506): CLK_PWR.REQ = 1 stops the tick and gates CORE and CTL, or is refused. -/
  | quietRequest
  /-- DAWN_REQUEST (R508): CLK_PWR.REQ = 2 ungates the clocks and starts Dawn. -/
  | dawnRequest
  /-- STANDBY_REQUEST (R506): CLK_PWR.REQ = 3 writes the last-fault record and drives PWR_EN low, or is refused. -/
  | standbyRequest
  /-- WAKE (R543): WAKE_N low for 1 ms in Standby releases PWR_EN. -/
  | wake
  /-- VBAT_APPLY (R543): VBAT is first applied and PWR_EN is released. -/
  | vbatApply
  /-- HOST_RESET (R511): A PCI Express reset, FLR, D3hot or link-down resets the HOST domain only. -/
  | hostReset (linkDown : Bool) (t : DWord)
  /-- RING_DOORBELL (R519): A write of GLB_RINGDBr passes the gate and starts fetching entries, or is discarded with IDXERR. -/
  | ringDoorbell (r : Fin 4) (p : Word) (t : DWord)
  /-- RING_FETCH (R519): A fetched ring entry completes and becomes a source-5 gate input. -/
  | ringFetch (r : Fin 4) (bytes : List Byte) (t : DWord)
  /-- PLANT_COMMAND_DATAGRAM (R522): A qualifying UDP datagram is copied into PRING, or dropped. -/
  | plantCommandDatagram (port : Fin 2) (dstPort : Nat) (srcIp : Word) (bytes : List Byte) (t : DWord)
  /-- COMPLETION_POST (R523): A completion record is written to the host queue, or waits in the backlog. -/
  | completionPost
  /-- DMA_SUSPEND (R527): A DMA error suspends an engine and raises vector 7. -/
  | dmaSuspend (e : Fin 12) (err : Nat) (t : DWord)
  /-- DMA_RESUME (R527): Clearing the engine's GLB_DMAERR bit resumes it. -/
  | dmaResume (mask : BitVec 12)
  /-- PLANT_FRAME_RECEIVE (R529): A plant frame goes to a PRX descriptor, or is discarded. -/
  | plantFrameReceive (port : Fin 2) (bytes : List Byte) (addr : DWord)
  /-- PLANT_FRAME_TRANSMIT (R529): A PTX descriptor sends a whole Ethernet frame. -/
  | plantFrameTransmit (port : Fin 2) (bytes : List Byte) (addr : DWord)
  /-- SERVICE_TRANSMIT (R529): An MTX descriptor sends a SERVICE payload in the controller's window. -/
  | serviceTransmit (ch : Channel) (payload : List Byte) (addr : DWord)
  /-- FLASH_READ (R530): GLB_FLASH OP 1 reads 4 KiB into the staging buffer. -/
  | flashRead (key : BitVec 16)
  /-- FLASH_PROGRAM (R530): GLB_FLASH OP 2 programs one 256-byte page. -/
  | flashProgram (key : BitVec 16)
  /-- FLASH_ERASE (R530): GLB_FLASH OP 3 erases one 64 KiB sector. -/
  | flashErase (key : BitVec 16)
  /-- FLASH_DONE (R530): A flash command completes and BUSY clears. -/
  | flashDone (data : List Byte)
  /-- DBG_UNLOCK_GO (R532): DBG_UNLKGO submits the unlock record, which is accepted or refused. -/
  | dbgUnlockGo (keyOk sigOk : Bool) (t : DWord)
  /-- TAP_BYPASS (R531): JTAG BYPASS instruction. -/
  | tapBypass
  /-- TAP_IDCODE (R531): JTAG IDCODE instruction. -/
  | tapIdcode
  /-- TAP_DBGCHAL (R531): JTAG access to the debug challenge. -/
  | tapDbgchal (k : Fin 8)
  /-- TAP_DBGUNLOCK (R531): JTAG access to the unlock record. -/
  | tapDbgunlock (k : Fin 33) (v : Word)
  /-- SCAN_ENTRY (R533): Entry to boundary scan or memory self-test holds the device in warm reset. -/
  | scanEntry
  /-- COARSE_SIDEREAL_LOAD (R502): Every 1.024 s while LOCKED, the AON coarse Sidereal count is loaded from Sidereal time, never backwards. -/
  | coarseSiderealLoad (t : DWord)
  /-- PLANT_TIME_VALID (R382): A port's plant time copy becomes valid again once 802.1AS lock and rate agreement both hold, which ends the age-check failures on that port. -/
  | plantTimeValid (port : Fin 2)
  /-- FRAME_REPEAT (R392): A schedule frame or FLOOD link frame that arrives on one READY port is copied to the other port after RPTLAT, with ABORT on a CRC failure and duplicate FLOOD frames dropped. -/
  | frameRepeat (c : Channel) (p : LPort) (f : MerFrame)
  deriving DecidableEq, Repr

end Sys2Proof
end

