-- ==== Sys2Proof/WellFormed.lean ====
section
/-! DEFINITION. Which commands are well formed: what an operand's type alone does not say and the spec fixes for every
command of its kind. The meanings do not rely on it: a command that is not well formed has the effect its rule gives it. -/

namespace Sys2Proof

/-- A 4-byte access is aligned (R513). -/
def regOff4 (off : BitVec 25) : Bool := off.toNat % 4 == 0

/-- The payload of a schedule frame has 0 to 256 bytes (R419). -/
def schedOk (f : SchedFrame) : Bool := decide (f.payload.length ≤ 256)

/-- The payload of a link frame has 20 bytes, up to its CRC at 0x20 (R398). -/
def linkOk (f : LinkFrame) : Bool := f.payload.length == 20

def merOk (f : MerFrame) : Bool := match f with
  | .sched g => schedOk g
  | .link g => linkOk g

/-- The kinds of setpoint record are 0 to 6 (R424). -/
def sptOk (r : SptRec) : Bool := decide (r.kind.toNat ≤ 6)

/-- The fields that a tap instruction does not use are 0 (R286). -/
def TapOp.ok (t : TapOp) : Bool :=
  match t.src.val with
  | 0 => t.k == 0
  | 1 => t.ay == 0 && t.my == 0 && !t.ny
  | _ => t.ax == 0 && t.mx == 0 && !t.nx

/-- Well-formed commands: aligned register offsets (R10, R11, R513, R514), BAR2 accesses inside the window (R512), ring entries
of 64 bytes (R519), frames of a length their format has (R398, R419), SSI words of at most 64 bits (R295), setpoint kinds that
exist (R424), the bytes of a DMA error code (R527) and of a flash read (R530), and lane instructions
without a reserved encoding: tap instructions with their unused fields 0, lengths up to 2048, loops of at least one pass (R286,
R287). -/
def Instr.wf (i : Instr) : Bool :=
  match i with
  | .registerWrite _ off _ _ => regOff4 off
  | .shadowWrite _ off _ _ => regOff4 off
  | .commitGo _ _ _ => true
  | .lowWordRead _ off => off.toNat % 8 == 0
  | .lowWordWrite _ off _ => off.toNat % 8 == 0
  | .highWordWrite _ off _ _ => off.toNat % 8 == 4
  | .qwordAccess _ off _ _ => off.toNat % 8 == 0
  | .unmappedAccess _ _ _ _ => true
  | .bar2Write off bytes => decide (off.toNat + bytes.length ≤ 2 ^ 28)
  | .tickBoundary => true
  | .planPeriodStart => true
  | .cutover => true
  | .segaApply => true
  | .rampStopApply => true
  | .auxqApply => true
  | .signalDeliver => true
  | .jobAdmit => true
  | .jobStart => true
  | .jobEnd _ _ => true
  | .jobDelivery => true
  | .jobExpire _ => true
  | .jobCancelApply => true
  | .journalCommit => true
  | .jdoneCommit => true
  | .coreFreeze _ _ => true
  | .sharedSlotAccess _ => true
  | .cyclePointFire _ _ => true
  | .budgetOverrun _ => true
  | .waitWake _ => true
  | .waitlWake _ => true
  | .jwaitWake _ => true
  | .coreStart _ => true
  | .coreStop _ => true
  | .haltCleanup _ => true
  | .add _ _ _ _ => true
  | .sub _ _ _ _ => true
  | .andR _ _ _ _ => true
  | .orR _ _ _ _ => true
  | .xorR _ _ _ _ => true
  | .sll _ _ _ _ => true
  | .srl _ _ _ _ => true
  | .sra _ _ _ _ => true
  | .slt _ _ _ _ => true
  | .sltu _ _ _ _ => true
  | .min _ _ _ _ => true
  | .max _ _ _ _ => true
  | .minu _ _ _ _ => true
  | .maxu _ _ _ _ => true
  | .clz _ _ _ => true
  | .popc _ _ _ => true
  | .mul _ _ _ _ => true
  | .mulh _ _ _ _ => true
  | .mulhu _ _ _ _ => true
  | .div _ _ _ _ => true
  | .divu _ _ _ _ => true
  | .rem _ _ _ _ => true
  | .remu _ _ _ _ => true
  | .addi _ _ _ _ => true
  | .andi _ _ _ _ => true
  | .ori _ _ _ _ => true
  | .xori _ _ _ _ => true
  | .slli _ _ _ _ => true
  | .srli _ _ _ _ => true
  | .srai _ _ _ _ => true
  | .slti _ _ _ _ => true
  | .sltiu _ _ _ _ => true
  | .liw _ _ _ => true
  | .lis _ _ _ => true
  | .fadd _ _ _ _ => true
  | .fsub _ _ _ _ => true
  | .fmul _ _ _ _ => true
  | .fdiv _ _ _ _ => true
  | .fsqrt _ _ _ => true
  | .fmin _ _ _ _ => true
  | .fmax _ _ _ _ => true
  | .fsgnj _ _ _ _ => true
  | .fsgnjn _ _ _ _ => true
  | .fsgnjx _ _ _ _ => true
  | .feq _ _ _ _ => true
  | .flt _ _ _ _ => true
  | .fle _ _ _ _ => true
  | .fclass _ _ _ => true
  | .fcvtDL _ _ _ => true
  | .fcvtLD _ _ _ => true
  | .fcvtLDN _ _ _ => true
  | .fmvGF _ _ _ => true
  | .fmvFG _ _ _ => true
  | .fmadd _ _ _ _ _ => true
  | .fmsub _ _ _ _ _ => true
  | .fnmsub _ _ _ _ _ => true
  | .fnmadd _ _ _ _ _ => true
  | .lb _ _ _ _ _ => true
  | .lbu _ _ _ _ _ => true
  | .lh _ _ _ _ _ => true
  | .lhu _ _ _ _ _ => true
  | .lw _ _ _ _ _ => true
  | .lwu _ _ _ _ _ => true
  | .ld _ _ _ _ _ => true
  | .fld _ _ _ _ _ => true
  | .sb _ _ _ _ _ => true
  | .sh _ _ _ _ _ => true
  | .sw _ _ _ _ _ => true
  | .sd _ _ _ _ => true
  | .fsd _ _ _ _ => true
  | .amoswap _ _ _ _ _ => true
  | .amoadd _ _ _ _ _ => true
  | .amoand _ _ _ _ _ => true
  | .amoor _ _ _ _ _ => true
  | .amomax _ _ _ _ _ => true
  | .amomin _ _ _ _ _ => true
  | .amocas _ _ _ _ _ => true
  | .beq _ _ _ _ => true
  | .bne _ _ _ _ => true
  | .blt _ _ _ _ => true
  | .bge _ _ _ _ => true
  | .bltu _ _ _ _ => true
  | .bgeu _ _ _ _ => true
  | .jal _ _ _ => true
  | .jalr _ _ _ _ => true
  | .csrr _ _ _ => true
  | .csrw _ _ _ _ => true
  | .csrs _ _ _ _ => true
  | .csrc _ _ _ _ => true
  | .poll _ _ => true
  | .waitt _ _ => true
  | .waitp _ _ => true
  | .waite _ _ => true
  | .signal _ _ _ => true
  | .eret _ => true
  | .trap _ _ _ => true
  | .flowsig _ _ => true
  | .segq _ _ _ _ => true
  | .sega _ _ _ _ => true
  | .segclr _ _ => true
  | .cut _ _ => true
  | .segstat _ _ => true
  | .stop _ _ _ => true
  | .auxq _ _ _ _ _ => true
  | .waitl _ _ _ _ _ => true
  | .job _ _ _ _ => true
  | .jwait _ _ _ _ => true
  | .jstat _ _ _ => true
  | .jcancel _ _ _ => true
  | .hpub _ _ _ _ _ _ => true
  | .apub _ _ _ _ _ _ => true
  | .rtake _ _ _ _ => true
  | .jrec _ _ _ _ _ => true
  | .jdone _ _ _ _ => true
  | .jnext _ _ _ => true
  | .profq _ _ _ => true
  | .capq _ _ _ => true
  | .lineEdge _ _ _ _ => true
  | .lineFault _ => true
  | .lineIndex _ _ _ => true
  | .lineLatch _ _ => true
  | .lineIdleLatch => true
  | .linClrFault _ _ => true
  | .clrUncert _ => true
  | .clrQerr _ => true
  | .linSiderealRead _ _ => true
  | .ssiFrameStart _ _ _ => true
  | .ssiWord _ bits _ _ => decide (bits.length ≤ 64)
  | .feedbackFrame _ f _ => schedOk f
  | .gatherEnd => true
  | .extrapolatePhase => true
  | .standstillTimeout _ => true
  | .fbkTimeout _ => true
  | .handoverEnd _ => true
  | .dwellExpire _ => true
  | .rampStopRest _ => true
  | .auxStall _ => true
  | .auxStopDone _ => true
  | .clrStall _ => true
  | .stepBatch _ => true
  | .axisCascade _ => true
  | .manualEnter _ => true
  | .bumplessTransfer _ => true
  | .clrInt _ => true
  | .ctlClrFault _ => true
  | .setpointSend _ => true
  | .setpointApply recs => recs.all sptOk
  | .setpointLoss recs => recs.all sptOk
  | .almanacPublish => true
  | .almanacPush _ => true
  | .lanePass _ _ => true
  | .laneOverrun _ => true
  | .laneStart _ => true
  | .laneStop _ => true
  | .lanePatch => true
  | .tmpy _ _ t => t.ok
  | .tmac _ _ t => t.ok
  | .tmsu _ _ t => t.ok
  | .lanePut _ _ _ _ => true
  | .laneGet _ _ _ _ => true
  | .laneAdd _ _ _ _ => true
  | .idx _ _ _ _ => true
  | .laneClr _ _ => true
  | .lds _ _ _ => true
  | .seta _ _ _ => true
  | .setm _ _ _ => true
  | .setl _ _ v => decide (v.toNat ≤ 2048)
  | .sets _ _ _ => true
  | .rpt _ count len => count != 0 && len != 0
  | .laneBr _ _ _ _ => true
  | .laneEnd _ => true
  | .faultReport n _ => decide (1 ≤ n)
  | .faultDequeue => true
  | .stoEntry _ => true
  | .duskRest _ => true
  | .duskTimeout _ => true
  | .holdEnd _ => true
  | .wdogService _ _ => true
  | .wdogExpired _ => true
  | .wdogStoDelay => true
  | .stoReadback _ => true
  | .resetEdge _ _ _ => true
  | .resetStuck _ => true
  | .resetEdgeEvaluate _ => true
  | .safeInputChange _ _ => true
  | .sinDisc _ _ => true
  | .testPulse _ _ _ _ => true
  | .estopChange _ _ _ => true
  | .estopDisc _ => true
  | .soutWrite _ => true
  | .darkPulse _ => true
  | .soutReadback _ _ _ => true
  | .marchSegment _ _ => true
  | .haloChunk _ _ => true
  | .diagLate _ _ => true
  | .flowdlExpire _ => true
  | .clkStop _ _ => true
  | .clkFreq _ _ => true
  | .voltMon _ => true
  | .tempWarn _ => true
  | .tempMon _ => true
  | .mailboxGo => true
  | .mbxHostStop _ => true
  | .mbxHoldEnd _ => true
  | .mbxEcho => true
  | .mbxProgram _ _ _ _ _ => true
  | .mbxUnknown => true
  | .programFaultRaise _ _ _ _ => true
  | .faultQueuePop => true
  | .haloPeriodStart => true
  | .encPlaus _ _ => true
  | .haloTickWindow _ _ => true
  | .haloCompute _ _ => true
  | .hpubCheck _ _ => true
  | .haloFrameSend _ => true
  | .haloFrameReceive _ _ copyA copyB _ => copyA.all schedOk && copyB.all schedOk
  | .haloPeriodAccept _ _ => true
  | .haloCopyMissing _ _ => true
  | .telegramReceive _ _ _ _ _ _ => true
  | .safeConnFail _ _ => true
  | .telegramSend _ _ _ => true
  | .safeTimeInvalid _ _ => true
  | .linkDown _ _ _ => true
  | .trainSend _ _ => true
  | .trainReceive _ _ => true
  | .linkMeasure _ _ => true
  | .linkReady _ _ _ => true
  | .merRetrain _ _ => true
  | .merPortdis _ _ => true
  | .coldstartListenEnd _ => true
  | .coldstartReceive _ _ f _ => linkOk f
  | .coldstartWindowEnd _ _ => true
  | .lodestarBeacon _ => true
  | .merNoLodestar _ => true
  | .delayReqSend _ _ _ => true
  | .delayReqReceive _ _ f _ _ => linkOk f
  | .delayRespReceive _ _ f _ => linkOk f
  | .syncSend _ _ => true
  | .syncReceive _ _ f _ => schedOk f
  | .syncDegraded => true
  | .siderealHoldover => true
  | .siderealLost => true
  | .syncRelock => true
  | .enumReceive _ _ f _ => linkOk f
  | .ctrlReportReceive _ _ f _ => linkOk f
  | .controllerAssign _ => true
  | .assignReceive _ _ f _ => linkOk f
  | .nodeAddrReceive _ f => linkOk f
  | .addrAckReceive _ _ f _ => linkOk f
  | .eventFrame _ f _ => schedOk f
  | .serviceFrameReceive _ f _ _ => schedOk f
  | .schedloadSend _ _ => true
  | .schedloadReceive _ _ f => schedOk f
  | .schedackReceive _ f _ => schedOk f
  | .merSchedLoad _ _ => true
  | .arbitratingSend _ _ => true
  | .merArbLate _ _ => true
  | .merCrc _ => true
  | .merCpWrite _ _ => true
  | .meridianCyclePoint _ => true
  | .captureAssembly => true
  | .recordClose _ => true
  | .capForce _ => true
  | .readoutGo _ => true
  | .readoutDone _ _ => true
  | .recordRelease _ => true
  | .streamCopy _ => true
  | .streamEnable => true
  | .keyframeCapture => true
  | .keyframeComplete _ => true
  | .ephKfAbandon _ => true
  | .pinComplete => true
  | .pinRelease => true
  | .replayStart _ _ _ _ => true
  | .replayTick => true
  | .clockSourceSwitch _ _ => true
  | .crossingResync _ => true
  | .powerOnReset _ _ _ _ => true
  | .warmReset _ _ _ => true
  | .warmResetRequest _ => true
  | .bootStageComplete _ _ _ _ _ => true
  | .tickSequencerStart _ => true
  | .profileSwitch _ _ => true
  | .quietRequest => true
  | .dawnRequest => true
  | .standbyRequest => true
  | .wake => true
  | .vbatApply => true
  | .hostReset _ _ => true
  | .ringDoorbell _ _ _ => true
  | .ringFetch _ bytes _ => bytes.length == 64
  | .plantCommandDatagram _ _ _ _ _ => true
  | .completionPost => true
  | .dmaSuspend _ err _ => decide (err < 256)
  | .dmaResume _ => true
  | .plantFrameReceive _ _ _ => true
  | .plantFrameTransmit _ _ _ => true
  | .serviceTransmit _ payload _ => decide (payload.length ≤ 256)
  | .flashRead _ => true
  | .flashProgram _ => true
  | .flashErase _ => true
  | .flashDone data => data.length == 0 || data.length == 4096
  | .dbgUnlockGo _ _ _ => true
  | .tapBypass => true
  | .tapIdcode => true
  | .tapDbgchal _ => true
  | .tapDbgunlock _ _ => true
  | .scanEntry => true
  | .coarseSiderealLoad _ => true
  | .plantTimeValid _ => true
  | .frameRepeat _ _ f => merOk f

end Sys2Proof
end

