-- ==== Sys2Proof/Decode.lean ====
section
/-! DEFINITION. The command that a word spells by the bits of the opcode table: the table gives no row bits, so no word spells
one (log entry 1). And the instruction words of the Malax cores (R99–R111, R115, R119, R553), which the code SRAM holds, and of
the filter lanes (R286, R287), which the profile supplies: total on every word, reserved encodings and non-zero unused fields
decoding to nothing. -/

namespace Sys2Proof

/-- The command spelled by `w` in `nbits` bits: none, for the table gives no row any bits. -/
def decodeTableWord (_nbits _w : Nat) : Option Instr := none

/-! ### The fields of a Malax word (R99) -/

/-- A register field whose lowest bit is `lo`: rd at 22, ra at 17, rb at 12, rc at 7. -/
def regField (w : Word) (lo : Nat) : Fin 32 := ⟨w.toNat / 2 ^ lo % 32, Nat.mod_lt _ (by decide)⟩

/-- The major group in [31:27]. -/
def groupField (w : Word) : Nat := w.toNat / 2 ^ 27
/-- func or imm12 in [11:0]. -/
def immField (w : Word) : BitVec 12 := w.setWidth 12
/-- imm22 in [21:0]. -/
def wideField (w : Word) : BitVec 22 := w.setWidth 22

/-- An instruction that leaves some fields unused decodes only where those are zero (R100). -/
def only (unused : Bool) (i : Instr) : Option Instr := if unused then some i else none

/-! ### The groups (R100–R111) -/

/-- Group 0x00 (R101): format R. -/
def decodeInt (c : Fin 10) (rd ra rb : Fin 32) (func : Nat) : Option Instr :=
  match func with
  | 0x000 => some (.add c rd ra rb)
  | 0x001 => some (.sub c rd ra rb)
  | 0x002 => some (.andR c rd ra rb)
  | 0x003 => some (.orR c rd ra rb)
  | 0x004 => some (.xorR c rd ra rb)
  | 0x005 => some (.sll c rd ra rb)
  | 0x006 => some (.srl c rd ra rb)
  | 0x007 => some (.sra c rd ra rb)
  | 0x008 => some (.slt c rd ra rb)
  | 0x009 => some (.sltu c rd ra rb)
  | 0x00A => some (.min c rd ra rb)
  | 0x00B => some (.max c rd ra rb)
  | 0x00C => some (.minu c rd ra rb)
  | 0x00D => some (.maxu c rd ra rb)
  | 0x010 => only (rb == 0) (.clz c rd ra)
  | 0x011 => only (rb == 0) (.popc c rd ra)
  | 0x020 => some (.mul c rd ra rb)
  | 0x021 => some (.mulh c rd ra rb)
  | 0x022 => some (.mulhu c rd ra rb)
  | 0x024 => some (.div c rd ra rb)
  | 0x025 => some (.divu c rd ra rb)
  | 0x026 => some (.rem c rd ra rb)
  | 0x027 => some (.remu c rd ra rb)
  | _ => none

/-- Group 0x01 (R101): format I; a shift amount lies in imm12[5:0]. -/
def decodeIntImm (c : Fin 10) (rd ra : Fin 32) (opx : Nat) (imm : BitVec 12) : Option Instr :=
  let sh : Bool := decide (imm.toNat < 64)
  match opx with
  | 0 => some (.addi c rd ra imm)
  | 1 => some (.andi c rd ra imm)
  | 2 => some (.ori c rd ra imm)
  | 3 => some (.xori c rd ra imm)
  | 4 => only sh (.slli c rd ra imm)
  | 5 => only sh (.srli c rd ra imm)
  | 6 => only sh (.srai c rd ra imm)
  | 7 => some (.slti c rd ra imm)
  | 8 => some (.sltiu c rd ra imm)
  | _ => none

/-- Group 0x04 (R104): format R. -/
def decodeFp (c : Fin 9) (rd ra rb : Fin 32) (func : Nat) : Option Instr :=
  match func with
  | 0x000 => some (.fadd c rd ra rb)
  | 0x001 => some (.fsub c rd ra rb)
  | 0x002 => some (.fmul c rd ra rb)
  | 0x003 => some (.fdiv c rd ra rb)
  | 0x004 => only (rb == 0) (.fsqrt c rd ra)
  | 0x005 => some (.fmin c rd ra rb)
  | 0x006 => some (.fmax c rd ra rb)
  | 0x008 => some (.fsgnj c rd ra rb)
  | 0x009 => some (.fsgnjn c rd ra rb)
  | 0x00A => some (.fsgnjx c rd ra rb)
  | 0x010 => some (.feq c rd ra rb)
  | 0x011 => some (.flt c rd ra rb)
  | 0x012 => some (.fle c rd ra rb)
  | 0x013 => only (rb == 0) (.fclass c rd ra)
  | 0x020 => only (rb == 0) (.fcvtDL c rd ra)
  | 0x021 => only (rb == 0) (.fcvtLD c rd ra)
  | 0x022 => only (rb == 0) (.fmvGF c rd ra)
  | 0x023 => only (rb == 0) (.fmvFG c rd ra)
  | 0x024 => only (rb == 0) (.fcvtLDN c rd ra)
  | _ => none

/-- Group 0x05 (R107): format R4; op 4 to 127 are reserved. -/
def decodeFma (c : Fin 9) (rd ra rb rc : Fin 32) (op : Nat) : Option Instr :=
  match op with
  | 0 => some (.fmadd c rd ra rb rc)
  | 1 => some (.fmsub c rd ra rb rc)
  | 2 => some (.fnmsub c rd ra rb rc)
  | 3 => some (.fnmadd c rd ra rb rc)
  | _ => none

/-- Group 0x08 (R108): format I; the safety core has no FLD (R115). -/
def decodeLoad (c : Fin 10) (p : Option (Fin 9)) (rd ra : Fin 32) (opx : Nat) (imm : BitVec 12) : Option Instr :=
  match opx with
  | 0 => some (.lb c rd ra imm .clean)
  | 1 => some (.lbu c rd ra imm .clean)
  | 2 => some (.lh c rd ra imm .clean)
  | 3 => some (.lhu c rd ra imm .clean)
  | 4 => some (.lw c rd ra imm .clean)
  | 5 => some (.lwu c rd ra imm .clean)
  | 6 => some (.ld c rd ra imm .clean)
  | 7 => p.map fun k => .fld k rd ra imm .clean
  | _ => none

/-- Group 0x09 (R108): format S, the data register in the place of rd; the safety core has no FSD (R115). -/
def decodeStore (c : Fin 10) (p : Option (Fin 9)) (rs ra : Fin 32) (opx : Nat) (imm : BitVec 12) : Option Instr :=
  match opx with
  | 0 => some (.sb c rs ra imm .clean)
  | 1 => some (.sh c rs ra imm .clean)
  | 2 => some (.sw c rs ra imm .clean)
  | 3 => some (.sd c rs ra imm)
  | 4 => p.map fun k => .fsd k rs ra imm
  | _ => none

/-- Group 0x0A (R109): format R. -/
def decodeAmo (c : Fin 9) (rd ra rb : Fin 32) (func : Nat) : Option Instr :=
  match func with
  | 0 => some (.amoswap c rd ra rb .clean)
  | 1 => some (.amoadd c rd ra rb .clean)
  | 2 => some (.amoand c rd ra rb .clean)
  | 3 => some (.amoor c rd ra rb .clean)
  | 4 => some (.amomax c rd ra rb .clean)
  | 5 => some (.amomin c rd ra rb .clean)
  | 6 => some (.amocas c rd ra rb .clean)
  | _ => none

/-- Group 0x0B (R110): format B, the condition in the place of rd. -/
def decodeBranch (c : Fin 10) (cond : Nat) (ra rb : Fin 32) (imm : BitVec 12) : Option Instr :=
  match cond with
  | 0 => some (.beq c ra rb imm)
  | 1 => some (.bne c ra rb imm)
  | 2 => some (.blt c ra rb imm)
  | 3 => some (.bge c ra rb imm)
  | 4 => some (.bltu c ra rb imm)
  | 5 => some (.bgeu c ra rb imm)
  | _ => none

/-- Group 0x0E (R111, R115, R116): format I; opx 11, 12 and 14 to 31 are reserved, and 13 is defined only for Malax-S. -/
def decodeSys (c : Fin 10) (p : Option (Fin 9)) (rd ra : Fin 32) (opx : Nat) (imm : BitVec 12) : Option Instr :=
  let bare : Bool := ra == 0 && imm == 0
  match opx with
  | 0 => only (ra == 0) (.csrr c rd imm)
  | 1 => some (.csrw c rd ra imm)
  | 2 => some (.csrs c rd ra imm)
  | 3 => some (.csrc c rd ra imm)
  | 4 => p.bind fun k => only bare (.poll k rd)
  | 5 => p.bind fun k => only bare (.waitt k rd)
  | 6 => only bare (.waitp c rd)
  | 7 => p.bind fun k => only bare (.waite k rd)
  | 8 => p.bind fun k => only (rd == 0 && decide (imm.toNat < 16)) (.signal k ra imm)
  | 9 => only (rd == 0 && bare) (.eret c)
  | 10 => only (rd == 0 && ra == 0) (.trap c imm .clean)
  | 13 => if p.isNone then only (rd == 0 && ra == 0) (.flowsig c imm) else none
  | _ => none

/-- Groups 0x10 to 0x15 (R119, R124–R142, R553): format R. -/
def decodeCell (c : Fin 9) (group : Nat) (rd ra rb : Fin 32) (func : BitVec 12) : Option Instr :=
  match group, func.toNat with
  | 0x10, 0 => only (rb == 0) (.segq c rd ra .clean)
  | 0x10, 1 => only (rb == 0) (.sega c rd ra .clean)
  | 0x10, 2 => only (ra == 0 && rb == 0) (.segclr c rd)
  | 0x10, 3 => only (ra == 0 && rb == 0) (.cut c rd)
  | 0x10, 4 => only (ra == 0 && rb == 0) (.segstat c rd)
  | 0x10, 5 => only (rb == 0) (.stop c rd ra)
  | 0x10, 8 => some (.auxq c rd ra rb .clean)
  | 0x11, f => only (decide (f < 16)) (.waitl c rd ra rb func)
  | 0x12, 0 => only (rb == 0) (.job c rd ra .clean)
  | 0x12, 1 => some (.jwait c rd ra rb)
  | 0x12, 2 => only (rb == 0) (.jstat c rd ra)
  | 0x12, 3 => only (rb == 0) (.jcancel c rd ra)
  | 0x13, f => only (decide (f < 2)) (.hpub c rd ra rb func .clean)
  | 0x14, 0 => some (.apub c rd ra rb func .clean)
  | 0x15, 0 => some (.rtake c rd ra rb)
  | 0x15, 1 => some (.jrec c rd ra rb .clean)
  | 0x15, 2 => some (.jdone c rd ra rb)
  | 0x15, 3 => only (rb == 0) (.jnext c rd ra)
  | _, _ => none

/-- Group 0x16 (R119, R143): format I; ra must be 0. -/
def decodeQuery (c : Fin 9) (rd ra : Fin 32) (opx : Nat) (imm : BitVec 12) : Option Instr :=
  match opx with
  | 0 => only (ra == 0) (.profq c rd imm)
  | 1 => only (ra == 0) (.capq c rd imm)
  | _ => none

/-- The planner core of a core number; the safety core, number 9, is none. -/
def plannerOf (c : Fin 10) : Option (Fin 9) := if h : c.val < 9 then some ⟨c.val, h⟩ else none

/-- The instruction that a code word is on a core (R99, R100, R115); none where it raises ILLEGAL. The errors that a memory
operand may meet are no part of the word. -/
def decodeMalax (c : Fin 10) (w : Word) : Option Instr :=
  let rd := regField w 22
  let ra := regField w 17
  let rb := regField w 12
  let imm := immField w
  let p := plannerOf c
  let g := groupField w
  match g with
  | 0x00 => decodeInt c rd ra rb imm.toNat
  | 0x01 => decodeIntImm c rd ra rb.val imm
  | 0x02 => some (.liw c rd (wideField w))
  | 0x03 => some (.lis c rd (wideField w))
  | 0x04 => p.bind fun k => decodeFp k rd ra rb imm.toNat
  | 0x05 => p.bind fun k => decodeFma k rd ra rb (regField w 7) (w.toNat % 128)
  | 0x08 => decodeLoad c p rd ra rb.val imm
  | 0x09 => decodeStore c p rd ra rb.val imm
  | 0x0A => p.bind fun k => decodeAmo k rd ra rb imm.toNat
  | 0x0B => decodeBranch c rd.val ra rb imm
  | 0x0C => some (.jal c rd (wideField w))
  | 0x0D => only (rb == 0) (.jalr c rd ra imm)
  | 0x0E => decodeSys c p rd ra rb.val imm
  | 0x16 => p.bind fun k => decodeQuery k rd ra rb.val imm
  | _ => p.bind fun k => decodeCell k g rd ra rb imm

/-- A word that is an instruction of the planner cores and is outside the Malax-S subset (R115). -/
def outsideMalaxS (w : Word) : Bool := (decodeMalax 0 w).isSome && (decodeMalax 9 w).isNone

/-! ### The words of the filter lanes (R286, R287) -/

/-- A field of a lane word: `n` bits from bit `lo` up. -/
def laneField (w : Word) (lo n : Nat) : Nat := w.toNat / 2 ^ lo % 2 ^ n
def laneFin8 (w : Word) (lo : Nat) : Fin 8 := ⟨w.toNat / 2 ^ lo % 8, Nat.mod_lt _ (by decide)⟩
def laneFin4 (w : Word) (lo : Nat) : Fin 4 := ⟨w.toNat / 2 ^ lo % 4, Nat.mod_lt _ (by decide)⟩
def laneFin32 (w : Word) (lo : Nat) : Fin 32 := ⟨w.toNat / 2 ^ lo % 32, Nat.mod_lt _ (by decide)⟩
def laneBit (w : Word) (i : Nat) : Bool := w.getLsbD i
/-- The accumulator a word names in a bit. -/
def laneAcc (w : Word) (i : Nat) : Fin 2 := if w.getLsbD i then 1 else 0

/-- The operands of a format T word: SRC 0b11, a non-zero reserved byte or a non-zero unused field is reserved. -/
def laneTap (w : Word) : Option TapOp :=
  let src := laneField w 24 2
  if h : src < 3 then
    let t : TapOp := ⟨⟨src, h⟩, laneFin4 w 22, laneFin8 w 19, laneFin8 w 16, laneBit w 15, laneFin8 w 12, laneFin8 w 9, laneBit w 8⟩
    if laneField w 0 8 = 0 && t.ok then some t else none
  else none

/-- The memory operand of a format A word. -/
def laneMem (w : Word) : MemOp := ⟨laneBit w 25, laneFin8 w 22, laneFin8 w 19, laneBit w 18⟩

/-- The shift of GET and ADD, 0 to 23. -/
def laneShift24 (w : Word) : Option (Fin 24) := let s := laneField w 13 5; if h : s < 24 then some ⟨s, h⟩ else none

/-- The instruction of lane `l` that a program word is; none for a reserved encoding (R275, R286, R287). -/
def decodeLane (l : Fin 32) (w : Word) : Option Instr :=
  let f := laneField w
  let reg := laneFin8 w 22
  let low (n : Nat) : BitVec n := w.setWidth n
  match f 27 5 with
  | 0x00 => (laneTap w).map fun t => .tmpy l (laneAcc w 26) t
  | 0x01 => (laneTap w).map fun t => .tmac l (laneAcc w 26) t
  | 0x02 => (laneTap w).map fun t => .tmsu l (laneAcc w 26) t
  | 0x08 => only (f 0 13 == 0) (.lanePut l (laneAcc w 26) (laneMem w) (laneFin32 w 13))
  | 0x09 => (laneShift24 w).bind fun s => only (f 0 13 == 0) (.laneGet l (laneAcc w 26) (laneMem w) s)
  | 0x0A => (laneShift24 w).bind fun s => only (f 0 13 == 0) (.laneAdd l (laneAcc w 26) (laneMem w) s)
  | 0x0B => only (!laneBit w 25 && f 18 4 == 0 && f 0 13 == 0) (.idx l (laneAcc w 26) reg (laneFin32 w 13))
  | 0x0C => only (f 0 26 == 0) (.laneClr l (laneAcc w 26))
  | 0x0D => only (!laneBit w 26 && f 13 5 == 0 && f 0 11 == 0) (.lds l (laneMem w) (laneFin4 w 11))
  | 0x10 => only (f 25 2 == 0 && f 11 11 == 0) (.seta l reg (low 11))
  | 0x11 => only (f 25 2 == 0 && f 12 10 == 0) (.setm l reg (low 12))
  | 0x12 => only (f 25 2 == 0 && f 12 10 == 0 && decide (f 0 12 ≤ 2048)) (.setl l reg (low 12))
  | 0x13 => only (f 24 3 == 0 && f 16 6 == 0) (.sets l (laneFin4 w 22) (low 16))
  | 0x14 => only (f 22 5 == 0 && f 11 11 != 0 && f 0 11 != 0) (.rpt l (BitVec.ofNat 11 (f 11 11)) (low 11))
  | 0x15 =>
    let c := f 24 3
    if h : c < 5 then only (!laneBit w 22 && f 11 11 == 0) (.laneBr l ⟨c, h⟩ (laneAcc w 23) (low 11)) else none
  | 0x17 => only (f 0 27 == 0) (.laneEnd l)
  | _ => none

end Sys2Proof
end

