-- ==== Sys2Proof/Machine/F64.lean ====
section
/-! DEFINITION. IEEE 754 binary64 as the planner cores, the trajectory generators and the solver use it
(R6, R104–R107): exact integer arithmetic on significand and exponent, one rounding at the end, to nearest,
ties to even, tininess detected after rounding. Also the narrowing to binary32 of the Almanac and safety words. -/

namespace Sys2Proof.Machine

/-- The five sticky exception bits of FFLAGS: [4] NV, [3] DZ, [2] OF, [1] UF, [0] NX (R98). -/
abbrev FFlags := BitVec 5

def flagNV : FFlags := 16
def flagDZ : FFlags := 8
def flagOF : FFlags := 4
def flagUF : FFlags := 2
def flagNX : FFlags := 1

/-- The canonical NaN of R104. -/
def f64NaN : DWord := 0x7FF8000000000000
def f64Inf (neg : Bool) : DWord := if neg then 0xFFF0000000000000 else 0x7FF0000000000000
def f64Zero (neg : Bool) : DWord := if neg then 0x8000000000000000 else 0
def f64One : DWord := 0x3FF0000000000000

def f64Neg (x : DWord) : Bool := x.msb
def f64Exp (x : DWord) : Nat := (x.toNat / 2 ^ 52) % 2048
def f64Frac (x : DWord) : Nat := x.toNat % 2 ^ 52
def f64IsNaN (x : DWord) : Bool := f64Exp x == 2047 && f64Frac x != 0
def f64IsSNaN (x : DWord) : Bool := f64IsNaN x && f64Frac x < 2 ^ 51
def f64IsInf (x : DWord) : Bool := f64Exp x == 2047 && f64Frac x == 0
def f64IsZero (x : DWord) : Bool := x.toNat % 2 ^ 63 == 0
def f64IsFinite (x : DWord) : Bool := f64Exp x != 2047

/-- The significand of a finite number, an integer. -/
def f64Man (x : DWord) : Nat := if f64Exp x = 0 then f64Frac x else f64Frac x + 2 ^ 52
/-- The exponent of the significand's unit: the number is `f64Man x * 2 ^ f64Unit x`. -/
def f64Unit (x : DWord) : Int := if f64Exp x = 0 then -1074 else (f64Exp x : Int) - 1075
/-- The significand with its sign. -/
def f64SMan (x : DWord) : Int := if f64Neg x then -(f64Man x : Int) else f64Man x

/-- `m * 2 ^ e`, exactly, as a pair of numerator and power: shifting up to a common unit. -/
def shiftUp (m : Int) (k : Nat) : Int := m * (2 ^ k : Nat)

/-- Drops `k` low bits of `m`, rounding to nearest, ties to even; also whether anything was lost. -/
def roundShift (m k : Nat) : Nat × Bool :=
  let q := m >>> k
  let r := m % 2 ^ k
  let h := 2 ^ k / 2
  let up := k != 0 && (r > h || (r == h && q % 2 == 1))
  (if up then q + 1 else q, r != 0)

/-- Rounds `m * 2 ^ e` (with the sign given) once to binary64, with the flags of R104. -/
def f64Round (neg : Bool) (m : Nat) (e : Int) : DWord × FFlags :=
  if m = 0 then (f64Zero neg, 0)
  else
    let top : Int := (Nat.log2 m : Int) + e
    let unit : Int := max (top - 52) (-1074)
    let r := if unit ≤ e then (m * 2 ^ (e - unit).toNat, false) else roundShift m (unit - e).toNat
    let mag := (unit + 1074).toNat * 2 ^ 52 + r.1
    let free := if top - 52 ≤ e then (m, false) else roundShift m (top - 52 - e).toNat
    let tiny := top < -1023 || (top == -1023 && free.1 < 2 ^ 53)
    let sgn := if neg then 2 ^ 63 else 0
    if mag ≥ 2047 * 2 ^ 52 then (f64Inf neg, flagOF ||| flagNX)
    else (BitVec.ofNat 64 (sgn + mag), (if r.2 then flagNX else 0) ||| (if tiny && r.2 then flagUF else 0))

/-- Rounds a signed exact value. A zero value takes the sign given. -/
def f64RoundInt (zeroNeg : Bool) (v : Int) (e : Int) : DWord × FFlags :=
  if v = 0 then (f64Zero zeroNeg, 0) else f64Round (v < 0) v.natAbs e

/-- NV when an operand is a signalling NaN. -/
def f64SigFlag (x y : DWord) : FFlags := if f64IsSNaN x || f64IsSNaN y then flagNV else 0

/-- FADD (R104). -/
def f64Add (x y : DWord) : DWord × FFlags :=
  if f64IsNaN x || f64IsNaN y then (f64NaN, f64SigFlag x y)
  else if f64IsInf x then
    if f64IsInf y && f64Neg x != f64Neg y then (f64NaN, flagNV) else (x, 0)
  else if f64IsInf y then (y, 0)
  else
    let u := min (f64Unit x) (f64Unit y)
    let v := shiftUp (f64SMan x) (f64Unit x - u).toNat + shiftUp (f64SMan y) (f64Unit y - u).toNat
    f64RoundInt (f64Neg x && f64Neg y) v u

def f64Negate (x : DWord) : DWord := x ^^^ 0x8000000000000000
def f64Abs (x : DWord) : DWord := x &&& 0x7FFFFFFFFFFFFFFF

/-- FSUB: a NaN operand keeps its signalling flag; otherwise the sum with the second sign inverted. -/
def f64Sub (x y : DWord) : DWord × FFlags :=
  if f64IsNaN x || f64IsNaN y then (f64NaN, f64SigFlag x y) else f64Add x (f64Negate y)

/-- FMUL. -/
def f64Mul (x y : DWord) : DWord × FFlags :=
  let neg := f64Neg x != f64Neg y
  if f64IsNaN x || f64IsNaN y then (f64NaN, f64SigFlag x y)
  else if f64IsInf x || f64IsInf y then
    if f64IsZero x || f64IsZero y then (f64NaN, flagNV) else (f64Inf neg, 0)
  else f64Round neg (f64Man x * f64Man y) (f64Unit x + f64Unit y)

/-- FDIV: the quotient to more than 53 bits, with a sticky bit below it. -/
def f64Div (x y : DWord) : DWord × FFlags :=
  let neg := f64Neg x != f64Neg y
  if f64IsNaN x || f64IsNaN y then (f64NaN, f64SigFlag x y)
  else if f64IsInf x then
    if f64IsInf y then (f64NaN, flagNV) else (f64Inf neg, 0)
  else if f64IsInf y then (f64Zero neg, 0)
  else if f64IsZero y then
    if f64IsZero x then (f64NaN, flagNV) else (f64Inf neg, flagDZ)
  else
    let n := f64Man x * 2 ^ 118
    let q := n / f64Man y
    let sticky := if n % f64Man y = 0 then 0 else 1
    f64Round neg (2 * q + sticky) (f64Unit x - f64Unit y - 119)

/-- The integer square root, bit by bit from bit `k` down. -/
def isqrtFrom (n : Nat) : Nat → Nat → Nat
  | 0, r => if (r + 1) * (r + 1) ≤ n then r + 1 else r
  | k + 1, r =>
    let r' := r + 2 ^ (k + 1)
    isqrtFrom n k (if r' * r' ≤ n then r' else r)

/-- FSQRT: the root to more than 53 bits, with a sticky bit below it. -/
def f64Sqrt (x : DWord) : DWord × FFlags :=
  if f64IsNaN x then (f64NaN, f64SigFlag x x)
  else if f64IsZero x then (x, 0)
  else if f64Neg x then (f64NaN, flagNV)
  else if f64IsInf x then (x, 0)
  else
    let odd := f64Unit x % 2 != 0
    let n := f64Man x * 2 ^ (if odd then 121 else 120)
    let e := (f64Unit x - (if odd then 121 else 120)) / 2
    let r := isqrtFrom n 88 0
    let sticky := if r * r = n then 0 else 1
    f64Round false (2 * r + sticky) (e - 1)

/-- The fused multiply-add of R107: product and addend with the signs given, one rounding. -/
def f64Fma (negProd negAdd : Bool) (x y z : DWord) : DWord × FFlags :=
  let np := (f64Neg x != f64Neg y) != negProd
  let na := f64Neg z != negAdd
  let sig := if f64IsSNaN x || f64IsSNaN y || f64IsSNaN z then flagNV else 0
  if (f64IsInf x && f64IsZero y) || (f64IsZero x && f64IsInf y) then (f64NaN, flagNV)
  else if f64IsNaN x || f64IsNaN y || f64IsNaN z then (f64NaN, sig)
  else if f64IsInf x || f64IsInf y then
    if f64IsInf z && np != na then (f64NaN, flagNV) else (f64Inf np, 0)
  else if f64IsInf z then (f64Inf na, 0)
  else
    let up := f64Unit x + f64Unit y
    let u := min up (f64Unit z)
    let p : Int := shiftUp (f64Man x * f64Man y : Nat) (up - u).toNat
    let a : Int := shiftUp (f64Man z) (f64Unit z - u).toNat
    f64RoundInt (np && na) ((if np then -p else p) + (if na then -a else a)) u

/-- Total order of the non-NaN values with −0 = +0: the sign of `x − y`. -/
def f64Cmp (x y : DWord) : Ordering :=
  if f64IsZero x && f64IsZero y then .eq
  else if f64Neg x != f64Neg y then (if f64Neg x then .lt else .gt)
  else
    let o := compare (x.toNat % 2 ^ 63) (y.toNat % 2 ^ 63)
    if f64Neg x then o.swap else o

def f64Lt (x y : DWord) : Bool := !(f64IsNaN x || f64IsNaN y) && f64Cmp x y == .lt
def f64Le (x y : DWord) : Bool := !(f64IsNaN x || f64IsNaN y) && f64Cmp x y != .gt
def f64Eq (x y : DWord) : Bool := !(f64IsNaN x || f64IsNaN y) && f64Cmp x y == .eq

/-- FMIN and FMAX (R105): −0 below +0; a NaN gives way to a number; NV only for a signalling NaN. -/
def f64MinMax (isMax : Bool) (x y : DWord) : DWord × FFlags :=
  let fl := f64SigFlag x y
  if f64IsNaN x && f64IsNaN y then (f64NaN, fl)
  else if f64IsNaN x then (y, fl)
  else if f64IsNaN y then (x, fl)
  else
    let xLess := if f64IsZero x && f64IsZero y then f64Neg x else f64Cmp x y == .lt
    (if xLess != isMax then x else y, fl)

/-- FCLASS (R105). -/
def f64Class (x : DWord) : DWord :=
  if f64IsNaN x then (if f64IsSNaN x then 0x100 else 0x200)
  else if f64IsInf x then (if f64Neg x then 1 else 0x80)
  else if f64IsZero x then (if f64Neg x then 8 else 0x10)
  else if f64Exp x = 0 then (if f64Neg x then 4 else 0x20)
  else (if f64Neg x then 2 else 0x40)

/-- FCVT.D.L. -/
def f64OfInt (v : Int) : DWord × FFlags := f64RoundInt false v 0

/-- The exact integer nearest (ties to even) or toward zero of a finite number, and whether it is inexact. -/
def f64ToIntExact (nearest : Bool) (x : DWord) : Int × Bool :=
  let m := f64Man x
  let u := f64Unit x
  let r : Nat × Bool :=
    if 0 ≤ u then (m * 2 ^ u.toNat, false)
    else
      let k := (-u).toNat
      if nearest then roundShift m k else (m / 2 ^ k, m % (2 ^ k) != 0)
  ((if f64Neg x then -(r.1 : Int) else r.1), r.2)

/-- FCVT.L.D and FCVT.L.D.N (R106): a NaN gives 0, a value out of range saturates, both with NV. -/
def f64ToI64 (nearest : Bool) (x : DWord) : DWord × FFlags :=
  if f64IsNaN x then (0, flagNV)
  else if f64IsInf x then (if f64Neg x then 0x8000000000000000 else 0x7FFFFFFFFFFFFFFF, flagNV)
  else
    let r := f64ToIntExact nearest x
    if r.1 > 2 ^ 63 - 1 then (0x7FFFFFFFFFFFFFFF, flagNV)
    else if r.1 < -(2 ^ 63) then (0x8000000000000000, flagNV)
    else (BitVec.ofInt 64 r.1, if r.2 then flagNX else 0)

/-- The result of an operation without its flags, for the engines that keep no FFLAGS. -/
def fadd (x y : DWord) : DWord := (f64Add x y).1
def fsub (x y : DWord) : DWord := (f64Sub x y).1
def fmul (x y : DWord) : DWord := (f64Mul x y).1
def fdiv (x y : DWord) : DWord := (f64Div x y).1
def fsqrt (x : DWord) : DWord := (f64Sqrt x).1
def fofInt (v : Int) : DWord := (f64OfInt v).1
def fmin (x y : DWord) : DWord := (f64MinMax false x y).1
def fmax (x y : DWord) : DWord := (f64MinMax true x y).1
/-- A ratio of naturals, the way a decimal constant of the manual is rounded to binary64. -/
def fratio (n d : Nat) : DWord := fdiv (fofInt n) (fofInt d)
/-- The integer part toward minus infinity, of a finite number. -/
def ffloorInt (x : DWord) : Int :=
  let r := f64ToIntExact false x
  if r.2 && f64Neg x then r.1 - 1 else r.1

/-- Widens binary32 to binary64, exactly (a NaN becomes the canonical one). -/
def f32ToF64 (w : Word) : DWord :=
  let neg := w.msb
  let e : Nat := (w.toNat / 2 ^ 23) % 256
  let f : Nat := w.toNat % 2 ^ 23
  if e = 255 then (if f = 0 then f64Inf neg else f64NaN)
  else if e = 0 then (f64Round neg f (-149)).1
  else (f64Round neg (f + 2 ^ 23) ((e : Int) - 150)).1

/-- Narrows binary64 to binary32, to nearest, ties to even. -/
def f64ToF32 (x : DWord) : Word :=
  let sgn := if f64Neg x then 2 ^ 31 else 0
  if f64IsNaN x then 0x7FC00000
  else if f64IsInf x then BitVec.ofNat 32 (sgn + 255 * 2 ^ 23)
  else if f64Man x = 0 then BitVec.ofNat 32 sgn
  else
    let top : Int := (Nat.log2 (f64Man x) : Int) + f64Unit x
    let unit : Int := max (top - 23) (-149)
    let m := if unit ≤ f64Unit x then f64Man x * 2 ^ (f64Unit x - unit).toNat
      else (roundShift (f64Man x) (unit - f64Unit x).toNat).1
    BitVec.ofNat 32 (sgn + min ((unit + 149).toNat * 2 ^ 23 + m) (255 * 2 ^ 23))

end Sys2Proof.Machine
end

