-- ==== Sys2Proof/Config.lean ====
section
/-! DEFINITION. The free values: what the spec leaves open and the block still produces. Each is an opaque
constant with no body, applied to what it depends on, so nothing can evaluate it (log entries 4 to 8). -/

namespace Sys2Proof.Config

/-- The binary64 sine and cosine that the solver's forward kinematics uses: the spec gives no rounding (R211). -/
opaque sin64 : DWord → DWord
opaque cos64 : DWord → DWord

/-- The detail word of a fault whose raising rule names none (R344), by code and by the count of free values. -/
opaque faultDetail : Nat → Nat → Word

/-- What a load from a safety peripheral at an offset returns where the spec gives no register there (R346). -/
opaque periphRead : Nat → Nat → DWord

/-- A free value drawn by the count of free values. -/
opaque freeVal : Nat → DWord

/-- Whether a quotient that the spec gives in a unit, without a rounding, is rounded up. -/
opaque roundUp : Int → Nat → Bool

/-- Whether the solver fuses a product into the sum it enters: the spec gives the order of its sums (R205), not the
operations they are made of. -/
opaque solverFused : Bool

/-- The rotation vector of a rotation block, component by component (R237): the spec gives no formula. -/
opaque rotvec : List DWord → Nat → DWord

/-- Q-mode: which of the five exponents of the record (R246) an intermediate result takes for which the record names none,
by the intermediate's number. -/
opaque qExp : Nat → Nat

/-- Q-mode: whether a subtracted product is negated before it is aligned (R247 rounds ties toward +∞). -/
opaque qNegFirst : Bool

/-- Q-mode: the word that a division by a zero word gives, with the SATURATED bit above it, by the dividend. -/
opaque qDivZero : Int → BitVec 33

/-- Inverse dynamics: whether the external tool wrench of R214 acts on the arm (its torque is then subtracted), and whether
it is given in the tool frame. -/
opaque wrenchOnArm : Bool
opaque wrenchInTool : Bool

/-- The cell MPC (R212, R220, R238): whether its quadratic cost carries the factor one half, whether the state of a stage is
the one after the stage's input, whether a position band lies about the reference (else about 0), and where in a stage the
KKT ordering puts a row of a kind, with the padding ahead of a place of that order. -/
opaque mpcHalf : Bool
opaque mpcAfter : Bool
opaque mpcBandRef : Bool
opaque kktSlot : Nat → Nat
opaque kktPad : Nat → Nat

/-- A value that a solver job computes from an input block whose fields lie outside their ranges, and a byte it reads
beyond the block: a function of everything the job reads (R149, R205) and of the value's index. -/
opaque jobVal : List Nat → Nat → DWord

/-- Where within its tolerance of 0.2 mm the Halo frame stage places a coordinate (R357), by arm and period and by the
coordinate. -/
opaque haloErr : Nat → Nat → Int

/-- The measured speed of a capsule whose two latches bear one stamp (R363 divides by their difference), by period and
capsule. -/
opaque haloSpeed : Nat → Nat → Nat

/-- How far the CORE copy of Sidereal time lies from its nominal value at a cycle of a tick (R79), by epoch and cycle. -/
opaque coreClock : Nat → Nat → Int

/-- How far into the first microsecond of a tick the CORE cycle of step 2 lies (R87), by epoch. -/
opaque stepTwo : Nat → Nat

/-- How far into the boundary of a tick, at the latest at its step 2, step 1 stops the step channels (R26, R200), in ns. -/
opaque stepOne : Nat → Nat

/-- The challenge words of the debug unlock before the first one is drawn (R532): the device draws them at random. -/
opaque powerOnChal : Nat → Word

end Sys2Proof.Config
end

