-- ==== Sys2Proof/Machine/State.lean ====
section
/-! DEFINITION. The state of the block as plain data: everything the spec gives it, a queue of the commands that
are waiting, and the machine right after reset. Fields that are the model's own, not the spec's: `pending` (the
command queue), `outbox` (what the block has sent), `reports` (faults on their way to the fault queue) and `free`
(the counter that free values are drawn with). -/

namespace Sys2Proof.Machine

/-! ### Parts, access paths and memory -/

/-- The orderable parts of R2. -/
inductive Variant | a8128 | s8128 | s8064
  deriving DecidableEq, Repr

/-- The tick rates of R18. -/
inductive Rate | k4 | k8 | k16
  deriving DecidableEq, Repr, Inhabited

/-! ### The profile (R14–R16, R154, R180, R181, R209, R349–R353) -/

/-- A joint limit record (R154): counts, and binary32 words for the limits. -/
structure JointLim where
  qmin  : Int := 0
  qmax  : Int := 0
  vmax  : Word := 0
  amax  : Word := 0
  jmax  : Word := 0
  astop : Word := 0
  jstop : Word := 0
  deriving DecidableEq, Repr

/-- A joint record of an arm model (R209); all reals are binary64. -/
structure JointModel where
  prismatic : Bool := false
  cscale    : DWord := 0
  coffs     : Int := 0
  link      : List DWord := []
  axis      : List DWord := []
  mass      : DWord := 0
  com       : List DWord := []
  inertia   : List DWord := []
  rotor     : DWord := 0
  visc      : DWord := 0
  coul      : DWord := 0
  deriving DecidableEq, Repr

/-- One declared arm group: its joint channels, limits and model. `image` holds the bytes of the arm model as R209 lays
them out; where it is not empty, the load reads the model's fields from it. -/
structure ArmProf where
  joints : List (Fin 128) := []
  lims   : List JointLim := []
  image  : List Byte := []
  model  : List JointModel := []
  base   : List DWord := []
  tool   : List DWord := []
  pmass  : DWord := 0
  pcom   : List DWord := []
  deriving DecidableEq, Repr

/-- The three outputs of an auxiliary axis (R180). -/
inductive AuxOut | cascade | step (c : Fin 16) | node
  deriving DecidableEq, Repr

/-- An auxiliary axis with its output and its record of R181. -/
structure AuxProf where
  ax     : Fin 128
  out    : AuxOut
  qmin   : Int := 0
  qmax   : Int := 0
  vmax   : Word := 0
  amax   : Word := 0
  jmax   : Word := 0
  astop  : Word := 0
  jstop  : Word := 0
  holdv  : Word := 0
  encNum : Nat := 1
  encDen : Nat := 1
  deriving DecidableEq, Repr

/-- The profile entry of one line clock (R57, R63, R64, R68, R154). -/
structure LineProf where
  en      : Bool := false
  dir     : Bool := false
  idxMode : Nat := 0
  zqual   : BitVec 2 := 0
  tol     : Nat := 0
  period  : Nat := 0
  scale   : DWord := 0
  origin  : BitVec 64 := 0
  lvmax   : Word := 0
  deriving DecidableEq, Repr

/-- One route of an event class 0x01 to 0x03 (R86): the source it names, or every source. -/
structure EvRoute where
  cls    : Nat
  source : Option Nat
  core   : Fin 9
  deriving DecidableEq, Repr

/-- A matrix entry (R427), times in units of 8 ns: kind 0 cyclic, 1 polled, 2 arbitrating ownership. -/
structure MEntry where
  start  : Nat
  len    : Nat
  fid    : Nat
  sender : Nat
  replog : Nat
  base   : Nat
  kind   : Nat
  nfr    : Nat
  deriving DecidableEq, Repr

/-- An axis channel's place on a Meridian node: the node address, the AXIDX, and the table that carries its setpoints. -/
structure AxNode where
  ax   : Fin 128
  node : Nat
  idx  : Nat
  chB  : Bool := false
  deriving DecidableEq, Repr

/-- An I/O node: its address, where its image lies in data SRAM, its length in bytes, and its channel. -/
structure IoNode where
  node  : Nat
  image : Nat
  len   : Nat
  chB   : Bool := false
  deriving DecidableEq, Repr

/-- The Meridian part of a profile (R399, R403, R407, R408, R429): cold-start permission, a pinned number, the
asymmetry of each port (channel × 2 + port, in 1/16 ns), the pinned node addresses by UID, the first frame IDs of
the controller's HALO entries, and whether 802.1AS alignment is enabled (R48). -/
structure MerProf where
  permit    : Bool := false
  prio      : Nat := 0
  csaddr    : Nat := 0
  pin       : Option (Fin 16) := none
  pinMode   : Bool := false
  asym      : List Int := []
  nodeAddrs : List (BitVec 48 × Nat) := []
  haloFids  : List Nat := []
  asSteer   : Bool := false
  deriving DecidableEq, Repr, Inhabited

/-- A point in Q15.16 metres (R349). -/
structure V3 where
  x : Int := 0
  y : Int := 0
  z : Int := 0
  deriving DecidableEq, Repr

/-- A capsule record (R350): the link whose frame it lies in (0xFF the tool), its end points and its radius. -/
structure CapRec where
  link : Byte
  p0   : V3
  p1   : V3
  r    : Int
  deriving DecidableEq, Repr

/-- A shared zone (R353). -/
structure ZoneRec where
  excl  : Bool
  arms  : Byte
  cells : BitVec 16
  p0    : V3
  p1    : V3
  r     : Int
  deriving DecidableEq, Repr

/-- A cell that shares a zone with this one (R353): its CELLNO and how many Halo parts it sends. -/
structure NbrProf where
  cell   : Fin 16
  nparts : Nat
  deriving DecidableEq, Repr

/-- An external volume (R352): KIND 0 empty, 1 person, 2 object; VH in mm/s. -/
structure VolRec where
  kind : Nat := 0
  vh   : Nat := 0
  p0   : V3 := {}
  p1   : V3 := {}
  r    : Int := 0
  deriving DecidableEq, Repr

/-- A receive connection (R379), with the terms of R358 for its volumes in µm. -/
structure ConnProf where
  en      : Bool := false
  signal  : Bool := false
  port    : Fin 2 := 0
  connid  : Word := 0
  key     : Word := 0
  srcIp   : Word := 0
  srcPort : Nat := 0
  texp    : Nat := 0
  seqwin  : Nat := 0
  errmax  : Nat := 0
  recovn  : Nat := 0
  hold    : Bool := false
  f2      : Bool := false
  failpay : List Byte := []
  slots   : List (Fin 32) := []
  failvol : VolRec := {}
  cPerson : Nat := 0
  cObject : Nat := 0
  zd      : Nat := 0
  deriving DecidableEq, Repr

/-- A transmit connection (R387). -/
structure TxProf where
  port   : Fin 2 := 0
  connid : Word := 0
  key    : Word := 0
  period : Nat := 0
  deriving DecidableEq, Repr

/-- The safety part of a profile (R331, R336, R341), the Halo part (R349–R358) and the safe connections (R374–R387). -/
structure SafProf where
  tminMs   : Nat := 50
  tmaxMs   : Nat := 2000
  sincfg   : List Word := []
  stillv   : List Nat := []
  flowSeed : Word := 0
  flowRefs : List Word := []
  flowDl   : Nat := 0
  cellSite : List DWord := []
  caps     : List (List CapRec) := []
  astop    : List Nat := []
  zr       : List Nat := []
  vmaxc    : List Nat := []
  zones    : List ZoneRec := []
  cellNo   : Fin 16 := 0
  vtol     : Nat := 10
  tdrv     : Nat := 0
  vhminObj : Nat := 0
  caa      : Nat := 0
  nbrs     : List NbrProf := []
  hkey     : Word := 0
  missMax  : Nat := 1
  npart    : Nat := 1
  safePort : Nat := 0
  conns    : List ConnProf := []
  txs      : List TxProf := []
  deriving DecidableEq, Repr, Inhabited

/-- The active profile. The default value is the default profile of the register tables, which declares no arm,
no auxiliary axis and no line (log entry 2, DESIGN CHOICE). -/
structure Profile where
  slot      : Nat := 0
  magic     : Word := 0x4C445047
  format    : BitVec 16 := 1
  family    : BitVec 16 := 0x8128
  capReq    : Word := 0
  serial    : Word := 0
  rate      : Rate := .k8
  planDiv   : Nat := 8
  haloDiv   : Nat := 8
  priv64k   : Nat := 12
  arms      : List (Option ArmProf) := []
  aux       : List AuxProf := []
  lines     : List LineProf := []
  routes    : List EvRoute := []
  tDuskMs   : Nat := 0
  tHoldS    : Nat := 0
  slsMm     : Nat := 250
  wdDlyMs   : Nat := 0
  regInit   : List (Nat × Word) := []
  tabA      : List MEntry := []
  tabB      : List MEntry := []
  guard     : Nat := 0
  arbStart  : Nat := 0
  arbEnd    : Nat := 0
  msLen     : Nat := 0
  axNodes   : List AxNode := []
  toolNodes : List AxNode := []
  ioIns     : List IoNode := []
  ioOuts    : List IoNode := []
  mer       : MerProf := {}
  saf       : SafProf := {}
  gravity   : List DWord := []
  autostart : BitVec 9 := 0
  kfLog     : Nat := 13
  postPin   : Nat := 0
  pring     : Option (Fin 4) := none
  plantPort : Nat := 0
  plantIf   : Fin 2 := 0
  plantFrom : List Word := []
  dataImage : List (Nat × Byte) := []
  codeImage : List (Nat × Byte) := []
  safeCode  : List (Nat × Byte) := []
  laneImage : List (Nat × Nat × Nat × Nat) := []
  deriving DecidableEq, Repr, Inhabited

/-- Memory is a list of (address, byte) pairs in canonical form (`Memory.wf` in Machine/Ops.lean): addresses
strictly rising, no entry zero. A byte that nothing has written reads 0 (log entry 3, DESIGN CHOICE). -/
abbrev Memory := List Host.Cell

/-- A bank of 32-bit registers by BAR0 offset, offsets rising. -/
abbrev Bank := List (Nat × Word)

/-- The 64-bit read latch and write staging register of one access path (R10–R12). -/
structure PathLatch where
  readHigh  : Word := 0
  stagedLow : Word := 0
  deriving DecidableEq, Repr

/-- REJECT, REASON and MERGED of a PREFIX_COMMIT register (R36); PENDING is read from the gate queue. -/
structure CommitStat where
  reason : Byte := 0
  reject : Bool := false
  merged : Bool := false
  deriving DecidableEq, Repr

/-- The four safety states of R316 and the safety summary: 0 run, 1 Dusk, 2 hold, 3 STO. -/
inductive Safety | run | dusk | hold | sto
  deriving DecidableEq, Repr

/-- A fault on its way to the fault queue (R317, R318): its code in bits [13:0], its class 0 to 3, whether
an F2 permits the hold, its detection stamp and its detail word. -/
structure FaultRep where
  code   : Nat
  cls    : Nat
  hold   : Bool := false
  stamp  : DWord := 0
  detail : Word := 0
  deriving DecidableEq, Repr

/-- An event record of R85, field by field. `tick` and `rank` are the model's own: the boundary at which the record
became visible and its place in that boundary's order (0 gate, 1 signal, 2 cell event, 3 job delivery). -/
structure EvRec where
  cls    : Byte
  count  : Byte
  source : BitVec 16
  data   : Word
  tick   : Nat := 0
  rank   : Nat := 0
  deriving DecidableEq, Repr

/-! ### The Almanac (R30) -/

/-- An axis record of the Almanac. -/
structure AxisRec where
  act    : BitVec 64 := 0
  cmd    : BitVec 64 := 0
  vel    : Word := 0
  spt    : Word := 0
  err    : Word := 0
  status : BitVec 16 := 0
  mode   : Byte := 0
  deriving DecidableEq, Repr

/-- An arm record of the Almanac. -/
structure ArmRec where
  segId : Word := 0
  gen   : Word := 0
  line  : Byte := 0
  state : Byte := 0
  s     : DWord := 0
  sigma : DWord := 0
  vhalo : DWord := 0
  tcpX  : DWord := 0
  tcpY  : DWord := 0
  tcpZ  : DWord := 0
  deriving DecidableEq, Repr

/-- A line record of the Almanac. -/
structure LineRec where
  count  : BitVec 64 := 0
  time   : DWord := 0
  speed  : Word := 0
  uncert : BitVec 16 := 0
  qerr   : BitVec 16 := 0
  status : BitVec 16 := 0
  deriving DecidableEq, Repr

/-- The Almanac of one epoch, field by field; its bytes and its CRC are computed (Machine/Boundary.lean). -/
structure Almanac where
  epoch    : DWord := 0
  t0       : DWord := 0
  flags    : Word := 0
  planGen  : Word := 0
  rate     : Word := 0
  axes     : List AxisRec := []
  arms     : List ArmRec := []
  lines    : List LineRec := []
  safety   : Word := 0
  highest  : BitVec 16 := 0
  qdepth   : Byte := 0
  haloCnt  : Word := 0
  duskCnt  : BitVec 16 := 0
  limits   : List Word := []
  minsep   : List Word := []
  areas    : List (List Byte) := []
  jseq     : Word := 0
  ringCons : List Word := []
  deriving DecidableEq, Repr

/-- A push that is under way (R34, R46): the host slot and the bus address fixed when it started, and the Almanac that
it copies. -/
structure PushDma where
  slot : Nat
  addr : DWord
  alm  : Almanac
  deriving DecidableEq, Repr

/-! ### Planner cores and the safety core (R72–R118) -/

inductive CoreMode | stopped | running | waiting | halted
  deriving DecidableEq, Repr

/-- What a core in a wait instruction waits for, with the destination register and operands. -/
inductive Wait
  | tick (rd : Fin 32)
  | plan (rd : Fin 32)
  | event (rd : Fin 32)
  | line (rd : Fin 32) (n : Fin 8) (le : Bool) (target : DWord) (deadline : DWord)
  | job (rd : Fin 32) (handle : DWord) (deadline : DWord)
  deriving DecidableEq, Repr

/-- A register of a core, for the issue rules of R80 and R81. -/
inductive CReg | g (i : Fin 32) | f (i : Fin 32)
  deriving DecidableEq, Repr

/-- The issue classes of R80 and R81. -/
inductive IssClass
  | alu | mul | div | fp | fpShort | fdiv | fsqrt | load | store | atomic | branch | jal | jalr
  | sys | cell (cycles : Nat)
  deriving DecidableEq, Repr

/-- The older instruction of a possible pair: the cycle it issued in, its class and its destination. -/
structure SlotZero where
  cycle : Nat
  cls   : IssClass
  dst   : Option CReg
  deriving DecidableEq, Repr

/-- The operation of a shared access that waits for its slot. -/
inductive SharedOp
  | load (dst : CReg) (size : Nat) (signed : Bool)
  | store (size : Nat) (value : DWord)
  | amo (dst : Fin 32) (func : Nat) (value : DWord) (cmp : DWord)
  deriving DecidableEq, Repr

/-- A shared-region access waiting in the memory unit (R76): the data SRAM offset, the slot cycle, and whether the slot lies
in the next tick. An access whose word carries an uncorrectable error traps in its issue cycle and never waits (R95). -/
structure SharedAcc where
  op       : SharedOp
  addr     : DWord
  off      : Nat
  slot     : Nat
  nextTick : Bool
  epc      : DWord
  deriving DecidableEq, Repr

/-- One Malax core: index 0 to 8 a planner core, 9 the safety core (R72, R113). The model's own fields: the tick in
which a wait began (`waitFrom`), the boundaries at which the core was last woken and started, and the ring and the
index of its latest RTAKE (R473). -/
structure Core where
  mode      : CoreMode := .stopped
  wait      : Option Wait := none
  frozen    : Bool := false
  g         : Vector DWord 32 := Vector.replicate 32 0
  f         : Vector DWord 32 := Vector.replicate 32 0
  pc        : DWord := 0
  ie        : Bool := false
  pie       : Bool := false
  intrap    : Bool := false
  cause     : DWord := 0
  epc       : DWord := 0
  tval      : DWord := 0
  tvec      : DWord := 0
  scratch   : DWord := 0
  fflags    : BitVec 5 := 0
  iflags    : BitVec 2 := 0
  cpt       : Vector DWord 4 := Vector.replicate 4 0
  cptPend   : BitVec 4 := 0
  cptMiss   : BitVec 4 := 0
  cyc       : Nat := 0
  pair      : Option SlotZero := none
  pend      : List (CReg × Nat) := []
  memFree   : Nat := 0
  divFree   : Nat := 0
  fdivFree  : Nat := 0
  shared    : Option SharedAcc := none
  budget    : Nat := 0
  overrun   : Bool := false
  late      : Bool := false
  lateCnt   : Nat := 0
  evq       : List EvRec := []
  evqOvf    : Bool := false
  safetyEv  : Bool := false
  waitFrom  : Nat := 0
  wokeAt    : Option Nat := none
  startedAt : Option Nat := none
  lastTake  : Option (Byte × Word) := none
  area      : List Byte := []
  areaNow   : Option (List Byte) := none
  areaNext  : Option (List Byte) := none
  jobCount  : BitVec 28 := 0
  cleanup   : Bool := false
  startReq  : Bool := false
  stopReq   : Bool := false
  pcCopy    : Word := 0
  causeCopy : DWord := 0
  deriving DecidableEq, Repr

/-! ### Plans and trajectories (R151–R179) -/

/-- A segment descriptor (R151), field by field; binary64 and signed fields keep their bits. -/
structure SegDesc where
  segId   : Word := 0
  kind    : Byte := 0
  line    : Byte := 0
  nj      : Byte := 0
  flags   : Byte := 0
  anchor  : BitVec 64 := 0
  span    : BitVec 32 := 0
  lagMax  : Word := 0
  uncMax  : BitVec 16 := 0
  vfrac   : BitVec 16 := 0
  afrac   : BitVec 16 := 0
  rsv1    : BitVec 16 := 0
  dwellNs : DWord := 0
  cspeed  : DWord := 0
  actAt   : BitVec 64 := 0
  action  : Byte := 0
  actTgt  : Byte := 0
  rsv2    : BitVec 48 := 0
  target  : List Word := []
  deriving DecidableEq, Repr

/-- A segment of an active plan and whether its action has fired or been withheld for good (R166, R168). -/
structure ActSeg where
  d       : SegDesc
  actDone : Bool := false
  deriving DecidableEq, Repr

/-- What is fixed when a segment starts to run (R157, R162): whether the generator has fixed its curve, its start
tick, the tick its gate opened, its start point, and for a TRACK segment the slopes m0 and m1 of each joint. -/
structure RunSeg where
  fixed    : Bool := false
  nStart   : Nat
  nOpen    : Option Nat := none
  q0       : List Int
  m0       : List DWord := []
  m1       : List DWord := []
  missed   : Bool := false
  deriving DecidableEq, Repr

/-- Why a generator is in its stopping state (R172, R173). -/
inductive Stopping | no | stop | dusk
  deriving DecidableEq, Repr

/-- One arm group: its staged queue, its active plan and its generator. `base` is the point an idle arm stands at,
`late` the retired TRACK segments whose action has still to fire. -/
structure Arm where
  staged    : List SegDesc := []
  active    : List ActSeg := []
  run       : Option RunSeg := none
  s         : DWord := 0
  sigma     : DWord := 0
  acc       : DWord := 0
  stopping  : Stopping := .no
  stopped   : Bool := false
  lastSegId : Word := 0
  handE     : List DWord := []
  handK     : Nat := 0
  base      : List Int := []
  late      : List SegDesc := []
  toolOut   : BitVec 16 := 0
  cmd       : List Int := []
  vel       : List DWord := []
  accel     : List DWord := []
  gen       : Word := 0
  missStop  : Bool := false
  vhalo     : DWord := 0
  deriving DecidableEq, Repr

/-! ### Auxiliary axes and step channels (R180–R202) -/

/-- An auxiliary move descriptor (R182). -/
structure AuxMove where
  moveId : Word := 0
  kind   : Byte := 0
  prof   : Byte := 0
  flags  : Byte := 0
  rsv    : Byte := 0
  target : BitVec 64 := 0
  vel    : Word := 0
  acc    : Word := 0
  dec    : Word := 0
  jerk   : Word := 0
  deriving DecidableEq, Repr

/-- The generator of one auxiliary axis. `start` is the start point of the move in progress, if one is; `stops` the
STOP descriptors that wait for rest, each with the moves it discarded; `release` says that an arm action has released the
armed move that is next, `relNow` that the stall of this tick withholds such a release; `aff` is the acceleration
feedforward. -/
structure AuxGen where
  queue     : List AuxMove := []
  start     : Option DWord := none
  endPt     : DWord := 0
  release   : Bool := false
  p         : DWord := 0
  v         : DWord := 0
  aprev     : DWord := 0
  aff       : DWord := 0
  stopping  : Stopping := .no
  stops     : List (Word × Nat) := []
  relNow    : Bool := false
  atLimit   : Bool := false
  cmd0      : Int := 0
  cmd1      : Int := 0
  cmd2      : Int := 0
  icur      : Nat := 0
  l8        : Nat := 0
  stallCnt  : Nat := 0
  stallLock : Bool := false
  stallDue  : Bool := false
  peak      : Bool := false
  deriving DecidableEq, Repr

/-- One local step channel: the DIR level, the sign of the last non-zero batch, the batch being emitted and
the current code on IREF (R190–R192). -/
structure StepChan where
  dir     : Bool := false
  lastNeg : Bool := false
  last    : Int := 0
  iref    : Nat := 0
  deriving DecidableEq, Repr

/-! ### Solver jobs (R203–R248) -/

/-- A job descriptor (R215). -/
structure JobDesc where
  type    : Byte := 0
  mode    : Byte := 0
  nt      : Byte := 0
  tmask   : Byte := 0
  iterCap : Byte := 0
  armMask : Byte := 0
  h       : BitVec 16 := 0
  n       : BitVec 16 := 0
  m       : BitVec 16 := 0
  k       : BitVec 16 := 0
  rsv1    : BitVec 16 := 0
  inAddr  : Word := 0
  inLen   : Word := 0
  outAddr : Word := 0
  outLen  : Word := 0
  stAddr  : Word := 0
  tickMax : Word := 0
  warmOff : Word := 0
  rsv2    : Word := 0
  tauRel  : DWord := 0
  tauAbs  : DWord := 0
  lambda  : DWord := 0
  epsAbs  : DWord := 0
  epsRel  : DWord := 0
  userTag : DWord := 0
  rsv3    : Bool := false
  deriving DecidableEq, Repr

/-- The figures of a status word that a running job has reached at the end of a phase (R219, R232). -/
structure JobMark where
  cycles    : Nat := 0
  iter      : Byte := 0
  matched   : BitVec 16 := 0
  unmatched : BitVec 16 := 0
  pivots    : BitVec 16 := 0
  firstPiv  : BitVec 16 := 0xFFFF
  deriving DecidableEq, Repr

/-- What a finished job reports (R219) and writes (R214), with the marks of the phases it goes through. -/
structure JobResult where
  code      : BitVec 16 := 0
  iter      : Byte := 0
  matched   : BitVec 16 := 0
  unmatched : BitVec 16 := 0
  pivots    : BitVec 16 := 0
  firstPiv  : BitVec 16 := 0xFFFF
  resid     : DWord := 0
  cycles    : Nat := 0
  output    : List Byte := []
  marks     : List JobMark := []
  deriving DecidableEq, Repr

/-- A job from its submission to its delivery (R222–R226). -/
structure Job where
  handle  : Word
  core    : Fin 9
  d       : JobDesc
  allowed : BitVec 4
  admitAt : Nat := 0
  axes    : List AxisRec := []
  arms    : List ArmRec := []
  started : Option (Nat × Nat) := none
  queuedAt : Nat := 0
  tiles   : BitVec 4 := 0
  input   : List Byte := []
  ended   : Option (Nat × Nat) := none
  result  : JobResult := {}
  discard : Bool := false
  deriving DecidableEq, Repr

/-- The solver: waiting jobs in queue order, running jobs, ended jobs waiting for delivery, and results
delivered but not yet collected (handle and completion code), with the counters of the SLV registers. `clock` is the
cycle of this tick in which tiles were last assigned or freed. -/
structure Solver where
  clock     : Nat := 0
  queue     : List Job := []
  running   : List Job := []
  ended     : List Job := []
  delivered : List (Word × BitVec 16) := []
  eccUncorr : Bool := false
  eccCorr   : Nat := 0
  done      : Vector Nat 6 := Vector.replicate 6 0
  tileBusy  : Vector Nat 4 := Vector.replicate 4 0
  deriving DecidableEq, Repr

/-! ### Control engine (R251–R273) -/

/-- The states of one biquad (R261). -/
structure Biquad where
  x1 : Int := 0
  x2 : Int := 0
  y1 : Int := 0
  y2 : Int := 0
  deriving DecidableEq, Repr

/-- The cascade states and status of one axis (R260, CTL_STATa). -/
structure Cascade where
  ip        : Int := 0
  iv        : Int := 0
  epPrev    : Int := 0
  bq1       : Biquad := {}
  bq2       : Biquad := {}
  u         : Int := 0
  ep        : Int := 0
  um        : Int := 0
  sat       : Bool := false
  satCnt    : Nat := 0
  fault     : Bool := false
  feWarn    : Bool := false
  atLim     : Bool := false
  presetSat : Bool := false
  dyn       : Bool := false
  warned    : Bool := false
  excursion : Bool := false
  deriving DecidableEq, Repr

/-- The dynamics status of one arm (CTL_DYNSTATk); `mark` is the epoch after the last fallback counted. -/
structure DynStat where
  fallbacks : Nat := 0
  valid     : Bool := false
  mark      : Nat := 0
  used      : Bool := false
  deriving DecidableEq, Repr

/-! ### Filter lanes (R274–R288) -/

/-- One filter lane: its memories in canonical form (program words, X and Y words), its registers, and the
pass in progress. `outHist` holds the OUT0 stores of the pass with their cycles, newest first (R279). -/
structure Lane where
  prog      : List (Nat × Word) := []
  x         : List (Nat × BitVec 16) := []
  y         : List (Nat × BitVec 16) := []
  a         : Vector (BitVec 11) 8 := Vector.replicate 8 0
  b         : Vector (BitVec 11) 8 := Vector.replicate 8 0
  m         : Vector (BitVec 12) 8 := Vector.replicate 8 0
  l         : Vector (BitVec 12) 8 := Vector.replicate 8 0
  sc        : Vector (BitVec 16) 4 := Vector.replicate 4 0
  acc       : Vector (BitVec 40) 2 := Vector.replicate 2 0
  running   : Bool := false
  active    : Bool := false
  pc        : Nat := 0
  cycle     : Nat := 0
  reps      : List (Nat × Nat × Nat) := []
  done      : Bool := false
  lastCyc   : Nat := 0
  flow      : Bool := false
  overrun   : Bool := false
  ecc       : Bool := false
  accSat    : Bool := false
  stSat     : Bool := false
  inSat     : Bool := false
  outEnd    : List (BitVec 16) := []
  outHist   : List (Nat × BitVec 16) := []
  out0Start : BitVec 16 := 0
  inPrev    : List (BitVec 16) := []
  deriving DecidableEq, Repr

/-! ### Position and speed feedback (R289–R308) -/

/-- The speed estimator of R303. -/
structure Estim where
  first : Bool := true
  still : Bool := true
  v     : Int := 0
  dir   : Int := 0
  hist  : List (Int × Int) := []
  tChg  : Int := 0
  pPrev : Int := 0
  tPrev : Int := 0
  starting : Bool := false
  reversed : Bool := false
  ran      : Bool := false
  deriving DecidableEq, Repr

/-- A latch received for the tick in progress: position and stamp, or the cause it is invalid by. -/
inductive Latch | none | valid (p : Int) (t : Int) | invalid (cause : Nat)
  deriving DecidableEq, Repr

/-- One axis channel's feedback (R289–R306): `have1` says that a latch was valid since the device reset, `conf` that one of
the present configuration was; `bursts` and `lofs` are of this tick's frame, `bursts1` and `lofs1` of the tick before; `act1` is the actual position a tick
before `act`. -/
structure AxFbk where
  latch     : Latch := .none
  pos       : Int := 0
  time      : Int := 0
  posPrev   : Int := 0
  have1     : Bool := false
  conf      : Bool := false
  motor     : Int := 0
  motorOk   : Bool := false
  lastWord  : Option Int := none
  lastMotor : Option Int := none
  est       : Estim := {}
  act       : Int := 0
  speed     : Int := 0
  stale     : Bool := false
  valid     : Bool := false
  cause     : Nat := 0
  timeout   : Bool := false
  toRaised  : Bool := false
  outage    : Bool := false
  plaus     : Bool := false
  plRef     : Option (Int × Int) := none
  plCnt     : Nat := 0
  drvArmed  : Bool := false
  angle     : Option Int := none
  bursts    : List (Nat × List (BitVec 16)) := []
  bursts1   : List (Nat × List (BitVec 16)) := []
  lofs      : Int := 0
  lofs1     : Int := 0
  act1      : Int := 0
  deriving DecidableEq, Repr

/-- One SSI port (R291–R297). -/
structure SsiPort where
  started   : Option (Int × Bool) := none
  td        : Nat := 0
  stat      : Nat := 0
  cause     : Nat := 0
  valid     : Bool := false
  errCnt    : Nat := 0
  crcCnt    : Nat := 0
  raw       : List Bool := []
  wordArmed : Bool := true
  alarmArmed : Bool := true
  deriving DecidableEq, Repr

/-! ### Line clocks (R56–R70) -/

/-- The latch of one line for one tick (R69). -/
structure LineLatch where
  count  : Int := 0
  time   : DWord := 0
  uncert : Nat := 0
  qerr   : Nat := 0
  fault  : Bool := false
  idxCnt : Int := 0
  idxTime : DWord := 0
  idxSeen : Bool := false
  deriving DecidableEq, Repr

/-- One line clock in the ENC domain, and its latch as it last crossed into CORE. `window` holds the ENC
sample numbers of the QERRs that may still lie in the window of R60, newest first; `dirLast` is the direction
of the last step, `idxRef` the last index event with its count and direction, and whether a reversal followed. -/
structure Line where
  ab       : BitVec 2 := 0
  zCond    : Bool := false
  hw       : BitVec 32 := 0
  hwLatch  : BitVec 32 := 0
  ext      : Int := 0
  uncert   : Nat := 0
  qerr     : Nat := 0
  window   : List Nat := []
  faultDue : Bool := false
  fault    : Bool := false
  raised   : Bool := false
  idxSeen  : Bool := false
  idxCnt   : Int := 0
  idxTime  : DWord := 0
  dirLast  : Int := 0
  idxRef   : Option (Int × Int × Bool) := none
  latch    : LineLatch := {}
  est      : Estim := {}
  clrSample : Option Nat := none
  deriving DecidableEq, Repr

/-! ### The input gate and the requests of a tick (R22, R23, R122) -/

/-- What passes the gate. `finalRamp` is the stop at the end of a hold (R329); Halo limits are in mm/s and separations
in µm (R361). -/
inductive GateItem
  | safety (st : Safety)
  | finalRamp
  | haloLimits (limits seps : List Nat)
  | event (core : Option (Fin 9)) (e : EvRec)
  | image (node : Nat) (stamp : DWord) (bytes : List Byte)
  | ringEntry (r : Fin 4) (idx : Nat) (bytes : List Byte)
  | doorbell (r : Fin 4) (p : Word)
  | shadow (off : Nat) (v : Word)
  | commit (b : CBlock)
  deriving DecidableEq, Repr

/-- A gate input: the full epoch it is stamped with, its source of R23, and what it carries. -/
structure GateIn where
  stamp : Nat
  src   : Nat
  item  : GateItem
  deriving DecidableEq, Repr

/-- A request that an instruction made in a tick, applied at a later boundary (R122). -/
inductive Req
  | sega (d : SegDesc)
  | cut
  | stop (mask : BitVec 8)
  | auxq (ax : Fin 128) (m : AuxMove)
  | job (j : Job)
  | jcancel (handle : Word)
  | hpub (kind : Nat) (recs : List (List Byte))
  | jrec (seq : Word) (idem : Bool) (ring : Byte) (ridx : Word) (bytes : List Byte)
  | jdone (seq : Word) (result : BitVec 16)
  | signal (dest : Fin 9) (data : Word)
  deriving DecidableEq, Repr

/-- A request with the core and the tick it was made in. -/
structure ReqEntry where
  core  : Fin 9
  epoch : Nat
  req   : Req
  deriving DecidableEq, Repr
/-! ### Meridian fabric and schedule (R47–R51, R390–R440) -/

/-- Port states (R409). -/
inductive PState | down | train | measure | ready | blocked
  deriving DecidableEq, Repr

/-- One port of one channel: its state and counters, the link delay samples in 1/16 ns (newest last), the request on its
way with its send time, the RPTLAT its neighbour reported, and the time of the sync it received in a basic cycle. -/
structure MerPort where
  state     : PState := .down
  retrains  : Nat := 0
  downs     : Nat := 0
  upstream  : Bool := false
  peerTrain : Bool := false
  samples   : List Int := []
  req       : Option (Byte × DWord) := none
  rptlat    : Nat := 0
  syncCycle : Option Nat := none
  aborts    : Nat := 0
  cv        : Nat := 0
  deriving DecidableEq, Repr

/-- Synchronisation states (R50). -/
inductive SyncState | unsync | locked | degraded | holdover | lost
  deriving DecidableEq, Repr

/-- Where a controller stands in the cold start (R400–R402): `follower` waits for or has joined a lodestar; `clash` has
stopped contending; `rejoin` has met a second lodestar and rejoins through a warm reset. -/
inductive ColdStart | idle | listen (stop : Nat) | contend (stop : Nat) | follower | lodestar | clash | rejoin
  deriving DecidableEq, Repr

/-- A controller that reported itself to the lodestar, or whose number the lodestar remembers (R407, R408). -/
structure CtrlRep where
  uid    : BitVec 48
  pin    : Option (Fin 16)
  hops   : Nat
  branch : Nat
  number : Option Nat := none
  deriving DecidableEq, Repr

/-- A schedule load on its way to a node (R430). -/
structure SchedLoad where
  node   : Nat
  chB    : Bool
  tag    : Byte
  tries  : Nat := 0
  acked  : Bool := false
  raised : Bool := false
  deriving DecidableEq, Repr

/-- A frame that waits for its minislot: its class, frame ID and payload, and the basic cycles it has waited (R434). -/
structure ArbFrame where
  cls     : BitVec 4
  fid     : BitVec 12
  payload : List Byte
  waits   : Nat := 0
  deriving DecidableEq, Repr

/-- A node of this controller's segment: its address and the schedule loads that it holds, by channel and the matrix
count at which they take effect (R408, R430). -/
structure FabNode where
  uid   : BitVec 48
  addr  : Option Nat := none
  loads : List (Bool × Nat × List MEntry) := []
  deriving DecidableEq, Repr

/-- A setpoint value in force at a node, by destination, record kind and index; `miss` counts the basic cycles in which
its record did not arrive, and `holdCur` says that the node applies its own hold current instead (R425). -/
structure NodeVal where
  dest    : BitVec 10
  kind    : BitVec 6
  index   : Byte
  value   : Word
  miss    : Nat := 0
  holdCur : Bool := false
  deriving DecidableEq, Repr

/-- The fabric side of the MER block. `rate`, `rate0` are in 1/65 536 ppm, `acc` and the path delays in 1/16 ns.
`measured` is the basic cycle of the last offset, `good0`, `bad0` and `acc0` are the runs of R50 and R51 and the sum of R404 before that cycle, and
`holdFrom` is the basic cycle in which HOLDOVER was entered. -/
structure Mer where
  ports     : Vector MerPort 4 := Vector.replicate 4 {}
  cold      : ColdStart := .idle
  sync      : SyncState := .unsync
  joining   : Bool := true
  addr      : Option Nat := none
  number    : Option Nat := none
  hops      : Nat := 0
  path      : Vector (Option Int) 2 := Vector.replicate 2 none
  result    : Nat := 0
  contests  : Nat := 0
  lsKey     : Nat := 0
  foreign   : Bool := false
  dual      : Bool := false
  noLode    : Bool := false
  stage7    : Option Nat := none
  syncFrom  : Nat := 0
  syncCycle : Option Nat := none
  offset16  : Int := 0
  rate      : Int := 0
  rate0     : Int := 0
  acc       : Int := 0
  locked    : Bool := false
  good      : Nat := 0
  bad       : Nat := 0
  acc0      : Int := 0
  good0     : Nat := 0
  bad0      : Nat := 0
  measured  : Option Nat := none
  holdFrom  : Nat := 0
  flood     : List (Byte × BitVec 48 × Byte) := []
  seqs      : List (Nat × Byte) := []
  reports   : List CtrlRep := []
  lastRep   : Option Nat := none
  numbered  : Bool := false
  mask      : BitVec 16 := 0
  acks      : List Nat := []
  unaddr    : Nat := 0
  loads     : List SchedLoad := []
  tags      : Byte := 0
  nodes     : List FabNode := []
  vals      : List NodeVal := []
  lostNodes : List (BitVec 10) := []
  arb       : Vector (List ArbFrame) 2 := Vector.replicate 2 []
  deriving DecidableEq, Repr

/-- The schedule side of the MER block: the discard counts, what is counted once per matrix cycle on each channel,
and the nodes in an episode of SPLOST. -/
structure MerSched where
  errWin    : Nat := 0
  errCrc    : Nat := 0
  winRaised : Bool := false
  crcCnt    : Vector Nat 2 := Vector.replicate 2 0
  crcRaised : Vector Bool 2 := Vector.replicate 2 false
  mismatch  : Bool := false
  splost    : List Nat := []
  fired     : BitVec 16 := 0
  deferred  : Nat := 0
  sent      : Nat := 0
  deriving DecidableEq, Repr


/-! ### The SAFE domain: faults, outputs, reset edge, inputs, diagnostics (R309–R348) -/

/-- A fault log entry (R344). -/
structure LogEntry where
  code   : BitVec 16
  flags  : Byte
  block  : Byte
  detail : Word
  stamp  : DWord
  epoch  : Nat
  seq    : Word
  count  : Nat
  deriving DecidableEq, Repr

/-- A queued fault with the index and the sequence number of the log entry it took (R322). -/
structure QFault where
  rep : FaultRep
  idx : Nat
  seq : Word
  deriving DecidableEq, Repr

/-- The mailbox (R347): what the host submitted, and what the safety core answered. -/
structure Mailbox where
  cmd    : Byte := 0
  args   : List Word := []
  busy   : Bool := false
  seen   : Bool := false
  done   : Bool := false
  ovr    : Bool := false
  result : BitVec 16 := 0
  resp   : List Word := [0, 0, 0, 0]
  deriving DecidableEq, Repr

/-- The safety core's side of the safety state. `react` is the reaction in progress with the log entry it took,
`noHold` says that an F2 taken since Dusk entry forbids the hold, `finalRamp` that the ramp in progress ends in STO,
`stoDue` that STO follows at the next boundary, `forced` the outputs that are forced off until run, `f3Now` and
`f3Prev` the F3 taken in this Halo period and in the one before. -/
structure Saf where
  state     : Safety := .sto
  react     : Option QFault := none
  queue     : List QFault := []
  log       : List (Nat × LogEntry) := []
  taken     : Nat := 0
  seq       : Word := 0
  lastIdx   : Nat := 0
  duskCnt   : Nat := 0
  noHold    : Bool := false
  finalRamp : Bool := false
  stoDue    : Bool := false
  latched   : List Nat := []
  stuck     : Bool := false
  stoDyn    : Bool := false
  wdog      : Bool := false
  rstPin    : Bool := false
  edge      : Bool := false
  f3Now     : Option Nat := none
  f3Prev    : Option Nat := none
  estA      : Bool := false
  estB      : Bool := false
  estTest   : BitVec 2 := 0
  sin       : BitVec 16 := 0
  sinDisc   : BitVec 16 := 0
  sinTest   : BitVec 16 := 0
  soutReq   : Byte := 0
  forced    : Byte := 0xFF
  rbFail    : Byte := 0
  rb        : Byte := 0
  diagFail  : Bool := false
  diagLate  : Bool := false
  marchRes  : Bool := false
  haloRes   : Bool := false
  marchAt   : Nat := 0
  chunkAt   : Nat := 0
  marchIdx  : Nat := 0
  chunkIdx  : Nat := 0
  flowSig   : Word := 0
  flowDone  : Bool := false
  mbx       : Mailbox := {}
  ecc       : Vector (Nat × Nat) 8 := Vector.replicate 8 (0, 0)
  deriving DecidableEq, Repr

/-! ### Halo (R349–R372) -/

/-- A capsule of an arm as the engine follows it: where it last was and when, its limit of the latest period, the
limits issued in the last periods, newest first, its envelope and its measured speed. -/
structure CapState where
  arm   : Nat
  cap   : Nat
  p0    : V3 := {}
  p1    : V3 := {}
  r     : Int := 0
  seen  : Option Nat := none
  lim   : Nat := 0
  hist  : List Nat := []
  env   : Nat := 0
  overs : Nat := 0
  vmeas : Nat := 0
  deriving DecidableEq, Repr

/-- A capsule of a neighbour cell (R368). -/
structure NbrCap where
  arm : Nat
  cap : Nat
  p0  : V3
  p1  : V3
  r   : Int
  deriving DecidableEq, Repr

/-- A zone status record: zone, HOLDER, PENDING (0xFF for none). -/
structure ZoneStat where
  zone    : Nat
  holder  : Nat
  pending : Nat
  deriving DecidableEq, Repr

/-- What is received from the cell of one CELLNO (R375–R378): the parts of the period in hand, those accepted for the
next period, and those in use, with the counts of MER_HRX and MER_HCNT. -/
structure NbrRx where
  parts    : List (Nat × Option (List Byte)) := []
  missNow  : BitVec 2 := 0
  missA    : Nat := 0
  missB    : Nat := 0
  raised   : BitVec 2 := 0
  lostRun  : Nat := 0
  accepted : Bool := false
  lostArmed : Bool := true
  mismatch : Nat := 0
  missed   : Nat := 0
  nextCaps : List NbrCap := []
  nextZones : List ZoneStat := []
  staged   : Bool := false
  caps     : List NbrCap := []
  zones    : List ZoneStat := []
  oldZones : List ZoneStat := []
  held     : Bool := false
  deriving DecidableEq, Repr

/-- An external volume slot and whether it holds its fail-safe volume (R352, R365). -/
structure VolSlot where
  v    : VolRec := {}
  fail : Bool := false
  deriving DecidableEq, Repr

/-- The Halo engine. `pubs` are the published sets that wait for the next period start, `tool` the accepted tool
capsules of each arm core, `claims` the accepted claims (core, zone, arm), `holders` the granted ones (zone, key). -/
structure Halo where
  caps     : List CapState := []
  period   : Word := 0
  start    : Option Nat := none
  started  : Bool := false
  first    : Bool := true
  latches  : List (Nat × Int × Int) := []
  lims     : List Nat := [0, 0, 0, 0, 0, 0, 0, 0]
  seps     : List Nat := [0, 0, 0, 0, 0, 0, 0, 0]
  pubs     : List (Fin 9 × Nat × List (List Byte)) := []
  tool     : List (Nat × List CapRec) := []
  claims   : List (Nat × Nat × Nat) := []
  holders  : List (Nat × Nat) := []
  overlaps : List (Nat × Nat × Nat) := []
  conflict : Bool := false
  badRec   : Nat := 0
  vols     : Vector VolSlot 32 := Vector.replicate 32 {}
  nbrs     : Vector NbrRx 16 := Vector.replicate 16 {}
  deriving DecidableEq, Repr

/-! ### Safe telegrams (R379–R388) -/

inductive ConnSt | ok | recovering | failed
  deriving DecidableEq, Repr

/-- A receive connection. -/
structure Conn where
  st      : ConnSt := .failed
  slast   : BitVec 16 := 0
  cause   : Nat := 0
  errRun  : Nat := 0
  recov   : Nat := 0
  fails   : Nat := 0
  seqErr  : Nat := 0
  timeErr : Nat := 0
  crcErr  : Nat := 0
  age     : Word := 0
  buf     : List Byte := []
  deriving DecidableEq, Repr

structure SafeComm where
  conns  : Vector Conn 32 := Vector.replicate 32 {}
  txSeq  : Vector (BitVec 16) 8 := Vector.replicate 8 0
  valid  : BitVec 2 := 0
  unk    : Nat := 0
  unkAt  : Option Nat := none
  deriving DecidableEq, Repr
/-! ### The host interface and the journal (R473–R475, R517–R532) -/

/-- One command ring (R518–R522): the indices P, F and C, the entries released and not
yet taken, its flags, and how many entries were taken at or after PUBCYC of the tick in progress (R137). -/
structure Ring where
  prod     : Word := 0
  fetch    : Word := 0
  cons     : Word := 0
  late     : Nat := 0
  released : List (Word × List Byte) := []
  idxErr   : Bool := false
  drops    : Nat := 0
  deriving DecidableEq, Repr

/-- A completion record before its slot gives it a PHASE (R523). -/
structure CqRec where
  seq    : Word
  result : BitVec 16
  ring   : Byte
  intr   : Bool
  ridx   : Word
  tag    : Word
  deriving DecidableEq, Repr

/-- The host side (GLB): rings, the completion backlog, the discards of the service queues, suspended engines, access
errors, the flash path (`flOp` the command in progress with its address), the vectors that are pending while masked, and
whether the push skips until host software enables it again (R511). The indices of the completion and service queues
are registers. -/
structure HostIf where
  rings    : Vector Ring 4 := Vector.replicate 4 {}
  backlog  : List CqRec := []
  lost     : Nat := 0
  lostRaised : Bool := false
  discards : Vector Nat 4 := Vector.replicate 4 0
  susp     : BitVec 12 := 0
  lastErr  : Nat := 0
  badSize  : Nat := 0
  unmapped : Nat := 0
  staging  : Memory := []
  flOp     : Option (Nat × Nat) := none
  flRefused : Bool := false
  linkDown : Bool := false
  pba      : DWord := 0
  pushOff  : Bool := false
  deriving DecidableEq, Repr

/-- The debug block (R531–R533): refused attempts, the scope in force, the challenge and the unlock record as written. -/
structure Dbg where
  tries : Nat := 0
  scope : Nat := 0
  chal  : List Word := []
  unlk  : List (Nat × Word) := []
  hold  : Bool := false
  deriving DecidableEq, Repr

/-- A journal entry in flight (R473). -/
structure JEntry where
  seq   : Word
  idem  : Bool
  core  : Fin 9
  ring  : Byte
  ridx  : Word
  epoch : Nat
  cmd   : List Byte
  deriving DecidableEq, Repr

/-- The journal: entries by index, the next sequence number, the sequence numbers each core has still to replay, and
the entries posted INTERRUPTED at the last warm reset; `told` are the cores that had
their class 0x14 event, `last` is the last committed sequence number. -/
structure Journal where
  entries : List (Nat × JEntry) := []
  next    : Word := 1
  replay  : Vector (List Word) 9 := Vector.replicate 9 []
  intr    : Nat := 0
  told    : BitVec 9 := 0
  last    : Word := 0
  deriving DecidableEq, Repr


/-! ### Clocks, resets, boot, power and the always-on domain (R478–R509) -/

/-- The power states of R505, with Dawn in progress; `off` is the device without power. -/
inductive Power | run | quiet | dawn | standby | off
  deriving DecidableEq, Repr

/-- The PLL locks (A, S, E, H from bit 0), the PCIe reference, the domains that run on PLL_S (MA, MB, HOST from bit 0),
the domains outside ±5 % and those reported stopped by domain ID, the merged pulses, the instant of the last pulse of each
pulse crossing, and the resync counts. -/
structure Clk where
  locks   : BitVec 4 := 0
  pcieRef : Bool := false
  fb      : BitVec 3 := 3
  freqErr : BitVec 9 := 0
  stopped : BitVec 9 := 0
  merged  : BitVec 6 := 0
  pulses  : Vector (Option DWord) 6 := Vector.replicate 6 none
  resync  : Nat := 0
  xdrop   : Nat := 0
  deriving DecidableEq, Repr

/-- Boot and power: the stage (1 to 8), BOOTFAIL with its cause and detail, a halt in stage 3, the slots, the reset causes of this boot,
the power state, PWR_EN (true while released) and, while the tick sequencer has still to start, its keyframe. -/
structure Boot where
  stage      : Nat := 1
  failed     : Bool := false
  halted     : Bool := false
  cause      : Nat := 0
  det        : Word := 0
  slot       : Fin 4 := 0
  psel       : Fin 4 := 0
  swref      : Bool := false
  ready      : Bool := false
  rstCause   : BitVec 7 := 1
  power      : Power := .run
  pwrRefused : Bool := false
  pwrEn      : Bool := true
  warmStart  : Bool := false
  sessionAt  : Nat := 0
  deriving DecidableEq, Repr

/-- The always-on domain beside the coarse Sidereal count (R502, R503): the last-fault record is its 256 bytes. -/
structure Aon where
  boot      : Nat := 1
  jseq      : Word := 0
  lastFault : List Byte := []
  phase     : Nat := 0
  deriving DecidableEq, Repr

/-! ### Capture (R441–R456) -/

/-- One sample: its tick, its number j in the tick, its words and how many of them a missing burst repeated. -/
structure CapSample where
  epoch : Nat
  j     : Nat
  words : List (BitVec 16)
  miss  : Nat
  deriving DecidableEq, Repr

/-- A trigger unit (R446): `hist` holds the last x′ with their instants, newest first; `fired` the tick in which it
last fired. -/
structure CapUnit where
  above   : Bool := false
  w       : Nat := 0
  inrunt  : Bool := false
  reached : Bool := false
  quiet   : Nat := 0
  hist    : List (Int × Int) := []
  fired   : Option Nat := none
  deriving DecidableEq, Repr

/-- A capture record (R450): `left` samples have still to come while it fills, `pages` is what it takes, `order` its
place in time, `skews` the skew of each signal, `meas` the measurements of the closed record. -/
structure CapRecord where
  index    : Byte
  set      : Fin 4
  fired    : BitVec 2 := 0
  forced   : Bool := false
  trunc    : Bool := false
  kept     : Bool := false
  ecc      : Bool := false
  sublog   : Nat := 0
  nsig     : Nat := 1
  len      : Nat := 0
  pre      : Nat := 0
  tepoch   : Nat := 0
  tsub     : Nat := 0
  shortpre : Nat := 0
  ttime    : DWord := 0
  skews    : List Int := []
  mths     : List Int := []
  samples  : List CapSample := []
  left     : Nat := 0
  closed   : Bool := false
  pages    : Nat := 0
  order    : Nat := 0
  meas     : List (List Byte) := []
  deriving DecidableEq, Repr

/-- A capture set: its pre-trigger buffer oldest first, the last word of each signal, the forced tick and the index of
the record that fills. -/
structure CapSet where
  armed  : Bool := false
  units  : Vector CapUnit 2 := Vector.replicate 2 {}
  pre    : List CapSample := []
  last   : List (BitVec 16) := []
  force  : Option Nat := none
  fill   : Option Byte := none
  cfg    : List Word := []
  deriving DecidableEq, Repr

/-- The capture engine: sets, records, the next index, and the readout (index in progress, its host address, DONE, NOREC, OVR). -/
structure Cap where
  sets     : Vector CapSet 4 := Vector.replicate 4 {}
  recs     : List CapRecord := []
  next     : Byte := 0
  order    : Nat := 0
  drops    : Nat := 0
  dropArmed : Bool := true
  insat    : Bool := false
  lastIdx  : Byte := 0
  reading  : Option Byte := none
  rdDone   : Bool := false
  rdNorec  : Bool := false
  rdOvr    : Bool := false
  rdAddr   : DWord := 0
  deriving DecidableEq, Repr

/-! ### Ephemeris and replay (R457–R472) -/

/-- A feedback record of a tick block (R459, R460): code 0x10 or 0x11 with its axis or line, the field values, and the
payload that codes them. -/
structure EphRec where
  code    : Byte
  sub     : Byte
  vals    : List Int
  payload : List Byte
  deriving DecidableEq, Repr

/-- A tick block, its records as data (R459): the gate inputs released in its tick and the feedback of the tick (axis
states after the gather window and line latches), with the coded feedback records `recs`. `bytes` is its stored length,
`sum` what the SAFE domain gave the safety summary: HIGHEST, the queue depth, the Halo period count and the Dusk count. -/
structure TickBlock where
  seq     : DWord
  epoch   : Nat
  session : BitVec 16
  abs     : Bool := false
  kf      : Bool
  pinned  : Bool := false
  gap     : Bool := false
  bad     : Bool := false
  almcrc  : Word
  spdig   : Word
  gate    : List GateIn
  axes    : Vector AxFbk 128
  lines   : Vector LineLatch 8
  recs    : List EphRec := []
  bytes   : Nat
  sum     : BitVec 16 × Byte × Word × Nat := (0, 0, 0, 0)
  deriving DecidableEq, Repr

/-- The deterministic state of a keyframe (R466). -/
structure KeyState where
  now        : DWord
  regs       : Bank
  shadow     : Bank
  due        : Bank
  commits    : Vector CommitStat 9
  gate       : List GateIn
  reqs       : List ReqEntry
  cellEvs    : List (Nat × Fin 9 × EvRec)
  published  : Option Almanac
  view       : Option Almanac
  cutFail    : Bool
  planGen    : Word
  coreSafety : Safety
  haloLimits : List Word
  minsep     : List Word
  cores      : Vector Core 10
  data       : Memory
  arms       : Vector Arm 8
  aux        : Vector AuxGen 128
  chans      : Vector StepChan 16
  solver     : Solver
  cascs      : Vector Cascade 128
  mans       : Vector Bool 128
  dyns       : Vector DynStat 8
  lanes      : Vector Lane 32
  fbk        : Vector AxFbk 128
  lines      : Vector Line 8
  cap        : Cap
  jrn        : Journal
  rings      : Vector Ring 4
  outImage   : List (List Byte)
  deriving DecidableEq, Repr

/-- A keyframe with the header fields that vary (R468). -/
structure Keyframe where
  epoch   : Nat
  seq     : DWord
  session : Word
  bytes   : Nat
  state   : KeyState
  bad     : Bool := false
  deriving DecidableEq, Repr

/-- A keyframe slot (EPH_KFk). -/
inductive KfSlot
  | empty
  | capturing (k : Keyframe)
  | complete (k : Keyframe)
  | pinned (k : Keyframe)
  deriving DecidableEq, Repr

/-- What the device copies to the host stream, in production order. -/
inductive StreamItem
  | block (b : TickBlock)
  | key (k : Keyframe)
  deriving DecidableEq, Repr

/-- Ephemeris: the ring oldest first with the next sequence number, the keyframe slots (`newest` the slot of the newest
complete keyframe), the items still to be copied and all that was copied, the pin (`pinEnd` its last tick), and the
replay with the blocks that remain. -/
structure Eph where
  ring      : List TickBlock := []
  wrapped   : Bool := false
  seq       : DWord := 0
  slots     : Vector KfSlot 2 := Vector.replicate 2 .empty
  newest    : Option (Fin 2) := none
  queue     : List StreamItem := []
  copied    : List StreamItem := []
  prod      : Word := 0
  gapDue    : Bool := false
  gapSt     : Bool := false
  abandon   : Bool := false
  short     : Bool := false
  pin       : Bool := false
  filling   : Bool := false
  trunc     : Bool := false
  pinMiss   : Nat := 0
  pinFrom   : Nat := 0
  pinEnd    : Nat := 0
  released  : List GateIn := []
  replay    : Bool := false
  rpRun     : Bool := false
  rpDone    : Bool := false
  rpRefused : Bool := false
  rpDiv     : Bool := false
  rpCause   : Nat := 0
  rpDivAt   : Nat := 0
  rpLeft    : List TickBlock := []
  rpNow     : Option TickBlock := none
  deriving DecidableEq, Repr

/-! ### The whole state -/

/-- What the block sends out, oldest first in `State.outbox`. -/
inductive Out
  | msix (v : Nat)
  | steps (c : Fin 16) (n : Int) (dir : Bool) (rises : List Nat) (high : Nat) (stepLow : Bool)
  | stepCut (c : Fin 16) (k : Nat)
  | data (path : Path) (v : DWord)
  | sched (ch : Channel) (f : SchedFrame)
  | link (ch : Channel) (p : LPort) (f : LinkFrame)
  | telegram (port : Fin 2) (bytes : List Byte)
  | dark (k : Fin 8)
  | host (addr : DWord) (bytes : List Byte)
  | stream (key : Bool) (seq : DWord)
  | plant (port : Fin 2) (bytes : List Byte)
  | error (path : Path) (code : Nat)
  | pwrEn (released : Bool)
  | flash (op addr : Nat) (bytes : List Byte)
  | train (ch : Channel) (p : LPort)
  | repeated (ch : Channel) (p : LPort) (f : MerFrame) (latency : Nat) (abort : Bool)
  deriving DecidableEq, Repr

/-- The state of the block. -/
structure State where
  pending    : List Instr := []
  outbox     : List Out := []
  free       : Nat := 0
  variant    : Variant := .s8128
  prof       : Profile := {}
  now        : DWord := 0
  paths      : Vector PathLatch 3 := Vector.replicate 3 {}
  regs       : Bank := []
  shadow     : Bank := []
  due        : Bank := []
  commits    : Vector CommitStat 9 := Vector.replicate 9 {}
  gate       : List GateIn := []
  reqs       : List ReqEntry := []
  cellEvs    : List (Nat × Fin 9 × EvRec) := []
  reports    : List FaultRep := []
  epoch      : Nat := 0
  running    : Bool := false
  published  : Option Almanac := none
  view       : Option Almanac := none
  push       : Option PushDma := none
  staleTicks : Nat := 0
  pushLate   : Bool := false
  cutFail    : Bool := false
  cutApplied : Bool := false
  comApplied : Bool := false
  planGen    : Word := 0
  coreSafety : Safety := .sto
  stopAtStep1 : Bool := false
  haloLimits : List Word := []
  minsep     : List Word := []
  cores      : Vector Core 10 := Vector.replicate 10 {}
  data       : Memory := []
  code       : Memory := []
  scode      : Memory := []
  sdata      : Memory := []
  codeLocked : Bool := false
  hashOk     : Bool := false
  arms       : Vector Arm 8 := Vector.replicate 8 {}
  aux        : Vector AuxGen 128 := Vector.replicate 128 {}
  chans      : Vector StepChan 16 := Vector.replicate 16 {}
  solver     : Solver := {}
  cascs      : Vector Cascade 128 := Vector.replicate 128 {}
  mans       : Vector Bool 128 := Vector.replicate 128 false
  dyns       : Vector DynStat 8 := Vector.replicate 8 {}
  lanes      : Vector Lane 32 := Vector.replicate 32 {}
  lanesEccUn : Bool := false
  lanesEccC  : Nat := 0
  fbk        : Vector AxFbk 128 := Vector.replicate 128 {}
  ssi        : Vector SsiPort 16 := Vector.replicate 16 {}
  uid        : BitVec 48 := 0
  mer        : Mer := {}
  mers       : MerSched := {}
  aonSid     : DWord := 0
  outImage   : List (List Byte) := []
  host       : HostIf := {}
  saf        : Saf := {}
  halo       : Halo := {}
  scomm      : SafeComm := {}
  dbg        : Dbg := {}
  jrn        : Journal := {}
  lines      : Vector Line 8 := Vector.replicate 8 {}
  clk        : Clk := {}
  boot       : Boot := {}
  aon        : Aon := {}
  slots      : Vector Profile 4 := Vector.replicate 4 {}
  cap        : Cap := {}
  eph        : Eph := {}
  deriving DecidableEq, Repr

/-- Why the block stops with a fault. No command of the table does; the type is closed and small. -/
inductive Fault
  /-- No meaning raises it: the spec names no behaviour that stops the block as a whole. Safe. -/
  | none
  deriving DecidableEq, Repr

/-- Why a command is refused. -/
inductive Refusal
  /-- The command has no meaning in the model yet; only exec's refused arms answer it. Safe. -/
  | notModelled (mnemonic : String)
  deriving DecidableEq, Repr

/-- The block right after a power-on reset (R494): every field at the value the spec states, or at the value
the assumption log names. -/
def State.reset : State := {}

end Sys2Proof.Machine
end

