-- ==== Sys2Proof/Machine/Ops.lean ====
section
/-! DEFINITION. The shared operations: vectors, memory, register banks, the input gate, events, fault reports,
the roles of axes, time, and TAKING A TRAP with the return from one (R95–R97). -/

namespace Sys2Proof.Machine

/-- The outcome type of a meaning. -/
abbrev Res := Host.Outcome State Fault Refusal

/-! ### Vectors, lists, numbers -/

/-- Applies a function to one entry of a vector. -/
def vmod {α : Type} {n : Nat} (v : Vector α n) (i : Fin n) (f : α → α) : Vector α n := v.set i (f v[i])

/-- Applies a function to every entry of a list, with its position. -/
def mapFrom {α β : Type} (f : Nat → α → β) : Nat → List α → List β
  | _, [] => []
  | i, x :: xs => f i x :: mapFrom f (i + 1) xs

theorem mapFrom_length {α β : Type} (f : Nat → α → β) (i : Nat) (l : List α) : (mapFrom f i l).length = l.length := by
  induction l generalizing i with
  | nil => rfl
  | cons x xs ih => simp [mapFrom, ih]

/-- Applies a function to every entry of a vector, with its position. -/
def vmap {α β : Type} {n : Nat} (f : Nat → α → β) (v : Vector α n) : Vector β n :=
  ⟨⟨mapFrom f 0 v.toList⟩, by simp [mapFrom_length]⟩

/-- The entry of a list at a position, or a default. -/
def nth {α : Type} (l : List α) (i : Nat) (d : α) : α := l.getD i d

/-- Sets one entry of a list that has it. -/
def setNth {α : Type} (l : List α) (i : Nat) (x : α) : List α := l.set i x

/-- Bits [hi:lo] of a number. -/
def fld (v : Nat) (hi lo : Nat) : Nat := v / 2 ^ lo % 2 ^ (hi - lo + 1)

def bitOf (v : Nat) (i : Nat) : Bool := v / 2 ^ i % 2 == 1

def bnat (b : Bool) : Nat := if b then 1 else 0

/-- Addition that saturates at `top`. -/
def satAdd (top a b : Nat) : Nat := min top (a + b)

def clampInt (lo hi x : Int) : Int := max lo (min hi x)

/-- `sat32` of R259. -/
def sat32 (x : Int) : Int := clampInt (-(2 ^ 31)) (2 ^ 31 - 1) x
/-- Saturation to 16 bits (R281, R284). -/
def sat16 (x : Int) : Int := clampInt (-(2 ^ 15)) (2 ^ 15 - 1) x
/-- `rnd` of R259 without its final saturation: ties toward +∞. -/
def rndShift (p : Int) (s : Nat) : Int := if s = 0 then p else (p + 2 ^ (s - 1)) / 2 ^ s
/-- `rnd` of R259. -/
def rnd (p : Int) (s : Nat) : Int := sat32 (rndShift p s)
/-- `rnd_div` of R300, for a positive divisor; a divisor of 0 gives 0 (no rule divides by 0). -/
def rndDiv (a b : Int) : Int := if b ≤ 0 then 0 else (2 * a + b) / (2 * b)

/-- The signed reading of the low `w` bits of an integer. -/
def sextTo (w : Nat) (x : Int) : Int :=
  let r := x % 2 ^ w
  if r ≥ 2 ^ (w - 1) then r - 2 ^ w else r

/-- The little-endian bytes of a number. -/
def leBytes (v : Nat) : Nat → List Byte
  | 0 => []
  | n + 1 => BitVec.ofNat 8 v :: leBytes (v / 256) n

/-- The number that a list of little-endian bytes spells. -/
def leVal : List Byte → Nat
  | [] => 0
  | b :: bs => b.toNat + 256 * leVal bs

/-- The `n` bytes of a list at an offset; bytes past its end read 0. -/
def bytesAt (l : List Byte) (off n : Nat) : List Byte := (List.range n).map fun i => nth l (off + i) 0

/-- The little-endian number of `n` bytes at an offset. -/
def valAt (l : List Byte) (off n : Nat) : Nat := leVal (bytesAt l off n)

/-- The binary64 values of a block from an offset on. -/
def f64sAt (b : List Byte) (off n : Nat) : List DWord := (List.range n).map fun i => BitVec.ofNat 64 (valAt b (off + 8 * i) 8)

/-! ### Memory (canonical lists of cells) -/

/-- Addresses strictly rising from `lo`, and no entry that an unlisted address reads as (0). -/
def Memory.wfFrom : Nat → Memory → Bool
  | _, [] => true
  | lo, (a, b) :: m => decide (lo ≤ a) && b != 0 && Memory.wfFrom (a + 1) m

/-- The canonical form of a memory. (DESIGN CHOICE: log 3.) -/
def Memory.wf (m : Memory) : Bool := Memory.wfFrom 0 m

/-- Reads one byte; a byte that nothing has written reads 0 (log entry 3). -/
def Memory.read : Memory → Nat → Byte
  | [], _ => 0
  | (a, b) :: m, k => if k = a then b else Memory.read m k

/-- Writes one byte, keeping the canonical form. -/
def Memory.write : Memory → Nat → Byte → Memory
  | [], k, v => if v = 0 then [] else [(k, v)]
  | (a, b) :: m, k, v =>
    if k < a then (if v = 0 then (a, b) :: m else (k, v) :: (a, b) :: m)
    else if k = a then (if v = 0 then m else (k, v) :: m)
    else (a, b) :: Memory.write m k v

/-- Reads `n` bytes, lowest address first. -/
def Memory.readN (m : Memory) (a : Nat) : Nat → List Byte
  | 0 => []
  | n + 1 => m.read a :: Memory.readN m (a + 1) n

/-- Writes bytes at rising addresses. -/
def Memory.writeN : Memory → Nat → List Byte → Memory
  | m, _, [] => m
  | m, a, b :: bs => Memory.writeN (m.write a b) (a + 1) bs

/-! ### Register banks and sparse word memories -/

/-- Looks up a key in a list of pairs sorted by key. -/
def assoc {α : Type} (d : α) : List (Nat × α) → Nat → α
  | [], _ => d
  | (a, b) :: m, k => if k = a then b else assoc d m k

/-- Sets a key in a list of pairs sorted by key. -/
def assocSet {α : Type} : List (Nat × α) → Nat → α → List (Nat × α)
  | [], k, v => [(k, v)]
  | (a, b) :: m, k, v =>
    if k < a then (k, v) :: (a, b) :: m
    else if k = a then (k, v) :: m
    else (a, b) :: assocSet m k v

/-- Removes a key. -/
def assocDel {α : Type} (m : List (Nat × α)) (k : Nat) : List (Nat × α) := m.filter fun e => e.1 != k

/-- Whether a key is present. -/
def assocHas {α : Type} (m : List (Nat × α)) (k : Nat) : Bool := m.any fun e => e.1 == k

/-! ### Time -/

/-- The tick period in ns (R18). -/
def tickNs : Rate → Nat
  | .k4 => 250000
  | .k8 => 125000
  | .k16 => 62500

def State.tTick (s : State) : Nat := tickNs s.prof.rate

/-- The Sidereal time of the start of tick `n` (R18). -/
def State.t0 (s : State) (n : Nat) : Nat := n * s.tTick

/-- The run window of R79. -/
def State.runcyc (s : State) : Nat :=
  match s.prof.rate with
  | .k4 => 297000
  | .k8 => 147000
  | .k16 => 72000

/-- PUBCYC of R137. -/
def State.pubcyc (s : State) : Nat :=
  match s.prof.rate with
  | .k4 => 165600
  | .k8 => 105600
  | .k16 => 64800

/-- The tick rate in Hz. -/
def State.rateHz (s : State) : Nat :=
  match s.prof.rate with
  | .k4 => 4000
  | .k8 => 8000
  | .k16 => 16000

/-- The gather window G of R26, in ns. -/
def State.gatherNs (s : State) : Nat :=
  match s.prof.rate with
  | .k4 => 60000
  | .k8 => 40000
  | .k16 => 20000

/-- Expansion of a short tick count against a reference full epoch (R54). -/
def expandShort (sh : Word) (e : Nat) : Int :=
  let d : Int := (sh.toNat : Int) - (e % 2 ^ 32 : Nat)
  let d := d % 2 ^ 32
  (e : Int) + (if d ≥ 2 ^ 31 then d - 2 ^ 32 else d)

/-! ### Parts and roles (R3, R14–R17) -/

def State.is8064 (s : State) : Bool := s.variant == .s8064

/-- Arm groups, arm cores: present on the part. (DESIGN CHOICE: log 11.) -/
def State.armPresent (s : State) (k : Nat) : Bool := k < 8 && (!s.is8064 || k < 4)
def State.axisPresent (s : State) (a : Nat) : Bool := a < 128 && (!s.is8064 || a < 64)
def State.tilesPresent (s : State) : BitVec 4 := if s.is8064 then 3 else 0xF
/-- Planner core 8 and the safety core are on every part. -/
def State.corePresent (s : State) (c : Nat) : Bool := c == 8 || c == 9 || s.armPresent c

def State.armProf (s : State) (k : Nat) : Option ArmProf :=
  if s.armPresent k then (nth s.prof.arms k none) else none

def State.auxProf (s : State) (a : Nat) : Option AuxProf :=
  if s.axisPresent a then s.prof.aux.find? (fun p => p.ax.val == a) else none

/-- The arm group and the joint number of an axis channel, if it is a joint. -/
def State.jointOf (s : State) (a : Nat) : Option (Nat × Nat) :=
  if !s.axisPresent a then none else
  (List.range 8).findSome? fun k =>
    match s.armProf k with
    | none => none
    | some p => (p.joints.findIdx? (fun j => j.val == a)).map fun j => (k, j)

/-- An axis that runs a cascade: a joint, or an auxiliary axis with a cascade output (R251). -/
def State.runsCascade (s : State) (a : Nat) : Bool :=
  (s.jointOf a).isSome || (match s.auxProf a with | some p => p.out == .cascade | none => false)

/-- A free value, and the state with the count of free values advanced (log entry 5). -/
def State.draw (s : State) : DWord × State := (Config.freeVal s.free, { s with free := s.free + 1 })

/-! ### Clock domains (R482, R491, R492, R502) -/

/-- Whether a domain is stopped (R492). (DEDUCED: log 109.) -/
def State.stopped (s : State) (d : Nat) : Bool := bitOf s.clk.stopped.toNat d

/-- A pulse of crossing `b` at the present instant (R481, R482): whether it merges with a pulse whose acknowledge is still
pending, and the state with MERGED set then. The acknowledge is pending for a free time up to `bound` ns.
(DESIGN CHOICE: log 108.) -/
def State.pulse (s : State) (b : Fin 6) (bound : Nat) : Bool × State :=
  let late : State := { s with clk := { s.clk with pulses := s.clk.pulses.set b (some s.now) } }
  match s.clk.pulses[b] with
  | some t =>
    if t ≤ s.now ∧ (s.now - t).toNat ≤ (Config.freeVal s.free).toNat % (bound + 1) then
      (true, { s with free := s.free + 1, clk := { s.clk with merged := s.clk.merged ||| (1#6 <<< b.val) } })
    else (false, { late with free := s.free + 1 })
  | none => (false, late)

/-- The crystal periods since the coarse count was last seen, which no command counts (R502): a free number.
(DESIGN CHOICE: log 108.) -/
def State.periods (s : State) : Nat := (Config.freeVal s.free).toNat % 2 ^ 32

/-- The coarse Sidereal count as it stands (R502): 10^9 / 32 768 ns per crystal period on average, 30 517 or 30 518 each. -/
def State.coarseNow (s : State) : DWord :=
  s.aonSid + BitVec.ofNat 64 ((s.aon.phase + s.periods) * 1953125 / 64 - s.aon.phase * 1953125 / 64)

/-- The coarse count is brought up to date. -/
def State.crystal (s : State) : State :=
  { s with aonSid := s.coarseNow, aon := { s.aon with phase := (s.aon.phase + s.periods) % 64 }, free := s.free + 1 }

/-! ### The input gate (R22, R23) -/

/-- The stamp of an input whose crossing completes at Sidereal time `t` (R22). (DESIGN CHOICE: log 12.) -/
def State.stampAt (s : State) (t : DWord) : Nat :=
  if t.toNat + 1000 < s.t0 (s.epoch + 1) then s.epoch + 1 else s.epoch + 2

/-- The clock domain that a gate source comes from (R23, R487). (DEDUCED: log 109.) -/
def gateDomain (src : Nat) : Nat := match src with | 1 => 3 | 2 => 5 | 3 => 6 | 4 => 8 | _ => 7

/-- Adds a gate input with a given stamp. In replay the gate takes only what the image holds (R470), and a stopped domain
gives no further entries (R491). -/
def State.gatePush (s : State) (stamp src : Nat) (i : GateItem) : State :=
  if s.eph.replay || s.stopped (gateDomain src) then s else { s with gate := s.gate ++ [⟨stamp, src, i⟩] }

/-- Adds a gate input whose crossing completes at `t`. (DESIGN CHOICE: log 12.) -/
def State.gateIn (s : State) (t : DWord) (src : Nat) (i : GateItem) : State := s.gatePush (s.stampAt t) src i

/-! ### Faults on their way to the fault queue (R317) and the outbox -/

/-- Raises a fault detected at `t`: it is on its way to the fault queue, which FAULT_REPORT reaches. Where the raising rule names
no detail word (R344), the detail is a free value (log entry 4). (DEDUCED: log 13.) -/
def State.raiseAt (s : State) (t : DWord) (code cls : Nat) (hold : Bool := false) (detail : Option Word := none) : State :=
  match detail with
  | some d => { s with reports := s.reports ++ [⟨code, cls, hold, t, d⟩] }
  | none => { s with
      reports := s.reports ++ [⟨code, cls, hold, t, Config.faultDetail code s.free⟩]
      free := s.free + 1 }

/-- Raises a fault that is detected now. (DEDUCED: log 13.) (DESIGN CHOICE: log 4.) -/
def State.raise (s : State) (code cls : Nat) (hold : Bool := false) (detail : Option Word := none) : State :=
  s.raiseAt s.now code cls hold detail

/-- The Sidereal value at a CORE cycle of the tick in progress (R79): TCYCLE 0 lies at t0 + 1 µs and a cycle lasts 5/6 ns, but
CORE cycles are not rate-corrected, so the value is free within 250 ppm of the elapsed time. -/
def State.coreTime (s : State) (cyc : Nat) : DWord :=
  let el := 5 * cyc / 6
  let b : Int := el / 4000 + 1
  BitVec.ofInt 64 (s.t0 s.epoch + 1000 + el + clampInt (-b) b (Config.coreClock s.epoch cyc))

/-- The Sidereal value at step 2 of the boundary of the tick in progress (R87): within its first microsecond. -/
def State.stepTwoTime (s : State) : DWord := BitVec.ofNat 64 (s.t0 s.epoch + Config.stepTwo s.epoch % 1001)

/-- The detection time of a fault of a core (R79): the Sidereal value at the cycle of the event on a planner core. -/
def State.coreStamp (s : State) (c : Fin 10) (cyc : Nat) : DWord := if c.val = 9 then s.now else s.coreTime cyc

/-- Counts an uncorrectable error of memory `k` (R345, SAF_ECCk): 0 planner code, 1 planner data, 2 solver, 3 Ephemeris
ring, 4 keyframes, 5 capture, 6 Almanac and rings, 7 safety. The first count of a pair is the corrected errors.
(DESIGN CHOICE: log 30.) -/
def State.eccUp (s : State) (k : Fin 8) : State :=
  { s with saf := { s.saf with ecc := vmod s.saf.ecc k fun p => (p.1, satAdd 65535 p.2 1) } }

/-- Counts a corrected error of memory `k` (R78, R345). -/
def State.eccCorrected (s : State) (k : Fin 8) : State :=
  { s with saf := { s.saf with ecc := vmod s.saf.ecc k fun p => (satAdd 65535 p.1 1, p.2) } }

/-- What the check of a word of memory `k` adds to its counts (R345). (DESIGN CHOICE: log 30.) -/
def State.eccNote (s : State) (k : Fin 8) : Ecc → State
  | .clean => s
  | .corrected => s.eccCorrected k
  | .uncorr => s.eccUp k

/-- What the check of a word of solver SRAM finds is counted in SLV_ECC and SAF_ECC2 (R207, R345). -/
def State.solverNote (s : State) (e : Ecc) : State :=
  let s1 := s.eccNote 2 e
  { s1 with solver := { s1.solver with
      eccCorr := satAdd 65535 s1.solver.eccCorr (bnat (e == .corrected)), eccUncorr := s1.solver.eccUncorr || e == .uncorr } }

/-- Sends something out of the block: a frame, a host write, an interrupt vector. (DESIGN CHOICE: log 19.) -/
def State.out (s : State) (o : Out) : State := { s with outbox := s.outbox ++ [o] }

/-- The read latch and staging register of an access path (R12). -/
def pathIdx (p : Path) : Fin 3 := match p with | .pcie => 0 | .jtag => 1 | .saf => 2
def State.pathOf (s : State) (p : Path) : PathLatch := s.paths[pathIdx p]
def State.modPath (s : State) (p : Path) (f : PathLatch → PathLatch) : State := { s with paths := vmod s.paths (pathIdx p) f }

/-! ### Event records (R85–R87) -/

/-- The 64 bits of an event record. -/
def EvRec.bits (e : EvRec) : DWord := e.cls ++ e.count ++ e.source ++ e.data

/-- A new record of one event. -/
def mkEv (cls source data : Nat) : EvRec :=
  { cls := BitVec.ofNat 8 cls, count := 1, source := BitVec.ofNat 16 source, data := BitVec.ofNat 32 data }

def mergeCount (c : Byte) : Byte := if c = 255 then 255 else c + 1

/-- Merges an event into the newest record of its class (and source), if there is one. (DEDUCED: log 37.) -/
def mergeInto (e : EvRec) (sameSource : Bool) : List EvRec → Option (List EvRec)
  | [] => none
  | r :: rs =>
    match mergeInto e sameSource rs with
    | some rs' => some (r :: rs')
    | none =>
      if r.cls == e.cls && (!sameSource || r.source == e.source) then
        some ({ r with count := mergeCount r.count, data := e.data } :: rs)
      else none

/-- Whether an event comes after a record in the order of R85: by boundary, by rank, and among cell events by class
and then by source. -/
def EvRec.notBefore (e r : EvRec) : Bool :=
  if e.tick != r.tick then decide (r.tick < e.tick)
  else if e.rank != r.rank then decide (r.rank < e.rank)
  else if e.rank != 2 then true
  else if e.cls != r.cls then decide (r.cls.toNat < e.cls.toNat)
  else decide (r.source.toNat ≤ e.source.toNat)

/-- Puts an event in its place of R85: behind every record that it does not precede. -/
def evInsert (e : EvRec) : List EvRec → List EvRec
  | [] => [e]
  | r :: rs => if e.notBefore r then r :: evInsert e rs else e :: r :: rs

/-- An event becomes visible in a core's queue (R87): 64 records, four of them kept for class 0x05.
(DEDUCED: log 37.) (DEDUCED: log 98.) -/
def Core.enqueue (k : Core) (e : EvRec) : Core × Bool :=
  let c := e.cls.toNat
  let merged := if c == 1 || c == 2 || c == 3 then mergeInto e true k.evq else none
  let five := (k.evq.filter fun r => r.cls == 5).length
  let ordinary := k.evq.length - min five 4
  match merged with
  | some q => ({ k with evq := q }, true)
  | none =>
    if c == 5 then
      if k.evq.length < 64 then ({ k with evq := evInsert e k.evq }, true)
      else
        match mergeInto e false k.evq with
        | some q => ({ k with evq := q }, true)
        | none => (k, true)
    else if ordinary < 60 && k.evq.length < 64 then ({ k with evq := evInsert e k.evq }, true)
    else ({ k with evqOvf := true }, false)

def State.core (s : State) (c : Fin 10) : Core := s.cores[c]
def State.setCore (s : State) (c : Fin 10) (k : Core) : State := { s with cores := s.cores.set c k }
def State.modCore (s : State) (c : Fin 10) (f : Core → Core) : State := s.setCore c (f (s.core c))

/-- A core that may receive events: present, and neither stopped nor halted. (DESIGN CHOICE: log 15.) -/
def State.coreLive (s : State) (c : Fin 10) : Bool :=
  s.corePresent c.val && ((s.core c).mode == .running || (s.core c).mode == .waiting)

/-- Delivers an event to a planner core; EVQ_OVERFLOW when no record is free (R87). (DEDUCED: log 38.) -/
def State.deliver (s : State) (c : Fin 9) (e : EvRec) (rank : Nat) : State :=
  let c10 : Fin 10 := c.castSucc
  if s.corePresent c.val then
    let r := (s.core c10).enqueue { e with tick := s.epoch, rank := rank }
    let s1 := s.setCore c10 r.1
    if r.2 then s1
    else s1.raiseAt s1.stepTwoTime 0x0404 1 false (some (BitVec.ofNat 32 (e.cls.toNat * 2 ^ 24 + e.source.toNat)))
  else s

/-- A cell event (classes 0x10, 0x13, 0x14, 0x15), stamped for the following tick (R85, R126). -/
def State.cellEvent (s : State) (c : Fin 9) (cls source data : Nat) : State :=
  { s with cellEvs := s.cellEvs ++ [(s.epoch + 1, c, mkEv cls source data)] }

/-- Cell events that become visible at this boundary (R85). -/
def State.deliverCell (s : State) : State :=
  let now := s.cellEvs.filter fun e => decide (e.1 ≤ s.epoch)
  now.foldl (fun (st : State) e => st.deliver e.2.1 e.2.2 2) { s with cellEvs := s.cellEvs.filter fun e => !decide (e.1 ≤ s.epoch) }

/-- The signals that become visible at this boundary (R85, R90): those of earlier ticks. -/
def ReqEntry.signalDue (s : State) (e : ReqEntry) : Bool :=
  (match e.req with | .signal _ _ => true | _ => false) && decide (e.epoch < s.epoch)

/-- The core an event of class 0x01 to 0x03 is routed to; unrouted events go to the cell core (R86).
(DEDUCED: log 38.) -/
def State.route (s : State) (cls source : Nat) : Fin 9 :=
  match s.prof.routes.find? (fun r => r.cls == cls && (r.source == none || r.source == some source)) with
  | some r => r.core
  | none => 8

/-! ### Taking a trap and returning from one (R95–R97, R115) -/

/-- Halts a core: PLN_STATUSn.STATE reads halted, and PLANNER_HALT is raised (R97). The safety core halts without a
PLANNER_HALT, which names a planner core: its SAFETY_CORE_TRAP is raised already (R115). (DESIGN CHOICE: log 95.)
(DESIGN CHOICE: log 96.) -/
def State.haltCore (s : State) (c : Fin 10) (cyc : Nat) : State :=
  let s1 := s.modCore c fun k => { k with mode := .halted, wait := none, cleanup := true, causeCopy := k.cause }
  if c.val = 9 then s1 else s1.raiseAt (s1.coreTime cyc) 0x0402 2 true

/-- Takes an exception or an interrupt in TCYCLE `cyc` (R95): CAUSE, TVAL and EPC are written, IE moves to
PIE, IE clears, INTRAP is set and the core continues at TVEC, whose first instruction issues no earlier than
three cycles later. An exception inside a handler, or any trap while TVEC is 0, halts the core (R97). Every
exception of the safety core raises SAFETY_CORE_TRAP (R115). The trap registers are written also where the core then halts,
and the safety core takes the same three cycles. (DESIGN CHOICE: log 96.) -/
def State.takeTrap (s : State) (c : Fin 10) (cyc : Nat) (isInt : Bool) (code : Nat) (tval epc : DWord) : State :=
  let k := s.core c
  let cause : DWord := BitVec.ofNat 64 ((if isInt then 2 ^ 63 else 0) + code)
  let s0 := if c.val = 9 && !isInt then s.raise 0x1801 3 else s
  let s1 := s0.setCore c { k with
    cause := cause, tval := tval, epc := epc, pie := k.ie, ie := false, intrap := true, pc := k.tvec,
    causeCopy := cause, cyc := cyc + 3, pair := none, mode := .running, wait := none,
    budget := k.budget + (cyc + 3) - k.cyc }
  if (!isInt && k.intrap) || k.tvec = 0 then s1.haltCore c cyc else s1

/-- The return of ERET (R95): IE takes PIE, INTRAP clears and the core continues at EPC. -/
def Core.returnTrap (k : Core) : Core := { k with ie := k.pie, intrap := false, pc := k.epc }

/-! ### Registers of the deterministic blocks, by BAR0 offset -/

/-- The reset values of the shadowed registers that are not zero, from the register tables. (DESIGN CHOICE: log 2.) -/
def regReset (off : Nat) : Word :=
  let axisOff := off - 0xA1000
  if off = 0x20010 then 0x40
  else if 0x108 ≤ off ∧ off < 0x188 ∧ (off - 0x108) % 0x20 = 0 then 0x40
  else if 0x308 ≤ off ∧ off < 0x388 ∧ (off - 0x308) % 0x20 = 0 then 0x40
  else if 0x8000 ≤ off ∧ off < 0x8400 ∧ off % 16 = 12 then 1
  else if 0x140100 ≤ off ∧ off < 0x140200 ∧ (off - 0x140100) % 0x40 = 0 then 0x100
  else if 0x140100 ≤ off ∧ off < 0x140200 ∧ (off - 0x140100) % 0x40 = 4 then 0x400
  else if 0x140100 ≤ off ∧ off < 0x140200 ∧ ((off - 0x140100) % 0x40 = 0x10 ∨ (off - 0x140100) % 0x40 = 0x20) then 0x10
  else if 0xE0100 ≤ off ∧ off < 0xE0300 ∧ (off - 0xE0100) % 0x40 = 0x2C then BitVec.ofNat 32 (20 * 16)
  else if 0xD0100 ≤ off ∧ off < 0xD0300 ∧ (off - 0xD0100) % 0x20 = 0 then 0x00323214
  else if 0xD1000 ≤ off ∧ off < 0xD3000 ∧ (off - 0xD1000) % 0x40 = 4 then 0x40140210
  else if 0xD1000 ≤ off ∧ off < 0xD3000 ∧ (off - 0xD1000) % 0x40 = 8 then 0x40000028
  else if 0x80100 ≤ off ∧ off < 0x80124 then 0xF
  else if 0xA0100 ≤ off ∧ off < 0xA0120 then 8
  else if 0xA1000 ≤ off ∧ off < 0xA9000 ∧ axisOff % 0x100 = 0 then 0x003F3F00
  else if 0xC0080 ≤ off ∧ off < 0xC00A0 then 4
  else if 0xC1000 ≤ off ∧ off < 0xC2000 ∧ (off - 0xC1000) % 0x20 = 0 then 0x00400140
  else 0

/-- The value in force of a shadowed register. -/
def State.reg (s : State) (off : Nat) : Word := assoc (regReset off) s.regs off
def State.regN (s : State) (off : Nat) : Nat := (s.reg off).toNat
def State.setReg (s : State) (off : Nat) (v : Word) : State := { s with regs := assocSet s.regs off v }

/-- Raises an MSI-X vector (R517): it is sent, or pends while its table entry masks it. (PRESUMED: log 31.) -/
def State.msix (s : State) (v : Nat) : State :=
  if s.regN (0x800C + 16 * v) % 2 = 1 then
    { s with host := { s.host with pba := s.host.pba ||| BitVec.ofNat 64 (2 ^ v) } }
  else s.out (.msix v)

/-- Field accessors of the axis registers of CTL, by axis (09). -/
def ctlBase (a : Nat) : Nat := 0xA1000 + a * 0x100
def State.ctlCfg (s : State) (a : Nat) : Nat := s.regN (ctlBase a)
def State.ctlK (s : State) (a i : Nat) : Int := (s.reg (ctlBase a + 0x40 + 4 * i)).toInt
def State.ctlShift (s : State) (a i : Nat) : Nat := fld (s.regN (ctlBase a + 0x20 + 4 * (i / 6))) (5 * (i % 6) + 4) (5 * (i % 6))

/-- The arm state of R164; where two of its rows hold, the one first in the table. (DEDUCED: log 41.) -/
def State.armState (s : State) (a : Arm) : Byte :=
  if s.coreSafety == .sto then 4
  else if a.stopping == .dusk || s.coreSafety == .dusk then 3
  else if a.stopped then 4
  else if a.active.isEmpty then (if a.stopping == .no then 0 else if !a.handE.isEmpty then 1 else 4)
  else if !f64IsZero a.sigma || !a.handE.isEmpty then 1
  else 2

/-- A joint is at standstill when its arm is idle or stopped; an auxiliary axis when its queue is empty and
it is not moving (R263). An unused axis stands still. (DEDUCED: log 41.) -/
def State.armStands (s : State) (a : Arm) : Bool := s.armState a == 0 || s.armState a == 4
def State.atStandstill (s : State) (a : Nat) : Bool :=
  match s.jointOf a with
  | some (k, _) =>
    s.armStands (s.arms[k % 8]'(Nat.mod_lt _ (by decide)))
  | none =>
    if h : a < 128 then
      let g := s.aux[a]
      g.queue.isEmpty && f64IsZero g.v
    else true

end Sys2Proof.Machine
end

