-- ==== Sys2Proof/Machine/RegMap.lean ====
section
/-! DEFINITION. The register map of BAR0 (R512 and the register tables of every chapter): one name per register
family, its offset, its indices, whether it is 64 bits wide and whether it is shadowed; the writable fields of the
shadowed registers, most significant first. -/

namespace Sys2Proof.Machine

/-- The register families of BAR0, by ascending offset. `commit` is PREFIX_COMMIT of every block that has one. -/
inductive RegId
  | glbId | glbCapptr | glbErr | glbDmaerr | glbRingbase | glbRingcfg | glbRingdb | glbRingfet | glbRingcons
  | glbCqbase | glbCqcfg | glbCqprod | glbCqcons | glbCqstat | glbSqbase | glbSqcfg | glbSqprod | glbSqcons
  | glbSqstat | glbFlash | glbFladdr | glbCap | glbMsix | glbPba | clkPll | clkMon | clkXmerge | clkResync
  | clkXdrop | clkFreq | clkRstcause | clkReset | clkProfsel | clkBoot | clkBootdet | clkPwr | clkAonboot
  | clkAonjseq | clkAonsid | clkLastfault | almTiming | almEpoch | almPushCtrl | almPushBase | almStatus
  | plnPart | plnRuncyc | plnCode | plnCtrl | plnEntry | plnBudget | plnStatus | plnPc | plnCause | slvInfo
  | slvStatus | slvEcc | slvDone | slvAllow | slvTjob | slvTcyc | ctlInfo | ctlStatus | ctlDyncfg
  | ctlDynstat | ctlAxcfg | ctlAxctrl | ctlManual | ctlVlim | ctlTlim | ctlFewarn | ctlFelim | ctlShift
  | ctlK | ctlStat | ctlIp | ctlIv | ctlSatcnt | flnInfo | flnRun | flnEcc | flnPatch | flnCtrl | flnStat
  | flnCyc | flnOut01 | flnOut23 | flnInsrc | fbkInfo | fbkTout | fbkLwin | fbkSsifmt | fbkSsicrc | fbkSsitim
  | fbkSsilat | fbkSsistat | fbkSsicnt | fbkSsiraw | fbkSsilen | fbkSsirawh | fbkAxsrc | fbkAxstat | fbkAxpos
  | fbkAxtime | fbkAxmot | fbkPlaus | fbkPlaust | auxChcfg | auxChstat | auxCur | auxAdapt | auxLoadfull
  | auxCtrl | auxStat | auxMoveid | linSidereal | linSync | linCfg | linIdxper | linScale | linOrigin
  | linCount | linHwcount | linStatus | linQerr | linCtrl | linIdxcnt | linIdxtime | merId | merUid
  | merCscfg | merCsstat | merLskey | merSeg | merCtrls | merPath | merSyncsrc | merCtrl | merLstat | merLdly
  | merLerr | merLasym | merSchcfg | merArbcfg | merArbcfg2 | merSchstat | merScherr | merArbstat | merCp
  | merCpmask | merCpstat | merHcfg | merHcfg2 | merHrx | merHcnt | merMatA | merMatB | capStatus | capRdaddr
  | capRdctrl | capRdstat | capSet | capLen | capTcfg | capTth | capTw | capSig | capSigcal | ephCfg
  | ephStatus | ephCover | ephSeq | ephKf | ephPin | ephPinend | ephStrbase | ephStrsize | ephStrctrl
  | ephStrprod | ephStrcons | ephJstat | ephRpbase | ephRplen | ephRpctrl | ephRpstat | ephRpdiv | safState
  | safDuskcnt | safTiming | safHold | safRstcfg | safPins | safSin | safSout | safDiag | safLogseq
  | safLogidx | safEcc | safSincfg | safMbxCmd | safMbxArg | safMbxDb | safMbxStat | safMbxResp | safLog
  | safHaloCfg | safHaloVolstat | safHaloBadrec | safHaloZone | safHaloArm | safHaloCap | pltPort
  | pltSafeinfo | pltSafefail | pltSafeunk | pltScfg | pltSid | pltSstat | pltScnt | pltSage | dbgState
  | dbgChal | dbgUnlk | dbgUnlkgo 
  | commit
  deriving DecidableEq, Repr

/-- A row of the map: a family, its base offset, its strides with their counts, and its two marks. -/
structure RegRow where
  id   : RegId
  base : Nat
  n1   : Nat
  st1  : Nat
  n2   : Nat
  st2  : Nat
  wide : Bool
  shad : Bool
  deriving DecidableEq, Repr

/-- The registers of the GLB block. -/
def regRowsGlb : List RegRow := [
  ⟨.glbId, 0x0, 1, 0x0, 1, 0x0, false, false⟩,
  ⟨.glbCapptr, 0x4, 1, 0x0, 1, 0x0, false, false⟩,
  ⟨.glbErr, 0x8, 1, 0x0, 1, 0x0, false, false⟩,
  ⟨.glbDmaerr, 0x10, 1, 0x0, 1, 0x0, false, false⟩,
  ⟨.glbRingbase, 0x100, 4, 0x20, 1, 0x0, true, false⟩,
  ⟨.glbRingcfg, 0x108, 4, 0x20, 1, 0x0, false, false⟩,
  ⟨.glbRingdb, 0x10C, 4, 0x20, 1, 0x0, false, false⟩,
  ⟨.glbRingfet, 0x110, 4, 0x20, 1, 0x0, false, false⟩,
  ⟨.glbRingcons, 0x114, 4, 0x20, 1, 0x0, false, false⟩,
  ⟨.glbCqbase, 0x200, 1, 0x0, 1, 0x0, true, false⟩,
  ⟨.glbCqcfg, 0x208, 1, 0x0, 1, 0x0, false, false⟩,
  ⟨.glbCqprod, 0x20C, 1, 0x0, 1, 0x0, false, false⟩,
  ⟨.glbCqcons, 0x210, 1, 0x0, 1, 0x0, false, false⟩,
  ⟨.glbCqstat, 0x214, 1, 0x0, 1, 0x0, false, false⟩,
  ⟨.glbSqbase, 0x300, 4, 0x20, 1, 0x0, true, false⟩,
  ⟨.glbSqcfg, 0x308, 4, 0x20, 1, 0x0, false, false⟩,
  ⟨.glbSqprod, 0x30C, 4, 0x20, 1, 0x0, false, false⟩,
  ⟨.glbSqcons, 0x310, 4, 0x20, 1, 0x0, false, false⟩,
  ⟨.glbSqstat, 0x314, 4, 0x20, 1, 0x0, false, false⟩,
  ⟨.glbFlash, 0x400, 1, 0x0, 1, 0x0, false, false⟩,
  ⟨.glbFladdr, 0x404, 1, 0x0, 1, 0x0, false, false⟩,
  ⟨.glbCap, 0xF00, 9, 0x4, 1, 0x0, false, false⟩,
  ⟨.glbMsix, 0x8000, 256, 0x4, 1, 0x0, false, false⟩,
  ⟨.glbPba, 0x9000, 1, 0x0, 1, 0x0, true, false⟩]

/-- The registers of the CLK block. -/
def regRowsClk : List RegRow := [
  ⟨.clkPll, 0x10000, 1, 0x0, 1, 0x0, false, false⟩,
  ⟨.clkMon, 0x10004, 1, 0x0, 1, 0x0, false, false⟩,
  ⟨.clkXmerge, 0x10008, 1, 0x0, 1, 0x0, false, false⟩,
  ⟨.clkResync, 0x1000C, 1, 0x0, 1, 0x0, false, false⟩,
  ⟨.clkXdrop, 0x10010, 1, 0x0, 1, 0x0, false, false⟩,
  ⟨.clkFreq, 0x10040, 9, 0x4, 1, 0x0, false, false⟩,
  ⟨.clkRstcause, 0x10100, 1, 0x0, 1, 0x0, false, false⟩,
  ⟨.clkReset, 0x10104, 1, 0x0, 1, 0x0, false, false⟩,
  ⟨.clkProfsel, 0x10108, 1, 0x0, 1, 0x0, false, false⟩,
  ⟨.clkBoot, 0x1010C, 1, 0x0, 1, 0x0, false, false⟩,
  ⟨.clkBootdet, 0x10110, 1, 0x0, 1, 0x0, false, false⟩,
  ⟨.clkPwr, 0x10114, 1, 0x0, 1, 0x0, false, false⟩,
  ⟨.clkAonboot, 0x10118, 1, 0x0, 1, 0x0, false, false⟩,
  ⟨.clkAonjseq, 0x1011C, 1, 0x0, 1, 0x0, false, false⟩,
  ⟨.clkAonsid, 0x10120, 1, 0x0, 1, 0x0, true, false⟩,
  ⟨.clkLastfault, 0x10200, 64, 0x4, 1, 0x0, false, false⟩]

/-- The registers of the ALM block. -/
def regRowsAlm : List RegRow := [
  ⟨.almTiming, 0x20000, 1, 0x0, 1, 0x0, false, false⟩,
  ⟨.almEpoch, 0x20008, 1, 0x0, 1, 0x0, true, false⟩,
  ⟨.almPushCtrl, 0x20010, 1, 0x0, 1, 0x0, false, true⟩,
  ⟨.almPushBase, 0x20018, 1, 0x0, 1, 0x0, true, true⟩,
  ⟨.almStatus, 0x20020, 1, 0x0, 1, 0x0, false, false⟩]

/-- The registers of the PLN block. -/
def regRowsPln : List RegRow := [
  ⟨.plnPart, 0x40000, 1, 0x0, 1, 0x0, false, false⟩,
  ⟨.plnRuncyc, 0x40004, 1, 0x0, 1, 0x0, false, false⟩,
  ⟨.plnCode, 0x40008, 1, 0x0, 1, 0x0, false, false⟩,
  ⟨.plnCtrl, 0x40100, 9, 0x40, 1, 0x0, false, true⟩,
  ⟨.plnEntry, 0x40104, 9, 0x40, 1, 0x0, false, true⟩,
  ⟨.plnBudget, 0x40108, 9, 0x40, 1, 0x0, false, true⟩,
  ⟨.plnStatus, 0x4010C, 9, 0x40, 1, 0x0, false, false⟩,
  ⟨.plnPc, 0x40110, 9, 0x40, 1, 0x0, false, false⟩,
  ⟨.plnCause, 0x40118, 9, 0x40, 1, 0x0, true, false⟩]

/-- The registers of the SLV block. -/
def regRowsSlv : List RegRow := [
  ⟨.slvInfo, 0x80000, 1, 0x0, 1, 0x0, false, false⟩,
  ⟨.slvStatus, 0x80004, 1, 0x0, 1, 0x0, false, false⟩,
  ⟨.slvEcc, 0x80008, 1, 0x0, 1, 0x0, false, false⟩,
  ⟨.slvDone, 0x80040, 6, 0x4, 1, 0x0, false, false⟩,
  ⟨.slvAllow, 0x80100, 9, 0x4, 1, 0x0, false, true⟩,
  ⟨.slvTjob, 0x80200, 4, 0x20, 1, 0x0, false, false⟩,
  ⟨.slvTcyc, 0x80208, 4, 0x20, 1, 0x0, true, false⟩]

/-- The registers of the CTL block. -/
def regRowsCtl : List RegRow := [
  ⟨.ctlInfo, 0xA0000, 1, 0x0, 1, 0x0, false, false⟩,
  ⟨.ctlStatus, 0xA0004, 1, 0x0, 1, 0x0, false, false⟩,
  ⟨.ctlDyncfg, 0xA0100, 8, 0x4, 1, 0x0, false, true⟩,
  ⟨.ctlDynstat, 0xA0140, 8, 0x4, 1, 0x0, false, false⟩,
  ⟨.ctlAxcfg, 0xA1000, 128, 0x100, 1, 0x0, false, true⟩,
  ⟨.ctlAxctrl, 0xA1004, 128, 0x100, 1, 0x0, false, true⟩,
  ⟨.ctlManual, 0xA1008, 128, 0x100, 1, 0x0, false, true⟩,
  ⟨.ctlVlim, 0xA100C, 128, 0x100, 1, 0x0, false, true⟩,
  ⟨.ctlTlim, 0xA1010, 128, 0x100, 1, 0x0, false, true⟩,
  ⟨.ctlFewarn, 0xA1014, 128, 0x100, 1, 0x0, false, true⟩,
  ⟨.ctlFelim, 0xA1018, 128, 0x100, 1, 0x0, false, true⟩,
  ⟨.ctlShift, 0xA1020, 128, 0x100, 4, 0x4, false, true⟩,
  ⟨.ctlK, 0xA1040, 128, 0x100, 19, 0x4, false, true⟩,
  ⟨.ctlStat, 0xA10A0, 128, 0x100, 1, 0x0, false, false⟩,
  ⟨.ctlIp, 0xA10A4, 128, 0x100, 1, 0x0, false, false⟩,
  ⟨.ctlIv, 0xA10A8, 128, 0x100, 1, 0x0, false, false⟩,
  ⟨.ctlSatcnt, 0xA10AC, 128, 0x100, 1, 0x0, false, false⟩]

/-- The registers of the FLN block. -/
def regRowsFln : List RegRow := [
  ⟨.flnInfo, 0xB0000, 1, 0x0, 1, 0x0, false, false⟩,
  ⟨.flnRun, 0xB0004, 1, 0x0, 1, 0x0, false, false⟩,
  ⟨.flnEcc, 0xB0008, 1, 0x0, 1, 0x0, false, false⟩,
  ⟨.flnPatch, 0xB0040, 16, 0x8, 1, 0x0, true, true⟩,
  ⟨.flnCtrl, 0xB0100, 32, 0x20, 1, 0x0, false, true⟩,
  ⟨.flnStat, 0xB0104, 32, 0x20, 1, 0x0, false, false⟩,
  ⟨.flnCyc, 0xB0108, 32, 0x20, 1, 0x0, false, false⟩,
  ⟨.flnOut01, 0xB010C, 32, 0x20, 1, 0x0, false, false⟩,
  ⟨.flnOut23, 0xB0110, 32, 0x20, 1, 0x0, false, false⟩,
  ⟨.flnInsrc, 0xB0800, 32, 0x10, 4, 0x4, false, true⟩]

/-- The registers of the FBK block. -/
def regRowsFbk : List RegRow := [
  ⟨.fbkInfo, 0xC0000, 1, 0x0, 1, 0x0, false, false⟩,
  ⟨.fbkTout, 0xC0010, 4, 0x4, 1, 0x0, false, false⟩,
  ⟨.fbkLwin, 0xC0080, 8, 0x4, 1, 0x0, false, true⟩,
  ⟨.fbkSsifmt, 0xC0100, 16, 0x40, 1, 0x0, false, true⟩,
  ⟨.fbkSsicrc, 0xC0104, 16, 0x40, 1, 0x0, false, true⟩,
  ⟨.fbkSsitim, 0xC0108, 16, 0x40, 1, 0x0, false, true⟩,
  ⟨.fbkSsilat, 0xC010C, 16, 0x40, 1, 0x0, false, true⟩,
  ⟨.fbkSsistat, 0xC0110, 16, 0x40, 1, 0x0, false, false⟩,
  ⟨.fbkSsicnt, 0xC0114, 16, 0x40, 1, 0x0, false, false⟩,
  ⟨.fbkSsiraw, 0xC0118, 16, 0x40, 1, 0x0, true, false⟩,
  ⟨.fbkSsilen, 0xC0120, 16, 0x40, 1, 0x0, false, false⟩,
  ⟨.fbkSsirawh, 0xC0128, 16, 0x40, 1, 0x0, true, false⟩,
  ⟨.fbkAxsrc, 0xC1000, 128, 0x20, 1, 0x0, false, true⟩,
  ⟨.fbkAxstat, 0xC1004, 128, 0x20, 1, 0x0, false, false⟩,
  ⟨.fbkAxpos, 0xC1008, 128, 0x20, 1, 0x0, true, false⟩,
  ⟨.fbkAxtime, 0xC1010, 128, 0x20, 1, 0x0, true, false⟩,
  ⟨.fbkAxmot, 0xC1018, 128, 0x20, 1, 0x0, true, false⟩,
  ⟨.fbkPlaus, 0xC2000, 128, 0x8, 1, 0x0, false, false⟩,
  ⟨.fbkPlaust, 0xC2004, 128, 0x8, 1, 0x0, false, false⟩]

/-- The registers of the AUX block. -/
def regRowsAux : List RegRow := [
  ⟨.auxChcfg, 0xD0100, 16, 0x20, 1, 0x0, false, true⟩,
  ⟨.auxChstat, 0xD0104, 16, 0x20, 1, 0x0, false, false⟩,
  ⟨.auxCur, 0xD1000, 128, 0x40, 1, 0x0, false, true⟩,
  ⟨.auxAdapt, 0xD1004, 128, 0x40, 1, 0x0, false, true⟩,
  ⟨.auxLoadfull, 0xD1008, 128, 0x40, 1, 0x0, false, true⟩,
  ⟨.auxCtrl, 0xD100C, 128, 0x40, 1, 0x0, false, true⟩,
  ⟨.auxStat, 0xD1010, 128, 0x40, 1, 0x0, false, false⟩,
  ⟨.auxMoveid, 0xD1014, 128, 0x40, 1, 0x0, false, false⟩]

/-- The registers of the LIN block. -/
def regRowsLin : List RegRow := [
  ⟨.linSidereal, 0xE0000, 1, 0x0, 1, 0x0, true, false⟩,
  ⟨.linSync, 0xE0008, 1, 0x0, 1, 0x0, false, false⟩,
  ⟨.linCfg, 0xE0100, 8, 0x40, 1, 0x0, false, false⟩,
  ⟨.linIdxper, 0xE0104, 8, 0x40, 1, 0x0, false, false⟩,
  ⟨.linScale, 0xE0108, 8, 0x40, 1, 0x0, true, false⟩,
  ⟨.linOrigin, 0xE0110, 8, 0x40, 1, 0x0, true, false⟩,
  ⟨.linCount, 0xE0118, 8, 0x40, 1, 0x0, true, false⟩,
  ⟨.linHwcount, 0xE0120, 8, 0x40, 1, 0x0, false, false⟩,
  ⟨.linStatus, 0xE0124, 8, 0x40, 1, 0x0, false, false⟩,
  ⟨.linQerr, 0xE0128, 8, 0x40, 1, 0x0, false, false⟩,
  ⟨.linCtrl, 0xE012C, 8, 0x40, 1, 0x0, false, true⟩,
  ⟨.linIdxcnt, 0xE0130, 8, 0x40, 1, 0x0, true, false⟩,
  ⟨.linIdxtime, 0xE0138, 8, 0x40, 1, 0x0, true, false⟩]

/-- The registers of the MER block. -/
def regRowsMer : List RegRow := [
  ⟨.merId, 0x100000, 1, 0x0, 1, 0x0, false, false⟩,
  ⟨.merUid, 0x100008, 1, 0x0, 1, 0x0, true, false⟩,
  ⟨.merCscfg, 0x100010, 1, 0x0, 1, 0x0, false, false⟩,
  ⟨.merCsstat, 0x100014, 1, 0x0, 1, 0x0, false, false⟩,
  ⟨.merLskey, 0x100018, 1, 0x0, 1, 0x0, true, false⟩,
  ⟨.merSeg, 0x100020, 1, 0x0, 1, 0x0, false, false⟩,
  ⟨.merCtrls, 0x100024, 1, 0x0, 1, 0x0, false, false⟩,
  ⟨.merPath, 0x100028, 1, 0x0, 1, 0x0, false, false⟩,
  ⟨.merSyncsrc, 0x10002C, 1, 0x0, 1, 0x0, false, false⟩,
  ⟨.merCtrl, 0x100030, 1, 0x0, 1, 0x0, false, false⟩,
  ⟨.merLstat, 0x100100, 2, 0x40, 2, 0x10, false, false⟩,
  ⟨.merLdly, 0x100104, 2, 0x40, 2, 0x10, false, false⟩,
  ⟨.merLerr, 0x100108, 2, 0x40, 2, 0x10, false, false⟩,
  ⟨.merLasym, 0x10010C, 2, 0x40, 2, 0x10, false, false⟩,
  ⟨.merSchcfg, 0x100200, 1, 0x0, 1, 0x0, false, false⟩,
  ⟨.merArbcfg, 0x100204, 1, 0x0, 1, 0x0, false, false⟩,
  ⟨.merArbcfg2, 0x100208, 1, 0x0, 1, 0x0, false, false⟩,
  ⟨.merSchstat, 0x10020C, 1, 0x0, 1, 0x0, false, false⟩,
  ⟨.merScherr, 0x100210, 1, 0x0, 1, 0x0, false, false⟩,
  ⟨.merArbstat, 0x100214, 1, 0x0, 1, 0x0, false, false⟩,
  ⟨.merCp, 0x100300, 16, 0x10, 1, 0x0, false, false⟩,
  ⟨.merCpmask, 0x100308, 16, 0x10, 1, 0x0, true, false⟩,
  ⟨.merCpstat, 0x100400, 1, 0x0, 1, 0x0, false, false⟩,
  ⟨.merHcfg, 0x1007F8, 1, 0x0, 1, 0x0, false, false⟩,
  ⟨.merHcfg2, 0x1007FC, 1, 0x0, 1, 0x0, false, false⟩,
  ⟨.merHrx, 0x100800, 16, 0x8, 1, 0x0, false, false⟩,
  ⟨.merHcnt, 0x100804, 16, 0x8, 1, 0x0, false, false⟩,
  ⟨.merMatA, 0x101000, 512, 0x8, 1, 0x0, true, false⟩,
  ⟨.merMatB, 0x102000, 512, 0x8, 1, 0x0, true, false⟩]

/-- The registers of the CAP block. -/
def regRowsCap : List RegRow := [
  ⟨.capStatus, 0x140004, 1, 0x0, 1, 0x0, false, false⟩,
  ⟨.capRdaddr, 0x140010, 1, 0x0, 1, 0x0, true, false⟩,
  ⟨.capRdctrl, 0x140018, 1, 0x0, 1, 0x0, false, false⟩,
  ⟨.capRdstat, 0x14001C, 1, 0x0, 1, 0x0, false, false⟩,
  ⟨.capSet, 0x140100, 4, 0x40, 1, 0x0, false, true⟩,
  ⟨.capLen, 0x140104, 4, 0x40, 1, 0x0, false, true⟩,
  ⟨.capTcfg, 0x140110, 4, 0x40, 2, 0x10, false, true⟩,
  ⟨.capTth, 0x140114, 4, 0x40, 2, 0x10, false, true⟩,
  ⟨.capTw, 0x140118, 4, 0x40, 2, 0x10, false, true⟩,
  ⟨.capSig, 0x140400, 4, 0x80, 8, 0x10, false, true⟩,
  ⟨.capSigcal, 0x140404, 4, 0x80, 8, 0x10, false, true⟩]

/-- The registers of the EPH block. -/
def regRowsEph : List RegRow := [
  ⟨.ephCfg, 0x160000, 1, 0x0, 1, 0x0, false, false⟩,
  ⟨.ephStatus, 0x160004, 1, 0x0, 1, 0x0, false, false⟩,
  ⟨.ephCover, 0x160008, 1, 0x0, 1, 0x0, false, false⟩,
  ⟨.ephSeq, 0x160010, 1, 0x0, 1, 0x0, true, false⟩,
  ⟨.ephKf, 0x160020, 2, 0x8, 1, 0x0, true, false⟩,
  ⟨.ephPin, 0x160030, 1, 0x0, 1, 0x0, false, false⟩,
  ⟨.ephPinend, 0x160038, 1, 0x0, 1, 0x0, true, false⟩,
  ⟨.ephStrbase, 0x160040, 1, 0x0, 1, 0x0, true, false⟩,
  ⟨.ephStrsize, 0x160048, 1, 0x0, 1, 0x0, false, false⟩,
  ⟨.ephStrctrl, 0x16004C, 1, 0x0, 1, 0x0, false, false⟩,
  ⟨.ephStrprod, 0x160050, 1, 0x0, 1, 0x0, false, false⟩,
  ⟨.ephStrcons, 0x160054, 1, 0x0, 1, 0x0, false, false⟩,
  ⟨.ephJstat, 0x160060, 1, 0x0, 1, 0x0, false, false⟩,
  ⟨.ephRpbase, 0x160080, 1, 0x0, 1, 0x0, true, false⟩,
  ⟨.ephRplen, 0x160088, 1, 0x0, 1, 0x0, false, false⟩,
  ⟨.ephRpctrl, 0x160090, 1, 0x0, 1, 0x0, true, false⟩,
  ⟨.ephRpstat, 0x160098, 1, 0x0, 1, 0x0, false, false⟩,
  ⟨.ephRpdiv, 0x1600A0, 1, 0x0, 1, 0x0, true, false⟩]

/-- The registers of the SAF block. -/
def regRowsSaf : List RegRow := [
  ⟨.safState, 0x180000, 1, 0x0, 1, 0x0, false, false⟩,
  ⟨.safDuskcnt, 0x180004, 1, 0x0, 1, 0x0, false, false⟩,
  ⟨.safTiming, 0x180008, 1, 0x0, 1, 0x0, false, false⟩,
  ⟨.safHold, 0x18000C, 1, 0x0, 1, 0x0, false, false⟩,
  ⟨.safRstcfg, 0x180010, 1, 0x0, 1, 0x0, false, false⟩,
  ⟨.safPins, 0x180014, 1, 0x0, 1, 0x0, false, false⟩,
  ⟨.safSin, 0x180018, 1, 0x0, 1, 0x0, false, false⟩,
  ⟨.safSout, 0x18001C, 1, 0x0, 1, 0x0, false, false⟩,
  ⟨.safDiag, 0x180020, 1, 0x0, 1, 0x0, false, false⟩,
  ⟨.safLogseq, 0x180024, 1, 0x0, 1, 0x0, false, false⟩,
  ⟨.safLogidx, 0x180028, 1, 0x0, 1, 0x0, false, false⟩,
  ⟨.safEcc, 0x180040, 8, 0x4, 1, 0x0, false, false⟩,
  ⟨.safSincfg, 0x180100, 16, 0x4, 1, 0x0, false, false⟩,
  ⟨.safMbxCmd, 0x180200, 1, 0x0, 1, 0x0, false, false⟩,
  ⟨.safMbxArg, 0x180204, 4, 0x4, 1, 0x0, false, false⟩,
  ⟨.safMbxDb, 0x180214, 1, 0x0, 1, 0x0, false, false⟩,
  ⟨.safMbxStat, 0x180218, 1, 0x0, 1, 0x0, false, false⟩,
  ⟨.safMbxResp, 0x180220, 4, 0x4, 1, 0x0, false, false⟩,
  ⟨.safLog, 0x188000, 1024, 0x20, 8, 0x4, false, false⟩,
  ⟨.safHaloCfg, 0x190000, 1, 0x0, 1, 0x0, false, false⟩,
  ⟨.safHaloVolstat, 0x190004, 1, 0x0, 1, 0x0, false, false⟩,
  ⟨.safHaloBadrec, 0x190008, 1, 0x0, 1, 0x0, false, false⟩,
  ⟨.safHaloZone, 0x19000C, 1, 0x0, 1, 0x0, false, false⟩,
  ⟨.safHaloArm, 0x190100, 8, 0x4, 1, 0x0, false, false⟩,
  ⟨.safHaloCap, 0x190200, 8, 0x40, 12, 0x4, false, false⟩]

/-- The registers of the PLT block. -/
def regRowsPlt : List RegRow := [
  ⟨.pltPort, 0x1A0000, 2, 0x10, 1, 0x0, false, false⟩,
  ⟨.pltSafeinfo, 0x1A0800, 1, 0x0, 1, 0x0, false, false⟩,
  ⟨.pltSafefail, 0x1A0804, 1, 0x0, 1, 0x0, false, false⟩,
  ⟨.pltSafeunk, 0x1A0808, 1, 0x0, 1, 0x0, false, false⟩,
  ⟨.pltScfg, 0x1A0900, 32, 0x20, 1, 0x0, false, false⟩,
  ⟨.pltSid, 0x1A0904, 32, 0x20, 1, 0x0, false, false⟩,
  ⟨.pltSstat, 0x1A0908, 32, 0x20, 1, 0x0, false, false⟩,
  ⟨.pltScnt, 0x1A090C, 32, 0x20, 1, 0x0, false, false⟩,
  ⟨.pltSage, 0x1A0910, 32, 0x20, 1, 0x0, false, false⟩]

/-- The registers of the DBG block. -/
def regRowsDbg : List RegRow := [
  ⟨.dbgState, 0x1C0000, 1, 0x0, 1, 0x0, false, false⟩,
  ⟨.dbgChal, 0x1C0020, 8, 0x4, 1, 0x0, false, false⟩,
  ⟨.dbgUnlk, 0x1C0040, 33, 0x4, 1, 0x0, false, false⟩,
  ⟨.dbgUnlkgo, 0x1C00C4, 1, 0x0, 1, 0x0, false, false⟩]

/-- The rows of the block that an offset lies in (the block map of R512). -/
def regRowsAt (off : Nat) : List RegRow :=
  if off < 0x10000 then regRowsGlb
  else if off < 0x20000 then regRowsClk
  else if off < 0x40000 then regRowsAlm
  else if off < 0x80000 then regRowsPln
  else if off < 0xA0000 then regRowsSlv
  else if off < 0xB0000 then regRowsCtl
  else if off < 0xC0000 then regRowsFln
  else if off < 0xD0000 then regRowsFbk
  else if off < 0xE0000 then regRowsAux
  else if off < 0x100000 then regRowsLin
  else if off < 0x140000 then regRowsMer
  else if off < 0x160000 then regRowsCap
  else if off < 0x180000 then regRowsEph
  else if off < 0x1A0000 then regRowsSaf
  else if off < 0x1C0000 then regRowsPlt
  else if off < 0x200000 then regRowsDbg
  else []

/-- A register found at an offset: its family, its indices, whether the offset is its high word, its marks. -/
structure RegAt where
  id   : RegId
  i    : Nat
  j    : Nat
  high : Bool
  wide : Bool
  shad : Bool
  deriving DecidableEq, Repr

/-- Tries one row at an offset. -/
def RegRow.at? (r : RegRow) (off : Nat) : Option RegAt :=
  if off < r.base then none
  else
    let d := off - r.base
    let i := if r.st1 = 0 then 0 else d / r.st1
    let d1 := d - i * r.st1
    let j := if r.st2 = 0 then 0 else d1 / r.st2
    let d2 := d1 - j * r.st2
    if i < r.n1 && j < r.n2 && (d2 == 0 || (r.wide && d2 == 4)) then some ⟨r.id, i, j, d2 == 4, r.wide, r.shad⟩
    else none

/-- The base offset of a block with a PREFIX_COMMIT register (R36). -/
def cbBase : CBlock → Nat
  | .alm => 0x20000
  | .pln => 0x40000
  | .slv => 0x80000
  | .ctl => 0xA0000
  | .fln => 0xB0000
  | .fbk => 0xC0000
  | .aux => 0xD0000
  | .lin => 0xE0000
  | .cap => 0x140000

/-- The end of a block's range in BAR0 (R512). -/
def cbLimit : CBlock → Nat
  | .alm => 0x40000
  | .pln => 0x80000
  | .slv => 0xA0000
  | .ctl => 0xB0000
  | .fln => 0xC0000
  | .fbk => 0xD0000
  | .aux => 0xE0000
  | .lin => 0x100000
  | .cap => 0x160000

def cbIdx : CBlock → Fin 9
  | .alm => 0
  | .pln => 1
  | .slv => 2
  | .ctl => 3
  | .fln => 4
  | .fbk => 5
  | .aux => 6
  | .lin => 7
  | .cap => 8

/-- The blocks in ascending BAR0 offset (step 3 of R26). -/
def allBlocks : List CBlock := [.alm, .pln, .slv, .ctl, .fln, .fbk, .aux, .lin, .cap]

/-- The register at an offset of BAR0, if one lies there. -/
def regAt (off : Nat) : Option RegAt :=
  match allBlocks.find? (fun b => cbBase b + 0xFFC == off) with
  | some b => some ⟨.commit, (cbIdx b).val, 0, false, false, false⟩
  | none => (regRowsAt off).findSome? fun r => r.at? off

/-- The writable fields of a shadowed register, most significant first: high bit, low bit, and whether the field
is write-only (a CLR_ bit or FORCE, held until a commit applies, R36). -/
def regFields : RegId → List (Nat × Nat × Bool)
  | .almPushCtrl => [(7, 4, false), (0, 0, false)]
  | .almPushBase => [(63, 13, false)]
  | .plnCtrl => [(0, 0, false)]
  | .plnEntry => [(31, 23, false), (22, 2, false)]
  | .plnBudget => [(31, 0, false)]
  | .slvAllow => [(3, 0, false)]
  | .ctlDyncfg => [(7, 0, false)]
  | .ctlAxcfg => [(31, 28, false), (27, 24, false), (21, 16, false), (13, 8, false), (4, 4, false), (3, 3, false), (2, 2, false), (1, 1, false), (0, 0, false)]
  | .ctlAxctrl => [(2, 2, true), (1, 1, true), (0, 0, false)]
  | .ctlManual => [(31, 0, false)]
  | .ctlVlim => [(30, 0, false)]
  | .ctlTlim => [(30, 0, false)]
  | .ctlFewarn => [(30, 0, false)]
  | .ctlFelim => [(30, 0, false)]
  | .ctlShift => [(29, 25, false), (24, 20, false), (19, 15, false), (14, 10, false), (9, 5, false), (4, 0, false)]
  | .ctlK => [(31, 0, false)]
  | .flnPatch => [(63, 63, false), (62, 62, false), (60, 56, false), (42, 32, false), (15, 0, false)]
  | .flnCtrl => [(0, 0, false)]
  | .flnInsrc => [(20, 16, false), (14, 12, false), (11, 8, false), (6, 0, false)]
  | .fbkLwin => [(3, 0, false)]
  | .fbkSsifmt => [(31, 31, false), (30, 30, false), (29, 29, false), (28, 28, false), (27, 22, false), (21, 19, false), (18, 16, false), (15, 12, false), (11, 8, false), (7, 7, false), (6, 6, false), (4, 0, false)]
  | .fbkSsicrc => [(31, 16, false), (15, 0, false)]
  | .fbkSsitim => [(31, 22, false), (21, 21, false), (20, 13, false), (12, 5, false), (4, 0, false)]
  | .fbkSsilat => [(31, 16, false), (15, 0, false)]
  | .fbkAxsrc => [(31, 30, false), (27, 24, false), (23, 20, false), (15, 4, false)]
  | .auxChcfg => [(25, 25, false), (24, 24, false), (23, 16, false), (15, 8, false), (7, 0, false)]
  | .auxCur => [(29, 20, false), (19, 10, false), (9, 0, false)]
  | .auxAdapt => [(31, 24, false), (23, 16, false), (15, 8, false), (7, 0, false)]
  | .auxLoadfull => [(31, 16, false), (15, 0, false)]
  | .auxCtrl => [(0, 0, true)]
  | .linCtrl => [(15, 4, false), (2, 2, true), (1, 1, true), (0, 0, true)]
  | .capSet => [(31, 24, false), (21, 20, false), (19, 19, false), (18, 17, false), (16, 16, true), (15, 8, false), (5, 4, false), (1, 0, false)]
  | .capLen => [(28, 16, false), (15, 13, false), (12, 0, false)]
  | .capTcfg => [(26, 24, false), (23, 8, false), (7, 4, false), (3, 3, false), (2, 0, false)]
  | .capTth => [(31, 16, false), (15, 0, false)]
  | .capTw => [(31, 16, false), (15, 0, false)]
  | .capSig => [(20, 16, false), (14, 12, false), (11, 8, false), (6, 0, false)]
  | .capSigcal => [(31, 16, false), (15, 0, false)]
  | _ => []

/-- The mask of a field. -/
def fieldMask (f : Nat × Nat × Bool) : Nat := (2 ^ (f.1 + 1 - f.2.1) - 1) * 2 ^ f.2.1

/-- The bits of a shadowed register that hold a written value; a reserved field ignores what is written (R8). -/
def rwMask (id : RegId) : Nat := (regFields id).foldl (fun m f => if f.2.2 then m else Nat.lor m (fieldMask f)) 0
/-- The bits of its write-only fields. -/
def woMask (id : RegId) : Nat := (regFields id).foldl (fun m f => if f.2.2 then Nat.lor m (fieldMask f) else m) 0

end Sys2Proof.Machine
end

