-- ==== Sys2Proof/Machine/Commit.lean ====
section
/-! DEFINITION. Shadow registers and COMMIT (R36–R40): the validation of a commit field by field with its REASON, the
stop-safe fields, and what an applied commit changes. One-shot actions of write-only fields, PLN_CTRLn writes and
FLN patches are handed on in `State.due` to the commands that carry them out. -/

namespace Sys2Proof.Machine

/-- The block whose range an offset lies in, if it has shadowed registers. -/
def blockOf (off : Nat) : Option CBlock := allBlocks.find? fun b => decide (cbBase b ≤ off) && decide (off < cbLimit b)


/-! ### What a register of a fused-off or unmapped resource is (R3) -/

/-- A register that belongs only to a resource that is fused off on this part. (DESIGN CHOICE: log 11.) -/
def State.fusedReg (s : State) (r : RegAt) : Bool :=
  s.is8064 && (match r.id with
    | .plnCtrl | .plnEntry | .plnBudget | .plnStatus | .plnPc | .plnCause | .slvAllow => 4 ≤ r.i && r.i < 8
    | .slvTjob | .slvTcyc => 2 ≤ r.i
    | .ctlDyncfg | .ctlDynstat | .safHaloArm | .safHaloCap => 4 ≤ r.i
    | .ctlAxcfg | .ctlAxctrl | .ctlManual | .ctlVlim | .ctlTlim | .ctlFewarn | .ctlFelim | .ctlShift | .ctlK
    | .ctlStat | .ctlIp | .ctlIv | .ctlSatcnt
    | .fbkAxsrc | .fbkAxstat | .fbkAxpos | .fbkAxtime | .fbkAxmot | .fbkPlaus | .fbkPlaust
    | .auxCur | .auxAdapt | .auxLoadfull | .auxCtrl | .auxStat | .auxMoveid => 64 ≤ r.i
    | .fbkTout => 2 ≤ r.i
    | .glbCap => r.i == 8
    | _ => false)

/-! ### Validation (R38) -/

/-- A field of a register: the offset of the register and the field's bits. -/
structure FieldAt where
  off : Nat
  hi  : Nat
  lo  : Nat
  deriving DecidableEq, Repr

/-- A check of R38: the REASON it gives, the fields it relates, and whether the new values fail it. -/
structure Check where
  reason : Nat
  rel    : List FieldAt := []
  bad    : Bool

/-- A field visited after another: a higher offset, or lower bits of the same register. -/
def FieldAt.after (f g : FieldAt) : Bool := decide (g.off < f.off) || (f.off == g.off && decide (f.hi < g.lo))

/-- The rate limit NMAX of R191 for register word AUX_CHCFGc. -/
def State.nmaxOf (s : State) (w : Nat) : Nat :=
  let win : Int := (s.tTick : Int) - 10 * (fld w 15 8 : Nat) - 10 * (fld w 23 16 : Nat)
  (win / (max 500 (20 * fld w 7 0) : Nat)).toNat

/-- `ceil(x * n / d)` of a non-negative binary64 number, exactly. -/
def ceilMul (x : DWord) (n d : Nat) : Nat :=
  let e := f64Unit x
  let num := f64Man x * n * (if 0 ≤ e then 2 ^ e.toNat else 1)
  let den := d * (if 0 ≤ e then 1 else 2 ^ (-e).toNat)
  if den = 0 then 0 else (num + den - 1) / den

/-- The auxiliary axis served by local step channel `c`, if there is one. -/
def State.chanAxis (s : State) (c : Nat) : Option AuxProf :=
  s.prof.aux.find? fun p => s.axisPresent p.ax.val && (match p.out with | .step k => k.val == c | _ => false)

/-- The joints of an arm at standstill, and every auxiliary axis for core 8 (R117). -/
def State.coreStill (s : State) (n : Nat) : Bool :=
  if n = 8 then s.prof.aux.all fun p => s.atStandstill p.ax.val
  else match s.armProf n with
    | some p => p.joints.all fun j => s.atStandstill j.val
    | none => true

/-- The frame length F and the advance ADV of an SSI port, in ns (R292), from its format and timing words. -/
def ssiBits (fmt : Nat) : Nat := fld fmt 21 19 + fld fmt 27 22 + fld fmt 18 16 + fld fmt 4 0
def ssiF (fmt tim : Nat) : Nat :=
  (ssiBits fmt + 1) * (fld tim 31 22 * 10) + 10 * (if fld tim 21 21 = 1 then fld tim 12 5 else fld tim 20 13)
def State.ssiAdv (s : State) (fmt tim : Nat) : Nat := ssiF fmt tim - (s.gatherNs - 500)

/-- Whether an axis number names a fused-off axis. -/
def State.fusedAxis (s : State) (a : Nat) : Bool := s.is8064 && decide (64 ≤ a)

/-- The lanes that an axis names through VLANE and DLANE in a CTL_AXCFGa word. -/
def namesLane (cfg l : Nat) : Bool := fld cfg 13 8 == l || fld cfg 21 16 == l

/-- The checks on one changed field, given the values that the commit would put in force. (DEDUCED: log 22.) -/
def State.checksOf (s : State) (nv : Nat → Nat) (r : RegAt) (off hi lo : Nat) : List Check :=
  let v := nv off
  let x := fld v hi lo
  let range (bad : Bool) : Check := ⟨1, [], bad⟩
  let still (a : Nat) : Check := ⟨2, [], !s.atStandstill a⟩
  match r.id with
  | .almPushCtrl => if hi = 7 then [range (x < 1 || 8 < x)] else []
  | .plnEntry => if hi = 31 then [range (x != 0)] else []
  | .plnBudget => [range (s.prof.planDiv * s.runcyc < x)]
  | .plnCtrl => [⟨2, [], x == 0 && !s.coreStill r.i⟩]
  | .slvAllow => [range (Nat.land x s.tilesPresent.toNat == 0)]
  | .ctlAxcfg =>
    if hi = 21 || hi = 13 then [range (32 ≤ x && x ≤ 62), still r.i]
    else if hi = 4 then [⟨3, [], x == 1 && (s.jointOf r.i).isNone⟩]
    else if hi = 0 then
      [⟨1, [⟨off, 0, 0⟩, ⟨ctlBase r.i + 0x10, 30, 0⟩], x == 1 && nv (ctlBase r.i + 0x10) % 2 ^ 31 == 0⟩, still r.i]
    else []
  | .ctlAxctrl =>
    let clrInt : Check := ⟨2, [⟨off, 2, 2⟩, ⟨off, 0, 0⟩], bitOf v 2 && !s.atStandstill r.i && !bitOf v 0⟩
    if hi = 2 then [clrInt]
    else if hi = 0 then [clrInt, ⟨3, [], x == 1 && !s.runsCascade r.i⟩, ⟨2, [], x == 1 && !s.atStandstill r.i⟩]
    else []
  | .ctlVlim | .ctlFelim => [range (x == 0)]
  | .ctlTlim =>
    [⟨1, [⟨ctlBase r.i, 0, 0⟩, ⟨off, 30, 0⟩], x == 0 && bitOf (nv (ctlBase r.i)) 0⟩]
  | .ctlShift => if r.j = 3 && (hi = 9 || hi = 14) then [still r.i] else []
  | .flnPatch => if hi = 42 then [range (bitOf v 63 && 0x7F0 ≤ x && x ≤ 0x7FF)] else []
  | .flnCtrl =>
    [⟨2, [], x == 0 && (List.range 128).any (fun a =>
      s.axisPresent a && namesLane (s.ctlCfg a) r.i && !s.atStandstill a)⟩]
  | .flnInsrc =>
    let kind := fld v 11 8
    let fused : Check := ⟨1, [⟨off, 11, 8⟩, ⟨off, 6, 0⟩], s.fusedAxis (fld v 6 0) && ((1 ≤ kind && kind ≤ 4) || kind == 6)⟩
    if hi = 11 then [range (8 ≤ x), fused] else if hi = 6 then [fused] else []
  | .fbkLwin => [range (x < 1 || 8 < x)]
  | .fbkSsifmt =>
    let tim := nv (off + 8)
    let frame : List Check :=
      [⟨3, [⟨off, 27, 22⟩, ⟨off, 21, 19⟩, ⟨off, 18, 16⟩, ⟨off, 4, 0⟩, ⟨off + 8, 31, 22⟩, ⟨off + 8, 21, 21⟩,
            ⟨off + 8, 20, 13⟩, ⟨off + 8, 12, 5⟩, ⟨off + 8, 4, 0⟩],
        (s.tTick < ssiF v tim + 1000 * fld tim 4 0) || (s.tTick < s.ssiAdv v tim + s.gatherNs)⟩]
    let users := (List.range 128).filter fun a =>
      let w := nv (0xC1000 + a * 0x20)
      fld w 31 30 == 1 && fld w 27 24 == r.i
    let axisStill : Check := ⟨2, [], (List.range 128).any fun a =>
      let w := s.regN (0xC1000 + a * 0x20)
      fld w 31 30 == 1 && fld w 27 24 == r.i && !s.atStandstill a⟩
    (if hi = 27 then [range (x < 8 || 48 < x)] else if hi = 18 then [range (4 < x)]
      else if hi = 4 then [range (x != 0 && (x < 3 || 16 < x))] else [])
      ++ (if hi = 31 then [⟨3, ⟨off, 31, 31⟩ :: users.flatMap (fun a =>
            [⟨0xC1000 + a * 0x20, 31, 30⟩, ⟨0xC1000 + a * 0x20, 27, 24⟩]), x == 0 && !users.isEmpty⟩] else [])
      ++ (if hi = 21 then [⟨3, [⟨off, 21, 19⟩, ⟨off + 8, 21, 21⟩], x == 0 && bitOf tim 21⟩] else [])
      ++ (if hi = 27 || hi = 21 || hi = 18 || hi = 4 then frame else []) ++ [axisStill]
  | .fbkSsicrc | .fbkSsilat =>
    [⟨2, [], (List.range 128).any fun a =>
      let w := s.regN (0xC1000 + a * 0x20)
      fld w 31 30 == 1 && fld w 27 24 == r.i && !s.atStandstill a⟩]
  | .fbkSsitim =>
    let fmt := nv (off - 8)
    let axisStill : Check := ⟨2, [], (List.range 128).any fun a =>
      let w := s.regN (0xC1000 + a * 0x20)
      fld w 31 30 == 1 && fld w 27 24 == r.i && !s.atStandstill a⟩
    (if hi = 31 then [range (x < 10 || 1000 < x)] else if hi = 4 then [range (x == 0)] else [])
      ++ (if hi = 21 then [⟨3, [⟨off - 8, 21, 19⟩, ⟨off, 21, 21⟩], x == 1 && fld fmt 21 19 == 0⟩] else [])
      ++ [⟨3, [⟨off - 8, 27, 22⟩, ⟨off - 8, 21, 19⟩, ⟨off - 8, 18, 16⟩, ⟨off - 8, 4, 0⟩, ⟨off, 31, 22⟩, ⟨off, 21, 21⟩,
            ⟨off, 20, 13⟩, ⟨off, 12, 5⟩, ⟨off, 4, 0⟩],
          (s.tTick < ssiF fmt v + 1000 * fld v 4 0) || (s.tTick < s.ssiAdv fmt v + s.gatherNs)⟩, axisStill]
  | .fbkAxsrc =>
    let port := fld v 27 24
    let mates := (List.range 128).filter fun b =>
      let w := nv (0xC1000 + b * 0x20)
      fld w 31 30 == 1 && fld w 27 24 == port
    let rel : List FieldAt := ⟨0xC0100 + port * 0x40, 31, 31⟩ :: mates.flatMap (fun b =>
      [⟨0xC1000 + b * 0x20, 31, 30⟩, ⟨0xC1000 + b * 0x20, 27, 24⟩])
    let share : Check := ⟨3, rel, fld v 31 30 == 1 &&
      (1 < mates.length || !bitOf (nv (0xC0100 + port * 0x40)) 31)⟩
    if hi = 31 then [range (x == 3), share, still r.i]
    else if hi = 27 then [share, still r.i]
    else if hi = 23 then [range (x < 1 || 8 < x)]
    else if hi = 15 then [range (x == 0)]
    else []
  | .auxChcfg =>
    let ax := s.chanAxis r.i
    let nmax : Check := ⟨3, [⟨off, 23, 16⟩, ⟨off, 15, 8⟩, ⟨off, 7, 0⟩], match ax with
      | some p => decide (s.nmaxOf v < ceilMul (f32ToF64 p.vmax) s.tTick 1000000000 + 1)
      | none => false⟩
    let st : Check := ⟨2, [], match ax with | some p => !s.atStandstill p.ax.val | none => false⟩
    (if hi = 7 then [range (x < 5)] else if hi = 15 || hi = 23 then [range (x == 0)] else [])
      ++ (if hi ≤ 23 then [nmax] else []) ++ [st]
  | .auxCur =>
    [⟨3, [⟨off, 29, 20⟩, ⟨off, 19, 10⟩, ⟨off, 9, 0⟩], fld v 19 10 < fld v 9 0 || fld v 29 20 < fld v 19 10⟩]
  | .auxAdapt => if hi = 23 || hi = 15 then [range (x == 0)] else []
  | .auxLoadfull => [range (x == 0)]
  | .linCtrl => if hi = 15 then [range (x == 0)] else []
  | .capSet => if hi = 5 then [range (x == 3)] else if hi = 15 then [range (x == 0)] else []
  | .capLen =>
    if hi = 12 then [range (x == 0 || 4096 < x), ⟨1, [⟨off, 28, 16⟩, ⟨off, 12, 0⟩], x ≤ fld v 28 16⟩]
    else if hi = 28 then [⟨1, [⟨off, 28, 16⟩, ⟨off, 12, 0⟩], fld v 12 0 ≤ x⟩]
    else []
  | .capTcfg =>
    if hi = 7 then [range (x == 0 || 8 < x)]
    else if hi = 2 then [range (5 ≤ x), ⟨1, [⟨off, 2, 0⟩, ⟨off + 4, 31, 16⟩], x == 4 && (fld (nv (off + 4)) 31 16 == 0 || 2 ^ 15 ≤ fld (nv (off + 4)) 31 16)⟩]
    else []
  | .capTth =>
    if hi = 31 then [⟨1, [⟨off - 4, 2, 0⟩, ⟨off, 31, 16⟩], fld (nv (off - 4)) 2 0 == 4 && (x == 0 || 2 ^ 15 ≤ x)⟩] else []
  | .capSig =>
    let kind := fld v 11 8
    let fused : Check := ⟨1, [⟨off, 11, 8⟩, ⟨off, 6, 0⟩], s.fusedAxis (fld v 6 0) && ((1 ≤ kind && kind ≤ 4) || kind == 6)⟩
    if hi = 11 then [range (9 ≤ x), fused] else if hi = 6 then [fused] else []
  | _ => []

/-- Whether a change of a field is stop-safe in a safety state (R40). -/
def stopSafe (st : Safety) (id : RegId) (hi : Nat) (wo : Bool) (old new : Nat) : Bool :=
  match st with
  | .run => true
  | .sto => !(id == .ctlAxctrl && hi == 0 && new == 1)
  | _ =>
    wo || (match id with
      | .ctlAxctrl => hi == 0 && new == 0
      | .ctlManual | .ctlFewarn | .almPushCtrl | .almPushBase | .plnBudget | .slvAllow | .plnCtrl
      | .capSet | .capLen | .capTcfg | .capTth | .capTw | .capSig | .capSigcal => true
      | .ctlVlim | .ctlTlim | .ctlFelim => decide (new ≤ old)
      | .linCtrl => hi == 15
      | _ => false)

/-- The value of a register, both words of a wide one, from a word function. -/
def wideVal (word : Nat → Nat) (off : Nat) (wide : Bool) : Nat := word off + (if wide then 2 ^ 32 * word (off + 4) else 0)

/-- The carried registers of a commit, in ascending offset, from the shadow entries it takes in. (DEDUCED: log 21.) -/
def carried (snap : Bank) : List (Nat × RegAt) :=
  snap.filterMap fun e => match regAt e.1 with
    | some r => if r.high then none else some (e.1, r)
    | none => none

/-- Validates one commit (R38): the REASON of the first check that fails. (DEDUCED: log 22.) -/
def State.validate (s : State) (snap : Bank) : Option Nat :=
  let word (off : Nat) : Nat := match snap.find? (fun e => e.1 == off) with
    | some e => e.2.toNat
    | none => s.regN off
  let wideAt (off : Nat) : Bool := match regAt off with | some r => r.wide | none => false
  let nv (off : Nat) : Nat := wideVal word off (wideAt off)
  let changedF (f : FieldAt) : Bool := fld (nv f.off) f.hi f.lo != fld (wideVal s.regN f.off (wideAt f.off)) f.hi f.lo
  (carried snap).findSome? fun e =>
    let old := wideVal s.regN e.1 e.2.wide
    let new := nv e.1
    let patch := e.2.id == .flnPatch && bitOf new 63
    (regFields e.2.id).findSome? fun f =>
      let o := fld old f.1 f.2.1
      let x := fld new f.1 f.2.1
      if o != x || patch || (e.2.id == .plnCtrl && x == 0) then
        if o != x && !stopSafe s.coreSafety e.2.id f.1 f.2.2 o x then some 4
        else if patch && !stopSafe s.coreSafety e.2.id f.1 f.2.2 o x then some 4
        else
          let me : FieldAt := ⟨e.1, f.1, f.2.1⟩
          let cs := (s.checksOf nv e.2 e.1 f.1 f.2.1).filter fun c =>
            !(c.rel.any fun g => g != me && g.after me && changedF g)
          (cs.find? (fun c => c.bad)).map fun c => c.reason
      else none

/-- The bits of one word of a register that a commit puts in force. -/
def heldMask (r : RegAt) : Nat :=
  let m := if r.wide then (if r.high then rwMask r.id / 2 ^ 32 else rwMask r.id % 2 ^ 32) else rwMask r.id
  if r.id == .ctlShift && r.j == 3 then m % 2 ^ 15 else m

/-- Applies the registers of a commit: the values in force, and the one-shot actions that it carries. -/
def State.applyRegs (s : State) (snap : Bank) : State :=
  snap.foldl (fun s e =>
    match regAt e.1 with
    | none => s
    | some r =>
      let v := e.2.toNat
      let s1 := s.setReg e.1 (BitVec.ofNat 32 (Nat.land v (heldMask r)))
      let act := Nat.land v (woMask r.id)
      if r.id == .plnCtrl then { s1 with due := assocSet s1.due e.1 (BitVec.ofNat 32 (v % 2)) }
      else if r.id == .capSet then { s1 with due := assocSet s1.due e.1 (BitVec.ofNat 32 (act + 1)) }
      else if r.id == .flnPatch then { s1 with due := assocSet s1.due e.1 e.2 }
      else if act != 0 then { s1 with due := assocSet s1.due e.1 (BitVec.ofNat 32 act) }
      else s1) s

/-- The cascade states of axes whose SPMODE a commit changes are set to 0 at its boundary (R263). -/
def State.spmodeReset (old s : State) : State :=
  { s with
    cascs := vmap (fun a k =>
      if bitOf (old.ctlCfg a) 0 != bitOf (s.ctlCfg a) 0 then { k with ip := 0, iv := 0, epPrev := 0, bq1 := {}, bq2 := {} } else k)
      s.cascs }

/-- Reads and updates the commit status of a block. -/
def State.commitStat (s : State) (b : CBlock) : CommitStat := s.commits[cbIdx b]
def State.modCommit (s : State) (b : CBlock) (f : CommitStat → CommitStat) : State :=
  { s with commits := vmod s.commits (cbIdx b) f }

/-- A commit that carries ALM_PUSH_CTRL with EN = 1 enables the push again after a reset of HOST (R511).
(DEDUCED: log 79.) -/
def enablesPush (snap : Bank) : Bool := snap.any fun e => e.1 == 0x20010 && e.2.getLsbD 0

/-- Applies or rejects the commit of one block (R37, R38, R40). The shadow entries that it took in are gone once it
applies, unless a later write replaced them; a rejected commit leaves them held. (DEDUCED: log 21.) -/
def State.commitBlock (s : State) (b : CBlock) (snap : Bank) : State :=
  match s.validate snap with
  | some reason =>
    s.modCommit b fun c => { c with reason := BitVec.ofNat 8 reason, reject := true }
  | none =>
    let s1 := s.applyRegs snap
    let s2 := if b == .ctl then State.spmodeReset s s1 else s1
    { s2 with
      shadow := s2.shadow.filter fun e => !(snap.contains e)
      host := { s2.host with pushOff := s2.host.pushOff && !enablesPush snap }
      comApplied := true }

/-- What step 2 hands to step 3: the commits to make, with the shadow entries each takes in. -/
abbrev Snaps := List (CBlock × Bank)

/-- The entries of a bank that lie in a block. -/
def bankOf (b : CBlock) (m : Bank) : Bank := m.filter fun e => decide (cbBase b ≤ e.1) && decide (e.1 < cbLimit b)

/-- A GO is released (R37, R39): its commit takes in every shadow write released before it; a second GO of one
block with the same stamp takes the place of the first and sets MERGED. -/
def State.releaseGo (s : State) (sn : Snaps) (b : CBlock) : State × Snaps :=
  let snap := bankOf b s.shadow
  if sn.any (fun e => e.1 == b) then
    (s.modCommit b fun c => { c with merged := true }, sn.filter (fun e => e.1 != b) ++ [(b, snap)])
  else (s, sn ++ [(b, snap)])

/-- Step 3 of R26: pending commits are applied block by block in ascending BAR0 offset. -/
def State.step3 (s : State) (sn : Snaps) : State :=
  allBlocks.foldl (fun s b => match sn.find? (fun e => e.1 == b) with
    | some e => s.commitBlock b e.2
    | none => s) s

end Sys2Proof.Machine
end

