-- ==== Sys2Proof/Machine/Segment.lean ====
section
/-! DEFINITION. Segment descriptors (R151–R153) and the curves they describe (R156–R158): positions, derivatives, the
bounds D1 and D2, and the extremes that the POSITION check looks at. -/

namespace Sys2Proof.Machine

/-- Reads a segment descriptor from its 128 bytes (R151). -/
def segOfBytes (b : List Byte) : SegDesc where
  segId := BitVec.ofNat 32 (valAt b 0 4)
  kind := nth b 4 0
  line := nth b 5 0
  nj := nth b 6 0
  flags := nth b 7 0
  anchor := BitVec.ofNat 64 (valAt b 8 8)
  span := BitVec.ofNat 32 (valAt b 0x10 4)
  lagMax := BitVec.ofNat 32 (valAt b 0x14 4)
  uncMax := BitVec.ofNat 16 (valAt b 0x18 2)
  vfrac := BitVec.ofNat 16 (valAt b 0x1A 2)
  afrac := BitVec.ofNat 16 (valAt b 0x1C 2)
  rsv1 := BitVec.ofNat 16 (valAt b 0x1E 2)
  dwellNs := BitVec.ofNat 64 (valAt b 0x20 8)
  cspeed := BitVec.ofNat 64 (valAt b 0x28 8)
  actAt := BitVec.ofNat 64 (valAt b 0x30 8)
  action := nth b 0x38 0
  actTgt := nth b 0x39 0
  rsv2 := BitVec.ofNat 48 (valAt b 0x3A 6)
  target := (List.range 16).map fun j => BitVec.ofNat 32 (valAt b (0x40 + 4 * j) 4)

def SegDesc.isMove (d : SegDesc) : Bool := d.kind == 1
def SegDesc.isTrack (d : SegDesc) : Bool := d.kind == 2
def SegDesc.isDwell (d : SegDesc) : Bool := d.kind == 3
def SegDesc.trackChk (d : SegDesc) : Bool := d.flags.getLsbD 0
def SegDesc.missStop (d : SegDesc) : Bool := d.flags.getLsbD 1
def SegDesc.gate (d : SegDesc) : Bool := d.flags.getLsbD 2
def SegDesc.neg (d : SegDesc) : Bool := d.flags.getLsbD 3
def SegDesc.timed (d : SegDesc) : Bool := d.isDwell && d.line == 0xFF
/-- The count at the end of a TRACK segment. -/
def SegDesc.endCount (d : SegDesc) : Int := d.anchor.toInt + d.span.toInt
def SegDesc.tgt (d : SegDesc) (j : Nat) : Int := (nth d.target j 0).toInt

/-- `next` continues the chain of `d` (R156). -/
def SegDesc.continuedBy (d next : SegDesc) : Bool :=
  d.isTrack && next.isTrack && d.line == next.line && next.anchor.toInt == d.endCount
    && decide (0 < d.span.toInt) == decide (0 < next.span.toInt)

/-- A finite binary64 above zero. -/
def f64Pos (x : DWord) : Bool := f64IsFinite x && !f64Neg x && !f64IsZero x

/-- The checks of R151 to R153 in ascending offset order: the offset of the first failing field. `nj` is the joint
count of the arm, `lineEn` the enables of the lines, `isAux` the auxiliary axes. -/
def SegDesc.check (d : SegDesc) (nj : Nat) (lineEn isAux : Nat → Bool) : Option Nat :=
  let ln := d.line.toNat
  let lineOk := if ln < 8 then lineEn ln && !(d.line == 0xFF) else d.line == 0xFF && !d.isTrack
  let sp := d.span.toInt
  let an := d.anchor.toInt
  let aAt := d.actAt.toInt
  let noAct := d.action == 0
  let actAtOk :=
    if noAct then d.actAt == 0
    else if d.isTrack then (if 0 < sp then an ≤ aAt && aAt ≤ an + sp else an + sp ≤ aAt && aAt ≤ an)
    else if d.isMove then true
    else if d.timed then decide (d.actAt.toNat < d.dwellNs.toNat)
    else if d.neg then decide (an ≤ aAt) else decide (aAt ≤ an)
  let tests : List (Bool × Nat) := [
    (d.segId == 0, 0x00),
    (!(d.isMove || d.isTrack || d.isDwell), 0x04),
    (!lineOk, 0x05),
    (d.nj.toNat != nj, 0x06),
    (16 ≤ d.flags.toNat || (d.isMove && (d.gate == (d.line == 0xFF))) || (!d.isMove && d.gate)
      || (d.isTrack && d.neg) || (!d.isTrack && (d.trackChk || d.missStop)), 0x07),
    ((d.isMove && !d.gate && d.anchor != 0) || (d.timed && d.anchor != 0), 0x08),
    (if d.isTrack then sp == 0 || sp == -(2 ^ 31) else sp != 0, 0x10),
    (!d.isTrack && d.lagMax != 0, 0x14),
    (!d.isTrack && d.uncMax != 0, 0x18),
    (d.vfrac == 0 || 0x8000 < d.vfrac.toNat, 0x1A),
    (d.afrac == 0 || 0x8000 < d.afrac.toNat, 0x1C),
    (d.rsv1 != 0, 0x1E),
    (if d.timed then d.dwellNs == 0 else d.dwellNs != 0, 0x20),
    (if d.isDwell then d.cspeed != 0 else !f64Pos d.cspeed, 0x28),
    (3 < d.action.toNat || !actAtOk, 0x38),
    (if noAct then d.actTgt != 0 else if d.action == 1 then !(d.actTgt.toNat < 128 && isAux d.actTgt.toNat)
      else 15 < d.actTgt.toNat, 0x39),
    (d.rsv2 != 0, 0x3A),
    ((List.range 16).any (fun j => (nj ≤ j || d.isDwell) && nth d.target j 0 != 0), 0x40)]
  (tests.find? fun t => t.1).map fun t => t.2

/-! ### Curves (R156–R158) -/

/-- The curve of one joint over one segment: kind, end points, SPAN, and the slopes of a TRACK segment. -/
structure JCurve where
  kind : Nat
  qs   : Int
  qe   : Int
  span : Int
  m0   : DWord
  m1   : DWord

def f64Two : DWord := fofInt 2
def fscale (n : Int) (x : DWord) : DWord := fmul (fofInt n) x

/-- Sums left to right. -/
def fsum4 (a b c d : DWord) : DWord := fadd (fadd (fadd a b) c) d

/-- The position at `s` (path evaluation of R158). (DEDUCED: log 39.) -/
def JCurve.q (c : JCurve) (s : DWord) : DWord :=
  if c.kind = 1 then fadd (fofInt c.qs) (fmul (fofInt (c.qe - c.qs)) s)
  else if c.kind = 3 then fofInt c.qs
  else
    let mm0 := fmul c.m0 (fofInt c.span)
    let mm1 := fmul c.m1 (fofInt c.span)
    let s2 := fmul s s
    let s3 := fmul s2 s
    let h00 := fadd (fsub (fscale 2 s3) (fscale 3 s2)) f64One
    let h10 := fadd (fsub s3 (fscale 2 s2)) s
    let h01 := fadd (fscale (-2) s3) (fscale 3 s2)
    let h11 := fsub s3 s2
    fsum4 (fmul h00 (fofInt c.qs)) (fmul h10 mm0) (fmul h01 (fofInt c.qe)) (fmul h11 mm1)

/-- The first derivative at `s`. -/
def JCurve.dq (c : JCurve) (s : DWord) : DWord :=
  if c.kind = 1 then fofInt (c.qe - c.qs)
  else if c.kind = 3 then 0
  else
    let mm0 := fmul c.m0 (fofInt c.span)
    let mm1 := fmul c.m1 (fofInt c.span)
    let s2 := fmul s s
    let d00 := fsub (fscale 6 s2) (fscale 6 s)
    let d10 := fadd (fsub (fscale 3 s2) (fscale 4 s)) f64One
    let d01 := fadd (fscale (-6) s2) (fscale 6 s)
    let d11 := fsub (fscale 3 s2) (fscale 2 s)
    fsum4 (fmul d00 (fofInt c.qs)) (fmul d10 mm0) (fmul d01 (fofInt c.qe)) (fmul d11 mm1)

/-- The second derivative at `s`. -/
def JCurve.ddq (c : JCurve) (s : DWord) : DWord :=
  if c.kind = 2 then
    let mm0 := fmul c.m0 (fofInt c.span)
    let mm1 := fmul c.m1 (fofInt c.span)
    let e00 := fsub (fscale 12 s) (fofInt 6)
    let e10 := fsub (fscale 6 s) (fofInt 4)
    let e01 := fadd (fscale (-12) s) (fofInt 6)
    let e11 := fsub (fscale 6 s) f64Two
    fsum4 (fmul e00 (fofInt c.qs)) (fmul e10 mm0) (fmul e01 (fofInt c.qe)) (fmul e11 mm1)
  else 0

/-- The coefficients of q′ = a s² + b s + c of a TRACK segment. -/
def JCurve.coefs (c : JCurve) : DWord × DWord × DWord :=
  let mm0 := fmul c.m0 (fofInt c.span)
  let mm1 := fmul c.m1 (fofInt c.span)
  let q0 := fofInt c.qs
  let q1 := fofInt c.qe
  (fadd (fsub (fadd (fscale 6 q0) (fscale 3 mm0)) (fscale 6 q1)) (fscale 3 mm1),
   fsub (fadd (fsub (fscale (-6) q0) (fscale 4 mm0)) (fscale 6 q1)) (fscale 2 mm1),
   mm0)

def inUnit (x : DWord) : Bool := f64Lt 0 x && f64Lt x f64One

/-- D1 of R159. -/
def JCurve.d1 (c : JCurve) : DWord :=
  if c.kind = 1 then f64Abs (fofInt (c.qe - c.qs))
  else if c.kind = 3 then 0
  else
    let m := fmax (f64Abs (c.dq 0)) (f64Abs (c.dq f64One))
    let co := c.coefs
    if f64IsZero co.1 then m
    else
      let sv := fdiv (f64Negate co.2.1) (fmul f64Two co.1)
      if inUnit sv then fmax m (f64Abs (c.dq sv)) else m

/-- D2 of R159. -/
def JCurve.d2 (c : JCurve) : DWord :=
  if c.kind = 2 then fmax (f64Abs (c.ddq 0)) (f64Abs (c.ddq f64One)) else 0

/-- The points that the POSITION check evaluates beside the end points: the roots of q′ inside (0, 1). -/
def JCurve.extremes (c : JCurve) : List DWord :=
  if c.kind = 2 then
    let co := c.coefs
    let a := co.1
    let b := co.2.1
    let cc := co.2.2
    let roots :=
      if f64IsZero a then (if f64IsZero b then [] else [fdiv (f64Negate cc) b])
      else
        let disc := fsub (fmul b b) (fmul (fmul (fofInt 4) a) cc)
        if f64Lt disc 0 then []
        else
          let r := fsqrt disc
          let den := fmul f64Two a
          [fdiv (fsub (f64Negate b) r) den, fdiv (fadd (f64Negate b) r) den]
    (roots.filter inUnit).map c.q
  else []

/-- The curves of a segment's joints, from its start point and its knot slopes. -/
def SegDesc.curves (d : SegDesc) (q0 : List Int) (m0 m1 : List DWord) : List JCurve :=
  (List.range d.nj.toNat).map fun j =>
    ⟨d.kind.toNat, nth q0 j 0, d.tgt j, d.span.toInt, nth m0 j 0, nth m1 j 0⟩

/-- The end point of a segment: its TARGET, or for a DWELL the position it holds (DEDUCED: its TARGET is 0).
(DEDUCED: log 39.) -/
def SegDesc.endPoint (d : SegDesc) (q0 : List Int) : List Int :=
  if d.isDwell then q0 else (List.range d.nj.toNat).map d.tgt

def fquot (a b : Int) : DWord := fdiv (fofInt a) (fofInt b)

/-- The one-sided slopes m_0 and m_n of R156, one per joint. -/
def SegDesc.oneSided (d : SegDesc) (q0 : List Int) : List DWord :=
  (List.range d.nj.toNat).map fun j => if d.isTrack then fquot (d.tgt j - nth q0 j 0) d.span.toInt else 0

/-- The end slopes of a segment: across the knot into a successor that continues the chain, else one-sided. -/
def SegDesc.endSlopes (d : SegDesc) (q0 : List Int) (next : Option SegDesc) : List DWord :=
  match next with
  | some n =>
    if d.continuedBy n then
      (List.range d.nj.toNat).map fun j => fquot (n.tgt j - nth q0 j 0) (n.endCount - d.anchor.toInt)
    else d.oneSided q0
  | none => d.oneSided q0

/-- The curves of a run of segments from a start point, each with its start and end slopes; `prev` gives the end
slope already fixed for a predecessor that the first one continues. -/
def chainCurves : List SegDesc → List Int → Option (List DWord) → List (SegDesc × List JCurve)
  | [], _, _ => []
  | d :: ds, q0, prev =>
    let m0 := match prev with | some m => m | none => d.oneSided q0
    let m1 := d.endSlopes q0 ds.head?
    let carry := match ds.head? with | some n => if d.continuedBy n then some m1 else none | none => none
    (d, d.curves q0 m0 m1) :: chainCurves ds (d.endPoint q0) carry

end Sys2Proof.Machine
end

