-- ==== Sys2Proof/Machine/ArmGen.lean ====
section
/-! DEFINITION. The trajectory generator of an arm group (R159–R168, R170–R174): the advance of one tick, the end of
segments, tracking windows and actions, and the commanded positions with their feedforward. -/

namespace Sys2Proof.Machine

/-- t_tick in seconds, the nearest binary64. -/
def State.tSec (s : State) : DWord := fratio s.tTick 1000000000

/-- What a generator reads of a line (R159): the line target pl, the speed V, the uncertainty and LINE_FAULT. -/
structure LineIn where
  pl    : DWord
  v     : DWord
  unc   : Nat
  fault : Bool

def State.lineOf (s : State) (n : Nat) : Line := s.lines[n % 8]'(Nat.mod_lt _ (by decide))

def State.lineIn (s : State) (n : Nat) : LineIn :=
  let l := s.lineOf n
  let v := fofInt l.est.v
  ⟨fadd (fofInt l.latch.count) (fmul v s.tSec), v, l.latch.uncert, l.latch.fault⟩

/-- The limits of a joint in binary64. -/
structure JLim where
  v  : DWord
  a  : DWord
  j  : DWord
  as : DWord
  js : DWord

def JointLim.f64 (l : JointLim) : JLim := ⟨f32ToF64 l.vmax, f32ToF64 l.amax, f32ToF64 l.jmax, f32ToF64 l.astop, f32ToF64 l.jstop⟩

def ufrac (x : BitVec 16) : DWord := fdiv (fofInt x.toNat) (fofInt 32768)

/-- What the caps of R160 need of one joint: D1, D2, and the limits that apply. -/
structure JCap where
  d1 : DWord
  d2 : DWord
  vm : DWord
  am : DWord
  jm : DWord
  as : DWord
  js : DWord

/-- The joint caps of a segment: fractions of the plan limits, or the stop limits while stopping. -/
def jointCaps (stopping : Bool) (d : SegDesc) (cs : List JCurve) (ls : List JLim) : List JCap :=
  (cs.zip ls).map fun e =>
    let c := e.1
    let l := e.2
    { d1 := c.d1, d2 := c.d2, vm := fmul (ufrac d.vfrac) l.v,
      am := if stopping then l.as else fmul (ufrac d.afrac) l.a,
      jm := if stopping then l.js else fmul (ufrac d.afrac) l.j, as := l.as, js := l.js }

def fminOver (l : List DWord) : DWord := l.foldl fmin (f64Inf false)
/-- The joints that move at all: a cap over none of them imposes no limit. -/
def moving (js : List JCap) : List JCap := js.filter fun j => f64Lt 0 j.d1

def vcapOf (js : List JCap) : DWord := fminOver ((moving js).map fun j => fdiv j.vm j.d1)
def acapOf (js : List JCap) (sig : DWord) (shed : Bool) : DWord :=
  fminOver ((moving js).map fun j =>
    fdiv (fmax 0 (fsub (if shed then j.as else j.am) (fmul (fmul j.d2 sig) sig))) j.d1)
def jcapOf (js : List JCap) (shed : Bool) : DWord :=
  fminOver ((moving js).map fun j => fdiv (if shed then j.js else j.jm) j.d1)

/-- The speed from which a stop ends at the next rest point (R161): `segs` are the segments from the one in
progress to the rest point, each with its joint caps. (DESIGN CHOICE: log 103.) -/
def bcapOf (segs : List (SegDesc × List JCap)) (s sig : DWord) : DWord :=
  match segs with
  | [] => 0
  | (c, cj) :: rest =>
    let f (d : SegDesc) : DWord := f64Abs (fdiv (fofInt d.span.toInt) (fofInt c.span.toInt))
    let later := if f64Neg sig && !f64IsZero sig then [] else rest
    let withF : List (DWord × List JCap) := (f64One, cj) :: later.map fun e => (f e.1, e.2)
    let l := if f64Neg sig && !f64IsZero sig then s
      else later.foldl (fun x e => fadd x (f e.1)) (fsub f64One s)
    let w := f64Abs sig
    let acap := fminOver (withF.flatMap fun e => (moving e.2).map fun j =>
      let wf := fdiv w e.1
      fdiv (fmul e.1 (fmax 0 (fsub j.am (fmul (fmul j.d2 wf) wf)))) j.d1)
    let jcap := fminOver (withF.flatMap fun e => (moving e.2).map fun j => fdiv (fmul e.1 j.jm) j.d1)
    if f64IsZero acap then 0
    else if f64IsInf acap then f64Inf false
    else if f64IsInf jcap then fsqrt (fmul (fmul f64Two acap) l)
    else
      let a4 := fmul (fmul (fmul acap acap) acap) acap
      let rad := fadd (fdiv a4 (fmul jcap jcap)) (fmul (fmul (fofInt 8) acap) l)
      fdiv (fadd (fdiv (fmul (f64Negate acap) acap) jcap) (fsqrt rad)) f64Two

def fclamp (x lo hi : DWord) : DWord := fmax lo (fmin hi x)

/-- The speed limit of an arm: its Halo limit, and in the hold the hold speed limit as well (R163, R173). -/
def State.vhaloOf (s : State) (a : Arm) : DWord :=
  if s.coreSafety == .hold then fmin a.vhalo (fratio s.prof.slsMm 1000) else a.vhalo

/-- The active segments from the one in progress on, up to the end of its chain. -/
def chainOf : List SegDesc → List SegDesc
  | [] => []
  | [d] => [d]
  | d :: n :: ds => if d.continuedBy n then d :: chainOf (n :: ds) else [d]

/-- The advance of R160 for a MOVE or TRACK segment in progress. -/
def State.advanceArm (s : State) (a : Arm) (d : SegDesc) (run : RunSeg) (ls : List JLim) : Arm :=
  let t := s.tSec
  let stopping := a.stopping != .no
  let chain := chainOf (a.active.map fun x => x.d)
  let js := jointCaps stopping d (d.curves run.q0 run.m0 run.m1) ls
  let later := (chainCurves chain.tail (d.endPoint run.q0) (some run.m1)).map fun e => (e.1, jointCaps stopping e.1 e.2 ls)
  let segs := (d, js) :: later
  if (moving js).isEmpty && d.isMove then { a with s := f64One, sigma := 0, acc := 0 }
  else
    let li := s.lineIn d.line.toNat
    let st := fdiv (fsub li.pl (fofInt d.anchor.toInt)) (fofInt d.span.toInt)
    let want :=
      if stopping then 0
      else if d.isTrack then
        fadd (fdiv li.v (fofInt d.span.toInt)) (fdiv (fsub st a.s) (fmul (fofInt 16) t))
      else f64Inf false
    let hcap := fdiv (s.vhaloOf a) d.cspeed
    let lim := fmin (fmin (vcapOf js) hcap) (bcapOf segs a.s a.sigma)
    let shed := f64Lt hcap (f64Abs a.sigma)
    let want := fclamp want (f64Negate lim) lim
    let want := if d.isMove then fmax want 0 else want
    let acap := acapOf js a.sigma shed
    let jt := fmul (jcapOf js shed) t
    let a0 := fdiv (fsub want a.sigma) t
    let x := fclamp a0 (fsub a.acc jt) (fadd a.acc jt)
    let x := fclamp x (f64Negate acap) acap
    let sig := if f64Eq x a0 then want else fadd a.sigma (fmul x t)
    { a with s := fadd a.s (fmul sig t), sigma := sig, acc := x }

def State.modArm (s : State) (k : Fin 8) (f : Arm → Arm) : State := { s with arms := vmod s.arms k f }

/-- Whether the next move of an auxiliary axis to start is an armed one: the head, or the successor of a VEL move in
progress (R187, R188). -/
def AuxMove.armed (m : AuxMove) : Bool := m.flags.getLsbD 0
def AuxGen.armedNext (g : AuxGen) : Bool :=
  match g.queue, g.start with
  | m :: _, none => m.armed
  | m :: n :: _, some _ => m.kind == 3 && n.armed
  | _, _ => false
/-- Whether that move still waits for an arm action to release it (R167). (DEDUCED: log 85.) -/
def AuxGen.armedWaiting (g : AuxGen) : Bool := g.armedNext && !g.release

/-- An action fires (R167). -/
def State.fireAction (s : State) (k : Fin 8) (d : SegDesc) : State :=
  let b := d.actTgt.toNat
  if d.action == 1 then
    let ax : Fin 128 := ⟨b % 128, Nat.mod_lt _ (by decide)⟩
    if s.aux[ax].armedWaiting then { s with aux := vmod s.aux ax fun g => { g with release := true } }
    else s.raise 0x0411 1
  else if d.action == 2 then s.modArm k fun a => { a with toolOut := a.toolOut ||| ((1 : BitVec 16) <<< (b % 16)) }
  else if d.action == 3 then s.modArm k fun a => { a with toolOut := a.toolOut &&& ~~~((1 : BitVec 16) <<< (b % 16)) }
  else s

/-- The lag of R160 in line counts, against the tracking window of R165; a saturated uncertainty fails every window
(R178). -/
def State.windowOk (s : State) (d : SegDesc) (sp : DWord) : Bool :=
  let li := s.lineIn d.line.toNat
  let span := fofInt d.span.toInt
  let lag := fmul (f64Abs (fsub (fdiv (fsub li.pl (fofInt d.anchor.toInt)) span) sp)) (f64Abs span)
  f64Le lag (fofInt d.lagMax.toNat) && decide (li.unc ≤ d.uncMax.toNat) && decide (li.unc < 65535)

/-- Whether a line action's point has been reached (R166). -/
def State.lineActReached (s : State) (d : SegDesc) : Bool :=
  let li := s.lineIn d.line.toNat
  let back := if d.isTrack then decide (d.span.toInt < 0) else d.neg
  if back then f64Le li.pl (fofInt d.actAt.toInt) else f64Le (fofInt d.actAt.toInt) li.pl

/-- Whether a timed action is due: since the start of the segment, or since its gate opened. -/
def State.timeActReached (s : State) (d : SegDesc) (run : RunSeg) : Bool :=
  let n0 := if d.isMove && d.gate then run.nOpen else some run.nStart
  match n0 with
  | some n => decide (d.actAt.toNat ≤ (s.epoch + 1 - n) * s.tTick)
  | none => false

/-- Marks the action of the segment in progress as done. -/
def Arm.headDone (a : Arm) : Arm :=
  match a.active with
  | x :: r => { a with active := { x with actDone := true } :: r }
  | [] => a

/-- Every unfired action of the active plan, and of retired segments, is withheld for good (R168). -/
def State.withholdAll (s : State) (k : Fin 8) : State :=
  let a := s.arms[k]
  let n := (a.active.filter fun x => x.d.action != 0 && !x.actDone).length + a.late.length
  let s1 := (List.range n).foldl (fun s _ => s.raise 0x0411 1) s
  s1.modArm k fun a => { a with active := a.active.map fun x => { x with actDone := true }, late := [] }

/-- The tracking window and the action of the segment in progress, after the advance (R165–R168). `retiring` says
that the segment retires in this tick. (DEDUCED: log 40.) -/
def State.windowAndAction (s : State) (k : Fin 8) (retiring : Bool) : State :=
  let a := s.arms[k]
  match a.active, a.run with
  | x :: _, some run =>
    if a.stopping != .no then s
    else
      let d := x.d
      let chk := d.isTrack && d.trackChk
      let ok := !chk || s.windowOk d a.s
      let s1 := if chk && !ok && !run.missed then
          (s.raise 0x0410 1).modArm k fun a =>
            { a with
              run := some { run with missed := true }
              missStop := a.missStop || d.missStop }
        else s
      if d.action == 0 || x.actDone then s1
      else
        let due := if d.isMove then s.timeActReached d run || retiring
          else if d.timed then s.timeActReached d run
          else s.lineActReached d
        if !due then s1
        else if ok then (s1.modArm k Arm.headDone).fireAction k d
        else (s1.raise 0x0411 1).modArm k Arm.headDone
  | _, _ => s

/-- The segment in progress retires and its successor starts in the same tick (R162). A TRACK segment whose line
action has not fired keeps it pending. -/
def State.retireHead (s : State) (k : Fin 8) : State :=
  s.modArm k fun a =>
    match a.active, a.run with
    | x :: rest, some run =>
      let keep := if x.d.isTrack && x.d.action != 0 && !x.actDone then a.late ++ [x.d] else a.late
      let q0 := x.d.endPoint run.q0
      match rest with
      | [] => { a with active := [], run := none, s := 0, sigma := 0, acc := 0, base := q0, late := keep }
      | n :: _ =>
        let cont := x.d.continuedBy n.d
        let m0 := if cont then run.m1 else n.d.oneSided q0
        let run' : RunSeg := { nStart := s.epoch, q0 := q0, m0 := m0, m1 := n.d.oneSided q0 }
        let r := fun (v : DWord) => fdiv (fmul v (fofInt x.d.span.toInt)) (fofInt n.d.span.toInt)
        let a1 := { a with active := rest, run := some run', late := keep }
        if cont then { a1 with s := r (fsub a.s f64One), sigma := r a.sigma, acc := r a.acc }
        else { a1 with s := 0, sigma := 0, acc := 0 }
    | _, _ => a

/-- Fixes the curve of the segment in progress in the tick in which it starts to run (R157). -/
def Arm.fixCurve (a : Arm) : Arm :=
  match a.active, a.run with
  | x :: rest, some run =>
    if run.fixed then a
    else { a with run := some { run with fixed := true, m1 := x.d.endSlopes run.q0 (rest.head?.map fun n => n.d) } }
  | _, _ => a

/-- Opens the gate of a MOVE in the first tick in which its line target has passed ANCHOR (R162); stops are decoupled
from the line (R172). -/
def State.openGate (s : State) (k : Fin 8) : State :=
  let a := s.arms[k]
  match a.active, a.run with
  | x :: _, some run =>
    let pl := (s.lineIn x.d.line.toNat).pl
    let an := fofInt x.d.anchor.toInt
    if x.d.isMove && x.d.gate && run.nOpen.isNone && a.stopping == .no && (if x.d.neg then f64Le pl an else f64Le an pl) then
      s.modArm k fun a => { a with run := some { run with nOpen := some s.epoch } }
    else s
  | _, _ => s

/-- A timed DWELL that has lasted DWELLNS (R162). -/
def State.dwellOver (s : State) (d : SegDesc) (run : RunSeg) : Bool :=
  d.timed && decide (d.dwellNs.toNat ≤ (s.epoch + 1 - run.nStart) * s.tTick)

/-- After the advance: windows, actions and the end of segments, through as many segments as retire in this tick. A
successor runs in the tick in which it starts: its window, its action and its end are judged there too (R161, R162, R165,
R166). (DEDUCED: log 40.) -/
def State.settleArm (k : Fin 8) : Nat → State → State
  | 0, s => s
  | fuel + 1, s0 =>
    let s := (s0.modArm k Arm.fixCurve).openGate k
    let a := s.arms[k]
    match a.active, a.run with
    | x :: rest, some run =>
      let d := x.d
      let stopping := a.stopping != .no
      let li := s.lineIn d.line.toNat
      if d.isDwell then
        let passed := if d.neg then f64Le li.pl (fofInt d.anchor.toInt) else f64Le (fofInt d.anchor.toInt) li.pl
        let done := if d.timed then s.dwellOver d run else !stopping && passed
        let s1 := s.windowAndAction k done
        if done then State.settleArm k fuel (s1.retireHead k) else s1
      else
        let zero := d.isMove && (run.nOpen.isSome || !d.gate) &&
          (d.curves run.q0 run.m0 run.m1).all fun c => f64IsZero c.d1
        let done := zero || f64Le f64One a.s
        let last := d.isMove || (match rest with | [] => true | n :: _ => !d.continuedBy n.d)
        let s1 := if done && last then s.modArm k fun a => { a with s := f64One, sigma := 0, acc := 0 }
          else if f64Lt a.s 0 then s.modArm k fun a => { a with s := 0, sigma := 0, acc := 0 }
          else s
        let s2 := s1.windowAndAction k done
        if done then State.settleArm k fuel (s2.retireHead k) else s2
    | _, _ => s

/-- The line actions of segments that retired before their point was reached (R166: an action fires in the first tick
after the segment has started in which its conditions hold). -/
def State.lateActions (s : State) (k : Fin 8) : State :=
  let a := s.arms[k]
  if a.stopping != .no then s
  else
    let due := a.late.filter s.lineActReached
    let s1 := s.modArm k fun a => { a with late := a.late.filter fun d => !s.lineActReached d }
    due.foldl (fun s d =>
      if !d.trackChk || s.windowOk d f64One then s.fireAction k d else s.raise 0x0411 1) s1

def fround (x : DWord) : Int := (f64ToIntExact true x).1

/-- The handover term of R170 in its k-th tick: position, velocity and acceleration. -/
def handover (e t : DWord) (k : Nat) : DWord × DWord × DWord :=
  let u := fsub f64One (fratio k 64)
  (fmul (fmul (fmul e t) (fofInt k)) (fmul u u),
   fmul (fmul e u) (fsub f64One (fratio (3 * k) 64)),
   fdiv (fmul e (fsub (fratio (6 * k) 64) (fofInt 4))) (fmul (fofInt 64) t))

/-- The commanded position, velocity and acceleration feedforward of each joint (R158). A joint in manual mode keeps
its commanded position (R264), and without a segment an arm holds the end of its last one, or where manual mode left a
joint (R266). (DEDUCED: log 41.) -/
def State.armOutputs (s : State) (k : Fin 8) (p : ArmProf) : State :=
  let a := s.arms[k]
  let t := s.tSec
  let idx := List.range p.joints.length
  let path (j : Nat) : DWord × DWord × DWord :=
    match a.active, a.run with
    | x :: _, some run =>
      let c : JCurve := ⟨x.d.kind.toNat, nth run.q0 j 0, x.d.tgt j, x.d.span.toInt, nth run.m0 j 0, nth run.m1 j 0⟩
      let d := c.dq a.s
      (c.q a.s, fmul d a.sigma, fadd (fmul (c.ddq a.s) (fmul a.sigma a.sigma)) (fmul d a.acc))
    | _, _ => (fofInt (nth a.base j 0), 0, 0)
  let on := !a.handE.isEmpty
  let out := idx.map fun j =>
    let pa := path j
    if on then
      let h := handover (nth a.handE j 0) t a.handK
      (fadd pa.1 h.1, fadd pa.2.1 h.2.1, fadd pa.2.2 h.2.2)
    else pa
  let man (j : Nat) : Bool := match p.joints[j]? with | some c => s.mans[c] | none => false
  let still := a.active.isEmpty && !on
  s.modArm k fun a => { a with
    cmd := idx.map fun j =>
      if man j then nth a.cmd j 0 else if still then nth a.base j 0 else fround (nth out j (0, 0, 0)).1
    vel := idx.map fun j => if man j then 0 else (nth out j (0, 0, 0)).2.1
    accel := idx.map fun j => if man j then 0 else (nth out j (0, 0, 0)).2.2
    base := if a.active.isEmpty then idx.map fun j => if man j then nth a.cmd j 0 else nth a.base j 0 else a.base }

/-- The trajectory generator of one arm in one tick (extrapolate phase). In STO the commanded positions follow the
actual ones (R174). -/
def State.armTick (s : State) (k : Fin 8) : State :=
  match s.armProf k.val with
  | none => s
  | some p =>
    if s.coreSafety == .sto then
      s.modArm k fun a => { a with
        cmd := p.joints.map fun c => s.fbk[c].act
        vel := p.joints.map fun _ => 0
        accel := p.joints.map fun _ => 0
        base := p.joints.map fun c => s.fbk[c].act }
    else
      let s0 := s.modArm k fun a => { a with handK := if a.handE.isEmpty then 0 else min 64 (a.handK + 1) }
      let s1 := (s0.modArm k Arm.fixCurve).openGate k
      let a := s1.arms[k]
      let s2 := match a.active, a.run with
        | x :: _, some run =>
          if x.d.isDwell || (x.d.isMove && x.d.gate && run.nOpen.isNone) then
            s1.modArm k fun a => { a with s := 0, sigma := 0, acc := 0 }
          else s1.modArm k fun a => s1.advanceArm a x.d run (p.lims.map JointLim.f64)
        | _, _ => s1
      let s3 := s2.settleArm k 65
      (s3.lateActions k).armOutputs k p

end Sys2Proof.Machine
end

