-- ==== Sys2Proof/Machine/Plans.lean ====
section
/-! DEFINITION. Plans: validation (R169), cut-over and handover (R42–R45, R126, R170, R171), appends (R125, R169), ramp
stops (R128, R172), and the ends of the handover term, of timed dwells and of ramp stops. -/

namespace Sys2Proof.Machine

/-- The line record of a line in the Almanac of epoch n − 1, the one the checks of R169 use. -/
def State.lineRecPrev (s : State) (n : Nat) : LineRec :=
  match s.published with
  | some a => nth a.lines n {}
  | none => {}

/-- A segment lies outside the position limits of a joint (cause POSITION). -/
def outOfRange (cs : List JCurve) (ls : List JointLim) : Bool :=
  (cs.zip ls).any fun e =>
    let out (x : Int) : Bool := x < e.2.qmin || e.2.qmax < x
    out e.1.qs || (e.1.kind != 3 && out e.1.qe)
      || e.1.extremes.any fun x => f64Lt x (fofInt e.2.qmin) || f64Lt (fofInt e.2.qmax) x

/-- The start of a plan at the handover point (R170): σ0 and the residuals e_j. -/
def State.handoverStart (s : State) (a : Arm) (d : SegDesc) (cs : List JCurve) (ls : List JointLim) : DWord × List DWord :=
  let u (j : Nat) : DWord := if s.coreSafety == .sto then 0 else nth a.vel j 0
  let ds := cs.map fun c => c.dq 0
  let num := (mapFrom (fun j x => fmul (u j) x) 0 ds).foldl fadd 0
  let den := ds.foldl (fun x y => fadd x (fmul y y)) 0
  let vcap := vcapOf (jointCaps false d cs (ls.map JointLim.f64))
  let raw := if f64IsZero den then 0 else fdiv num den
  let c := fclamp raw (f64Negate vcap) vcap
  let sig := if d.isMove then fmax c 0 else c
  (sig, mapFrom (fun j x => fsub (u j) (fmul x sig)) 0 ds)

/-- The checks of R169 in the order of its table: `segs` are the segments to check with their curves, `first` says
that the first of them starts the plan, `append` that this is a SEGA append. (DEDUCED: log 42.) -/
def State.planCause (s : State) (k : Fin 8) (p : ArmProf) (segs : List (SegDesc × List JCurve)) (first append : Bool) : Option Nat :=
  let a := s.arms[k]
  let faulty (d : SegDesc) : Bool := decide (d.line.toNat < 8) && (s.lineRecPrev d.line.toNat).status.getLsbD 2
  let head := if first then segs.head? else none
  let late : Bool := match head with
    | some (d, _) =>
      let c := (s.lineRecPrev d.line.toNat).count.toInt
      d.isTrack && (if 0 < d.span.toInt then decide (d.endCount ≤ c) else decide (c ≤ d.endCount))
    | none => false
  let ho : Bool × Bool := match head with
    | some (d, cs) =>
      let h := s.handoverStart a d cs p.lims
      ((h.2.zip p.lims).any (fun e => f64Lt (fmul (fmul (fofInt 16) (f32ToF64 e.2.amax)) s.tSec) (f64Abs e.1)),
       f64Lt (s.vhaloOf a) (fmul (f64Abs h.1) d.cspeed))
    | none => (false, false)
  if segs.any (fun e => faulty e.1) then some 1
  else if segs.any (fun e => outOfRange e.2 p.lims) then some 2
  else if late then some 3
  else if ho.1 then some 4
  else if ho.2 then some 5
  else if append && (a.stopping == .stop || a.stopped) then some 6
  else none

/-- Puts a plan in force on an arm from the handover point (R155, R170, R171). -/
def State.startPlan (s : State) (k : Fin 8) (p : ArmProf) (segs : List SegDesc) : State :=
  match segs with
  | [] => s
  | d :: _ =>
    let a := s.arms[k]
    let q0 := (List.range p.joints.length).map fun j => nth a.cmd j 0
    let cs := match chainCurves segs q0 none with | [] => [] | e :: _ => e.2
    let h := s.handoverStart a d cs p.lims
    s.modArm k fun a => { a with
      active := segs.map fun d => ({ d := d } : ActSeg)
      run := some { nStart := s.epoch, q0 := q0, m0 := d.oneSided q0, m1 := d.oneSided q0 }
      s := 0, sigma := h.1, acc := 0, stopping := .no, stopped := false, handE := h.2, handK := 0 }

/-! The kinds of request. -/
def Req.isCut (r : Req) : Bool := match r with | .cut => true | _ => false
def Req.isSega (r : Req) : Bool := match r with | .sega _ => true | _ => false
def Req.isStop (r : Req) : Bool := match r with | .stop _ => true | _ => false
def Req.isAuxq (r : Req) : Bool := match r with | .auxq _ _ => true | _ => false
def Req.isJob (r : Req) : Bool := match r with | .job _ => true | _ => false
def Req.isJcancel (r : Req) : Bool := match r with | .jcancel _ => true | _ => false
def Req.isHpub (r : Req) : Bool := match r with | .hpub _ _ => true | _ => false
def Req.isJrec (r : Req) : Bool := match r with | .jrec _ _ _ _ _ => true | _ => false
def Req.isJdone (r : Req) : Bool := match r with | .jdone _ _ => true | _ => false

/-- Puts a request behind every one of its core and of the cores before it. -/
def reqInsert (e : ReqEntry) : List ReqEntry → List ReqEntry
  | [] => [e]
  | x :: r => if x.core.val ≤ e.core.val then x :: reqInsert e r else e :: x :: r

/-- The requests of a kind that are due at the boundary of the tick in progress: issued in an earlier tick. -/
def State.dueReqs (s : State) (p : Req → Bool) : List ReqEntry := s.reqs.filter fun e => p e.req && decide (e.epoch < s.epoch)

/-- A state without the requests of a kind that are due. -/
def State.dropDue (s : State) (p : Req → Bool) : State :=
  { s with reqs := s.reqs.filter fun e => !(p e.req && decide (e.epoch < s.epoch)) }

/-- The requests of a kind that are due, by ascending core and then by issue order (R122), and the state without them. -/
def State.takeReqs (s : State) (p : Req → Bool) : List ReqEntry × State :=
  ((s.dueReqs p).foldl (fun l e => reqInsert e l) [], s.dropDue p)

/-- The arms that a cut-over takes in: those with a profile and a staged plan, in ascending order. (DEDUCED: log 83.) -/
def State.stagedArms (s : State) : List (Fin 8 × ArmProf) :=
  (List.range 8).filterMap fun k =>
    if h : k < 8 then
      match s.armProf k with
      | some p => if s.arms[k].staged.isEmpty then none else some (⟨k, h⟩, p)
      | none => none
    else none

/-- The checks of R169 on the staged plan of an arm: the first cause that fails. -/
def State.cutCause (s : State) (k : Fin 8) (p : ArmProf) : Option Nat :=
  let a := s.arms[k]
  let q0 := (List.range p.joints.length).map fun j => nth a.cmd j 0
  s.planCause k p (chainCurves a.staged q0 none) true false

/-- CUTOVER (R42–R45, R126, R169–R171): a requested cut-over is validated and applied on all arms at once; every
core that asked for it is told one boundary later. (DEDUCED: log 83.) -/
def execCutover (s : State) : Res :=
  let t := s.takeReqs Req.isCut
  let cores := (t.1.map fun (e : ReqEntry) => e.core).eraseDups
  let tell (st : State) (src data : Nat) : State := cores.foldl (fun st c => st.cellEvent c 0x10 src data) st
  let s1 := t.2
  .next (if cores.isEmpty then s1
    else if s1.coreSafety != .run then tell s1 0xFF 0x02
    else
      let arms := s1.stagedArms
      let fail := arms.findSome? fun e => (s1.cutCause e.1 e.2).map fun c => (e.1.val, c)
      match fail with
      | some (arm, cause) => { tell s1 arm (0x09 + cause * 256) with cutFail := true }
      | none =>
        let s2 := arms.foldl (fun st e =>
          let st1 := st.withholdAll e.1
          (st1.startPlan e.1 e.2 (st1.arms[e.1]).staged).modArm e.1 fun a => { a with staged := [], gen := a.gen + 1 }) s1
        { tell s2 0xFF 0 with planGen := s2.planGen + 1, cutApplied := true })

/-- The checks of R169 on a segment that an append joins to the tail of an arm's plan: the first cause that fails. It is a
first segment on an idle arm only. (DEDUCED: log 42.) -/
def State.appendCause (s : State) (k : Fin 8) (p : ArmProf) (d : SegDesc) : Option Nat :=
  let a := s.arms[k]
  let q0 := (List.range p.joints.length).map fun j => nth a.cmd j 0
  let curves := match a.active, a.run with
    | x :: rest, some run =>
      let more := (rest.map fun (y : ActSeg) => y.d) ++ [d]
      let m1 := if run.fixed then run.m1 else x.d.endSlopes run.q0 more.head?
      let prev := match more.head? with | some n => if x.d.continuedBy n then some m1 else none | none => none
      chainCurves more (x.d.endPoint run.q0) prev
    | _, _ => chainCurves [d] q0 none
  s.planCause k p (curves.drop (curves.length - 1)) (a.active.isEmpty && a.stopping == .no && !a.stopped) true

/-- SEGA_APPLY (R124, R125, R144, R169): accepted appends are checked and joined to their active plans; a plan that a
cut-over of this boundary has filled to 64 segments takes none, with status FULL. (DESIGN CHOICE: log 94.) -/
def execSegaApply (s : State) : Res :=
  let t := s.takeReqs Req.isSega
  .next (t.1.foldl (fun st e =>
    match e.req, e.core with
    | .sega d, ⟨c, _⟩ =>
      if h : c < 8 then
        let k : Fin 8 := ⟨c, h⟩
        match st.armProf c with
        | none => st
        | some p =>
          if st.coreSafety != .run then st.cellEvent e.core 0x13 c 0x02
          else if 64 ≤ (st.arms[k]).active.length then st.cellEvent e.core 0x13 c 0x01
          else
            match st.appendCause k p d with
            | some cause => st.cellEvent e.core 0x13 c (0x09 + cause * 256)
            | none =>
              if (st.arms[k]).active.isEmpty then st.startPlan k p [d]
              else st.modArm k fun a => { a with active := a.active ++ [({ d := d } : ActSeg)] }
      else st
    | _, _ => st) t.2)

/-- Sets the stopping state of a ramp stop on an arm (R128, R172): its staged queue is emptied and its unfired
actions are withheld. (DESIGN CHOICE: log 101.) -/
def State.rampStop (s : State) (k : Fin 8) : State :=
  (s.withholdAll k).modArm k fun a =>
    { a with staged := [], missStop := false, stopping := if a.stopped then a.stopping else .stop }

/-- RAMP_STOP_APPLY (R128, R165, R172): STOP requests and MISSSTOPs take effect at step 4, before the cut-over.
(DESIGN CHOICE: log 101.) -/
def execRampStopApply (s : State) : Res :=
  let t := s.takeReqs Req.isStop
  let mask := t.1.foldl (fun (m : BitVec 8) e => match e.req with | .stop x => m ||| x | _ => m) 0
  .next ((List.finRange 8).foldl (fun st k =>
    if (st.armProf k.val).isSome && (mask.getLsbD k.val || (st.arms[k]).missStop) then st.rampStop k else st) t.2)

/-- HANDOVER_END (R170): the handover term ends after k = 64. -/
def execHandoverEnd (k : Fin 8) (s : State) : Res :=
  .next (if 64 ≤ (s.arms[k]).handK then s.modArm k fun a => { a with handE := [], handK := 0 } else s)

/-- DWELL_EXPIRE (R162): a timed dwell whose time has passed retires and its successor starts in the same tick. The
extrapolate phase does so for a dwell that is due when it runs, ahead of the auxiliary generators (R186). (DEDUCED: log 40.) -/
def execDwellExpire (k : Fin 8) (s : State) : Res :=
  .next (match (s.arms[k]).active, (s.arms[k]).run with
    | x :: _, some run => if s.dwellOver x.d run && s.coreSafety != .sto then s.settleArm k 65 else s
    | _, _ => s)

/-- RAMP_STOP_REST (R172): when σ and the handover term have both ended, the remaining segments are discarded and
the arm is stopped; it keeps the SEGID of the segment in which it came to rest (R164). -/
def execRampStopRest (k : Fin 8) (s : State) : Res :=
  let a := s.arms[k]
  .next (if a.stopping == .stop && f64IsZero a.sigma && a.handE.isEmpty then
    s.modArm k fun a => { a with
      lastSegId := match a.active with | x :: _ => x.d.segId | [] => if s.coreSafety == .sto then a.lastSegId else 0
      active := [], run := none, s := 0, sigma := 0, acc := 0, base := a.cmd, stopping := .no, stopped := true }
    else s)

end Sys2Proof.Machine
end

