-- ==== Sys2Proof/Machine/AuxAxes.lean ====
section
/-! DEFINITION. Auxiliary axes (R180–R202): move descriptors and their checks, the profile generator, load-adaptive
current, the stall sentinel, and the local step channels. -/

namespace Sys2Proof.Machine

/-- Reads an auxiliary move descriptor from its 32 bytes (R182). -/
def auxOfBytes (b : List Byte) : AuxMove where
  moveId := BitVec.ofNat 32 (valAt b 0 4)
  kind := nth b 4 0
  prof := nth b 5 0
  flags := nth b 6 0
  rsv := nth b 7 0
  target := BitVec.ofNat 64 (valAt b 8 8)
  vel := BitVec.ofNat 32 (valAt b 0x10 4)
  acc := BitVec.ofNat 32 (valAt b 0x14 4)
  dec := BitVec.ofNat 32 (valAt b 0x18 4)
  jerk := BitVec.ofNat 32 (valAt b 0x1C 4)

def AuxMove.isStop (m : AuxMove) : Bool := m.kind == 4
def AuxMove.isVel (m : AuxMove) : Bool := m.kind == 3

/-- The checks of R182 and R183, in ascending offset order: the offset of the first failing field. An infinite value is above 0;
a NaN is neither above 0 nor signed. (DEDUCED: log 44.) -/
def AuxMove.check (m : AuxMove) : Option Nat :=
  let v := f32ToF64 m.vel
  let pos (w : Word) : Bool := f64Lt 0 (f32ToF64 w)
  let tests : List (Bool × Nat) := [
    (m.moveId == 0, 0x00),
    (m.kind == 0 || 4 < m.kind.toNat, 0x04),
    (1 < m.prof.toNat || (m.isStop && m.prof != 0), 0x05),
    (1 < m.flags.toNat || (m.isStop && m.flags != 0), 0x06),
    (m.rsv != 0, 0x07),
    ((m.isVel || m.isStop) && m.target != 0, 0x08),
    (if m.isStop then m.vel != 0 else if m.isVel then f64IsNaN v || f64IsZero v else !pos m.vel, 0x10),
    (if m.isStop then m.acc != 0 else !pos m.acc, 0x14),
    (if m.isStop then m.dec != 0 else !pos m.dec, 0x18),
    (if m.prof == 1 then !pos m.jerk else m.jerk != 0, 0x1C)]
  (tests.find? fun t => t.1).map fun t => t.2

def State.modAux (s : State) (a : Fin 128) (f : AuxGen → AuxGen) : State := { s with aux := vmod s.aux a f }

/-- A class 0x15 event to the cell core (R185). -/
def State.auxEvent (s : State) (a : Nat) (id : Word) (status cause : Nat) : State :=
  s.cellEvent 8 0x15 a (status + cause * 256 + id.toNat % 65536 * 65536)

def AuxProf.bounded (p : AuxProf) : Bool := !(p.qmin == 0 && p.qmax == 0)

/-- The end point of the last queued move, if it is known (R184). -/
def AuxGen.lastEnd (g : AuxGen) : Option DWord :=
  let step (e : Option DWord) (m : AuxMove) : Option DWord :=
    if m.kind == 1 then some (fofInt m.target.toInt)
    else if m.kind == 2 then e.map fun x => fadd x (fofInt m.target.toInt)
    else none
  match g.queue, g.start with
  | m :: r, some _ => r.foldl step (if m.isVel then none else some g.endPt)
  | q, _ => q.foldl step (some g.p)

/-- The check of R184 at the boundary: its cause. -/
def auxCause (p : AuxProf) (g : AuxGen) (m : AuxMove) : Option Nat :=
  let out (x : DWord) : Bool := f64Lt x (fofInt p.qmin) || f64Lt (fofInt p.qmax) x
  let lim : Bool := p.bounded && (
    if m.kind == 1 then out (fofInt m.target.toInt)
    else if m.kind == 2 then (match g.lastEnd with | some e => out (fadd e (fofInt m.target.toInt)) | none => false)
    else false)
  let exceeds (x : Word) (y : Word) : Bool := f64Lt (f32ToF64 y) (f64Abs (f32ToF64 x))
  if lim then some 1
  else if exceeds m.vel p.vmax || exceeds m.acc p.amax || exceeds m.dec p.amax || (p.jmax != 0 && exceeds m.jerk p.jmax) then some 2
  else if m.prof == 1 && p.jmax == 0 then some 3
  else if g.stallLock then some 4
  else none

/-- A STOP descriptor acts (R197): the queue is emptied, the move in progress reports CANCELLED, and the ramp begins;
an axis at rest reports OK at once. -/
def State.auxStop (s : State) (a : Fin 128) (m : AuxMove) : State :=
  let g := s.aux[a]
  let n := g.queue.length
  let s1 := match g.queue, g.start with
    | x :: _, some _ => s.auxEvent a.val x.moveId 0x0A 0x10
    | _, _ => s
  let s2 := s1.modAux a fun g => { g with queue := [], start := none, release := false }
  if f64IsZero g.v && f64IsZero g.aprev then s2.auxEvent a.val m.moveId 0 n
  else s2.modAux a fun g => { g with stopping := .stop, stops := g.stops ++ [(m.moveId, n)] }

/-- AUXQ_APPLY (R184, R197, R199): at step 4 the STOP descriptors of the boundary act first, then the moves are
checked and appended in issue order. Where step 1 has applied an F2 or F3, each reports DUSK instead. -/
def execAuxqApply (s : State) : Res :=
  let t := s.takeReqs Req.isAuxq
  let one (stops : Bool) (st : State) (e : ReqEntry) : State :=
    match e.req with
    | .auxq a m =>
      if m.isStop != stops then st
      else if st.coreSafety != .run then st.auxEvent a.val m.moveId 0x02 0
      else if m.isStop then st.auxStop a m
      else match st.auxProf a.val with
        | none => st
        | some p =>
          match auxCause p (st.aux[a]) m with
          | some c => st.auxEvent a.val m.moveId 0x09 c
          | none => st.modAux a fun g => { g with queue := g.queue ++ [m] }
    | _ => st
  .next (t.1.foldl (one false) (t.1.foldl (one true) t.2))

/-- Whether an axis has a feedback source (R289). -/
def State.hasFeedback (s : State) (a : Nat) : Bool := fld (s.regN (0xC1000 + a * 0x20)) 31 30 != 0

/-- The feedback of an auxiliary axis in counts of its output (R181), nearest, ties to even. -/
def scaleEven (x num den : Int) : Int :=
  if den ≤ 0 then 0
  else
    let n := x * num
    let q := n / den
    let r := n % den
    if 2 * r > den || (2 * r == den && q % 2 == 1) then q + 1 else q
def State.auxActual (s : State) (p : AuxProf) : Int := scaleEven s.fbk[p.ax].act p.encNum p.encDen

/-- The actual position of an axis at the control instant, in counts of its output (R181, R253). -/
def State.axisAct (s : State) (a : Fin 128) : Int :=
  match s.auxProf a.val with
  | some p => s.auxActual p
  | none => s.fbk[a].act

def f64Sign (x : DWord) : DWord := if f64IsZero x then 0 else if f64Neg x then fofInt (-1) else f64One

/-- The braking speed vb of R186 for a distance. -/
def vbOf (prof : Byte) (dec jerk d : DWord) : DWord :=
  if prof == 0 then fsqrt (fmul (fmul f64Two dec) (f64Abs d))
  else
    let d4 := fmul (fmul (fmul dec dec) dec) dec
    fdiv (fadd (fdiv (fmul (f64Negate dec) dec) jerk)
      (fsqrt (fadd (fdiv d4 (fmul jerk jerk)) (fmul (fmul (fofInt 8) dec) (f64Abs d))))) f64Two

/-- Starts the head move, if it may start (R187, R188). (DEDUCED: log 85.) -/
def AuxGen.startHead (g : AuxGen) : AuxGen :=
  match g.queue, g.start with
  | m :: _, none =>
    if g.stopping != .no || (m.armed && !g.release) then g
    else { g with
      start := some g.p, release := g.release && !m.armed
      endPt := if m.kind == 1 then fofInt m.target.toInt else fadd g.p (fofInt m.target.toInt) }
  | _, _ => g

/-- The head move retires; an unarmed successor starts in the same tick. -/
def AuxGen.retire (g : AuxGen) : AuxGen := { g with queue := g.queue.tail, start := none }.startHead

/-- The acceleration step of R186. -/
def AuxGen.accelStep (g : AuxGen) (want lup ldn j t : DWord) : AuxGen :=
  let up := f64IsZero g.v || (f64Eq (f64Sign want) (f64Sign g.v) && f64Lt (f64Abs g.v) (f64Abs want))
  let lim := if up then lup else ldn
  let a0 := fdiv (fsub want g.v) t
  let a := fclamp a0 (f64Negate lim) lim
  let a := if f64Lt 0 j then fclamp a (fsub g.aprev (fmul j t)) (fadd g.aprev (fmul j t)) else a
  { g with v := if f64Eq a a0 then want else fadd g.v (fmul a t), aprev := a, aff := a }

/-- The speed that the move in progress wants (R186); `hold` caps it at HOLDV (R199). -/
def AuxGen.wantOf (g : AuxGen) (p : AuxProf) (m : AuxMove) (hold : Bool) : DWord :=
  let dec := f32ToF64 m.dec
  let jerk := f32ToF64 m.jerk
  let vel := f32ToF64 m.vel
  let d := fsub g.endPt g.p
  let want := if m.isVel then vel else fmul (f64Sign d) (fmin vel (vbOf m.prof dec jerk d))
  let want := if p.bounded && m.isVel then
      let dist := if f64Neg vel then fsub g.p (fofInt p.qmin) else fsub (fofInt p.qmax) g.p
      fmul (f64Sign want) (fmin (f64Abs want) (vbOf m.prof dec jerk dist))
    else want
  let hv := f32ToF64 p.holdv
  if hold then fclamp want (f64Negate hv) hv else want

/-- What ends the move in progress in a tick: it reports OK, or the limit cancels it. -/
inductive AuxEnd | ok | limit
  deriving DecidableEq, Repr

/-- One tick of a generator that runs (R186, R187, R189): a move in progress, a ramp to rest, or the ramp of a move that a Dusk
reaction keeps. -/
def AuxGen.advance (g : AuxGen) (p : AuxProf) (t : DWord) (hold : Bool) : AuxGen × Option AuxEnd :=
  let ramp (g : AuxGen) : AuxGen := g.accelStep 0 (f32ToF64 p.astop) (f32ToF64 p.astop) (f32ToF64 p.jstop) t
  let stopping := g.stopping != .no
  match g.queue, g.start with
  | m :: rest, some _ =>
    let dec := f32ToF64 m.dec
    let vel := f32ToF64 m.vel
    let g1 := if stopping then ramp g else g.accelStep (g.wantOf p m hold) (f32ToF64 m.acc) dec (f32ToF64 m.jerk) t
    let pn := fadd g1.p (fmul g1.v t)
    let up := f64Lt 0 g1.v || (!stopping && f64IsZero g1.v && !f64Neg vel)
    let down := f64Lt g1.v 0 || (!stopping && f64IsZero g1.v && f64Neg vel)
    let hitHi := up && f64Le (fofInt p.qmax) pn
    let hitLo := down && f64Le pn (fofInt p.qmin)
    if !m.isVel && (if f64Neg (fsub g.endPt g.p) then f64Le pn g.endPt else f64Le g.endPt pn) then
      ({ g1 with p := g.endPt, v := 0, aprev := 0 }.retire, some .ok)
    else if m.isVel && p.bounded && (hitHi || hitLo) then
      ({ ({ g1 with p := fofInt (if hitHi then p.qmax else p.qmin), v := 0, aprev := 0 } : AuxGen).retire with atLimit := true },
        some .limit)
    else
      let g2 := { g1 with p := pn }
      let next := match rest with | n :: _ => !n.armed | [] => false
      if m.isVel && next && f64Le (f64Abs (fsub g2.v vel)) (fmul dec t) then (g2.retire, some .ok) else (g2, none)
  | _, _ =>
    if stopping then
      let g1 := ramp g
      ({ g1 with p := fadd g1.p (fmul g1.v t) }, none)
    else ({ g with v := 0, aprev := 0, aff := 0 }, none)

/-! ### Load-adaptive current (R193–R195) -/

def State.auxReg (s : State) (a r : Nat) : Nat := s.regN (0xD1000 + a * 0x40 + r)

/-- The load estimate L8 against cmd(n − 2): the larger of the sources present, 0 without one. (DEDUCED: log 45.) -/
def State.loadL8 (s : State) (p : AuxProf) (cmd2 : Int) : Nat :=
  let a := p.ax.val
  let f := s.fbk[p.ax]
  let full := s.auxReg a 8
  let lag := if s.hasFeedback a && !f.stale then
      [min 256 (256 * (cmd2 - s.auxActual p).natAbs / max 1 (fld full 15 0))] else []
  let ang := match f.angle with
    | some x => [min 256 (256 * x.toNat / max 1 (fld full 31 16))]
    | none => []
  (lag ++ ang).foldl max 0

/-- The current code after one tick on its way to a target (R194). -/
def stepCur (icur target rise fall : Nat) : Nat :=
  if icur < target then min target (icur + rise) else if target < icur then max target (icur - fall) else icur

/-- The sentinel takes the axis in this tick (R195): STALLN ticks of ICUR = IPEAK and full load are complete. At full load the
target is IPEAK whether a move is in progress or not. -/
def State.stallNow (s : State) (p : AuxProf) : Bool :=
  let a := p.ax.val
  let g := s.aux[p.ax]
  let ad := s.auxReg a 4
  let ipeak := fld (s.auxReg a 0) 29 20
  p.out != .cascade && fld ad 7 0 != 0 && g.stallCnt + 1 == fld ad 7 0 && s.loadL8 p g.cmd1 == 256
    && stepCur g.icur ipeak (fld ad 23 16) (fld ad 15 8) == ipeak

/-- The generator of one auxiliary axis in one tick (R186–R189). A release that meets the stall of this tick is withheld (R202).
An axis in manual mode holds the position that mode gives it, and its queue waits (R264). (DEDUCED: log 85.) -/
def State.auxTick (s : State) (p : AuxProf) : State :=
  let a := p.ax
  let done (st : State) (f : AuxGen → AuxGen) : State :=
    st.modAux a fun g =>
      let g1 := f g
      let inside := f64Lt (fofInt p.qmin) g1.p && f64Lt g1.p (fofInt p.qmax)
      { g1 with
        atLimit := g1.atLimit && !inside
        cmd2 := g1.cmd1, cmd1 := g1.cmd0, cmd0 := fround g1.p }
  if s.coreSafety == .sto then
    done s fun g => { g with v := 0, aprev := 0, aff := 0, p := if s.hasFeedback a.val then fofInt (s.auxActual p) else g.p }
  else if s.mans[a] then done s fun g => { g with v := 0, aprev := 0, aff := 0 }
  else
    let stall := s.stallNow p
    let g0 := { s.aux[a] with release := s.aux[a].release && !stall, relNow := s.aux[a].release && stall }
    -- a released armed successor ends the VEL move before it (R187)
    let velEnds := g0.stopping == .no && g0.release && g0.start.isSome && g0.armedNext
    let s1 := if velEnds then (match g0.queue with | m :: _ => s.auxEvent a.val m.moveId 0 0 | [] => s) else s
    let g1 := if velEnds then { g0 with queue := g0.queue.tail, start := none } else g0
    let r := g1.startHead.advance p s.tSec (s.coreSafety == .hold)
    let id := match g1.queue with | m :: _ => m.moveId | [] => 0
    let s2 := match r.2 with
      | some .ok => s1.auxEvent a.val id 0 0
      | some .limit => s1.auxEvent a.val id 0x0A 0x12
      | none => s1
    done s2 fun _ => r.1

/-- The current code of one tick, and the stall sentinel (R194, R195). A cascade axis has no current code; in STO the code is 0
(R200). (DEDUCED: log 45.) -/
def State.loadTick (s : State) (p : AuxProf) : State :=
  let a := p.ax.val
  let g := s.aux[p.ax]
  let cur := s.auxReg a 0
  let ad := s.auxReg a 4
  let l8 := s.loadL8 p g.cmd2
  if p.out == .cascade then s
  else if s.coreSafety == .sto then s.modAux p.ax fun g => { g with icur := 0, l8 := l8, stallCnt := 0, peak := false }
  else
    let ipeak := fld cur 29 20
    let base := if g.start.isSome then fld cur 19 10 else fld cur 9 0
    let lth := fld ad 31 24
    let icur := stepCur g.icur (base + (ipeak - base) * (l8 - lth) / (256 - lth)) (fld ad 23 16) (fld ad 15 8)
    let peak := icur == ipeak
    let cnt := if peak && l8 == 256 then g.stallCnt + 1 else 0
    let s1 := if peak && !g.peak then s.raise 0x0D01 0 else s
    s1.modAux p.ax fun g => { g with
      icur := icur, l8 := l8, peak := peak, stallCnt := cnt
      stallDue := g.stallDue || (fld ad 7 0 != 0 && cnt == fld ad 7 0) }

/-- AUX_STALL (R195, R198, R202): the sentinel raises the fault, takes the stall lock and starts a ramp stop whose
single event carries CANCELLED, cause 0x11. (DEDUCED: log 46.) -/
def execAuxStall (a : Fin 128) (s : State) : Res :=
  let g := s.aux[a]
  .next (if !g.stallDue then s
    else
      let s1 := s.raise 0x0D02 1
      let s2 := if g.relNow then s1.raise 0x0411 1 else s1
      let s3 := if g.stopping == .no || !g.queue.isEmpty then
          s2.auxEvent a.val (match g.queue with | m :: _ => m.moveId | [] => 0) 0x0A 0x11
        else s2
      s3.modAux a fun g => { g with
        stallDue := false, stallLock := true, queue := [], start := none, release := false, relNow := false
        stopping := if g.stopping == .no then .stop else g.stopping })

/-- AUX_STOP_DONE (R197): when v and aprev are 0, each waiting STOP reports OK with the moves it discarded. -/
def execAuxStopDone (a : Fin 128) (s : State) : Res :=
  let g := s.aux[a]
  .next (if g.stopping == .stop && f64IsZero g.v && f64IsZero g.aprev then
    let s1 := g.stops.foldl (fun st e => st.auxEvent a.val e.1 0 e.2) s
    s1.modAux a fun g => { g with stops := [], stopping := if s.coreSafety == .dusk then .dusk else .no }
    else s)

/-- CLR_STALL (R195): a committed AUX_CTRLa.CLR_STALL = 1 clears the stall lock. (DEDUCED: log 46.) -/
def execClrStall (a : Fin 128) (s : State) : Res :=
  let off := 0xD100C + a.val * 0x40
  .next (if assocHas s.due off then { s.modAux a fun g => { g with stallLock := false } with due := assocDel s.due off } else s)

/-- The rising edges of a batch in units of 2.5 ns from the start of the tick (R190). -/
def stepRises (win dirsu n : Nat) : List Nat := (List.range n).map fun k => 4 * dirsu + 2 * k * win / (5 * max 1 n)

/-- STEP_BATCH (R190–R192, R200): the batch of tick n goes to channel `c`, which emits it from t0(n + 1) on; DIR changes with
the sign, each step stays high for PW, and IREF takes the current code of tick n. In STO nothing is emitted and IREF holds
code 0. (DEDUCED: log 46.) -/
def execStepBatch (c : Fin 16) (s : State) : Res :=
  .next (match s.chanAxis c.val with
    | none => s
    | some p =>
      let g := s.aux[p.ax]
      let ch := s.chans[c]
      if s.coreSafety == .sto then { s with chans := vmod s.chans c fun x => { x with last := 0, iref := 0 } }
      else
        let n := g.cmd0 - g.cmd1
        let cfg := s.regN (0xD0100 + c.val * 0x20)
        let win := s.tTick - 10 * fld cfg 15 8 - 10 * fld cfg 23 16
        let flip := n != 0 && (decide (n < 0) != ch.lastNeg)
        let s1 := { s with chans := vmod s.chans c fun x => { x with
          last := n, iref := g.icur, dir := x.dir != flip, lastNeg := if n = 0 then x.lastNeg else decide (n < 0) } }
        if n = 0 then s1 else s1.out (.steps c n (s1.chans[c].dir != bitOf cfg 24) (stepRises win (fld cfg 15 8) n.natAbs)
          (4 * fld cfg 7 0) (bitOf cfg 25)))

/-- STO cuts the batch in progress of a channel (R200): the steps that have risen when step 1 acts stay, and an axis without
feedback stands where they leave it. (DESIGN CHOICE: log 105.) -/
def State.cutBatch (s : State) (c : Fin 16) : State :=
  match s.chanAxis c.val with
  | none => s
  | some p =>
    let n := s.chans[c].last
    let cfg := s.regN (0xD0100 + c.val * 0x20)
    let win := s.tTick - 10 * fld cfg 15 8 - 10 * fld cfg 23 16
    let ns := Config.stepOne s.epoch % (Config.stepTwo s.epoch % 1001 + 1)
    let k := ((stepRises win (fld cfg 15 8) n.natAbs).filter fun r => decide (5 * r ≤ 2 * ns)).length
    if n = 0 then s
    else
      (s.modAux p.ax fun g => if s.hasFeedback p.ax.val then g
        else { g with p := fofInt (g.cmd0 - n + (if n < 0 then -(k : Int) else k)) }).out (.stepCut c k)

def State.cutBatches (s : State) : State := (List.finRange 16).foldl State.cutBatch s

end Sys2Proof.Machine
end

