-- ==== Sys2Proof/Machine/Crc.lean ====
section
/-! DEFINITION. CRC-32C as the device uses it everywhere (R383): generator 0x1EDC_6F41, reflected input and output,
final exclusive or with 0xFFFF_FFFF, an initial register value by use; and the SSI check of R295. -/

namespace Sys2Proof.Machine

/-- One bit of the reflected CRC-32C register. -/
def crcBit (r : Word) : Word := if r.getLsbD 0 then (r >>> 1) ^^^ 0x82F63B78 else r >>> 1

/-- Folds one byte into the register. -/
def crcByte (r : Word) (b : Byte) : Word :=
  crcBit (crcBit (crcBit (crcBit (crcBit (crcBit (crcBit (crcBit (r ^^^ b.setWidth 32))))))))

/-- Folds bytes into the register, in order. -/
def crcFold : Word → List Byte → Word
  | r, [] => r
  | r, b :: bs => crcFold (crcByte r b) bs

/-- CRC-32C of bytes from an initial register value (R383). -/
def crc32c (init : Word) (bs : List Byte) : Word := crcFold init bs ^^^ 0xFFFFFFFF

/-- The SSI check register of R295: `len` bits, polynomial and start value in their low `len` bits, MSB first. -/
def ssiCrc (len poly : Nat) : Nat → List Bool → Nat
  | r, [] => r
  | r, b :: bs =>
    let top := (r / 2 ^ (len - 1)) % 2 == 1
    let r' := (2 * r) % 2 ^ len
    ssiCrc len poly (if top != b then Nat.xor r' (poly % 2 ^ len) else r') bs

end Sys2Proof.Machine
end

