-- ==== Sys2Proof/Machine/AlmanacBytes.lean ====
section
/-! DEFINITION. The 8 KiB layout of the Almanac (R30, R31): every byte of a snapshot, its CRC (computed over bytes
0x0000 to 0x1FEF) and the bytes of the view, which read zero in the first tick of a session (R35). -/

namespace Sys2Proof.Machine

def AxisRec.bytes (r : AxisRec) : List Byte :=
  leBytes r.act.toNat 8 ++ leBytes r.cmd.toNat 8 ++ leBytes r.vel.toNat 4 ++ leBytes r.spt.toNat 4
    ++ leBytes r.err.toNat 4 ++ leBytes r.status.toNat 2 ++ [r.mode, 0]

def ArmRec.bytes (r : ArmRec) : List Byte :=
  leBytes r.segId.toNat 4 ++ leBytes r.gen.toNat 4 ++ [r.line, r.state] ++ leBytes 0 6 ++ leBytes r.s.toNat 8
    ++ leBytes r.sigma.toNat 8 ++ leBytes r.vhalo.toNat 8 ++ leBytes r.tcpX.toNat 8 ++ leBytes r.tcpY.toNat 8
    ++ leBytes r.tcpZ.toNat 8

def LineRec.bytes (r : LineRec) : List Byte :=
  leBytes r.count.toNat 8 ++ leBytes r.time.toNat 8 ++ leBytes r.speed.toNat 4 ++ leBytes r.uncert.toNat 2
    ++ leBytes r.qerr.toNat 2 ++ leBytes r.status.toNat 2 ++ leBytes 0 6

def Almanac.header (a : Almanac) : List Byte :=
  leBytes a.epoch.toNat 8 ++ leBytes a.t0.toNat 8 ++ leBytes 0x10000 4 ++ leBytes a.flags.toNat 4
    ++ leBytes a.planGen.toNat 4 ++ leBytes a.rate.toNat 4

/-- The safety summary at 0x1340: 80 bytes and then zeros. -/
def Almanac.safetyBytes (a : Almanac) : List Byte :=
  leBytes a.safety.toNat 4 ++ leBytes a.highest.toNat 2 ++ [a.qdepth, 0] ++ leBytes a.haloCnt.toNat 4
    ++ leBytes a.duskCnt.toNat 2 ++ [0, 0] ++ (a.limits.flatMap fun w => leBytes w.toNat 4)
    ++ (a.minsep.flatMap fun w => leBytes w.toNat 4)

/-- The journal and ring status at 0x1D00. -/
def Almanac.ringBytes (a : Almanac) : List Byte :=
  leBytes a.jseq.toNat 4 ++ a.ringCons.flatMap fun w => leBytes w.toNat 4

/-- The byte at an offset below the CRC (the table "Almanac layout" of R30). -/
def Almanac.bodyByte (a : Almanac) (off : Nat) : Byte :=
  if off < 0x40 then nth a.header off 0
  else if off < 0x1040 then nth (nth a.axes ((off - 0x40) / 32) {}).bytes ((off - 0x40) % 32) 0
  else if off < 0x1240 then nth (nth a.arms ((off - 0x1040) / 64) {}).bytes ((off - 0x1040) % 64) 0
  else if off < 0x1340 then nth (nth a.lines ((off - 0x1240) / 32) {}).bytes ((off - 0x1240) % 32) 0
  else if off < 0x1400 then nth a.safetyBytes (off - 0x1340) 0
  else if off < 0x1D00 then nth (nth a.areas ((off - 0x1400) / 256) []) ((off - 0x1400) % 256) 0
  else if off < 0x1D40 then nth a.ringBytes (off - 0x1D00) 0
  else 0

/-- The CRC-32C over bytes 0x0000 to 0x1FEF. -/
def Almanac.crc (a : Almanac) : Word := crc32c 0xFFFFFFFF ((List.range 0x1FF0).map a.bodyByte)

/-- Any byte of the snapshot, trailer included. -/
def Almanac.byte (a : Almanac) (off : Nat) : Byte :=
  if off < 0x1FF0 then a.bodyByte off
  else if off < 0x1FF4 then nth (leBytes a.crc.toNat 4) (off - 0x1FF0) 0
  else if off < 0x1FF8 then 0
  else nth (leBytes a.epoch.toNat 8) (off - 0x1FF8) 0

/-- A byte of the program view: zero before the session's first snapshot (R35). -/
def viewByte (v : Option Almanac) (off : Nat) : Byte :=
  match v with
  | some a => a.byte off
  | none => 0

def viewBytes (v : Option Almanac) (off n : Nat) : List Byte := (List.range n).map fun i => viewByte v (off + i)

end Sys2Proof.Machine
end

