-- ==== Sys2Proof/Machine/Operands.lean ====
section
/-! DEFINITION. The operand forms of Malax instructions (R72, R99, R101, R108): register reads and writes, with g0
reading zero and discarding writes, immediates, addresses, and the instruction words that TVAL holds. -/

namespace Sys2Proof.Machine

/-- Reads an integer register; g0 reads zero (R72). -/
def Core.rg (k : Core) (i : Fin 32) : DWord := if i = 0 then 0 else k.g[i]
/-- Reads a floating register. -/
def Core.rf (k : Core) (i : Fin 32) : DWord := k.f[i]
/-- Writes an integer register; a write to g0 is discarded (R72). -/
def Core.wg (k : Core) (i : Fin 32) (v : DWord) : Core := if i = 0 then k else { k with g := k.g.set i v }
/-- Writes a floating register. -/
def Core.wf (k : Core) (i : Fin 32) (v : DWord) : Core := { k with f := k.f.set i v }

def Core.wreg (k : Core) (r : CReg) (v : DWord) : Core :=
  match r with
  | .g i => k.wg i v
  | .f i => k.wf i v

/-- The PC moves past a one-word instruction. -/
def Core.adv (k : Core) : Core := { k with pc := k.pc + 4 }

def sext12 (imm : BitVec 12) : DWord := imm.signExtend 64
def sext22 (imm : BitVec 22) : DWord := imm.signExtend 64

/-- The effective address of a load or store (R108). -/
def Core.ea (k : Core) (ra : Fin 32) (imm : BitVec 12) : DWord := k.rg ra + sext12 imm

/-- The word of a format R instruction (R99). -/
def wordR (group rd ra rb func : Nat) : DWord :=
  BitVec.ofNat 64 (group * 2 ^ 27 + rd * 2 ^ 22 + ra * 2 ^ 17 + rb * 2 ^ 12 + func)
/-- The word of a format I instruction (R99). -/
def wordI (group rd ra opx imm : Nat) : DWord := wordR group rd ra opx imm

/-- A destination register as the issue rules see it: g0 never conflicts (R80, R81). -/
def dstG (i : Fin 32) : Option CReg := if i = 0 then none else some (.g i)

end Sys2Proof.Machine
end

