-- ==== Sys2Proof/Machine/Flags.lean ====
section
/-! DEFINITION. The flag computations: the sticky FFLAGS and IFLAGS of R98, and the cases of R102 that set IFLAGS. -/

namespace Sys2Proof.Machine

/-- Sets sticky bits of FFLAGS. -/
def Core.orFF (k : Core) (fl : FFlags) : Core := { k with fflags := k.fflags ||| fl }
/-- Sets sticky bits of IFLAGS: [1] divide overflow, [0] divide by zero. -/
def Core.orIF (k : Core) (fl : BitVec 2) : Core := { k with iflags := k.iflags ||| fl }

/-- DIV: the quotient toward zero and the flags of R102. -/
def divS (a b : DWord) : DWord × BitVec 2 :=
  if b = 0 then (BitVec.allOnes 64, 1)
  else if a = BitVec.intMin 64 ∧ b = BitVec.allOnes 64 then (BitVec.intMin 64, 2)
  else (BitVec.ofInt 64 (a.toInt.tdiv b.toInt), 0)

/-- DIVU. -/
def divU (a b : DWord) : DWord × BitVec 2 :=
  if b = 0 then (BitVec.allOnes 64, 1) else (BitVec.ofNat 64 (a.toNat / b.toNat), 0)

/-- REM: the remainder has the sign of the dividend; only a divisor of zero sets a flag (R102). -/
def remS (a b : DWord) : DWord × BitVec 2 :=
  if b = 0 then (a, 1) else (BitVec.ofInt 64 (a.toInt.tmod b.toInt), 0)

/-- REMU. -/
def remU (a b : DWord) : DWord × BitVec 2 :=
  if b = 0 then (a, 1) else (BitVec.ofNat 64 (a.toNat % b.toNat), 0)

end Sys2Proof.Machine
end

