-- ==== Sys2Proof/Machine/Timing.lean ====
section
/-! DEFINITION. When an instruction issues (R79–R83): the ready cycles of its registers, the units, pairing, the
freeze at RUNCYC, and the shared-region access of R76 and R77 with its slot. -/

namespace Sys2Proof.Machine

def IssClass.isMem : IssClass → Bool
  | .load | .store | .atomic => true
  | _ => false
/-- Groups 0x04 and 0x05. -/
def IssClass.isFp : IssClass → Bool
  | .fp | .fpShort | .fdiv | .fsqrt => true
  | _ => false
def IssClass.isMul : IssClass → Bool
  | .mul | .div => true
  | _ => false
def IssClass.isJump : IssClass → Bool
  | .branch | .jal | .jalr => true
  | _ => false
def IssClass.isAlone : IssClass → Bool
  | .sys | .cell _ => true
  | _ => false

/-- The result latencies of R81 that do not depend on the region accessed. -/
def IssClass.latency : IssClass → Nat
  | .mul => 3
  | .div => 20
  | .fp => 4
  | .fpShort => 2
  | .fdiv => 22
  | .fsqrt => 26
  | .cell n => n
  | _ => 1

/-- The cycle in which a register is ready. -/
def Core.ready (k : Core) (r : CReg) : Nat :=
  match k.pend.find? fun e => e.1 == r with
  | some e => e.2
  | none => 0

/-- The first cycle in which the registers and the unit of an instruction are free (R81). -/
def Core.freeAt (k : Core) (cls : IssClass) (regs : List CReg) : Nat :=
  let r := regs.foldl (fun m x => max m (if x == .g 0 then 0 else k.ready x)) 0
  let u := if cls.isMem then k.memFree
    else match cls with
      | .div => k.divFree
      | .fdiv | .fsqrt => k.fdivFree
      | _ => 0
  max r u

/-- The pairing conditions of R80 between the older instruction `p` and a younger one. -/
def pairs (p : SlotZero) (cls : IssClass) (regs : List CReg) : Bool :=
  !(cls.isAlone || p.cls.isAlone || p.cls.isJump)
    && !(cls.isMem && p.cls.isMem) && !(cls.isFp && p.cls.isFp) && !(cls.isMul && p.cls.isMul)
    && (match p.dst with | some d => !(regs.contains d) | none => true)

/-- Performs a waiting shared access in its slot cycle (R77): memory, and the register of a load or atomic. -/
def readSized (m : Memory) (off size : Nat) (signed : Bool) : DWord :=
  let v := leVal (m.readN off size)
  BitVec.ofInt 64 (if signed then sextTo (8 * size) v else v)

/-- The new memory value of an atomic instruction (R109), by its func. -/
def amoNew (func : Nat) (old v cmp : DWord) : DWord :=
  if func = 0 then v
  else if func = 1 then old + v
  else if func = 2 then old &&& v
  else if func = 3 then old ||| v
  else if func = 4 then (if old.toInt < v.toInt then v else old)
  else if func = 5 then (if v.toInt < old.toInt then v else old)
  else (if old = cmp then v else old)

/-- The effect of a load, store or atomic on data SRAM at an offset: the new memory and the register write. -/
def memEffect (m : Memory) (off : Nat) : SharedOp → Memory × Option (CReg × DWord)
  | .load dst size signed => (m, some (dst, readSized m off size signed))
  | .store size v => (m.writeN off (leBytes v.toNat size), none)
  | .amo dst func v cmp =>
    let old := readSized m off 8 false
    (m.writeN off (leBytes (amoNew func old v cmp).toNat 8), some (.g dst, old))

/-- A waiting shared access takes effect in its slot cycle (R77). -/
def State.doShared (s : State) (c : Fin 10) (a : SharedAcc) : State :=
  let s0 := s.modCore c fun k => { k with shared := none }
  let r := memEffect s0.data a.off a.op
  let s1 := { s0 with data := r.1 }
  match r.2 with
  | some (d, v) => s1.modCore c fun k => k.wreg d v
  | none => s1

/-- What issuing an instruction answers: the state with the issue accounted for, the issue cycle, and whether
the instruction issued at all. -/
structure Issued where
  st  : State
  cyc : Nat
  ok  : Bool

/-- The core freezes at RUNCYC (R79): no instruction issues, PLN_PCn takes the address of the next one, and the cycles of the
tick up to RUNCYC have counted against the budget, none after it (R83). -/
def Core.freeze (k : Core) (runcyc : Nat) : Core :=
  { k with
    frozen := true
    pair := none
    pcCopy := k.pc.setWidth 32
    budget := if k.mode == .running then k.budget + runcyc - k.cyc else k.budget
    cyc := runcyc }

/-- Whether the core is in a position to issue: present, running, not frozen; a planner core only while the
tick sequencer runs (R79, R117). -/
def State.canIssue (s : State) (c : Fin 10) : Bool :=
  let k := s.core c
  s.corePresent c.val && k.mode == .running && !k.frozen && (c.val == 9 || s.running)

/-- The bytes of code memory a core can fetch from (R74, R114). -/
def codeLimit (c : Fin 10) : Nat := if c.val = 9 then 0x100000 else 0x800000

/-- Whether an instruction issues in the same cycle as the older one in `pair` (R80); the safety core pairs none (R113). -/
def Core.pairsNow (k : Core) (c : Fin 10) (cls : IssClass) (regs : List CReg) : Bool :=
  match k.pair with
  | some p => c.val != 9 && pairs p cls regs && decide (k.freeAt cls regs ≤ p.cycle) && p.cycle + 1 == k.cyc
  | none => false

/-- The cycle an instruction issues in (R80, R81). -/
def Core.issueAt (k : Core) (c : Fin 10) (cls : IssClass) (regs : List CReg) : Nat :=
  if k.pairsNow c cls regs then k.cyc - 1 else max k.cyc (k.freeAt cls regs)

/-- A shared access whose slot comes before cycle `cyc` takes effect first (R77). -/
def State.settleShared (s : State) (c : Fin 10) (cyc : Nat) : State :=
  match (s.core c).shared with
  | some a => if !a.nextTick && a.slot < cyc then s.doShared c a else s
  | none => s

/-- The cycle in which the instruction after one of a class can issue. -/
def IssClass.nextCycle (cls : IssClass) (cyc : Nat) : Nat :=
  match cls with
  | .cell n => cyc + max 1 n
  | _ => cyc + 1

/-- A core after an instruction issued in cycle `cyc`: the issue bookkeeping alone changes (R80–R83). -/
def Core.issued (k : Core) (cls : IssClass) (dst : Option CReg) (cyc : Nat) (paired : Bool) : Core :=
  { k with
    cyc := cls.nextCycle cyc
    pend := match dst with
      | some d => if cls.isMem then k.pend else (d, cyc + cls.latency) :: k.pend.filter (fun e => e.1 != d)
      | none => k.pend
    budget := k.budget + (cls.nextCycle cyc - k.cyc)
    pair := if paired || cls.isAlone || cls.isJump then none else some ⟨cyc, cls, dst⟩
    memFree := if cls.isMem then cyc + 1 else k.memFree
    divFree := match cls with | .div => cyc + 20 | _ => k.divFree
    fdivFree := match cls with | .fdiv => cyc + 22 | .fsqrt => cyc + 26 | _ => k.fdivFree }

/-- The code word at the PC of a core. -/
def State.codeWord (s : State) (c : Fin 10) : Word :=
  BitVec.ofNat 32 (leVal ((if c.val = 9 then s.scode else s.code).readN (s.core c).pc.toNat 4))

/-- The code word at the PC is an instruction of the core: no reserved encoding, and no unused field that is not zero
(R100). (DESIGN CHOICE: log 18.) -/
def State.legalAt (s : State) (c : Fin 10) : Bool := (decodeMalax c (s.codeWord c)).isSome

/-- Issues one instruction of a class, with the registers it reads and the one it writes (R80–R83). A code word that is no
instruction issues alone and raises ILLEGAL with the word in TVAL, whatever the command names (R100, R145).
(DEDUCED: log 33.) (DESIGN CHOICE: log 18.) -/
def State.issue (s : State) (c : Fin 10) (cls : IssClass) (srcs : List CReg) (dst : Option CReg) : Issued :=
  if !s.canIssue c then ⟨s, 0, false⟩
  else
    let legal := s.legalAt c
    let cls := if legal then cls else .sys
    let regs := if legal then srcs ++ dst.toList else []
    let dst := if legal then dst else none
    let k0 := s.core c
    let cyc := k0.issueAt c cls regs
    let s1 := s.settleShared c cyc
    let k := s1.core c
    if !s1.canIssue c || k.pc != k0.pc then ⟨s1, cyc, false⟩
    else if c.val != 9 && decide (s1.runcyc ≤ cyc) then ⟨s1.setCore c (k.freeze s1.runcyc), cyc, false⟩
    else
      let s2 := s1.setCore c (k.issued cls dst cyc (k0.pairsNow c cls regs))
      if codeLimit c ≤ k.pc.toNat then ⟨s2.takeTrap c cyc false 2 k.pc k.pc, cyc, false⟩
      else if !legal then ⟨s2.takeTrap c cyc false 1 ((s1.codeWord c).setWidth 64) k.pc, cyc, false⟩
      else ⟨s2, cyc, true⟩

/-- Adds idle cycles after a taken branch, a jump or ERET (R81, R95, R113). -/
def Core.idle (k : Core) (n : Nat) : Core := { k with cyc := k.cyc + n, budget := k.budget + n, pair := none }

/-- Runs an instruction that cannot trap: its effect on its core, then the PC moves past it. (DESIGN CHOICE: log 15.)
(DESIGN CHOICE: log 18.) -/
def State.exec1 (s : State) (c : Fin 10) (cls : IssClass) (srcs : List CReg) (dst : Option CReg)
    (f : Core → Core) : Res :=
  let i := s.issue c cls srcs dst
  .next (if i.ok then i.st.modCore c (fun k => (f k).adv) else i.st)

/-- Runs an instruction with an effect on the whole state, given its issue cycle. -/
def State.execWith (s : State) (c : Fin 10) (cls : IssClass) (srcs : List CReg) (dst : Option CReg)
    (f : State → Nat → State) : Res :=
  let i := s.issue c cls srcs dst
  .next (if i.ok then f i.st i.cyc else i.st)

/-- An exception raised by the instruction at PC (R95, R145): no other effect. -/
def State.except (s : State) (c : Fin 10) (cyc code : Nat) (tval : DWord) : State :=
  s.takeTrap c cyc false code tval (s.core c).pc

end Sys2Proof.Machine
end

