-- ==== Sys2Proof/Machine/CoreSys.lean ====
section
/-! DEFINITION. The system instructions of the cores (R84, R88–R98, R111–R113): CSRs, waits, events, signals, trap
return, cycle points, the plan-period budget and the freeze. FLOWSIG is in Machine/Safety.lean. -/

namespace Sys2Proof.Machine

/-! ### Control and status registers (R98, R113) -/

/-- The CSRs of the tables of R98 and R113: whether one is defined on a core, and whether it can be written. -/
def csrDefined (c : Fin 10) (n : Nat) : Bool :=
  if c.val = 9 then
    [0x000, 0x010, 0x020, 0x021, 0x022, 0x023, 0x024, 0x025, 0x031, 0x070].contains n
  else
    [0x000, 0x002, 0x010, 0x011, 0x020, 0x021, 0x022, 0x023, 0x024, 0x025, 0x030, 0x031, 0x040, 0x041, 0x042, 0x043,
      0x044, 0x045, 0x050, 0x060].contains n

def csrReadOnly (n : Nat) : Bool := [0x000, 0x002, 0x010, 0x011, 0x021, 0x023, 0x050, 0x060, 0x070].contains n

/-- STATUS: [0] IE, [1] PIE, [2] INTRAP. -/
def Core.status (k : Core) : DWord := BitVec.ofNat 64 (bnat k.ie + 2 * bnat k.pie + 4 * bnat k.intrap)

/-- A cycle point register by its index. -/
def Core.cptOf (k : Core) (n : Nat) : DWord := nth k.cpt.toList n 0

/-- The value of a CSR for an instruction that issues in cycle `cyc`. -/
def State.csrValue (s : State) (c : Fin 10) (n cyc : Nat) : DWord :=
  let k := s.core c
  if n = 0x000 then BitVec.ofNat 64 c.val
  else if n = 0x002 then BitVec.ofNat 64 s.runcyc
  else if n = 0x010 then BitVec.ofNat 64 cyc
  else if n = 0x011 then BitVec.ofNat 64 s.epoch
  else if n = 0x020 then k.status
  else if n = 0x021 then k.cause
  else if n = 0x022 then k.epc
  else if n = 0x023 then k.tval
  else if n = 0x024 then k.tvec
  else if n = 0x025 then k.scratch
  else if n = 0x030 then k.fflags.setWidth 64
  else if n = 0x031 then k.iflags.setWidth 64
  else if 0x040 ≤ n ∧ n ≤ 0x043 then k.cptOf (n - 0x040)
  else if n = 0x044 then k.cptPend.setWidth 64
  else if n = 0x045 then k.cptMiss.setWidth 64
  else if n = 0x050 then BitVec.ofNat 64 k.evq.length
  else if n = 0x060 then BitVec.ofNat 64 (s.regN (0x40108 + 0x40 * c.val) - (k.budget - 1))
  else if n = 0x070 then s.saf.flowSig.setWidth 64
  else 0

/-- The bits of CPTk that the table defines. -/
def cptMask : DWord := 0xF0000000FFFFFFFF

/-- The value that a write leaves in CPTk is legal (R91): EVERY not reserved, and OFFSET below RUNCYC when enabled. -/
def State.cptLegal (s : State) (v : DWord) : Bool :=
  !v.getLsbD 61 && !(v.getLsbD 63 && decide (s.runcyc ≤ (v.setWidth 32).toNat))

/-- Writes an RW CSR; bits that the table does not define ignore the write (R98). -/
def Core.csrWrite (k : Core) (n : Nat) (v : DWord) : Core :=
  if n = 0x020 then { k with ie := v.getLsbD 0, pie := v.getLsbD 1, intrap := v.getLsbD 2 }
  else if n = 0x022 then { k with epc := v }
  else if n = 0x024 then { k with tvec := v &&& (~~~(3 : DWord)) }
  else if n = 0x025 then { k with scratch := v }
  else if n = 0x030 then { k with fflags := v.setWidth 5 }
  else if n = 0x031 then { k with iflags := v.setWidth 2 }
  else if n = 0x040 then { k with cpt := k.cpt.set 0 (v &&& cptMask) }
  else if n = 0x041 then { k with cpt := k.cpt.set 1 (v &&& cptMask) }
  else if n = 0x042 then { k with cpt := k.cpt.set 2 (v &&& cptMask) }
  else if n = 0x043 then { k with cpt := k.cpt.set 3 (v &&& cptMask) }
  else if n = 0x044 then { k with cptPend := v.setWidth 4 }
  else if n = 0x045 then { k with cptMiss := v.setWidth 4 }
  else k

/-- The lowest set bit of a set of pending cycle points. -/
def lowestPoint (b : BitVec 4) : Option Nat := (List.range 4).find? fun i => b.getLsbD i

/-- Takes the interrupt of cycle point `i` in cycle `cyc` (R91, R95). R95 names no TVAL for an interrupt: a free
value (log entry 6). -/
def State.takePoint (s : State) (c : Fin 10) (cyc i : Nat) : State :=
  let s1 := { s with free := s.free + 1 }
  s1.takeTrap c cyc true i (Config.freeVal s.free) (s.core c).pc

/-- A pending cycle point is taken once IE is 1, lowest index first (R92). (DEDUCED: log 32.) -/
def State.takePending (s : State) (c : Fin 10) (cyc : Nat) : State :=
  let k := s.core c
  match k.ie, lowestPoint k.cptPend with
  | true, some i =>
    (s.modCore c fun k => { k with cptPend := k.cptPend &&& (~~~(BitVec.ofNat 4 (2 ^ i))) }).takePoint c cyc i
  | _, _ => s

/-- CSRW, CSRS and CSRC (R98): `upd` gives the new value from the old one and ga; `writes` says whether the form
writes at all. (DESIGN CHOICE: log 18.) -/
def State.csrOp (s : State) (c : Fin 10) (rd ra : Fin 32) (csr : BitVec 12) (opx : Nat) (writes : Bool)
    (upd : DWord → DWord → DWord) : Res :=
  s.execWith c .sys [.g ra] (dstG rd) fun s1 cyc =>
    let n := csr.toNat
    let word := wordI 0x0E rd.val ra.val opx n
    let old := s1.csrValue c n cyc
    let v := upd old ((s1.core c).rg ra)
    let wr := writes && !csrReadOnly n
    if !csrDefined c n || (csrReadOnly n && ra != 0) then s1.except c cyc 1 word
    else if wr && decide (0x040 ≤ n) && decide (n ≤ 0x043) && !s1.cptLegal (v &&& cptMask) then s1.except c cyc 1 word
    else
      let s2 := s1.modCore c fun k => ((if wr then k.csrWrite n v else k).wg rd old).adv
      if wr then s2.takePending c cyc else s2

/-- CSRR (R98). -/
def execCsrr (c : Fin 10) (rd : Fin 32) (csr : BitVec 12) (s : State) : Res :=
  s.execWith c .sys [] (dstG rd) fun s1 cyc =>
    if !csrDefined c csr.toNat then s1.except c cyc 1 (wordI 0x0E rd.val 0 0 csr.toNat)
    else s1.modCore c fun k => (k.wg rd (s1.csrValue c csr.toNat cyc)).adv
/-- CSRW (R98): with ga = g0 it writes 0 to an RW CSR and only reads an RO one. -/
def execCsrw (c : Fin 10) (rd ra : Fin 32) (csr : BitVec 12) (s : State) : Res :=
  s.csrOp c rd ra csr 1 true fun _ a => a
/-- CSRS (R98): with ga = g0 it only reads. -/
def execCsrs (c : Fin 10) (rd ra : Fin 32) (csr : BitVec 12) (s : State) : Res :=
  s.csrOp c rd ra csr 2 (ra != 0) fun o a => o ||| a
/-- CSRC (R98): with ga = g0 it only reads. -/
def execCsrc (c : Fin 10) (rd ra : Fin 32) (csr : BitVec 12) (s : State) : Res :=
  s.csrOp c rd ra csr 3 (ra != 0) fun o a => o &&& (~~~a)

/-! ### Waits, events and signals (R84, R88–R90) -/

/-- The result of a wait (R88): bit 63 a late wake, bit 62 woken by a cycle point, [31:0] the visible events. -/
def waitResult (late point : Bool) (k : Core) : DWord :=
  BitVec.ofNat 64 (2 ^ 63 * bnat late + 2 ^ 62 * bnat point + k.evq.length)

/-- Puts a core to sleep in a wait that ends past it: the PC already moves on. -/
def Core.sleep (k : Core) (epoch : Nat) (w : Wait) : Core :=
  { k.adv with mode := .waiting, wait := some w, waitFrom := epoch }

/-- WAITT (R88). -/
def execWaitt (c : Fin 9) (rd : Fin 32) (s : State) : Res :=
  s.execWith c.castSucc .sys [] (dstG rd) fun s1 _ => s1.modCore c.castSucc fun k => k.sleep s1.epoch (.tick rd)

/-- WAITP (R84, R88, R113): a pending late wake ends it at once. -/
def execWaitp (c : Fin 10) (rd : Fin 32) (s : State) : Res :=
  s.execWith c .sys [] (dstG rd) fun s1 _ => s1.modCore c fun k =>
    if k.late then ({ k with late := false }.wg rd (waitResult true false k)).adv
    else k.sleep (if c.val = 9 then s1.halo.period.toNat else s1.epoch) (.plan rd)

/-- WAITE (R88): a visible event ends it at once. -/
def execWaite (c : Fin 9) (rd : Fin 32) (s : State) : Res :=
  s.execWith c.castSucc .sys [] (dstG rd) fun s1 _ => s1.modCore c.castSucc fun k =>
    if k.evq.isEmpty then k.sleep s1.epoch (.event rd) else (k.wg rd (waitResult false false k)).adv

/-- POLL (R89): the oldest visible record, or 0. -/
def execPoll (c : Fin 9) (rd : Fin 32) (s : State) : Res :=
  s.exec1 c.castSucc .sys [] (dstG rd) fun k =>
    match k.evq with
    | [] => k.wg rd 0
    | e :: q => { k with evq := q }.wg rd e.bits

/-- SIGNAL (R90, R111): imm12[11:4] must be 0; a number above 8 is discarded. The signal is delivered at the next
boundary. -/
def execSignal (c : Fin 9) (ra : Fin 32) (imm : BitVec 12) (s : State) : Res :=
  s.execWith c.castSucc .sys [.g ra] none fun s1 cyc =>
    if 16 ≤ imm.toNat then s1.except c.castSucc cyc 1 (wordI 0x0E 0 ra.val 8 imm.toNat)
    else
      let v := ((s1.core c.castSucc).rg ra).setWidth 32
      let s2 := s1.modCore c.castSucc Core.adv
      if h : imm.toNat < 9 then { s2 with reqs := s2.reqs ++ [⟨c, s2.epoch, .signal ⟨imm.toNat, h⟩ v⟩] } else s2

/-- ERET (R95, R112): timed as a JALR; a pending cycle point is then taken if IE is 1 again. -/
def execEret (c : Fin 10) (s : State) : Res :=
  s.execWith c .sys [] none fun s1 cyc =>
    if !(s1.core c).intrap then s1.except c cyc 1 (wordI 0x0E 0 0 9 0)
    else (s1.modCore c fun k => k.returnTrap.idle (if c.val = 9 then 1 else 2)).takePending c cyc

/-- The memory that a core fetches from, as R345 numbers it. -/
def codeMemory (c : Fin 10) : Fin 8 := if c.val = 9 then 7 else 0

/-- TRAP (R111): TVAL = imm12. `fetchErr` is what the check of the fetched word finds: a corrected error counts, and at an
uncorrectable one a planner core halts (R97) and the safety core takes an exception (R114, R115). -/
def execTrap (c : Fin 10) (imm : BitVec 12) (fetchErr : Ecc) (s : State) : Res :=
  if fetchErr == .uncorr then
    .next (if s.canIssue c then
      (if c.val = 9 then ((s.eccUp 7).raise 0x1806 3).except c (s.core c).cyc 4 (s.core c).pc
        else (s.eccUp 0).haltCore c (s.core c).cyc)
    else s)
  else s.execWith c .sys [] none fun s1 cyc => (s1.eccNote (codeMemory c) fetchErr).except c cyc 6 (imm.setWidth 64)

/-! ### Wakes (R88, R113) -/

/-- Whether a tick, plan or event wait ends at step 7 of the boundary of this tick; WAITP of the safety core ends at the next
Halo-period start marker, which runs on in Quiet (R113, R507). -/
def State.wakeDue (s : State) (c : Fin 10) : Option (Fin 32) :=
  let k := s.core c
  if c.val = 9 then
    match k.mode, k.wait with
    | .waiting, some (.plan rd) => if k.waitFrom != s.halo.period.toNat then some rd else none
    | _, _ => none
  else if k.mode == .waiting && decide (k.waitFrom < s.epoch) then
    match k.wait with
    | some (.tick rd) => some rd
    | some (.plan rd) => if s.epoch % s.prof.planDiv = 0 then some rd else none
    | some (.event rd) => if k.evq.isEmpty then none else some rd
    | _ => none
  else none

/-- A core wakes at step 7 of a boundary with its result; a core that slept in WAITP is no late waker of that boundary
(R84). -/
def Core.wake (k : Core) (epoch : Nat) (rd : Fin 32) (v : DWord) : Core :=
  { k.wg rd v with
    mode := .running, wait := none, cyc := 0
    wokeAt := match k.wait with | some (.plan _) => some epoch | _ => k.wokeAt }

def State.wakeCore (s : State) (c : Fin 10) : State :=
  match s.wakeDue c with
  | some rd => s.modCore c fun k => k.wake s.epoch rd (waitResult false false k)
  | none => s

/-- The TCYCLE of the safety core restarts at a Halo-period start marker (R113); what is in flight keeps its latency. -/
def Core.newPeriod (k : Core) : Core :=
  { k with
    cyc := 0, pend := k.pend.map fun e => (e.1, e.2 - k.cyc)
    memFree := k.memFree - k.cyc, divFree := k.divFree - k.cyc }

/-- WAIT_WAKE (R88): a WAITT, WAITP or WAITE whose boundary this is ends at its step 7. -/
def execWaitWake (c : Fin 10) (s : State) : Res := .next (s.wakeCore c)

/-- A running core that was not sleeping in WAITP when the plan period began has a late wake (R84). -/
def Core.markLate (k : Core) (epoch : Nat) : Core :=
  let asleep : Bool := match k.wait with | some (.plan _) => true | _ => false
  let live : Bool := k.mode == .running || k.mode == .waiting
  if live && !asleep && k.wokeAt != some epoch && k.startedAt != some epoch then
    { k with late := true, lateCnt := satAdd 255 k.lateCnt 1 }
  else k

/-- PLAN_PERIOD_START (R19, R83, R84): late wakes are marked, the budgets restart and the waiting cores are woken. -/
def execPlanPeriodStart (s : State) : Res :=
  .next (if s.running && s.epoch % s.prof.planDiv == 0 then
    (List.finRange 9).foldl (fun st c =>
      let c10 : Fin 10 := c.castSucc
      if st.corePresent c.val then
        let st1 := st.modCore c10 fun k => { k.markLate st.epoch with budget := 0, overrun := false }
        match (st1.core c10).wait with
        | some (.plan _) => st1.wakeCore c10
        | _ => st1
      else st) s
  else s)

/-- SIGNAL_DELIVER (R85, R90): the signals sent in the last tick become visible, by sending core and then in issue
order; a core that is stopped, halted or fused off receives none. The cell events of the boundary enter the queues behind the
signals. -/
def execSignalDeliver (s : State) : Res :=
  let due := s.reqs.filter (ReqEntry.signalDue s)
  let sorted := (List.finRange 9).flatMap fun c => due.filter fun e => e.core == c
  let s1 := { s with reqs := s.reqs.filter fun e => !(ReqEntry.signalDue s e) }
  .next (State.deliverCell (sorted.foldl (fun st e => match e.req with
    | .signal d v => if st.coreLive d.castSucc then st.deliver d (mkEv 4 e.core.val v.toNat) 1 else st
    | _ => st) s1))

/-! ### Cycle points, budget, freeze (R79, R83, R91–R94) -/

/-- A cycle point fires while its core runs or has just been woken: the interrupt is taken, or pends while IE is 0.
(DEDUCED: log 32.) -/
def State.firePoint (s : State) (c : Fin 10) (k : Fin 4) (off : Nat) : State :=
  let r := s.core c
  if r.ie then s.takePoint c (max off (r.cyc - 3)) k.val
  else s.modCore c fun r => { r with
    cptMiss := if r.cptPend.getLsbD k.val then r.cptMiss ||| BitVec.ofNat 4 (2 ^ k.val) else r.cptMiss
    cptPend := r.cptPend ||| BitVec.ofNat 4 (2 ^ k.val) }

/-- CYCLE_POINT_FIRE (R91–R94): an enabled point that its EVERY selects fires; on a sleeping core it wakes it if WAKE is
set, abandoning a WAITL or JWAIT, and is missed otherwise. A frozen core has no firing points. -/
def execCyclePointFire (c : Fin 9) (k : Fin 4) (s : State) : Res :=
  let c10 : Fin 10 := c.castSucc
  let r := s.core c10
  let v := r.cpt[k]
  let off := (v.setWidth 32).toNat
  let live : Bool := s.running && s.coreLive c10 && !r.frozen
  let selected : Bool := v.getLsbD 63 && (!v.getLsbD 60 || s.epoch % s.prof.planDiv == 0)
  .next (if !(live && selected) then s
    else match r.mode, r.wait with
      | .waiting, some w =>
        if v.getLsbD 62 then
          let up (r : Core) : Core := { r with mode := .running, wait := none, cyc := off }
          let s1 := s.modCore c10 fun r => match w with
            | .tick rd | .plan rd | .event rd => (up r).wg rd (waitResult false true r)
            | .line _ _ _ _ _ | .job _ _ _ => up r
          s1.firePoint c10 k off
        else s.modCore c10 fun r => { r with cptMiss := r.cptMiss ||| BitVec.ofNat 4 (2 ^ k.val) }
      | _, _ => s.firePoint c10 k off)

/-- BUDGET_OVERRUN (R83, R145, R147): once per plan period, before the next instruction issues. Cycles in which the core
only stalled count up to the budget. (DEDUCED: log 33.) -/
def execBudgetOverrun (c : Fin 9) (s : State) : Res :=
  let c10 : Fin 10 := c.castSucc
  let k := s.core c10
  let b := s.regN (0x40108 + 0x40 * c.val)
  .next (if s.canIssue c10 && b != 0 && !k.overrun then
    let s1 := s.modCore c10 fun k => { k with overrun := true, cyc := k.cyc + (b - k.budget), budget := max k.budget b }
    (s1.raiseAt (s1.coreTime (s1.core c10).cyc) 0x0403 1).except c10 (s1.core c10).cyc 5 (BitVec.ofNat 64 b)
  else s)

/-- What the scrub of the frozen cycles finds (R340): planner code 0, planner data 1, solver SRAM 2. The error is counted, and
an uncorrectable one raises the memory's own fault. -/
def State.scrub (s : State) (m : Fin 3) (e : Ecc) : State :=
  let k : Fin 8 := ⟨m.val, by omega⟩
  let s2 := if m = 2 then s.solverNote e else s.eccNote k e
  if e == .uncorr then
    (if m = 2 then s2.raiseAt (s2.coreTime s2.runcyc) 0x0801 2 else s2.raiseAt (s2.coreTime s2.runcyc) 0x0401 2 true)
  else s2

/-- CORE_FREEZE (R79, R340): at RUNCYC no instruction issues until TCYCLE 0 of the next tick; PLN_PCn takes the PC. `scrub` is
what the scrub of planner and solver memory finds in the frozen cycles that follow. -/
def execCoreFreeze (c : Fin 9) (s : State) (scrub : Option (Fin 3 × Ecc) := none) : Res :=
  let c10 : Fin 10 := c.castSucc
  let s1 := if s.running && s.coreLive c10 && !(s.core c10).frozen then s.modCore c10 fun k => k.freeze s.runcyc else s
  .next (match scrub with
    | some (m, e) => if s.running then s1.scrub m e else s1
    | none => s1)

end Sys2Proof.Machine
end

