-- ==== Sys2Proof/Machine/Cell.lean ====
section
/-! DEFINITION. The cell instructions (R119–R143): operands, refusals and results, segments and plans, line waits, Halo
and Almanac publication, host commands and the journal, queries. The solver's are in Machine/Solver.lean. -/

namespace Sys2Proof.Machine

/-! ### Operands and results (R119, R120, R123) -/

/-- What a cell instruction answers at issue: an exception, a result after some cycles, or sleep. -/
inductive CellAns | trap (code : Nat) (tval : DWord) | done (cycles : Nat) (v : DWord) (st : State) | sleep (st : State)

/-- A refusal: bit 63, the detail in [39:8] and the status code in [7:0] (R120). -/
def refuse (code detail : Nat) : DWord := BitVec.ofNat 64 (2 ^ 63 + detail % 2 ^ 32 * 256 + code)

/-- A cell instruction of `n` cycles writes gd that many cycles after issue (R123). -/
def Core.lengthen (k : Core) (rd : Fin 32) (cyc n : Nat) : Core :=
  { k with
    cyc := k.cyc + (n - 1)
    budget := k.budget + (n - 1)
    pend := if rd = 0 then k.pend else (.g rd, cyc + n) :: k.pend.filter (fun e => e.1 != .g rd) }

/-- Runs a cell instruction. An uncorrectable error on its memory operand also raises PLANNER_ECC (R78, R145). -/
def State.cell (s : State) (c : Fin 9) (rd : Fin 32) (srcs : List CReg) (f : State → Nat → CellAns) : Res :=
  s.execWith c.castSucc (.cell 1) srcs (dstG rd) fun s1 cyc =>
    match f s1 cyc with
    | .trap code tval =>
      (if code = 4 then (s1.eccUp 1).raiseAt (s1.coreTime cyc) 0x0401 2 true else s1).except c.castSucc cyc code tval
    | .done n v st => st.modCore c.castSucc fun k => ((k.wg rd v).lengthen rd cyc n).adv
    | .sleep st => st

/-- A memory operand (R119): the exception it raises, or its data SRAM offset. (DEDUCED: log 36.) -/
def State.operand (s : State) (c : Fin 9) (a len : Nat) (err : Ecc) : Sum (Nat × DWord) Nat :=
  let p := s.prof.priv64k * 65536
  let base := 0x10000000
  if a % 8 != 0 then .inl (3, BitVec.ofNat 64 a)
  else if a < base || base + p ≤ a then .inl (2, BitVec.ofNat 64 a)
  else if base + p < a + len then .inl (2, BitVec.ofNat 64 (base + p))
  else if err == .uncorr then .inl (4, BitVec.ofNat 64 a)
  else .inr (c.val * p + (a - base))

/-- A corrected error that the copy of an operand met is counted (R78). -/
def CellAns.noting (a : CellAns) (err : Ecc) : CellAns :=
  match a with
  | .done n v st => .done n v (st.eccNote 1 err)
  | x => x

/-- The instruction then runs on the bytes of its operand. -/
def State.withBytes (s : State) (c : Fin 9) (a len : Nat) (err : Ecc) (f : List Byte → CellAns) : CellAns :=
  match s.operand c a len err with
  | .inl e => .trap e.1 e.2
  | .inr off => (f (s.data.readN off len)).noting err

def State.rgOf (s : State) (c : Fin 9) (r : Fin 32) : DWord := (s.core c.castSucc).rg r

/-- The safety state as a number (R85, R120). -/
def Safety.num : Safety → Nat
  | .run => 0
  | .dusk => 1
  | .hold => 2
  | .sto => 3

/-- The arm of an arm core; cell core 8 has none. -/
def armOf (c : Fin 9) : Option (Fin 8) := if h : c.val < 8 then some ⟨c.val, h⟩ else none

/-- Adds a request of a core, applied at the next boundary (R122). -/
def State.request (s : State) (c : Fin 9) (r : Req) : State := { s with reqs := s.reqs ++ [⟨c, s.epoch, r⟩] }

/-- The requests of a core that wait for a boundary and satisfy a test. (DEDUCED: log 44.) -/
def State.ownReqs (s : State) (c : Fin 9) (p : Req → Bool) : Nat := (s.reqs.filter fun e => e.core == c && p e.req).length

/-! ### Group 0x10: segments and plans (R124–R129) -/

/-- The structure check of a descriptor at issue (R124, R153), for the arm of a core. -/
def State.segCheck (s : State) (k : Fin 8) (d : SegDesc) : Option Nat :=
  d.check (((s.armProf k.val).map fun p => p.joints.length).getD 0) (fun n => (s.prof.lines.getD n {}).en) (fun a => (s.auxProf a).isSome)

/-- The active-plan count of R124: the segment in progress and accepted appends included. -/
def State.activeCount (s : State) (c : Fin 9) (k : Fin 8) : Nat :=
  s.arms[k].active.length + s.ownReqs c Req.isSega

/-- The descriptor of SEGQ and SEGA: an ACTTGT that names a fused-off axis raises RESOURCE (R3, R132), which comes before
MEM_ECC (R146). (DEDUCED: log 93.) -/
def State.withSeg (s : State) (c : Fin 9) (word : DWord) (a : Nat) (err : Ecc) (f : SegDesc → CellAns) : CellAns :=
  s.withBytes c a 128 (if err == .uncorr then .clean else err) fun b =>
    let d := segOfBytes b
    if d.action == 1 && s.fusedAxis d.actTgt.toNat && decide (d.actTgt.toNat < 128) then .trap 7 word
    else if err == .uncorr then .trap 4 (BitVec.ofNat 64 a)
    else f d

/-- SEGQ (R124, R125). (DEDUCED: log 93.) -/
def execSegq (c : Fin 9) (rd ra : Fin 32) (err : Ecc) (s : State) : Res :=
  s.cell c rd [.g ra] fun s1 _ =>
    match armOf c with
    | none => .trap 8 (wordR 0x10 rd.val ra.val 0 0)
    | some k => s1.withSeg c (wordR 0x10 rd.val ra.val 0 0) (s1.rgOf c ra).toNat err fun d =>
      if 64 ≤ s1.arms[k].staged.length then .done 18 (refuse 1 64) s1
      else match s1.segCheck k d with
        | some o => .done 18 (refuse 3 o) s1
        | none =>
          let s2 := s1.modArm k fun a => { a with staged := a.staged ++ [d] }
          .done 18 (BitVec.ofNat 64 s2.arms[k].staged.length) s2

/-- SEGA (R124, R125). -/
def execSega (c : Fin 9) (rd ra : Fin 32) (err : Ecc) (s : State) : Res :=
  s.cell c rd [.g ra] fun s1 _ =>
    match armOf c with
    | none => .trap 8 (wordR 0x10 rd.val ra.val 0 1)
    | some k => s1.withSeg c (wordR 0x10 rd.val ra.val 0 1) (s1.rgOf c ra).toNat err fun d =>
      if s1.coreSafety != .run then .done 18 (refuse 2 s1.coreSafety.num) s1
      else if 64 ≤ s1.activeCount c k then .done 18 (refuse 1 64) s1
      else match s1.segCheck k d with
        | some o => .done 18 (refuse 3 o) s1
        | none =>
          let s2 := s1.request c (.sega d)
          .done 18 (BitVec.ofNat 64 (s2.activeCount c k)) s2

/-- SEGCLR (R125). -/
def execSegclr (c : Fin 9) (rd : Fin 32) (s : State) : Res :=
  s.cell c rd [] fun s1 _ =>
    match armOf c with
    | none => .trap 8 (wordR 0x10 rd.val 0 0 2)
    | some k => .done 1 0 (s1.modArm k fun a => { a with staged := [] })

/-- CUT (R43, R45, R126). -/
def execCut (c : Fin 9) (rd : Fin 32) (s : State) : Res :=
  s.cell c rd [] fun s1 _ =>
    if s1.coreSafety != .run then .done 1 (refuse 2 s1.coreSafety.num) s1
    else .done 1 0 (s1.request c .cut)

/-- The active segment ID of the arm record (R164): 0 for an idle arm. -/
def Arm.segIdNow (a : Arm) : Word :=
  match a.active with
  | x :: _ => if a.run.isSome then x.d.segId else if a.stopped then a.lastSegId else 0
  | [] => if a.stopped then a.lastSegId else 0

/-- SEGSTAT (R127). -/
def execSegstat (c : Fin 9) (rd : Fin 32) (s : State) : Res :=
  s.cell c rd [] fun s1 _ =>
    match armOf c with
    | none => .trap 8 (wordR 0x10 rd.val 0 0 4)
    | some k => .done 1 (BitVec.ofNat 64 (s1.arms[k].staged.length % 256 + 256 * (s1.activeCount c k % 256)
        + 65536 * s1.arms[k].segIdNow.toNat)) s1

/-- STOP (R128): its own arm on an arm core, a mask of arms on the cell core; outside run it changes nothing. -/
def execStop (c : Fin 9) (rd ra : Fin 32) (s : State) : Res :=
  s.cell c rd [.g ra] fun s1 _ =>
    let v := (s1.rgOf c ra).toNat
    let word := wordR 0x10 rd.val ra.val 0 5
    let mask : BitVec 8 := match armOf c with | some k => BitVec.ofNat 8 (2 ^ k.val) | none => BitVec.ofNat 8 v
    let fused : Bool := (armOf c).isNone && (List.range 8).any fun k => mask.getLsbD k && !s1.armPresent k
    let badOp : Bool := if (armOf c).isSome then v != 0 else decide (256 ≤ v)
    if fused then .trap 7 word
    else if badOp then .trap 9 word
    else .done 1 0 (if s1.coreSafety == .run then s1.request c (.stop mask) else s1)

/-- AUXQ (R129, R183, R199): a STOP descriptor is never refused with FULL, and succeeds without effect outside run.
(DEDUCED: log 44.) -/
def execAuxq (c : Fin 9) (rd ra rb : Fin 32) (err : Ecc) (s : State) : Res :=
  s.cell c rd [.g ra, .g rb] fun s1 _ =>
    let v := (s1.rgOf c rb).toNat
    let word := wordR 0x10 rd.val ra.val rb.val 8
    let ax : Fin 128 := ⟨v % 128, Nat.mod_lt _ (by decide)⟩
    if c != 8 then .trap 8 word
    else if !s1.axisPresent ax.val then .trap 7 word
    else if 128 ≤ v then .trap 9 word
    else s1.withBytes c (s1.rgOf c ra).toNat 32 err fun b =>
      let m := auxOfBytes b
      let queued := s1.aux[ax].queue.length + s1.ownReqs c fun r => match r with | .auxq a x => a == ax && !x.isStop | _ => false
      let aux := (s1.auxProf ax.val).isSome
      let ok (st : State) (n : Nat) : CellAns := .done 6 (BitVec.ofNat 64 n) st
      if s1.coreSafety != .run && !m.isStop then .done 6 (refuse 2 s1.coreSafety.num) s1
      else if aux && !m.isStop && decide (8 ≤ queued) then .done 6 (refuse 1 8) s1
      else if !aux then .done 6 (refuse 3 0) s1
      else match m.check with
        | some o => .done 6 (refuse 3 o) s1
        | none =>
          if s1.coreSafety != .run then ok s1 queued
          else ok (s1.request c (.auxq ax m)) (queued + bnat (!m.isStop))

/-! ### Group 0x11: line waits, and the end of a wait (R130, R134) -/

/-- The newest class 0x05 record says which safety state a wait ended in. -/
def Core.safetySeen (k : Core) (dflt : Nat) : Nat :=
  match k.evq.reverse.find? fun e => e.cls == 5 with
  | some e => e.data.toNat
  | none => dflt

/-- The line record of the view (R35). -/
def State.viewLine (s : State) (n : Nat) : LineRec := match s.view with | some a => nth a.lines n {} | none => {}

/-- The outcome of WAITL at an evaluation, in the order of R130; at issue no boundary has passed for the wait. -/
def State.evalLine (s : State) (c : Fin 9) (n : Nat) (le : Bool) (target deadline : DWord) (atIssue : Bool) : Option DWord :=
  let r := s.viewLine n
  let k := s.core c.castSucc
  let hit : Bool := if le then decide (r.count.toInt ≤ target.toInt) else decide (target.toInt ≤ r.count.toInt)
  if r.status.getLsbD 2 then some (refuse 5 n)
  else if !atIssue && k.safetyEv then some (refuse 6 (k.safetySeen s.coreSafety.num))
  else if hit then some (r.uncert.setWidth 64)
  else if deadline != 0 && decide (deadline.toNat ≤ s.epoch) then some (refuse 4 s.epoch)
  else none

/-- WAITL (R130, R131): func[2:0] the line, func[4:3] the comparison. -/
def execWaitl (c : Fin 9) (rd ra rb : Fin 32) (func : BitVec 12) (s : State) : Res :=
  s.cell c rd [.g ra, .g rb] fun s1 _ =>
    let f := func.toNat
    let n : Fin 8 := ⟨f % 8, Nat.mod_lt _ (by decide)⟩
    let le := fld f 4 3 == 1
    let word := wordR 0x11 rd.val ra.val rb.val f
    if 16 ≤ f then .trap 1 word
    else if !(s1.prof.lines.getD n.val {}).en then .trap 7 word
    else
      let target := s1.rgOf c ra
      let dl := s1.rgOf c rb
      match s1.evalLine c n.val le target dl true with
      | some v => .done 1 v s1
      | none => .sleep (s1.modCore c.castSucc fun k =>
          { k with mode := .waiting, wait := some (.line rd n le target dl), waitFrom := s1.epoch })

/-- A WAITL or JWAIT ends at step 7: gd is written and the PC moves past it. -/
def Core.endWait (k : Core) (epoch : Nat) (rd : Fin 32) (v : DWord) : Core := (k.wake epoch rd v).adv

/-- WAITL_WAKE (R130): the evaluation at step 7 of a later boundary. (DEDUCED: log 34.) -/
def execWaitlWake (c : Fin 9) (s : State) : Res :=
  let k := s.core c.castSucc
  .next (match k.mode, k.wait with
    | .waiting, some (.line rd n le target dl) =>
      if k.waitFrom < s.epoch then
        match s.evalLine c n.val le target dl false with
        | some v => s.modCore c.castSucc fun k => k.endWait s.epoch rd v
        | none => s
      else s
    | _, _ => s)

/-! ### Groups 0x13 and 0x14: publication (R136, R137, R553) -/

/-- HPUB (R136): func 0 tool capsules, func 1 zone claims; the records cross to the SAFE domain at the next boundary.
(DESIGN CHOICE: log 100.) -/
def execHpub (c : Fin 9) (rd ra rb : Fin 32) (func : BitVec 12) (err : Ecc) (s : State) : Res :=
  s.cell c rd [.g ra, .g rb] fun s1 _ =>
    let f := func.toNat
    let n := (s1.rgOf c rb).toNat
    let word := wordR 0x13 rd.val ra.val rb.val f
    if 2 ≤ f then .trap 1 word
    else if f = 0 && (armOf c).isNone then .trap 8 word
    else if 8 < n then .trap 9 word
    else
      let fin (recs : List (List Byte)) : CellAns := .done (2 + 4 * n) 0 (s1.request c (.hpub f recs))
      if n = 0 then fin []
      else s1.withBytes c (s1.rgOf c ra).toNat (32 * n) err fun b =>
        fin ((List.range n).map fun i => bytesAt b (32 * i) 32)

/-- APUB (R137): into the Almanac of this tick before PUBCYC, and of the next from then on. -/
def execApub (c : Fin 9) (rd ra rb : Fin 32) (func : BitVec 12) (err : Ecc) (s : State) : Res :=
  s.cell c rd [.g ra, .g rb] fun s1 cyc =>
    let n := (s1.rgOf c rb).toNat
    let word := wordR 0x14 rd.val ra.val rb.val func.toNat
    if func != 0 then .trap 1 word
    else if n % 8 != 0 || n < 8 || 256 < n then .trap 9 word
    else s1.withBytes c (s1.rgOf c ra).toNat n err fun b =>
      .done (2 + n / 8) 0 (s1.modCore c.castSucc fun k =>
        if cyc < s1.pubcyc then { k with areaNow := some b } else { k with areaNext := some b })

/-! ### Group 0x15: host commands and the journal (R138–R142) -/

/-- The replay entries a core has still to take. -/
def State.replayLeft (s : State) (c : Fin 9) : Nat := s.jrn.replay[c].length

/-- RTAKE (R138): the next released entry of a ring routed to the core. The index in the Almanac is the one at PUBCYC
(R137), so a take from then on is counted apart until the tick ends. -/
def execRtake (c : Fin 9) (rd ra rb : Fin 32) (s : State) : Res :=
  s.cell c rd [.g ra, .g rb] fun s1 cyc =>
    let v := (s1.rgOf c rb).toNat
    let r : Fin 4 := ⟨v % 4, Nat.mod_lt _ (by decide)⟩
    let word := wordR 0x15 rd.val ra.val rb.val 0
    if s1.route 1 r.val != c then .trap 8 word
    else if 4 ≤ v then .trap 9 word
    else match s1.operand c (s1.rgOf c ra).toNat 64 .clean with
      | .inl e => .trap e.1 e.2
      | .inr off =>
        if s1.replayLeft c != 0 then .done 10 (refuse 0xC (s1.replayLeft c)) s1
        else match s1.host.rings[r].released with
          | [] => .done 10 (refuse 8 0) s1
          | (idx, bytes) :: rest =>
            let s2 := { s1 with
              data := s1.data.writeN off (bytesAt bytes 0 64)
              host := { s1.host with rings := vmod s1.host.rings r fun q => { q with
                released := rest, cons := q.cons + 1, late := if cyc < s1.pubcyc then q.late else q.late + 1 } } }
            let s3 := s2.modCore c.castSucc fun k => { k with lastTake := some (BitVec.ofNat 8 r.val, idx) }
            .done 10 ((s3.host.rings[r].cons).setWidth 64) s3

/-- JREC (R139, R473): the sequence number is assigned at issue, the entry committed at the next boundary.
(DEDUCED: log 73.) -/
def execJrec (c : Fin 9) (rd ra rb : Fin 32) (err : Ecc) (s : State) : Res :=
  s.cell c rd [.g ra, .g rb] fun s1 _ =>
    let v := (s1.rgOf c rb).toNat
    if 2 ≤ v then .trap 9 (wordR 0x15 rd.val ra.val rb.val 1)
    else s1.withBytes c (s1.rgOf c ra).toNat 64 err fun b =>
      let waiting := s1.ownReqs c Req.isJrec
      if 2048 ≤ s1.jrn.entries.length + waiting then .done 10 (refuse 1 2048) s1
      else
        let seq := s1.jrn.next
        let lt := ((s1.core c.castSucc).lastTake).getD (0xFF, 0)
        let s2 := { s1 with jrn := { s1.jrn with next := seq + 1 } }
        .done 10 (seq.setWidth 64) (s2.request c (.jrec seq (v == 1) lt.1 lt.2 b))

/-- A sequence number is outstanding for a core (R140): in flight, or in an own JREC that waits for the boundary, and not
yet named by an own JDONE. (DEDUCED: log 35.) -/
def State.outstanding (s : State) (c : Fin 9) (seq : Word) : Bool :=
  (s.jrn.entries.any (fun e => e.2.seq == seq) || s.reqs.any (fun e => e.core == c && match e.req with | .jrec q _ _ _ _ => q == seq | _ => false))
    && !(s.reqs.any fun e => e.core == c && match e.req with | .jdone q _ => q == seq | _ => false)

/-- JDONE (R140): marks the entry complete at the next boundary. (DEDUCED: log 35.) -/
def execJdone (c : Fin 9) (rd ra rb : Fin 32) (s : State) : Res :=
  s.cell c rd [.g ra, .g rb] fun s1 _ =>
    let seq := (s1.rgOf c ra).setWidth 32
    if s1.outstanding c seq then .done 1 0 (s1.request c (.jdone seq ((s1.rgOf c rb).setWidth 16)))
    else .done 1 (refuse 7 seq.toNat) s1

/-- JNEXT (R142): the next replay entry of the core, with its idempotent flag, which is always 1. -/
def execJnext (c : Fin 9) (rd ra : Fin 32) (s : State) : Res :=
  s.cell c rd [.g ra] fun s1 _ =>
    match s1.operand c (s1.rgOf c ra).toNat 64 .clean with
    | .inl e => .trap e.1 e.2
    | .inr off => match s1.jrn.replay[c] with
      | [] => .done 10 (refuse 8 0) s1
      | seq :: rest =>
        let cmd := ((s1.jrn.entries.find? fun e => e.2.seq == seq).map fun e => e.2.cmd).getD []
        .done 10 (BitVec.ofNat 64 (seq.toNat + 2 ^ 32)) { s1 with
          data := s1.data.writeN off (bytesAt cmd 0 64)
          jrn := { s1.jrn with replay := vmod s1.jrn.replay c fun _ => rest } }

/-! ### Group 0x16: queries (R143, R501) -/

/-- The version byte of a capability: 1 where it is present (R501). -/
def State.capVersion (s : State) (id : Nat) : Nat := bnat (decide (1 ≤ id) && decide (id ≤ (if s.is8064 then 8 else 9)))

/-- The PROFQ items of R143; none where the item is undefined. -/
def State.profItem (s : State) (c : Fin 9) (i : Nat) : Option Nat :=
  let p := s.prof
  if i = 0 then some p.slot
  else if i = 1 then some p.serial.toNat
  else if i = 2 then some s.rateHz
  else if i = 3 then some p.planDiv
  else if i = 4 then some p.haloDiv
  else if i = 5 then some ((List.range 8).foldl (fun m k => m + (if (s.armProf k).isSome then 2 ^ k else 0)) 0)
  else if i = 6 then some (match armOf c with | some k => ((s.armProf k.val).map fun p => p.joints.length).getD 0 | none => 0)
  else if i = 7 then some (if s.is8064 then 64 else 128)
  else if i = 8 then some s.tilesPresent.toNat
  else if i = 9 then some p.priv64k
  else if i = 10 then some ((List.range 4).foldl (fun m r => m + (if s.route 1 r == c then 2 ^ r else 0)) 0)
  else if 16 ≤ i ∧ i < 24 then some (p.lines.getD (i - 16) {}).scale.toNat
  else if 24 ≤ i ∧ i < 32 then some (p.lines.getD (i - 24) {}).origin.toNat
  else none

/-- PROFQ (R143). -/
def execProfq (c : Fin 9) (rd : Fin 32) (imm : BitVec 12) (s : State) : Res :=
  s.cell c rd [] fun s1 _ =>
    match s1.profItem c imm.toNat with
    | some v => .done 1 (BitVec.ofNat 64 v) s1
    | none => .trap 1 (wordI 0x16 rd.val 0 0 imm.toNat)

/-- CAPQ (R143): imm12[11:8] must be 0. -/
def execCapq (c : Fin 9) (rd : Fin 32) (imm : BitVec 12) (s : State) : Res :=
  s.cell c rd [] fun s1 _ =>
    if 256 ≤ imm.toNat then .trap 1 (wordI 0x16 rd.val 0 1 imm.toNat)
    else .done 1 (BitVec.ofNat 64 (s1.capVersion imm.toNat)) s1

end Sys2Proof.Machine
end

