-- ==== Sys2Proof/Machine/SafeDomain.lean ====
section
/-! DEFINITION. The SAFE domain (12): the fault log and queue, reactions, Dusk, hold and STO, the switch-off outputs,
the reset edge, safe inputs and outputs, diagnostics, the flow signature and the mailbox. -/

namespace Sys2Proof.Machine

def State.modSaf (s : State) (f : Saf → Saf) : State := { s with saf := f s.saf }
/-- Commands that carry their instant set the time that fault stamps use. -/
def State.atTime (s : State) (t : DWord) : State := { s with now := t }

/-! ### The fault log and the queue (R316–R325, R344) -/

/-- The full code of a fault as taken (R319). -/
def fullCode (code cls : Nat) : Nat := code + 0x4000 * cls
def FaultRep.full (r : FaultRep) : Nat := fullCode r.code r.cls

/-- The index that the next log entry takes (R344): entries 0 to 15 keep the first 16, the rest form a ring. -/
def logIndex (taken : Nat) : Nat := if taken < 16 then taken else 16 + (taken - 16) % 1008

/-- Adds a log entry. Flag bits: 0 escalated, 1 queued, 2 pre-empted a reaction, 3 pre-empted, 4 hold permitted. -/
def Saf.addLog (f : Saf) (r : FaultRep) (flags : Nat) (epoch : Nat) : Saf :=
  let i := logIndex f.taken
  let e : LogEntry := {
    code := BitVec.ofNat 16 r.full, flags := BitVec.ofNat 8 flags, block := BitVec.ofNat 8 (r.code / 256)
    detail := r.detail, stamp := r.stamp, epoch := if r.cls < 2 then 0 else epoch, seq := f.seq + 1, count := 1 }
  { f with log := assocSet f.log i e, taken := f.taken + 1, seq := f.seq + 1, lastIdx := i }

/-- The queue record of the fault that took the latest log entry. -/
def Saf.lastQ (f : Saf) (r : FaultRep) : QFault := ⟨r, f.lastIdx, f.seq⟩

/-- Changes the entry that a fault took, if the ring has not overwritten it. -/
def Saf.modEntry (f : Saf) (q : QFault) (g : LogEntry → LogEntry) : Saf :=
  { f with log := f.log.map fun e => if e.1 == q.idx && e.2.seq == q.seq then (e.1, g e.2) else e }
def Saf.holdsEntry (f : Saf) (q : QFault) : Bool := f.log.any fun e => e.1 == q.idx && e.2.seq == q.seq

/-- The faults of R334 stay latched until a warm or power-on reset. -/
def latchedCodes : List Nat := [0x0101, 0x0102, 0x0103, 0x0105, 0x1801, 0x1802, 0x1803, 0x1805, 0x1806, 0x1815]

/-- STO on the SAFE side, at once (R317, R330): STO_DYN static low, every safe output off. -/
def Saf.enterSto (f : Saf) : Saf :=
  { f with state := .sto, stoDyn := false, forced := 0xFF, stoDue := false, finalRamp := false }

/-- STO has been entered or follows at the next boundary. -/
def Saf.inSto (f : Saf) : Bool := f.state == .sto || f.stoDue

/-- The host signal of a fault of class F1 or higher (R316), which crosses from SAFE to HOST as a pulse: at most 3 cycles of
4 ns and 4 of 5 ns pending (R481). (DESIGN CHOICE: log 108.) -/
def State.signalFault (s : State) (r : FaultRep) : State :=
  if 1 ≤ r.cls then
    let p := s.pulse 3 32
    if p.1 then p.2 else p.2.msix 0
  else s

/-- Takes a fault (R316, R317, R325, R328): F2 outside STO starts a Dusk ramp, F3 forces STO; the CORE side follows
through the gate as source 1. (DESIGN CHOICE: log 4.) -/
def State.takeFault (s : State) (t : DWord) (q : QFault) : State :=
  let r := q.rep
  let s1 := (s.signalFault r).modSaf fun f => { f with react := some q }
  if r.cls < 2 then s1
  else if r.cls = 2 then
    if s.saf.inSto then s1
    else (s1.modSaf fun f => { f with noHold := !(r.hold && f.state == .run) }).gateIn t 1 (.safety .dusk)
  else
    let s2 := s1.modSaf fun f => { f.enterSto with f3Now := some r.full }
    if s.saf.state == .sto then s2 else s2.gateIn t 1 (.safety .sto)

/-- Whether the reaction in progress has ended (R321): F0 and F1 once signalled, F2 in STO likewise, F3 once STO has
been entered and the outputs are static. A Dusk ramp ends with DUSK_REST. (DEDUCED: log 57.) -/
def Saf.reactOver (f : Saf) : Bool :=
  match f.react with
  | none => true
  | some q => q.rep.cls < 2 || (if q.rep.cls = 2 then f.inSto else f.state == .sto && !f.stoDyn)

/-- Takes queued faults in queue order after a reaction has ended (R322): outside a ramp each is only signalled. -/
def State.drainQueue : Nat → State → State
  | 0, s => s
  | n + 1, s =>
    match s.saf.queue with
    | [] => s
    | q :: r => State.drainQueue n ((s.signalFault q.rep).modSaf fun f => { f with
        queue := r, noHold := f.noHold || q.rep.cls == 2 })

/-- Ends a finished reaction and drains the queue. (DEDUCED: log 57.) -/
def State.settleFaults (s : State) : State :=
  if s.saf.reactOver then (s.modSaf fun f => { f with react := none }).drainQueue 17 else s

/-- The blocks that carry the ramp itself (R324). -/
def rampBlocks : List Nat := [0x08, 0x0A, 0x0B, 0x0C, 0x10]

/-- Escalation (R324): from the boundary that applies Dusk until STO or run. -/
def State.escalates (s : State) (r : FaultRep) : Bool :=
  (s.coreSafety == .dusk || s.coreSafety == .hold) && r.cls == 2 && rampBlocks.contains (r.code / 256)

/-- A fault reaches the queue (R321, R322, R324): it takes a log entry or counts as a repeat, then it is taken, pre-empts,
is queued, or overflows the queue. (DEDUCED: log 56.) -/
def State.intake (s : State) (t : DWord) (r0 : FaultRep) : State :=
  let esc := s.escalates r0
  let r : FaultRep := if esc then { r0 with cls := 3, hold := false } else r0
  let epoch := s.stampAt t
  let fl := bnat esc + 16 * bnat (r.cls == 2 && r.hold)
  match s.saf.queue.find? (fun q => q.rep.code == r.code && q.rep.cls == r.cls) with
  | some q =>
    if s.saf.holdsEntry q then s.modSaf fun f => f.modEntry q fun e => { e with count := satAdd 65535 e.count 1 }
    else s.modSaf fun f =>
      let f1 := f.addLog r (fl + 2) epoch
      { f1 with queue := f1.queue.map fun x => if x == q then { x with idx := f1.lastIdx, seq := f1.seq } else x }
  | none =>
    let s0 := if latchedCodes.contains r.code && !s.saf.latched.contains r.full then
        s.modSaf fun f => { f with latched := f.latched ++ [r.full] } else s
    match s0.saf.react with
    | none =>
      let s1 := s0.modSaf fun f => f.addLog r fl epoch
      s1.takeFault t (s1.saf.lastQ r)
    | some q0 =>
      if q0.rep.cls < r.cls then
        let s1 := s0.modSaf fun f => (f.modEntry q0 fun e => { e with flags := e.flags ||| 8 }).addLog r (fl + 4) epoch
        s1.takeFault t (s1.saf.lastQ r)
      else if s0.saf.queue.length < 16 then
        s0.modSaf fun f =>
          let f1 := f.addLog r (fl + 2) epoch
          { f1 with queue := f1.queue ++ [f1.lastQ r], f3Now := if r.cls = 3 then some r.full else f1.f3Now }
      else
        let ovf : FaultRep := ⟨0x1807, 3, false, s.now, Config.faultDetail 0x1807 s.free⟩
        let s1 := s0.modSaf fun f => f.addLog r fl epoch
        let s2 : State := { s1 with free := s1.free + 1 }
        if q0.rep.cls < 3 then
          let s3 := s2.modSaf fun f => (f.modEntry q0 fun e => { e with flags := e.flags ||| 8 }).addLog ovf 4 epoch
          s3.takeFault t (s3.saf.lastQ ovf)
        else s2.modSaf fun f => f.addLog ovf 0 epoch

/-- The order of faults that reach the queue in one SAFE cycle (R323). -/
def FaultRep.before (a b : FaultRep) : Bool :=
  if a.cls != b.cls then decide (b.cls < a.cls) else decide (a.code ≤ b.code)

/-- FAULT_QUEUE_POP (R346): the safety core pops the head record. -/
def execFaultQueuePop (s : State) : Res := .next (s.modSaf fun f => { f with queue := f.queue.tail })

/-- PROGRAM_FAULT_RAISE (R320): the hold-permit bit counts for F2. -/
def execProgramFaultRaise (i : Fin 128) (cls : Fin 4) (hold : Bool) (t : DWord) (s : State) : Res :=
  .next ((s.atTime t).raise (0x1880 + i.val) cls.val (hold && cls == 2))

/-! ### Dusk, hold and STO (R326–R330) -/

/-- The CORE side of STO entry (R174, R200, R272): plans are emptied and their actions withheld, auxiliary queues are
emptied, channels stop, and MAN clears. Staged queues are kept. -/
def clearMan (regs : Bank) : Bank := regs.map fun e =>
  if 0xA1000 ≤ e.1 ∧ e.1 < 0xA9000 ∧ e.1 % 0x100 = 4 then (e.1, e.2 &&& 0xFFFFFFFE) else e

def State.stoCore (s : State) : State :=
  let s1 := (List.finRange 8).foldl (fun st k => (st.withholdAll k).modArm k fun a => { a with
    lastSegId := match a.active with | x :: _ => x.d.segId | [] => if s.armState a == 4 || a.stopped then a.lastSegId else 0
    active := [], run := none, s := 0, sigma := 0, acc := 0, stopping := .no, stopped := false
    handE := [], handK := 0, missStop := false }) s
  { s1 with
    aux := vmap (fun _ g => { g with
      queue := [], start := none, release := false, v := 0, aprev := 0, aff := 0, stopping := .no, stops := [], relNow := false
      icur := 0 }) s1.aux
    chans := vmap (fun _ c => { c with last := 0, iref := 0 }) s1.chans
    mans := vmap (fun _ _ => false) s1.mans
    regs := clearMan s1.regs
    coreSafety := .sto }

/-- STO_ENTRY (R330): an F3 or the final rest brings STO; the CORE side follows where step 1 has applied it. Entering it
again changes nothing more. -/
def execStoEntry (t : DWord) (s : State) : Res :=
  let s0 := s.atTime t
  let due := s.saf.stoDue || s.saf.state == .sto || s.coreSafety == .sto
  let s1 := if due then s0.modSaf Saf.enterSto else s0
  .next (if s.coreSafety == .sto then s1.stoCore else s1)

/-- Whether every generator has reached rest and every cascade axis is within STILLV (R327). -/
def State.atRest (s : State) : Bool :=
  ((List.finRange 8).all fun k => (s.armProf k.val).isNone ||
    (f64IsZero s.arms[k].sigma && s.arms[k].handE.isEmpty)) &&
  ((List.finRange 128).all fun a =>
    ((s.auxProf a.val).isNone || (f64IsZero s.aux[a].v && f64IsZero s.aux[a].aprev)) &&
    (!s.runsCascade a.val || decide (s.fbk[a].speed.natAbs ≤ nth s.prof.saf.stillv a.val 0)))

/-- The ramp reaches rest (R322, R327, R328): the F2 reaction ends and the queue is drained; a permitted hold follows, else STO at
the next boundary. -/
def State.duskRest (t : DWord) (s : State) : State :=
  if s.coreSafety == .dusk && s.saf.state == .dusk && !s.saf.stoDue && s.atRest then
    let s1 := ((s.atTime t).modSaf fun f => { f with react := none }).drainQueue 17
    if 0 < s1.prof.tHoldS && !s1.saf.noHold && !s1.saf.finalRamp then
      (s1.modSaf fun f => { f with state := .hold }).gateIn t 1 (.safety .hold)
    else (s1.modSaf fun f => { f with stoDue := true }).gateIn t 1 (.safety .sto)
  else s

/-- DUSK_TIMEOUT (R327). -/
def execDuskTimeout (t : DWord) (s : State) : Res :=
  .next (if s.coreSafety == .dusk && s.saf.state == .dusk && !s.saf.stoDue && !s.atRest then (s.atTime t).raise 0x1808 3 else s)

/-- The end of a hold (R329): logged, then a ramp to STO that adds no Dusk count. -/
def State.endHold (s : State) (t : DWord) : State :=
  if s.coreSafety == .hold && s.saf.state == .hold then
    (((s.atTime t).raise 0x181A 0).modSaf fun f => { f with finalRamp := true, state := .dusk }).gateIn t 1 .finalRamp
  else s

/-- HOLD_END (R329). -/
def execHoldEnd (t : DWord) (s : State) : Res := .next (s.endHold t)

/-! ### Switch-off outputs (R312–R314) -/

/-- A watchdog service that comes too early or too late (R313). (DEDUCED: log 90.) -/
def State.wdogExpire (s : State) (t : DWord) : State :=
  ((s.atTime t).modSaf fun f => { f with wdog := false }).raise 0x1809 3

/-- WDOG_SERVICE (R313): `since` is the time from the service before, in µs of the AON crystal. (DEDUCED: log 90.) -/
def execWdogService (since : Nat) (t : DWord) (s : State) : Res :=
  .next (if 500 ≤ since ∧ since ≤ 2000 then s.atTime t else s.wdogExpire t)
/-- WDOG_EXPIRED (R313). -/
def execWdogExpired (t : DWord) (s : State) : Res := .next (s.wdogExpire t)
/-- WDOG_STO_DELAY (R313). -/
def execWdogStoDelay (s : State) : Res :=
  .next (if s.saf.state == .sto then s.modSaf fun f => { f with wdog := false } else s)
/-- STO_READBACK (R314): both outputs are forced static low. -/
def execStoReadback (t : DWord) (s : State) : Res :=
  .next (((s.atTime t).modSaf fun f => { f with stoDyn := false, wdog := false }).raise 0x1815 3)

/-! ### The reset edge (R331–R333) -/

/-- RESET_EDGE (R331, R332, R498): SAFE_RST_N is released after a press; `released` is the time it was high before the press
and `pressed` the time it was low, in µs. An edge before boot stage 8 is discarded. (DEDUCED: log 58.) -/
def execResetEdge (released pressed : Nat) (t : DWord) (s : State) : Res :=
  let p := s.prof.saf
  let s1 := (s.atTime t).modSaf fun f => { f with rstPin := true, stuck := false }
  .next (if pressed < p.tminMs * 1000 then s1.raise 0x1817 0
    else if p.tmaxMs * 1000 < pressed || s.saf.stuck || decide (released < p.tminMs * 1000) then s1
    else if !s.boot.ready then s1.raise 0x1819 0
    else s1.modSaf fun f => { f with edge := true })

/-- RESET_STUCK (R332): once in a press. -/
def execResetStuck (t : DWord) (s : State) : Res :=
  .next (if s.saf.stuck then s else ((s.atTime t).modSaf fun f => { f with stuck := true, rstPin := false }).raise 0x1816 1)

/-- Whether a slot is bound to a volume connection (R352). -/
def State.slotBound (s : State) (i : Nat) : Bool :=
  s.prof.saf.conns.any fun c => c.en && !c.signal && c.slots.any fun x => x.val == i

/-- The first blocking condition of R333 and R371, as the detail of RESET_REFUSED. -/
def State.blocking (s : State) : Option Word :=
  let f := s.saf
  let code (c : Nat) : Option Word := some (BitVec.ofNat 32 c)
  if s.boot.power == .quiet then code 0x10000
  else if !f.estA && !f.estB then code (fullCode 0x1810 2)
  else if f.estA != f.estB then code (fullCode 0x1811 3)
  else if f.sinDisc != 0 then code (fullCode 0x1813 2)
  else if f.sinTest != 0 then code (fullCode 0x1812 2)
  else if f.estTest != 0 then code (fullCode 0x1811 3)
  else match f.latched with
  | c :: _ => code c
  | [] =>
    if (List.finRange 128).any fun a => s.fbk[a].plaus && decide (0 < s.fbk[a].plCnt) then code (fullCode 0x0C05 3)
    else if (List.finRange 128).any fun a => s.runsCascade a.val && s.fbk[a].timeout then code (fullCode 0x0C04 3)
    else if (List.finRange 32).any fun i => s.slotBound i.val && s.halo.vols[i].fail then code (fullCode 0x1902 1)
    else if !s.halo.overlaps.isEmpty then code (fullCode 0x1903 2)
    else if s.halo.conflict then code (fullCode 0x1904 2)
    else match f.f3Prev, f.f3Now with
      | some c, _ => code c
      | none, some c => code c
      | none, none => none

/-- RESET_EDGE_EVALUATE (R312, R313, R325, R333, R533): at a Halo-period start, only in STO; an accepted edge empties
the queue, restarts the switch-off outputs and sends the run state through the gate. (DEDUCED: log 58.) -/
def execResetEdgeEvaluate (t : DWord) (s : State) : Res :=
  .next (if !s.saf.edge then s
    else
      let s0 := (s.atTime t).modSaf fun f => { f with edge := false }
      if s.saf.state != .sto then s0.raise 0x1819 0
      else match s.blocking with
        | some d => s0.raise 0x1818 0 false (some d)
        | none =>
          let s1 := s0.modSaf fun f => { f with
            queue := [], react := none, stoDyn := true, wdog := true, state := .run, noHold := false, finalRamp := false }
          let s2 : State := { s1 with halo := { s1.halo with first := true } }
          let s3 : State := if s2.dbg.scope == 2 then { s2 with dbg := { s2.dbg with scope := 1 } } else s2
          s3.gateIn t 1 (.safety .run))

/-! ### Safe inputs and outputs (R336–R339) -/

def State.sinCfg (s : State) (i : Nat) : Nat := (nth s.prof.saf.sincfg i 0 &&& 0xFFFF00E7).toNat
def State.sinMode (s : State) (i : Nat) : Nat := fld (s.sinCfg i) 2 0

/-- The first input of the pair that an input belongs to (R336). -/
def State.pairOf (s : State) (i : Nat) : Option Nat :=
  let pair (j : Nat) : Bool := j < 15 && (s.sinMode j == 3 || s.sinMode j == 4)
  if pair i then some i else if 0 < i && pair (i - 1) then some (i - 1) else none

/-- Whether the inputs of a pair agree with its mode: 3 equivalent, 4 antivalent. -/
def State.pairAgrees (s : State) (i : Nat) : Bool :=
  (s.saf.sin.getLsbD i == s.saf.sin.getLsbD (i + 1)) == (s.sinMode i == 3)

def bitSet {w : Nat} (v : BitVec w) (i : Nat) (b : Bool) : BitVec w :=
  if b then v ||| BitVec.ofNat w (2 ^ i) else v &&& ~~~(BitVec.ofNat w (2 ^ i))

/-- SAFE_INPUT_CHANGE (R336): the filtered level; a pair that agrees again is no longer in discrepancy. -/
def execSafeInputChange (i : Fin 16) (level : Bool) (s : State) : Res :=
  let s1 := s.modSaf fun f => { f with sin := bitSet f.sin i.val level }
  .next (match s1.pairOf i.val with
    | some p =>
      if s1.pairAgrees p then s1.modSaf fun f => { f with sinDisc := bitSet (bitSet f.sinDisc p false) (p + 1) false }
      else s1
    | none => s1)

/-- SIN_DISC (R336). -/
def execSinDisc (i : Fin 16) (t : DWord) (s : State) : Res :=
  .next (match s.pairOf i.val with
    | some p =>
      if s.pairAgrees p then s
      else ((s.atTime t).modSaf fun f => { f with sinDisc := bitSet (bitSet f.sinDisc p true) (p + 1) true }).raise 0x1813 2
    | none => s)

/-- TEST_PULSE (R337, R338, R340): TPk pulses low. `lows` are the inputs that read low from 100 µs after the start of
the pulse to its end, `estLow` the same of the ESTOP contact tested with TP0 (A) or TP1 (B). (DEDUCED: log 59.) -/
def execTestPulse (k : Fin 4) (lows : BitVec 16) (estLow : Bool) (t : DWord) (s : State) : Res :=
  let s1 := (List.range 16).foldl (fun st i =>
    if st.sinMode i == 2 && fld (st.sinCfg i) 6 5 == k.val then
      let st1 := st.modSaf fun f => { f with sinTest := bitSet f.sinTest i (!lows.getLsbD i) }
      if lows.getLsbD i then st1 else st1.raise 0x1812 2
    else st) (s.atTime t)
  .next (if 2 ≤ k.val then s1
    else
      let s2 := s1.modSaf fun f => { f with estTest := bitSet f.estTest k.val (!estLow) }
      if estLow then s2 else s2.raise 0x1811 3)

/-- ESTOP_CHANGE (R338): filtered levels of the two contacts; low is open. -/
def execEstopChange (a b : Bool) (t : DWord) (s : State) : Res :=
  let was := !s.saf.estA && !s.saf.estB
  let s1 := (s.atTime t).modSaf fun f => { f with estA := a, estB := b }
  .next (if !a && !b && !was then s1.raise 0x1810 2 else s1)
/-- ESTOP_DISC (R338). (DEDUCED: log 59.) -/
def execEstopDisc (t : DWord) (s : State) : Res :=
  .next (if s.saf.estA != s.saf.estB then (s.atTime t).raise 0x1811 3 else s)

/-- The driven safe outputs (R339). -/
def Saf.sout (f : Saf) : Byte := f.soutReq &&& ~~~f.forced
/-- SOUT_WRITE (R339): a forced output stays off until run. -/
def execSoutWrite (v : Byte) (s : State) : Res := .next (s.modSaf fun f => { f with soutReq := v })
/-- DARK_PULSE (R339). -/
def execDarkPulse (k : Fin 8) (s : State) : Res := .next (if s.saf.sout.getLsbD k.val then s.out (.dark k) else s)
/-- SOUT_READBACK (R339): the level read back 200 µs after a change; a disagreement is a fault. -/
def execSoutReadback (k : Fin 8) (rb : Bool) (t : DWord) (s : State) : Res :=
  let bad := rb != s.saf.sout.getLsbD k.val
  let s1 := (s.atTime t).modSaf fun f => { f with rb := bitSet f.rb k.val rb, rbFail := bitSet f.rbFail k.val bad }
  .next (if bad then s1.raise 0x1814 3 else s1)

/-! ### Diagnostics (R340–R343) and program flow (R341) -/

/-- The Halo period in ns. -/
def State.tHalo (s : State) : Nat := s.prof.haloDiv * s.tTick

/-- MARCH_SEGMENT (R340, R342): 768 segments. -/
def execMarchSegment (fail : Bool) (t : DWord) (s : State) : Res :=
  let s1 := (s.atTime t).modSaf fun f => { f with
    marchAt := t.toNat, marchRes := false, marchIdx := (f.marchIdx + 1) % 768 }
  .next (if fail then (s1.eccUp 7).raise 0x1806 3 else s1)
/-- HALO_CHUNK (R340, R342): 64 chunks. -/
def execHaloChunk (fail : Bool) (t : DWord) (s : State) : Res :=
  let s1 := (s.atTime t).modSaf fun f => { f with
    chunkAt := t.toNat, haloRes := false, chunkIdx := (f.chunkIdx + 1) % 64, diagFail := f.diagFail || fail }
  .next (if fail then s1.raise 0x1805 3 else s1)
/-- The instant at which a segment (10 ms) or chunk (16 ms) is starved. -/
def State.diagDue (s : State) (march : Bool) : Nat :=
  if march then s.saf.marchAt + 10000000 else s.saf.chunkAt + 16000000
/-- DIAG_LATE (R342): the reservation repeats at every period start until completion. -/
def execDiagLate (march : Bool) (t : DWord) (s : State) : Res :=
  .next (if s.diagDue march + 2 * s.tHalo ≤ t.toNat then
    ((s.atTime t).modSaf fun f =>
      if march then { f with diagLate := true, marchRes := true } else { f with diagLate := true, haloRes := true }).raise
      0x1804 2
  else s)
/-- DIAG_RESERVE at a Halo-period start (R342). -/
def State.diagReserve (s : State) : State :=
  s.modSaf fun f => { f with
    marchRes := f.marchRes || decide (s.diagDue true ≤ s.now.toNat)
    haloRes := f.haloRes || decide (s.diagDue false ≤ s.now.toNat) }

/-- FLOWDL_EXPIRE (R341). -/
def execFlowdlExpire (t : DWord) (s : State) : Res :=
  .next (if s.saf.flowDone then s else (s.atTime t).raise 0x1802 3)

/-- The period-end checkpoint of R341. -/
def State.flowCheck (s : State) : State :=
  if s.saf.flowDone then s.raise 0x1802 3
  else
    let s1 := s.modSaf fun f => { f with flowDone := true }
    if s.prof.saf.flowRefs.contains s.saf.flowSig then s1 else s1.raise 0x1802 3

/-- FLOWSIG (R116, R341): folds imm12 into the signature; 0xFFF is the checkpoint. A planner core takes ILLEGAL. -/
def execFlowsig (c : Fin 10) (imm : BitVec 12) (s : State) : Res :=
  s.execWith c .sys [] none fun s1 cyc =>
    if c.val != 9 then s1.except c cyc 1 (wordI 0x0E 0 0 13 imm.toNat)
    else
      let s2 := s1.modCore c Core.adv
      if imm = 0xFFF then s2.flowCheck
      else s2.modSaf fun f => { f with flowSig := crcFold f.flowSig (leBytes imm.toNat 2) }

/-! ### The mailbox (R347) -/

/-- MAILBOX_GO (R347): a GO while BUSY is discarded and sets OVR. (DESIGN CHOICE: log 60.) -/
def execMailboxGo (s : State) : Res :=
  .next (s.modSaf fun f =>
    if f.mbx.busy then { f with mbx := { f.mbx with ovr := true } }
    else { f with mbx := { f.mbx with
      cmd := (s.reg 0x180200).setWidth 8, args := (List.range 4).map fun k => s.reg (0x180204 + 4 * k)
      busy := true, seen := false, done := false } })

/-- Whether the safety core has seen a request whose command satisfies a test. -/
def State.mbxHas (s : State) (p : Nat → Bool) : Bool := s.saf.mbx.busy && s.saf.mbx.seen && p s.saf.mbx.cmd.toNat

/-- A request completes: RESULT and the responses are valid, and vector 6 is raised (R517). -/
def State.mbxDone (s : State) (result : BitVec 16) : State :=
  (s.modSaf fun f => { f with mbx := { f.mbx with busy := false, seen := false, done := true, result := result } }).msix 6
/-- A completion whose RESULT the spec does not give. (DESIGN CHOICE: log 60.) -/
def State.mbxDoneFree (s : State) : State :=
  ({ s with free := s.free + 1 } : State).mbxDone ((Config.freeVal s.free).setWidth 16)

/-- MBX_HOST_STOP (R347). -/
def execMbxHostStop (t : DWord) (s : State) : Res :=
  .next (if s.mbxHas (· == 1) then (((s.atTime t).raise 0x1820 2 true).mbxDoneFree) else s)
/-- MBX_HOLD_END (R329, R347). -/
def execMbxHoldEnd (t : DWord) (s : State) : Res :=
  .next (if s.mbxHas (· == 2) then (s.endHold t).mbxDoneFree else s)
/-- MBX_ECHO (R347). -/
def execMbxEcho (s : State) : Res :=
  .next (if s.mbxHas (· == 3) then
    (s.modSaf fun f => { f with mbx := { f.mbx with resp := f.mbx.args } }).mbxDoneFree else s)
/-- MBX_PROGRAM (R347): the safety program answers commands 0x80 to 0xFF. -/
def execMbxProgram (result : BitVec 16) (r0 r1 r2 r3 : Word) (s : State) : Res :=
  .next (if s.mbxHas (fun c => decide (0x80 ≤ c)) then
    (s.modSaf fun f => { f with mbx := { f.mbx with resp := [r0, r1, r2, r3] } }).mbxDone result else s)
/-- MBX_UNKNOWN (R347). -/
def execMbxUnknown (s : State) : Res :=
  .next (if s.mbxHas (fun c => c == 0 || (decide (4 ≤ c) && decide (c < 0x80))) then s.mbxDone 0xFFFF else s)

end Sys2Proof.Machine
end

