-- ==== Sys2Proof/Machine/Capture.lean ====
section
/-! DEFINITION. The capture engine (17): samples, trigger units, records with their measurements, actions, readout. -/

namespace Sys2Proof.Machine

def State.modCap (s : State) (f : Cap → Cap) : State := { s with cap := f s.cap }
def State.modCapSet (s : State) (k : Fin 4) (f : CapSet → CapSet) : State := s.modCap fun c => { c with sets := vmod c.sets k f }

/-! ### Registers of a set -/

def capBase (k : Nat) : Nat := 0x140100 + k * 0x40
def State.capReg (s : State) (k r : Nat) : Nat := s.regN (capBase k + r)
def State.capSub (s : State) (k : Nat) : Nat := 2 ^ fld (s.capReg k 0) 1 0
def State.capMode (s : State) (k : Nat) : Nat := fld (s.capReg k 0) 5 4
def State.capNsig (s : State) (k : Nat) : Nat := fld (s.capReg k 4) 15 13 + 1
def State.capLen (s : State) (k : Nat) : Nat := fld (s.capReg k 4) 12 0
def State.capPre (s : State) (k : Nat) : Nat := fld (s.capReg k 4) 28 16
def State.capSig (s : State) (k g : Nat) : Nat := s.regN (0x140400 + k * 0x80 + g * 0x10)
def State.capCal (s : State) (k g : Nat) : Nat := s.regN (0x140404 + k * 0x80 + g * 0x10)

/-- What a commit may not change under a record that fills (R455): the shape, SUBLOG, the units and the selectors. -/
def State.capCfg (s : State) (k : Nat) : List Word :=
  [s.reg (capBase k + 4), s.reg (capBase k) &&& 3] ++
  ([0x10, 0x14, 0x18, 0x20, 0x24, 0x28].map fun r => s.reg (capBase k + r)) ++
  (List.range 8).map fun g => s.reg (0x140400 + k * 0x80 + g * 0x10)

/-! ### Samples (R441–R445) -/

/-- The nominal instant of sample j of tick n (R443). -/
def State.capInstant (s : State) (sub n j : Nat) : Int :=
  (s.t0 n : Int) - rndDiv (((sub - 1 - j) * s.tTick : Nat) : Int) sub

/-- The position source of an axis (R289). (DEDUCED: log 55.) -/
def State.fbkSource (s : State) (a : Nat) : Nat := fld (s.regN (0xC1000 + a * 0x20)) 31 30

/-- The skew of a signal (R444). -/
def State.capSkew (s : State) (k g : Nat) : Int :=
  let r := s.capSig k g
  let kind := fld r 11 8
  let ax : Fin 128 := ⟨fld r 6 0, Nat.lt_of_lt_of_le (Nat.mod_lt _ (by decide)) (by decide)⟩
  let cal := (BitVec.ofNat 16 (fld (s.capCal k g) 31 16)).toInt
  let driven := s.fbkSource ax.val == 2 && ((1 ≤ kind && kind ≤ 4) || kind == 6)
  cal + (if driven then s.fbk[ax].lofs1 else 0)

/-- A signal's words over one tick: none where it repeats its previous word (R442, R443). -/
inductive SigTick
  | tick (v : Int)
  | sub (l : List Int)

def State.capSource (s : State) (k g : Nat) : SigTick :=
  let r := s.capSig k g
  let ix := fld r 6 0
  let bch := fld r 14 12
  let ax : Fin 128 := ⟨ix % 128, Nat.mod_lt _ (by decide)⟩
  let ln : Fin 8 := ⟨ix % 8, Nat.mod_lt _ (by decide)⟩
  let la : Fin 32 := ⟨ix % 32, Nat.mod_lt _ (by decide)⟩
  match fld r 11 8 with
  | 1 => .tick (s.cascs[ax]).ep
  | 2 => .tick (s.cascs[ax]).u
  | 3 => .tick (s.fbk[ax]).speed
  | 4 => .tick ((s.fbk[ax]).act - (s.fbk[ax]).act1)
  | 5 => .tick (s.lines[ln]).est.v
  | 6 => .sub ((((s.fbk[ax]).bursts1.find? fun b => b.1 == bch).map fun b => b.2.map fun w => w.toInt).getD [])
  | 7 => .tick (nth (s.lanes[la]).outEnd bch 0).toInt
  | 8 => .sub ((List.range 8).map fun i => (nth (s.lanes[la]).outEnd (8 + i) 0).toInt)
  | _ => .tick 0

/-- The word of a signal in sample j (R441, R443): the value or none, and whether it saturated. -/
def sigWord (shift sub j : Nat) : SigTick → Option (BitVec 16 × Bool)
  | .tick v => some (conv v)
  | .sub l => if l.isEmpty then none else (l[ceilDiv' ((j + 1) * l.length) sub - 1]?).map conv
where
  conv (v : Int) : BitVec 16 × Bool :=
    let x := rndShift v shift
    (BitVec.ofInt 16 (sat16 (sat32 x)), sat16 x != x)
  ceilDiv' (a b : Nat) : Nat := (a + b - 1) / b

/-- The samples of tick n of one set (R443), and whether a word saturated. -/
def State.capSamples (s : State) (k : Fin 4) (n : Nat) : List CapSample × Bool × List (BitVec 16) :=
  let c := s.cap.sets[k]
  let nsig := s.capNsig k.val
  let sub := s.capSub k.val
  let srcs := (List.range nsig).map fun g => (s.capSource k.val g, fld (s.capSig k.val g) 20 16)
  (List.range sub).foldl (fun acc j =>
    let ws := mapFrom (fun g (e : SigTick × Nat) => match sigWord e.2 sub j e.1 with
      | some w => (w.1, w.2, 0)
      | none => (nth acc.2.2 g 0, false, 1)) 0 srcs
    let words := ws.map fun w => w.1
    (acc.1 ++ [⟨n, j, words, (ws.map fun w => w.2.2).foldl (· + ·) 0⟩], acc.2.1 || ws.any (fun w => w.2.1), words))
    ([], false, c.last)

/-! ### Trigger units (R446) -/

/-- A unit's configuration. -/
structure UnitCfg where
  type : Nat
  pol  : Bool
  d    : Nat
  hyst : Int
  sig  : Nat
  hi   : Int
  lo   : Int
  maxw : Nat
  minw : Nat

def State.unitCfg (s : State) (k x : Nat) : UnitCfg :=
  let c := s.capReg k (0x10 + 0x10 * x)
  let th := s.capReg k (0x14 + 0x10 * x)
  let w := s.capReg k (0x18 + 0x10 * x)
  { type := fld c 2 0, pol := bitOf c 3, d := fld c 7 4, hyst := fld c 23 8, sig := fld c 26 24
    hi := (BitVec.ofNat 16 (fld th 31 16)).toInt, lo := (BitVec.ofNat 16 (fld th 15 0)).toInt
    maxw := fld w 31 16, minw := fld w 15 0 }

/-- A firing: its level, if it has one. -/
abbrev Firing := Option (Option Int)

/-- One sample through one unit: x′ and its instant. -/
def CapUnit.see (u : CapUnit) (c : UnitCfg) (x inst : Int) : CapUnit × Firing :=
  let hi := if u.above then decide (c.hi - c.hyst ≤ x) else decide (c.hi ≤ x)
  let w0 := if hi && !u.above then 0 else u.w
  let w1 := if hi then w0 + 1 else w0
  let lo := if u.inrunt then decide (c.lo - c.hyst ≤ x) else decide (c.lo ≤ x)
  let reach0 := if lo && !u.inrunt then false else u.reached
  let in0 := u.inrunt || lo
  let reach1 := reach0 || decide (c.hi ≤ x)
  let quiet := if hi != u.above then 0 else u.quiet + 1
  let past := (u.hist[c.d - 1]?).map Prod.fst
  let fire : Firing := match c.type with
    | 1 => if u.above && !hi && c.minw ≤ w1 && w1 ≤ c.maxw then some (some (c.hi - c.hyst)) else none
    | 2 => if in0 && !lo && !reach1 then some (some (c.lo - c.hyst)) else none
    | 3 => if quiet = c.maxw then some none else none
    | 4 => match past with
      | some p => if 1 ≤ c.d && c.hi ≤ x - p then some (some (p + c.hi)) else none
      | none => none
    | _ => none
  ({ u with above := hi, w := w1, inrunt := in0 && lo, reached := reach1, quiet := quiet
            hist := ((x, inst) :: u.hist).take 16 }, fire)

/-- TTIME of a firing (R448): interpolated between the previous sample and this one if its level lies between them. -/
def trigTime (u : CapUnit) (x inst skew : Int) (level : Option Int) : Int :=
  match level, u.hist with
  | some l, (xa, ta) :: _ => if xa < l ∧ l ≤ x then ta + rndDiv ((l - xa) * (inst - ta)) (x - xa) + skew else inst + skew
  | _, _ => inst + skew

/-! ### Measurements and the header (R450, R451) -/

def capWord (c : CapSample) (g : Nat) : Int := (nth c.words g 0).toInt

/-- The upward crossings of a threshold: their instants, in time order. -/
def State.crossings (s : State) (sub : Nat) (mth skew : Int) (g : Nat) : List CapSample → List Int
  | a :: b :: r =>
    let xa := capWord a g
    let xb := capWord b g
    let ta := s.capInstant sub a.epoch a.j
    let tb := s.capInstant sub b.epoch b.j
    let rest := s.crossings sub mth skew g (b :: r)
    if xa < mth ∧ mth ≤ xb then (ta + rndDiv ((mth - xa) * (tb - ta)) (xb - xa) + skew) :: rest else rest
  | _ => []

def bytes16 (x : Int) : List Byte := leBytes (BitVec.ofInt 16 x).toNat 2

/-- The measurement entry of one signal (R451). -/
def State.measure (s : State) (r : CapRecord) (g : Nat) : List Byte :=
  let xs := r.samples.map fun c => capWord c g
  match xs with
  | [] => List.replicate 24 0
  | x :: rest =>
    if r.nsig ≤ g then List.replicate 24 0
    else
      let n := xs.length
      let mn := rest.foldl min x
      let mx := rest.foldl max x
      let mth := nth r.mths g 0
      let sub := 2 ^ r.sublog
      let cr := s.crossings sub mth (nth r.skews g 0) g r.samples
      let period := match cr, cr.getLast? with
        | a :: _ :: _, some z => rndDiv (z - a) ((cr.length : Int) - 1)
        | _, _ => 0
      let above := (xs.filter fun v => decide (mth ≤ v)).length
      let rms := isqrtFrom' (rndDiv (xs.foldl (fun a v => a + v * v) 0) n).toNat
      bytes16 mn ++ bytes16 mx ++ bytes16 (mx - mn) ++ bytes16 (rndDiv (xs.foldl (· + ·) 0) n) ++ leBytes rms 2 ++
        leBytes (min 65535 cr.length) 2 ++ leBytes (period.toNat % 2 ^ 32) 4 ++
        leBytes ((rndDiv ((above * s.tTick : Nat) : Int) sub).toNat) 4 ++ [0, 0, 0, 0]
where isqrtFrom' (n : Nat) : Nat := isqrtFrom n (Nat.log2 n / 2 + 1) 0

def CapRecord.miss (r : CapRecord) : Nat := (r.samples.foldl (fun n c => n + c.miss) 0)

/-- The header of a record (R450). -/
def CapRecord.header (r : CapRecord) : List Byte :=
  let flags := r.fired.toNat + 4 * bnat r.forced + 8 * bnat r.trunc + 16 * bnat r.kept + 32 * bnat r.ecc
  [r.index] ++ leBytes r.set.val 1 ++ leBytes flags 1 ++ leBytes (r.nsig + 16 * r.sublog) 1 ++ leBytes r.len 2 ++
    leBytes r.pre 2 ++ leBytes r.tepoch 8 ++ leBytes r.tsub 1 ++ [0] ++ leBytes r.shortpre 2 ++
    leBytes (min (2 ^ 32 - 1) r.miss) 4 ++ leBytes r.ttime.toNat 8 ++
    leBytes ((r.samples.head?.map fun c => c.epoch).getD 0) 8 ++ List.replicate 24 0 ++ r.meas.flatten

/-- The sample words of a record, sample-major (R450). -/
def CapRecord.words (r : CapRecord) : List Byte := r.samples.flatMap fun c => c.words.flatMap fun w => leBytes w.toNat 2

/-! ### Triggers, records and actions (R447, R449, R450, R452) -/

def Cap.find (c : Cap) (i : Byte) : Option CapRecord := c.recs.find? fun r => r.index == i
def Cap.put (c : Cap) (r : CapRecord) : Cap := { c with recs := c.recs.map fun (x : CapRecord) => if x.order == r.order then r else x }
/-- A record that a trigger may not free: kept, under readout, or not closed. -/
def Cap.fixed (c : Cap) (r : CapRecord) : Bool := r.kept || c.reading == some r.index || !r.closed

/-- Frees the oldest records until the pages suffice; records stand in time order. -/
def freePages (c : Cap) : Nat → List CapRecord → Option (List CapRecord)
  | need, [] => if need = 0 then some [] else none
  | need, r :: rs =>
    if need = 0 then some (r :: rs)
    else if c.fixed r then (freePages c need rs).map (r :: ·)
    else freePages c (need - r.pages) rs

/-- Claims an index and pages (R450): the records that stay, or none where the trigger is dropped. -/
def Cap.claim (c : Cap) (pages : Nat) : Option (List CapRecord) :=
  if (c.find c.next).any c.fixed then none
  else
    let recs := c.recs.filter fun r => r.index != c.next
    let used := recs.foldl (fun n r => n + r.pages) 0
    freePages c (pages - (1008 - used)) recs

/-- CAPTURE_ACTION (R452, R453): the set's ACT; the detail holds the set and the index. (DEDUCED: log 69.) -/
def State.capAction (s : State) (k : Fin 4) (index : Byte) : State :=
  let r := s.capReg k.val 0
  let detail := some (BitVec.ofNat 32 (k.val + 256 * index.toNat))
  match fld r 21 20 with
  | 1 => s.raise 0x1401 1 false detail
  | 2 => if s.coreSafety == .run then s.request 8 (.stop (BitVec.ofNat 8 (fld r 31 24))) else s
  | 3 => s.raise 0x1402 2 false detail
  | _ => s

/-- CAPTURE_TRIGGER (R447–R450): the trigger sample is the newest of the pre-trigger buffer given. (DEDUCED: log 69.) -/
def State.capTrigger (s : State) (k : Fin 4) (buf : List CapSample) (smp : CapSample) (fired : BitVec 2) (forced : Bool)
    (ttime : Int) : State :=
  let nsig := s.capNsig k.val
  let pre := s.capPre k.val
  let len := s.capLen k.val
  let pages := (len * nsig * 2 + 4095) / 4096
  let have0 := buf.drop (buf.length - pre)
  let skews := (List.range nsig).map fun g => s.capSkew k.val g
  let mths := (List.range nsig).map fun g => (BitVec.ofNat 16 (fld (s.capCal k.val g) 15 0)).toInt
  match s.cap.claim pages with
    | none =>
      let f := s.draw
      let s2 := f.2.modCap fun c => { c with drops := satAdd 65535 c.drops 1, dropArmed := false }
      (if s.cap.dropArmed then s2.raise 0x1403 0 else s2).capAction k (f.1.setWidth 8)
    | some recs =>
      let r : CapRecord := {
        index := s.cap.next, set := k, fired := fired, forced := forced, kept := bitOf (s.capReg k.val 0) 19
        sublog := fld (s.capReg k.val 0) 1 0, nsig := nsig, len := len, pre := pre, tepoch := smp.epoch, tsub := smp.j
        shortpre := pre - have0.length, ttime := BitVec.ofInt 64 ttime, skews := skews, mths := mths
        samples := have0 ++ [smp], left := len - pre - 1, pages := pages, order := s.cap.order }
      ((s.modCap fun c => { c with recs := recs ++ [r], next := c.next + 1, order := c.order + 1 }).modCapSet k fun c =>
        { c with fill := if len ≤ pre + 1 then none else some r.index, armed := false }).capAction k r.index

/-- Arms a set (R446, R449). (DEDUCED: log 69.) -/
def CapSet.arm (c : CapSet) : CapSet := { c with armed := true, units := Vector.replicate 2 {}, pre := [] }

/-- A record has taken its last sample: under MODE 2 evaluation resumes with the sample that follows. -/
def State.capFilled (s : State) (k : Fin 4) : State :=
  s.modCapSet k fun c => let c1 := { c with fill := none }; if s.capMode k.val == 2 then c1.arm else c1

/-- One sample of one set: it enters the record that fills, or the units see it and the set may trigger. -/
def State.capSample (s : State) (k : Fin 4) (forcedTick : Bool) (smp : CapSample) : State :=
  let c := s.cap.sets[k]
  let inst := s.capInstant (s.capSub k.val) smp.epoch smp.j
  match c.fill with
  | some i =>
    match s.cap.find i with
    | none => s.capFilled k
    | some r =>
      let s1 := s.modCap fun x => x.put { r with samples := r.samples ++ [smp], left := r.left - 1 }
      if r.left ≤ 1 then s1.capFilled k else s1
  | none =>
    if !c.armed then s
    else
      let step (x : Fin 2) : CapUnit × Firing × Int :=
        let u := c.units[x]
        let cfg := s.unitCfg k.val x.val
        let w := capWord smp cfg.sig
        let xp := if cfg.pol then -1 - w else w
        let r := u.see cfg xp inst
        let u1 := if r.2.isSome then { r.1 with fired := some smp.epoch } else r.1
        (u1, r.2, trigTime u xp inst (s.capSkew k.val cfg.sig) (r.2.getD none))
      let a := step 0
      let b := step 1
      let comb := fld (s.capReg k.val 0) 18 17
      let win := fld (s.capReg k.val 0) 15 8
      let now (u : CapUnit) : Bool := u.fired == some smp.epoch
      let recent : Bool := match a.1.fired with | some e => decide (smp.epoch ≤ e + win) | none => false
      let hit : Option Int := match comb with
        | 0 => if a.2.1.isSome then some a.2.2 else none
        | 1 => if a.2.1.isSome then some a.2.2 else if b.2.1.isSome then some b.2.2 else none
        | 2 => if now a.1 && now b.1 && (a.2.1.isSome || b.2.1.isSome) then
            some (if b.2.1.isSome then b.2.2 else a.2.2) else none
        | _ => if b.2.1.isSome && recent then some b.2.2 else none
      let forced := forcedTick && smp.j == 0
      let s1 := s.modCapSet k fun c => { c with
        units := (c.units.set 0 a.1).set 1 b.1
        pre := let l := c.pre ++ [smp]; l.drop (l.length - s.capPre k.val) }
      let flags : BitVec 2 := BitVec.ofNat 2 (bnat (if comb == 3 then recent else now a.1) + 2 * bnat (now b.1))
      let s2 := if forced then s1.capTrigger k c.pre smp flags true (inst + s.capSkew k.val 0)
        else match hit with
          | some tt => s1.capTrigger k c.pre smp flags false tt
          | none => s1
      if (forced || hit.isSome) && (s2.cap.sets[k]).fill.isNone && !(s2.cap.sets[k]).armed then s2.capFilled k else s2

/-- Units that fire later in the tick of a forced trigger set their flags on its record (R456). -/
def State.forcedFlags (s : State) (k : Fin 4) (smp : CapSample) : State :=
  let c := s.cap.sets[k]
  let inst := s.capInstant (s.capSub k.val) smp.epoch smp.j
  let see (x : Fin 2) : CapUnit × Bool :=
    let cfg := s.unitCfg k.val x.val
    let w := capWord smp cfg.sig
    let r := (c.units[x]).see cfg (if cfg.pol then -1 - w else w) inst
    (r.1, r.2.isSome)
  let a := see 0
  let b := see 1
  let s1 := s.modCapSet k fun c => { c with units := (c.units.set 0 a.1).set 1 b.1 }
  s1.modCap fun x => { x with recs := x.recs.map fun (r : CapRecord) =>
    if r.set == k && r.forced && r.tepoch == smp.epoch then
      { r with fired := r.fired ||| BitVec.ofNat 2 (bnat a.2 + 2 * bnat b.2) } else r }

/-- The tick of one set, in sample order. -/
def State.capSetTick (s : State) (k : Fin 4) (n : Nat) : State :=
  let sm := s.capSamples k n
  let forced := (s.cap.sets[k]).force == some n
  let s1 := sm.1.foldl (fun st smp =>
    let filling := (st.cap.sets[k]).fill.isSome
    let st1 := if forced && filling then st.forcedFlags k smp else st
    st1.capSample k forced smp) s
  let s2 := s1.modCapSet k fun c => { c with last := sm.2.2, force := if forced then none else c.force }
  s2.modCap fun c => { c with insat := c.insat || sm.2.1 }

/-- CAPTURE_ASSEMBLY (R445, R452, R456): at the end of the gather window of tick n + 1 the samples of tick n are assembled
and the triggers evaluated, sets in ascending order. -/
def execCaptureAssembly (s : State) : Res :=
  .next (if s.running && 0 < s.epoch then (List.finRange 4).foldl (fun st k => st.capSetTick k (s.epoch - 1)) s else s)

/-- RECORD_CLOSE (R449, R451): a record that has its last sample is measured and closed. -/
def execRecordClose (i : Byte) (s : State) : Res :=
  .next (match s.cap.find i with
    | some r =>
      let filling := (s.cap.sets[r.set]).fill == some i
      if r.closed || filling then s
      else
        let r1 := { r with len := r.samples.length }
        let r2 := { r1 with closed := true, meas := (List.range 8).map fun g => s.measure r1 g }
        (s.modCap fun c => { c.put r2 with lastIdx := i, dropArmed := true }).msix 4
    | none => s)

/-- CAP_FORCE (R447): a committed FORCE triggers at sample 0 of the tick whose boundary applied the commit. -/
def execCapForce (k : Fin 4) (s : State) : Res :=
  let v := (assoc 0 s.due (capBase k.val)).toNat
  .next (if bitOf v 16 then
    ({ s with due := assocDel s.due (capBase k.val) } : State).modCapSet k fun c => { c with force := some s.epoch }
  else s)

/-- What a commit changes in the sets at its boundary (R449, R455): a changed shape closes the record that fills as
truncated and empties the buffer; a written MODE arms or disarms. -/
def State.capCommit (s : State) : State :=
  (List.finRange 4).foldl (fun st k =>
    let c := st.cap.sets[k]
    let cfg := st.capCfg k.val
    let st1 := if c.cfg == cfg then st
      else
        let st2 := match c.fill with
          | some i => st.modCap fun x => { x with recs := x.recs.map fun (r : CapRecord) =>
              if r.index == i && r.set == k && !r.closed then { r with trunc := true, left := 0 } else r }
          | none => st
        let st3 := st2.modCapSet k fun c => { c with cfg := cfg, fill := none, pre := [] }
        if c.fill.isSome && st.capMode k.val == 2 then st3.modCapSet k CapSet.arm else st3
    let v := (assoc 0 st1.due (capBase k.val)).toNat
    if v % 2 = 1 then
      let st4 : State := { st1 with due := if v = 1 then assocDel st1.due (capBase k.val)
                                           else assocSet st1.due (capBase k.val) (BitVec.ofNat 32 (v - 1)) }
      if st4.capMode k.val == 0 then st4.modCapSet k fun c => { c with armed := false }
      else if (st4.cap.sets[k]).armed || (st4.cap.sets[k]).fill.isSome then st4
      else st4.modCapSet k CapSet.arm
    else st1) s

/-! ### Readout (R450, R454) -/

/-- READOUT_GO (R454). -/
def execReadoutGo (i : Byte) (s : State) : Res :=
  .next (if s.cap.reading.isSome then s.modCap fun c => { c with rdOvr := true }
    else if (s.cap.find i).any fun r => r.closed then s.modCap fun c => { c with reading := some i, rdAddr := (s.reg 0x140014) ++ (s.reg 0x140010) }
    else s.modCap fun c => { c with rdNorec := true })

/-- READOUT_DONE (R454): the header and the words have been copied; `eccErr` is the worst that
the checks of the copied words found. -/
def execReadoutDone (eccErr : Ecc) (t : DWord) (s : State) : Res :=
  .next (match s.cap.reading with
    | none => s
    | some i =>
      match s.cap.find i with
      | none => s.modCap fun c => { c with reading := none }
      | some r =>
        let r1 := { r with ecc := r.ecc || eccErr == .uncorr }
        let s1 := ((s.atTime t).modCap fun c => { c.put r1 with reading := none, rdDone := true }).out
          (.host s.cap.rdAddr (CapRecord.header r1 ++ CapRecord.words r1))
        let s2 := s1.msix 4
        if eccErr == .uncorr then (s2.eccUp 5).raise 0x1404 1 else s2.eccNote 5 eccErr)

/-- RECORD_RELEASE (R450): a closed record is freed, kept or not; one under readout stays. -/
def execRecordRelease (i : Byte) (s : State) : Res :=
  .next (s.modCap fun c => { c with recs := c.recs.filter fun r => !(r.index == i && r.closed && c.reading != some i) })

end Sys2Proof.Machine
end

