-- ==== Sys2Proof/Machine/Lanes.lean ====
section
/-! DEFINITION. Filter lanes (R274–R288): the pass of a tick with its inputs, the lane instructions, and the start,
stop and patching of lanes by commits. A lane instruction command is the instruction at the lane's PC. -/

namespace Sys2Proof.Machine

/-- A word memory of a lane; an unlisted word reads 0. -/
abbrev LaneMem := List (Nat × BitVec 16)
def lmRead (m : LaneMem) (a : Nat) : BitVec 16 := assoc 0 m a
def lmWrite (m : LaneMem) (a : Nat) (v : BitVec 16) : LaneMem := if v = 0 then assocDel m a else assocSet m a v

def State.modLane (s : State) (l : Fin 32) (f : Lane → Lane) : State := { s with lanes := vmod s.lanes l f }

/-- PASSCYC of R278. -/
def State.passcyc (s : State) : Nat :=
  match s.prof.rate with
  | .k4 => 96000
  | .k8 => 48000
  | .k16 => 24000

/-- A fault of a lane (R278): class F2 when a cascade axis names the lane, else F1. -/
def State.laneFault (s : State) (l : Fin 32) (code : Nat) : State :=
  let named := (List.range 128).any fun a => s.runsCascade a && namesLane (s.ctlCfg a) l.val
  s.raise code (if named then 2 else 1)

/-- The pass ends: the output words are kept as they stand (R278, R282). -/
def Lane.endPass (k : Lane) (done : Bool) : Lane :=
  { k with
    active := false, done := done, lastCyc := k.cycle, reps := []
    outEnd := (List.range 16).map fun i => lmRead k.y (0x7F0 + i) }

/-- The loop control after an instruction at `pc` that falls through: RPT bodies that end there go round again or
are left. -/
def rptNext : List (Nat × Nat × Nat) → Nat → List (Nat × Nat × Nat) × Nat
  | [], pc => ([], pc + 1)
  | (st, en, left) :: r, pc =>
    if pc = en then (if 1 < left then ((st, en, left - 1) :: r, st) else rptNext r pc)
    else ((st, en, left) :: r, pc + 1)

/-- Moves on to a PC; a PC past 0x7FF stops the pass with LANE_FLOW (R278). -/
def State.laneGoto (s : State) (l : Fin 32) (pc : Nat) : State :=
  if pc < 2048 then s.modLane l fun k => { k with pc := pc }
  else (s.modLane l fun k => { k.endPass false with flow := true }).laneFault l 0x0B03

/-- Whether a lane is in its pass: a pass is in progress, PASSCYC has not been passed (R278), and the CTL domain runs (R492). -/
def State.inPass (s : State) (k : Lane) : Bool := k.active && decide (k.cycle ≤ s.passcyc) && !s.stopped 2

/-- Runs one lane instruction that falls through: its effect, one cycle, and the next PC. An instruction issues only in a
pass. (DEDUCED: log 52.) -/
def State.laneStep (s : State) (l : Fin 32) (f : Lane → Lane) : Res :=
  let k := s.lanes[l]
  .next (if !s.inPass k then s
    else
      let k1 := f k
      let n := rptNext k1.reps k1.pc
      (s.modLane l fun _ => { k1 with cycle := k1.cycle + 1, reps := n.1 }).laneGoto l n.2)

/-! ### Operands -/

/-- Post-modification of an address register (R285). -/
def Lane.bump (k : Lane) (i m : Fin 8) (keep : Bool) : Lane :=
  if keep then k
  else
    let a : Int := k.a[i].toNat
    let b : Int := k.b[i].toNat
    let mo := (k.m[m]).toInt
    let len : Int := k.l[i].toNat
    let v := if len = 0 then (a + mo) % 2048 else (b + ((((a - b) % 2048) + mo) % len)) % 2048
    { k with a := k.a.set i (BitVec.ofInt 11 v) }

/-- Saturation of an accumulator (R283). -/
def sat40 (x : Int) : Int := clampInt (-(2 ^ 39)) (2 ^ 39 - 1) x
def Lane.setAcc (k : Lane) (ac : Fin 2) (x : Int) : Lane :=
  { k with acc := k.acc.set ac (BitVec.ofInt 40 (sat40 x)), accSat := k.accSat || sat40 x != x }

/-- The word at the memory operand of a format A instruction. -/
def Lane.readOp (k : Lane) (o : MemOp) : BitVec 16 := lmRead (if o.y then k.y else k.x) (k.a[o.a]).toNat

/-- The product that a tap instruction forms, and the post-modifications of its reads (R287). (DEDUCED: log 51.) -/
def Lane.tap (k : Lane) (t : TapOp) : Int × Lane :=
  let x := if t.src.val = 2 then k.sc[t.k] else lmRead k.x (k.a[t.ax]).toNat
  let y := if t.src.val = 1 then k.sc[t.k] else lmRead k.y (k.a[t.ay]).toNat
  let k1 := if t.src.val = 2 then k else k.bump t.ax t.mx t.nx
  let k2 := if t.src.val = 1 then k1 else k1.bump t.ay t.my t.ny
  (x.toInt * y.toInt, k2)

/-- A word stored by PUT, with the history of OUT0 (R279, R284). -/
def Lane.store (k : Lane) (o : MemOp) (x : Int) : Lane :=
  let v := BitVec.ofInt 16 (sat16 x)
  let a := (k.a[o.a]).toNat
  let k1 := { k with stSat := k.stSat || sat16 x != x }
  if o.y then
    { k1 with y := lmWrite k1.y a v, outHist := if a = 0x7F0 then (k1.cycle, v) :: k1.outHist else k1.outHist }
  else { k1 with x := lmWrite k1.x a v }

/-! ### The pass -/

/-- The source value of input `i` of a lane (R281), or none where the source repeats its previous word. -/
def State.laneInput (s : State) (sel : Nat) : Option Int :=
  let ix := fld sel 6 0
  let ax : Fin 128 := ⟨ix % 128, Nat.mod_lt _ (by decide)⟩
  let ln : Fin 8 := ⟨ix % 8, Nat.mod_lt _ (by decide)⟩
  let oth : Fin 32 := ⟨ix % 32, Nat.mod_lt _ (by decide)⟩
  let f := s.fbk[ax]
  match fld sel 11 8 with
  | 1 => if f.stale then none else some (f.pos - f.posPrev)
  | 2 => if f.stale then none else some f.speed
  | 3 => if f.stale then none else some (s.cascs[ax]).u
  | 4 => if f.stale then none else some (s.cascs[ax]).ep
  | 5 => some (s.lines[ln]).est.v
  | 6 =>
    if f.stale then none
    else match f.bursts.find? (fun b => b.1 == fld sel 14 12) with
    | some b => b.2.getLast?.map fun w => w.toInt
    | none => none
  | 7 => some (nth (s.lanes[oth]).outEnd 0 0).toInt
  | _ => some 0

/-- Writes the input block at pass cycle 0 (R280, R281). -/
def State.laneInputs (s : State) (l : Fin 32) : State :=
  let sel (i : Nat) : Nat := s.regN (0xB0800 + l.val * 0x10 + 4 * i)
  let conv (i : Nat) (v : Int) : Int := rnd v (fld (sel i) 20 16)
  let k := s.lanes[l]
  let words := (List.range 4).map fun i =>
    match s.laneInput (sel i) with
    | some v => (BitVec.ofInt 16 (sat16 (conv i v)), sat16 (conv i v) != rndShift v (fld (sel i) 20 16))
    | none => (nth k.inPrev i 0, false)
  let burst := match (List.range 4).find? (fun i => fld (sel i) 11 8 == 6) with
    | some i =>
      let ax : Fin 128 := ⟨fld (sel i) 6 0 % 128, Nat.mod_lt _ (by decide)⟩
      match (s.fbk[ax]).bursts.find? (fun b => b.1 == fld (sel i) 14 12) with
      | some b => b.2.take 8 |>.map fun w =>
          (BitVec.ofInt 16 (sat16 (conv i w.toInt)), sat16 (conv i w.toInt) != rndShift w.toInt (fld (sel i) 20 16))
      | none => []
    | none => []
  let block := (words.map fun w => w.1) ++ [BitVec.ofNat 16 burst.length, 0, 0, 0]
    ++ (List.range 8).map fun i => (nth burst i (0, false)).1
  s.modLane l fun k => { k with
    x := (mapFrom (fun i w => (i, w)) 0 block).foldl (fun m e => lmWrite m (0x7F0 + e.1) e.2) k.x
    inPrev := words.map fun w => w.1
    inSat := k.inSat || (words ++ burst).any fun w => w.2 }

/-- LANE_PASS (R275, R277, R280): a running lane starts its pass at PC 0. With an error in `eccErr` the pass in progress meets
it instead: a corrected one is counted in FLN_ECC, an uncorrectable one stops the pass and raises LANE_ECC.
(DEDUCED: log 52.) -/
def execLanePass (l : Fin 32) (eccErr : Ecc) (s : State) : Res :=
  let k := s.lanes[l]
  .next (if eccErr != .clean then
      if !k.active then s
      else if eccErr == .corrected then { s with lanesEccC := satAdd 65535 s.lanesEccC 1 }
      else { (s.modLane l fun k => { k.endPass false with ecc := true }).raise 0x0B01 2 with lanesEccUn := true }
    else if k.running && !s.stopped 2 then
      (s.laneInputs l).modLane l fun k => { k with
        active := true, pc := 0, cycle := 0, reps := [], out0Start := lmRead k.y 0x7F0, outHist := [] }
    else s)

/-- LANE_OVERRUN (R278): a pass that has not executed END by PASSCYC is stopped after that cycle. -/
def execLaneOverrun (l : Fin 32) (s : State) : Res :=
  let k := s.lanes[l]
  .next (if k.active && s.passcyc < k.cycle then
    (s.modLane l fun k => { k.endPass false with overrun := true }).laneFault l 0x0B02
    else s)

/-- LANE_START (R276): a lane that does not run starts when RUN = 1 is in force; its registers are set to 0. -/
def execLaneStart (l : Fin 32) (s : State) : Res :=
  let k := s.lanes[l]
  .next (if bitOf (s.regN (0xB0100 + l.val * 0x20)) 0 && !k.running then
    s.modLane l fun k => { k with
      running := true, a := Vector.replicate 8 0, b := Vector.replicate 8 0, m := Vector.replicate 8 0
      l := Vector.replicate 8 0, sc := Vector.replicate 4 0, acc := Vector.replicate 2 0 }
    else s)

/-- LANE_STOP (R276, R288): a lane stops when RUN = 0 is in force; its output words read 0. -/
def execLaneStop (l : Fin 32) (s : State) : Res :=
  let k := s.lanes[l]
  .next (if !bitOf (s.regN (0xB0100 + l.val * 0x20)) 0 && k.running then
    s.modLane l fun k => { k with running := false, active := false, outEnd := [], outHist := [], out0Start := 0 }
    else s)

/-- LANE_PATCH (R288): the patch entries of the commit are written in ascending order. -/
def execLanePatch (s : State) : Res :=
  let one (st : State) (i : Nat) : State :=
    let off := 0xB0040 + 8 * i
    if !(assocHas st.due off || assocHas st.due (off + 4)) then st
    else
      let lo := st.regN off
      let hi := st.regN (off + 4)
      let lane : Fin 32 := ⟨fld hi 28 24 % 32, Nat.mod_lt _ (by decide)⟩
      let st1 := { st with due := assocDel (assocDel st.due off) (off + 4) }
      if bitOf hi 31 then
        st1.modLane lane fun k =>
          if bitOf hi 30 then { k with y := lmWrite k.y (fld hi 10 0) (BitVec.ofNat 16 lo) }
          else { k with x := lmWrite k.x (fld hi 10 0) (BitVec.ofNat 16 lo) }
      else st1
  .next ((List.range 16).foldl one s)

/-! ### The instructions (R283–R287): an operand that the encodings reserve is no instruction of a lane, and nothing happens -/

/-- TMPY (R287). -/
def execTmpy (l : Fin 32) (ac : Fin 2) (t : TapOp) (s : State) : Res :=
  if !t.ok then .next s else s.laneStep l fun k => let r := k.tap t; r.2.setAcc ac r.1
/-- TMAC (R287). (DEDUCED: log 51.) -/
def execTmac (l : Fin 32) (ac : Fin 2) (t : TapOp) (s : State) : Res :=
  if !t.ok then .next s else s.laneStep l fun k => let r := k.tap t; r.2.setAcc ac ((k.acc[ac]).toInt + r.1)
/-- TMSU (R287). -/
def execTmsu (l : Fin 32) (ac : Fin 2) (t : TapOp) (s : State) : Res :=
  if !t.ok then .next s else s.laneStep l fun k => let r := k.tap t; r.2.setAcc ac ((k.acc[ac]).toInt - r.1)
/-- PUT (R284, R287). -/
def execLanePut (l : Fin 32) (ac : Fin 2) (m : MemOp) (sh : Fin 32) (s : State) : Res :=
  s.laneStep l fun k => (k.store m (rndShift (k.acc[ac]).toInt sh.val)).bump m.a m.m m.n
/-- GET (R284, R287). -/
def execLaneGet (l : Fin 32) (ac : Fin 2) (m : MemOp) (sh : Fin 24) (s : State) : Res :=
  s.laneStep l fun k => (k.setAcc ac ((k.readOp m).toInt * 2 ^ sh.val)).bump m.a m.m m.n
/-- ADD (R284, R287). -/
def execLaneAdd (l : Fin 32) (ac : Fin 2) (m : MemOp) (sh : Fin 24) (s : State) : Res :=
  s.laneStep l fun k => (k.setAcc ac ((k.acc[ac]).toInt + (k.readOp m).toInt * 2 ^ sh.val)).bump m.a m.m m.n
/-- IDX (R287). -/
def execIdx (l : Fin 32) (ac : Fin 2) (a : Fin 8) (sh : Fin 32) (s : State) : Res :=
  s.laneStep l fun k =>
    let v := (k.acc[ac]).toInt / 2 ^ sh.val
    let len : Int := (k.l[a]).toNat
    let x := if len = 0 then v % 2048 else ((k.b[a]).toNat + v % len) % 2048
    { k with a := k.a.set a (BitVec.ofInt 11 x) }
/-- CLR (R287). -/
def execLaneClr (l : Fin 32) (ac : Fin 2) (s : State) : Res :=
  s.laneStep l fun k => { k with acc := k.acc.set ac 0 }
/-- LDS (R284, R287). -/
def execLds (l : Fin 32) (m : MemOp) (k : Fin 4) (s : State) : Res :=
  s.laneStep l fun u => Lane.bump { u with sc := u.sc.set k (u.readOp m) } m.a m.m m.n
/-- SETA (R285, R287): the address register and its anchor. -/
def execSeta (l : Fin 32) (r : Fin 8) (v : BitVec 11) (s : State) : Res :=
  s.laneStep l fun k => { k with a := k.a.set r v, b := k.b.set r v }
/-- SETM (R287). -/
def execSetm (l : Fin 32) (r : Fin 8) (v : BitVec 12) (s : State) : Res :=
  s.laneStep l fun k => { k with m := k.m.set r v }
/-- SETL (R287). -/
def execSetl (l : Fin 32) (r : Fin 8) (v : BitVec 12) (s : State) : Res :=
  if 2048 < v.toNat then .next s else s.laneStep l fun k => { k with l := k.l.set r v }
/-- SETS (R287). -/
def execSets (l : Fin 32) (k : Fin 4) (v : BitVec 16) (s : State) : Res :=
  s.laneStep l fun u => { u with sc := u.sc.set k v }

/-- RPT (R277, R278, R287): a third nesting level stops the pass with LANE_FLOW. -/
def execRpt (l : Fin 32) (count len : BitVec 11) (s : State) : Res :=
  let k := s.lanes[l]
  .next (if !s.inPass k || count == 0 || len == 0 then s
    else if 2 ≤ k.reps.length then
      (s.modLane l fun k => { ({ k with cycle := k.cycle + 1 } : Lane).endPass false with flow := true }).laneFault l 0x0B03
    else
      (s.modLane l fun k => { k with
        cycle := k.cycle + 1, reps := (k.pc + 1, k.pc + len.toNat, count.toNat) :: k.reps }).laneGoto l (k.pc + 1))

/-- BR (R277, R287): a taken branch adds one idle cycle and ends the repeats whose body it leaves. -/
def execLaneBr (l : Fin 32) (cond : Fin 5) (ac : Fin 2) (target : BitVec 11) (s : State) : Res :=
  let k := s.lanes[l]
  let v := (k.acc[ac]).toInt
  let take := match cond.val with
    | 0 => true
    | 1 => v == 0
    | 2 => v != 0
    | 3 => decide (v < 0)
    | _ => decide (0 ≤ v)
  if !take then s.laneStep l id
  else .next (if !s.inPass k then s
    else
      let t := target.toNat
      s.modLane l fun k => { k with
        cycle := k.cycle + 2, pc := t, reps := k.reps.filter fun r => decide (r.1 ≤ t) && decide (t ≤ r.2.1) })

/-- END (R277, R287): the pass ends with this cycle. -/
def execLaneEnd (l : Fin 32) (s : State) : Res :=
  let k := s.lanes[l]
  .next (if !s.inPass k then s
    else s.modLane l fun k => ({ k with cycle := k.cycle + 1 } : Lane).endPass true)

/-- The word that a cascade axis in a slot takes from a lane (R258, R279). -/
def State.laneWord (s : State) (l slot : Nat) : Int :=
  if h : l < 32 then
    let k := s.lanes[l]
    if !k.running then 0
    else match k.outHist.find? (fun e => decide (e.1 < 800 + 200 * slot)) with
      | some e => e.2.toInt
      | none => k.out0Start.toInt
  else 0

end Sys2Proof.Machine
end

