-- ==== Sys2Proof/Machine/Control.lean ====
section
/-! DEFINITION. The control engine (R251–R273): the axis cascade in fixed-point arithmetic, manual mode and its bumpless
transfer, dynamics blocks, following-error checks, and the one-shot clears of CTL_AXCTRLa. -/

namespace Sys2Proof.Machine

/-! ### Terms that remember saturation (R259) -/

/-- A value and whether its computation saturated. -/
abbrev Sat := Int × Bool
def satT (x : Int) : Sat := (sat32 x, sat32 x != x)
def rndT (p : Int) (s : Nat) : Sat := satT (rndShift p s)

/-- A biquad of R261 on an input: the output, the shifted states, and whether a term saturated. -/
def Biquad.run (b : Biquad) (k : Nat → Int) (sh : Nat → Nat) (x : Int) : Sat × Biquad :=
  let t0 := rndT (k 0 * x) (sh 0)
  let t1 := rndT (k 1 * b.x1) (sh 1)
  let t2 := rndT (k 2 * b.x2) (sh 2)
  let t3 := rndT (k 3 * b.y1) (sh 3)
  let t4 := rndT (k 4 * b.y2) (sh 4)
  let o := satT (t0.1 + t1.1 + t2.1 - t3.1 - t4.1)
  ((o.1, t0.2 || t1.2 || t2.2 || t3.2 || t4.2 || o.2), ⟨x, b.x1, o.1, b.y1⟩)

/-- What the cascade of one axis reads in a tick (R253): the coefficients and shifts by index, the limits, the mode
and enables, and the inputs. -/
structure CascIn where
  k    : Nat → Int
  sh   : Nat → Nat
  vlim : Int
  tlim : Int
  torque : Bool
  vffen  : Bool
  bq1en  : Bool
  bq2en  : Bool
  cmd  : Int
  act  : Int
  vfb  : Int
  vcmd : Int
  tff  : Int
  tffSat : Bool
  dob  : Int

/-- The two biquads in series, each passing its input unchanged when it is not enabled. -/
def biquads (i : CascIn) (c : Cascade) (x : Int) : Sat × Biquad × Biquad :=
  let r1 := if i.bq1en then c.bq1.run (fun n => i.k (9 + n)) (fun n => i.sh (9 + n)) x else ((x, false), c.bq1)
  let r2 := if i.bq2en then c.bq2.run (fun n => i.k (14 + n)) (fun n => i.sh (14 + n)) r1.1.1 else ((r1.1.1, false), c.bq2)
  ((r2.1.1, r1.1.2 || r2.1.2), r1.2, r2.2)

/-- How the integrators are treated: updated as R260 says, held under a manual setpoint, or preset (the switching tick). -/
inductive CascMode | normal | hold (man : Int) | preset (um : Int)

def Biquad.all (v : Int) : Biquad := ⟨v, v, v, v⟩

/-- The cascade of R260 in one tick, with the held integrators of R264 or the presets of R266. The saturated bit compares the
setpoint of the axis, in manual mode the manual one, with y (R262). (DEDUCED: log 50.) -/
def runCascade (i : CascIn) (c : Cascade) (m : CascMode) : Cascade :=
  let ep := satT (i.cmd - i.act)
  let dp := satT (ep.1 - c.epPrev)
  let vff := if i.vffen then rndT (i.k 7 * i.vcmd) (i.sh 7) else (0, false)
  let p0 := rndT (i.k 0 * ep.1) (i.sh 0)
  let p2 := rndT (i.k 2 * dp.1) (i.sh 2)
  let pp := satT (p0.1 + p2.1)
  let s0 := ep.2 || dp.2 || vff.2 || p0.2 || p2.2 || pp.2
  let out (lim y : Int) : Int := match m with | .hold man => clampInt (-lim) lim man | _ => clampInt (-lim) lim y
  let upd (x : Sat) (old : Int) : Int := match m with | .normal => x.1 | _ => old
  let updS (x : Sat) : Bool := match m with | .normal => x.2 | _ => false
  if i.torque then
    let ip0 := match m with | .preset _ => 0 | _ => c.ip
    let ipo := rndT ip0 (i.sh 19)
    let vr := satT (pp.1 + ipo.1 + vff.1)
    let vref := clampInt (-i.vlim) i.vlim vr.1
    let a1 := rndT (i.k 1 * ep.1) (i.sh 1)
    let a2 := rndT (i.k 3 * (vref - vr.1)) (i.sh 3)
    let ip' := satT (ip0 + a1.1 + a2.1)
    let ev := satT (vref - i.vfb)
    let pv := rndT (i.k 4 * ev.1) (i.sh 4)
    let pre := match m with | .preset um => satT ((um - pv.1 - i.tff - i.dob) * 2 ^ i.sh 20) | _ => (0, false)
    let bqv := match m with | .preset um => satT (um - i.tff - i.dob) | _ => (0, false)
    let preSat := pre.2 || ((i.bq1en || i.bq2en) && bqv.2)
    let c1 := match m with
      | .preset _ => { c with
          ip := 0, iv := pre.1, presetSat := c.presetSat || preSat
          bq1 := if i.bq1en then Biquad.all bqv.1 else c.bq1
          bq2 := if i.bq2en then Biquad.all bqv.1 else c.bq2 }
      | _ => c
    let ivo := rndT c1.iv (i.sh 20)
    let bin := satT (pv.1 + ivo.1)
    let b := biquads i c1 bin.1
    let y := satT (b.1.1 + i.tff + i.dob)
    let u := out i.tlim y.1
    let d1 := rndT (i.k 5 * ev.1) (i.sh 5)
    let d2 := rndT (i.k 6 * (u - y.1)) (i.sh 6)
    let iv' := satT (c1.iv + d1.1 + d2.1)
    { c1 with
      epPrev := ep.1, ep := ep.1, u := u, bq1 := b.2.1, bq2 := b.2.2
      ip := upd ip' c1.ip, iv := upd iv' c1.iv
      sat := s0 || ipo.2 || vr.2 || ev.2 || pv.2 || ivo.2 || bin.2 || b.1.2 || i.tffSat || y.2 || u != y.1 || vref != vr.1 || preSat
        || updS (0, a1.2 || a2.2 || ip'.2 || d1.2 || d2.2 || iv'.2) }
  else
    let pre := match m with | .preset um => satT ((um - pp.1 - vff.1) * 2 ^ i.sh 19) | _ => (0, false)
    let bqv := match m with | .preset um => satT (um - vff.1) | _ => (0, false)
    let preSat := pre.2 || ((i.bq1en || i.bq2en) && bqv.2)
    let c1 := match m with
      | .preset _ => { c with
          ip := pre.1, presetSat := c.presetSat || preSat
          bq1 := if i.bq1en then Biquad.all bqv.1 else c.bq1
          bq2 := if i.bq2en then Biquad.all bqv.1 else c.bq2 }
      | _ => c
    let ipo := rndT c1.ip (i.sh 19)
    let bin := satT (pp.1 + ipo.1)
    let b := biquads i c1 bin.1
    let y := satT (b.1.1 + vff.1)
    let u := out i.vlim y.1
    let a1 := rndT (i.k 1 * ep.1) (i.sh 1)
    let a2 := rndT (i.k 3 * (u - y.1)) (i.sh 3)
    let ip' := satT (c1.ip + a1.1 + a2.1)
    { c1 with
      epPrev := ep.1, ep := ep.1, u := u, bq1 := b.2.1, bq2 := b.2.2, ip := upd ip' c1.ip
      sat := s0 || ipo.2 || bin.2 || b.1.2 || y.2 || u != y.1 || preSat || updS (0, a1.2 || a2.2 || ip'.2) }

/-! ### Inputs -/

def State.modCasc (s : State) (a : Fin 128) (f : Cascade → Cascade) : State := { s with cascs := vmod s.cascs a f }

/-- A feedforward value from binary64: nearest, ties to even, saturated to 32 bits (R253). -/
def ffInt (x : DWord) : Int := sat32 (f64ToI64 true x).1.toInt

/-- The commanded position and its feedforward of an axis: from its arm or from its auxiliary generator. -/
def State.axisCmd (s : State) (a : Fin 128) : Int × DWord × DWord :=
  match s.jointOf a.val with
  | some (k, j) =>
    let m := s.arms[k % 8]'(Nat.mod_lt _ (by decide))
    (nth m.cmd j 0, nth m.vel j 0, nth m.accel j 0)
  | none => let g := s.aux[a]; (g.cmd0, g.v, g.aff)

/-- The program area of a core in the program view (R35, R255). -/
def State.viewArea (s : State) (c : Nat) : List Byte :=
  match s.view with
  | some a => nth a.areas c []
  | none => []

/-- Whether the dynamics block of an arm is valid in the tick in progress (R256). -/
def State.dynValid (s : State) (k : Nat) : Bool :=
  let b := s.viewArea k
  let maxAge := fld (s.regN (0xA0100 + 4 * k)) 7 0
  let e := expandShort (BitVec.ofNat 32 (valAt b 4 4)) s.epoch
  valAt b 0 4 == 0x000100D0 && valAt b 0x88 1 ≤ 31 && valAt b 0x89 7 == 0 && maxAge != 0
    && decide ((s.epoch : Int) - e ≤ maxAge) && decide (e ≤ (s.epoch : Int) - 1)

def signed32 (n : Nat) : Int := (BitVec.ofNat 32 n).toInt

/-- The torque feedforward of an axis, and whether it came from a valid dynamics block (R256). -/
def State.torqueFf (s : State) (a : Fin 128) (acmd : Int) : Sat × Bool :=
  let kaff := rndT (s.ctlK a.val 8 * acmd) (s.ctlShift a.val 8)
  match s.jointOf a.val with
  | some (k, j) =>
    if bitOf (s.ctlCfg a.val) 4 && s.dynValid k then
      let b := s.viewArea k
      let r := rndT (signed32 (valAt b (0x48 + 4 * j) 4) * acmd) (valAt b 0x88 1)
      let t := satT (signed32 (valAt b (8 + 4 * j) 4) + r.1)
      ((t.1, r.2 || t.2), true)
    else (kaff, false)
  | none => (kaff, false)

/-- The inputs of the cascade of an axis in its slot. -/
def State.cascIn (s : State) (a : Fin 128) (cmd : Int) : CascIn :=
  let cfg := s.ctlCfg a.val
  let slot := a.val / 4
  let ff := s.axisCmd a
  let word (lane sh : Nat) : Int := s.laneWord lane slot * 2 ^ sh
  { k := s.ctlK a.val, sh := s.ctlShift a.val
    vlim := fld (s.regN (ctlBase a.val + 0xC)) 30 0, tlim := fld (s.regN (ctlBase a.val + 0x10)) 30 0
    torque := bitOf cfg 0, vffen := bitOf cfg 3, bq1en := bitOf cfg 1, bq2en := bitOf cfg 2
    cmd := cmd, act := s.axisAct a
    vfb := if fld cfg 13 8 = 0x3F then s.fbk[a].speed else word (fld cfg 13 8) (fld cfg 27 24)
    vcmd := ffInt ff.2.1, tff := (s.torqueFf a (ffInt ff.2.2)).1.1, tffSat := (s.torqueFf a (ffInt ff.2.2)).1.2
    dob := if fld cfg 21 16 = 0x3F then 0 else word (fld cfg 21 16) (fld cfg 31 28) }

/-! ### The engine -/

/-- MAN of an axis in force in its register. -/
def State.manReg (s : State) (a : Nat) : Bool := bitOf (s.regN (ctlBase a + 4)) 0

/-- The switching tick of R266: manual mode has been in force and MAN reads 0. -/
def State.switching (s : State) (a : Fin 128) : Bool := s.mans[a] && !s.manReg a.val

/-- The bookkeeping of a dynamics block for an axis (R256): CTL_DYN_STALE at a fall back from a valid block, and the
counters of CTL_DYNSTATk. (DEDUCED: log 49.) -/
def State.dynBook (s : State) (a : Fin 128) : State :=
  match s.jointOf a.val with
  | some (k, _) =>
    let kk : Fin 8 := ⟨k % 8, Nat.mod_lt _ (by decide)⟩
    let tffen := bitOf (s.ctlCfg a.val) 4
    let valid := s.dynValid k
    let fell := tffen && !valid
    let late := fell && (s.dyns[kk]).used
    let s1 := { s with dyns := vmod s.dyns kk fun d =>
      if fell && d.mark != s.epoch + 1 then
        { fallbacks := satAdd 65535 d.fallbacks 1, valid := false, mark := s.epoch + 1, used := false }
      else { d with valid := valid, used := (d.used || tffen && valid) && !fell } }
    let s2 := if late then s1.raise 0x0A04 1 else s1
    s2.modCasc a fun c => { c with dyn := tffen && valid }
  | none => s

/-- In STO the validity of the block of an arm is still that of the latest tick (CTL_DYNSTATk); no joint uses it. -/
def State.dynNoted (s : State) (a : Fin 128) : State :=
  match s.jointOf a.val with
  | some (k, _) => { s with dyns := vmod s.dyns ⟨k % 8, Nat.mod_lt _ (by decide)⟩ fun d => { d with valid := s.dynValid k } }
  | none => s

/-- A joint outside its travel (R269). -/
def State.outOfTravel (s : State) (a : Fin 128) : Bool :=
  match s.jointOf a.val with
  | some (k, j) =>
    match s.armProf k with
    | some p =>
      let l := nth p.lims j {}
      s.fbk[a].act < l.qmin || l.qmax < s.fbk[a].act
    | none => false
  | none => false

/-- A tick in which the checks of R269 do not run: ep is 0, so a warning may be raised again afterwards, the bits they set read
0, and an excursion ends where the joint lies inside its travel. (DEDUCED: log 50.) -/
def Cascade.unchecked (c : Cascade) (out : Bool) : Cascade :=
  { c with feWarn := false, warned := false, atLim := false, excursion := c.excursion && out }

/-- The checks of R269 after a cascade. -/
def State.followChecks (s : State) (a : Fin 128) : State :=
  let c := s.cascs[a]
  let fw := fld (s.regN (ctlBase a.val + 0x14)) 30 0
  let fl := fld (s.regN (ctlBase a.val + 0x18)) 30 0
  let warn := fw != 0 && decide (fw < c.ep.natAbs)
  let s1 := if warn && !c.warned then s.raise 0x0A01 1 else s
  let over' := decide (fl < c.ep.natAbs)
  let s2 := if over' && !c.fault then s1.raise 0x0A02 2 else s1
  let out := s.outOfTravel a
  let s3 := if out && !c.excursion then s2.raise 0x0A03 2 else s2
  s3.modCasc a fun c => { c with
    feWarn := warn, warned := decide (fw < c.ep.natAbs) && (c.warned || warn), fault := c.fault || over', atLim := out, excursion := out }

/-- Counts the saturated bit (CTL_SATCNTa). -/
def Cascade.countSat (c : Cascade) : Cascade := { c with satCnt := if c.sat then satAdd (2 ^ 32 - 1) c.satCnt 1 else c.satCnt }

/-- In manual mode the commanded position is the actual one, and the generator holds it (R264). (DEDUCED: log 50.) -/
def State.holdCmd (s : State) (a : Fin 128) : State :=
  let act := s.axisAct a
  match s.jointOf a.val with
  | some (k, j) => s.modArm ⟨k % 8, Nat.mod_lt _ (by decide)⟩ fun m => { m with cmd := setNth m.cmd j act }
  | none => s.modAux a fun g => { g with cmd0 := act, p := fofInt act }

/-- AXIS_CASCADE (R252, R260, R264, R269, R272): the axis's slot in the control phase. In the switching tick the
transfer of BUMPLESS_TRANSFER takes its place. (DEDUCED: log 50.) -/
def execAxisCascade (a : Fin 128) (s : State) : Res :=
  .next (if !(s.axisPresent a.val && s.runsCascade a.val) || s.stopped 2 then s
    else if s.coreSafety == .sto then
      (s.dynNoted a).modCasc a fun c => ({ c with
        ip := 0, iv := 0, epPrev := 0, bq1 := {}, bq2 := {}, u := 0, ep := 0, sat := false, dyn := false } : Cascade).unchecked
          (s.outOfTravel a)
    else if s.switching a then s
    else if s.mans[a] then
      let s1 := (s.holdCmd a).dynBook a
      let i := s1.cascIn a (s1.axisAct a)
      s1.modCasc a fun c =>
        let r := runCascade i c (.hold (s1.reg (ctlBase a.val + 8)).toInt)
        (({ r with um := r.u } : Cascade).unchecked (s1.outOfTravel a)).countSat
    else
      let s1 := s.dynBook a
      let i := s1.cascIn a (s1.axisCmd a).1
      (s1.modCasc a fun c => (runCascade i c .normal).countSat).followChecks a)

/-- MANUAL_ENTER (R264): a committed MAN = 1 puts a cascade axis under its manual setpoint. -/
def execManualEnter (a : Fin 128) (s : State) : Res :=
  .next (if s.manReg a.val && s.runsCascade a.val && s.coreSafety == .run then { s with mans := s.mans.set a true } else s)

/-- BUMPLESS_TRANSFER (R266, R271): the first tick with MAN = 0 presets the integrators so that the output equals the
last manual setpoint. -/
def execBumplessTransfer (a : Fin 128) (s : State) : Res :=
  .next (if s.switching a && s.coreSafety != .sto && !s.stopped 2 then
    let s1 := ({ s with mans := s.mans.set a false } : State).dynBook a
    let i := s1.cascIn a (s1.axisCmd a).1
    (s1.modCasc a fun c => (runCascade i c (.preset c.um)).countSat).followChecks a
    else s)

/-- Takes a one-shot bit of a register out of `due`: whether it was there. -/
def State.takeDue (s : State) (off bit : Nat) : Bool × State :=
  let v := (assoc 0 s.due off).toNat
  if bitOf v bit then
    let r := v - 2 ^ bit
    (true, { s with due := if r = 0 then assocDel s.due off else assocSet s.due off (BitVec.ofNat 32 r) })
  else (false, s)

/-- CLR_INT (R260): a committed CLR_INT = 1 sets ip and iv to 0; a transfer at the same boundary sets them itself. -/
def execClrInt (a : Fin 128) (s : State) : Res :=
  let t := s.takeDue (ctlBase a.val + 4) 2
  .next (if t.1 then t.2.modCasc a fun c => { c with ip := 0, iv := 0 } else t.2)

/-- CTL_CLR_FAULT (R269): a committed CLR_FAULT = 1 clears the latched fault bit. -/
def execCtlClrFault (a : Fin 128) (s : State) : Res :=
  let t := s.takeDue (ctlBase a.val + 4) 1
  .next (if t.1 then t.2.modCasc a fun c => { c with fault := false } else t.2)

end Sys2Proof.Machine
end

