-- ==== Sys2Proof/Machine/Lines.lean ====
section
/-! DEFINITION. Line clocks (R56–R70): the filtered quadrature decoder, QERR and LINE_FAULT, index events and their period
check, the latch of each tick, and the committed clears. -/

namespace Sys2Proof.Machine

def State.modLine (s : State) (n : Fin 8) (f : Line → Line) : State := { s with lines := vmod s.lines n f }
def State.lineProf (s : State) (n : Nat) : LineProf := nth s.prof.lines n {}

/-- The filtered level of three samples (R56): the level that at least two of them agree on. -/
def majority (b : BitVec 3) : Bool :=
  let x := b.getLsbD 0
  let y := b.getLsbD 1
  let z := b.getLsbD 2
  (x && y) || (y && z) || (x && z)

/-- A filtered pair as a two-bit value, A then B. -/
def abOf (a b : Bool) : BitVec 2 := BitVec.ofBool a ++ BitVec.ofBool b

/-- The quadrature table of R57: the step from one filtered pair to the next, or none for a QERR. -/
def quadStep (old new : BitVec 2) : Option Int :=
  if old = new then some 0
  else if old ^^^ new = 3 then none
  else if (old = 0 && new = 2) || (old = 2 && new = 3) || (old = 3 && new = 1) || (old = 1 && new = 0) then some 1
  else some (-1)

/-- The QERRs that lie in the 1 024 samples that end with a sample (R60, LIN_QERRn.WINDOW). -/
def windowCount (w : List Nat) (sample : Nat) : Nat := (w.filter fun x => decide (x ≤ sample) && decide (sample < x + 1024)).length

/-- The standstill bit of an enabled line whose estimator has seen a latch; it is 0 before, and for a disabled line (R69,
LIN_STATUSn). -/
def State.lineStands (s : State) (n : Fin 8) : Bool := (s.lineProf n.val).en && !(s.lines[n]).est.first && (s.lines[n]).est.still

/-- The four status bits of an axis or line record. -/
def bits4 (a b c d : Bool) : BitVec 16 := BitVec.ofNat 16 (bnat a + 2 * bnat b + 4 * bnat c + 8 * bnat d)

/-- The line record (R69, R303, R304). -/
def State.lineRec (s : State) (n : Fin 8) : LineRec :=
  let x := s.lines[n]
  let l := x.latch
  if !(s.lineProf n.val).en then {}
  else
    { count := BitVec.ofInt 64 l.count, time := l.time, speed := BitVec.ofInt 32 x.est.v
      uncert := BitVec.ofNat 16 l.uncert, qerr := BitVec.ofNat 16 l.qerr
      status := bits4 x.est.starting (s.lineStands n) l.fault x.est.reversed }

/-- A QERR (R59, R60): two counts of uncertainty, one more QERR, and the fault condition at the 8th in the window. -/
def Line.addQerr (l : Line) (sample : Nat) : Line :=
  let w := sample :: l.window.filter fun x => decide (sample < x + 1024)
  { l with
    uncert := satAdd 65535 l.uncert 2, qerr := satAdd 65535 l.qerr 1, window := w
    faultDue := l.faultDue || decide (8 ≤ windowCount w sample) }

/-- A step of the decoder: the hardware count moves, and a change of direction is a reversal (R57, R64). -/
def Line.addStep (l : Line) (d : Int) : Line :=
  { l with
    hw := l.hw + BitVec.ofInt 32 d, dirLast := d
    idxRef := if l.dirLast != 0 && d != l.dirLast then l.idxRef.map fun r => (r.1, r.2.1, true) else l.idxRef }

/-- LINE_EDGE (R56, R57, R59): the filtered pair of a sample against the one before it. `a` and `b` hold the last three
samples of the inputs. -/
def execLineEdge (n : Fin 8) (a b : BitVec 3) (sample : Nat) (s : State) : Res :=
  let p := s.lineProf n.val
  let new := abOf (majority a) (majority b)
  .next (s.modLine n fun l =>
    let l1 := match quadStep l.ab new with
      | none => l.addQerr sample
      | some d => if d = 0 then l else l.addStep (if p.dir then -d else d)
    { l1 with ab := new, zCond := l1.zCond && (p.idxMode != 2 || new == p.zqual) })

/-- The extended count at an instant between two latches: what the next latch adds is already in it (R63, R65). -/
def Line.liveCount (l : Line) : Int := l.ext + (l.hw - l.hwLatch).toInt

/-- An index event (R63, R64): the latched count and stamp, and the period check against the event before it.
(DEDUCED: log 53.) -/
def State.indexEvent (s : State) (n : Fin 8) (t : DWord) : State :=
  let p := s.lineProf n.val
  let l := s.lines[n]
  let c := l.liveCount
  let l1 := { l with idxSeen := true, idxCnt := c, idxTime := t, idxRef := some (c, l.dirLast, false) }
  match l.idxRef with
  | some (c0, d0, reversed) =>
    let delta := (c - c0).natAbs
    let off := ((delta : Int) - p.period).natAbs
    if p.period = 0 || reversed || d0 != l.dirLast || d0 = 0 then s.modLine n fun _ => l1
    else if off ≤ p.tol then s.modLine n fun _ => { l1 with uncert := 0 }
    else ((s.modLine n fun _ => { l1 with uncert := min 65535 (max l1.uncert off) })).raise 0x0E02 1
  | none => s.modLine n fun _ => l1

/-- LINE_INDEX (R63): the index condition of a sample; a condition that was false on the sample before is an event.
(DEDUCED: log 53.) -/
def execLineIndex (n : Fin 8) (z : BitVec 3) (t : DWord) (s : State) : Res :=
  let p := s.lineProf n.val
  let l := s.lines[n]
  let cond := majority z && (p.idxMode == 1 || (p.idxMode == 2 && l.ab == p.zqual))
  let s0 := { s with now := t }
  let s1 := if cond && !l.zCond then s0.indexEvent n t else s0
  .next (s1.modLine n fun l => { l with zCond := cond })

/-- The extension of R65 at a latch. -/
def Line.extend (l : Line) : Line := { l with ext := l.liveCount, hwLatch := l.hw }

/-- LINE_LATCH (R60, R61, R65, R69, R70): the latch of a tick at the first ENC edge at or after t0(n), at Sidereal time
`t`. A disabled line latches zeros. In replay the latches come from the image (R470), and the edge only keeps the extension
current. -/
def execLineLatch (n : Fin 8) (t : DWord) (s : State) : Res :=
  let p := s.lineProf n.val
  .next (if !s.running then s
    else if s.eph.replay then s.modLine n Line.extend
    else ({ s with now := t } : State).modLine n fun l =>
      let l1 := l.extend
      let again := match l1.clrSample with | some sm => decide (8 ≤ windowCount l1.window sm) | none => false
      let new := l1.faultDue || again
      let l2 := { l1 with
        fault := l1.fault || new, faultDue := false, clrSample := none
        raised := if new && !l1.fault then false else l1.raised
        est := { l1.est with ran := false } }
      { l2 with latch := if p.en then
          ⟨l2.ext, t, l2.uncert, l2.qerr, l2.fault, l2.idxCnt, l2.idxTime, l2.idxSeen⟩ else {} })

/-- LINE_IDLE_LATCH (R66): while the tick sequencer is stopped a latch only keeps the extension current. -/
def execLineIdleLatch (s : State) : Res :=
  .next (if s.running then s else { s with lines := vmap (fun _ l => l.extend) s.lines })

/-- Whether an active or staged segment of any arm names a line (R60). -/
def State.lineNamed (s : State) (n : Nat) : Bool :=
  s.arms.toList.any fun a =>
    a.staged.any (fun d => d.line.toNat == n) || a.active.any (fun x => x.d.line.toNat == n)

/-- LINE_FAULT (R60): raised once when the latch that shows it crosses into CORE; class F2 when a plan names the line. -/
def execLineFault (n : Fin 8) (s : State) : Res :=
  let l := s.lines[n]
  .next (if l.fault && l.latch.fault && !l.raised then
    let f2 := s.lineNamed n.val
    (s.modLine n fun l => { l with raised := true }).raiseAt l.latch.time 0x0E01 (if f2 then 2 else 1) f2 none
    else s)

def linCtrlOff (n : Nat) : Nat := 0xE012C + n * 0x40

/-- LIN_CLR_FAULT (R61, R62): the committed clear acts in ENC ahead of the latch-edge sample, so a condition that earlier
samples met is cleared too; the latch of that edge sees whether its window holds 8 QERRs. The clears of a replayed commit do
not reach the line inputs, which count on (R67, R470). -/
def execLinClrFault (n : Fin 8) (sample : Nat) (s : State) : Res :=
  let t := s.takeDue (linCtrlOff n.val) 0
  .next (if t.1 && !s.eph.replay then
      t.2.modLine n fun l => { l with fault := false, raised := false, faultDue := false, clrSample := some sample }
    else t.2)

/-- CLR_UNCERT (R62): the committed clear sets the uncertainty to 0. -/
def execClrUncert (n : Fin 8) (s : State) : Res :=
  let t := s.takeDue (linCtrlOff n.val) 1
  .next (if t.1 && !s.eph.replay then t.2.modLine n fun l => { l with uncert := 0 } else t.2)

/-- CLR_QERR (R62): the committed clear sets the QERR count to 0. -/
def execClrQerr (n : Fin 8) (s : State) : Res :=
  let t := s.takeDue (linCtrlOff n.val) 2
  .next (if t.1 && !s.eph.replay then t.2.modLine n fun l => { l with qerr := 0 } else t.2)

/-- LIN_SIDEREAL_READ (R10, R52): the read of the low word takes a whole stamp of Sidereal time; the high word goes into
the read latch of the access path. -/
def execLinSiderealRead (path : Path) (t : DWord) (s : State) : Res :=
  .next ((({ s with now := t } : State).modPath path fun l => { l with readHigh := t.extractLsb' 32 32 }).out
    (.data path ((t.setWidth 32).setWidth 64)))

end Sys2Proof.Machine
end

