-- ==== Sys2Proof/Machine/MerFrames.lean ====
section
/-! DEFINITION. What a controller does with every schedule frame it receives (R418–R420, R427, R428, R432): the frame's
CRC, the matrix tables, and the grounds on which a frame is discarded and counted. -/

namespace Sys2Proof.Machine

def chanIdx (c : Channel) : Fin 2 := match c with | .a => 0 | .b => 1

/-- The bytes of a frame header (R419). -/
def SchedFrame.header (f : SchedFrame) : List Byte :=
  leBytes (f.fid.toNat + 4096 * f.cls.toNat) 2 ++ leBytes f.src.toNat 2 ++ leBytes f.len.toNat 2 ++ [f.bc, f.rsv]

/-- The CRC over header and payload (R419). (DESIGN CHOICE: log 91.) -/
def SchedFrame.crcOk (f : SchedFrame) : Bool := f.crc == crc32c 0xFFFFFFFF (SchedFrame.header f ++ f.payload)

/-- The airtime in ns of a frame with `len` payload bytes (R419). -/
def airtime (len : Nat) : Nat := 4 * (14 + len)

/-- Whether a KIND 0 or 1 entry is active in the basic cycle of index `bc` (R428). -/
def MEntry.activeIn (e : MEntry) (bc : Nat) : Bool := e.kind == 2 || bc % 2 ^ e.replog == e.base

/-- Whether an entry explains the class, frame ID and sender of a frame (R419, R428). -/
def MEntry.explains (e : MEntry) (f : SchedFrame) : Bool :=
  let c := f.cls.toNat
  let id := f.fid.toNat
  if e.kind = 0 then decide (1 ≤ c && c ≤ 3) && decide (e.fid ≤ id && id ≤ e.fid + e.nfr && id < 0x800) && e.sender == f.src.toNat
  else if e.kind = 1 then c == 5 && id == e.fid
  else if e.kind = 2 then (c == 4 && decide (0x800 ≤ id) || c == 5) && id == e.fid && e.sender == f.src.toNat
  else false

def State.table (s : State) (c : Channel) : List MEntry := match c with | .a => s.prof.tabA | .b => s.prof.tabB

/-- The basic cycle that a time lies in, and its start (R415). -/
def State.cycleOf (s : State) (t : DWord) : Nat := t.toNat / s.tTick

/-- Whether a frame starts inside the window of an entry (R432); for arbitrating entries, inside the arbitrating window. -/
def State.startsIn (s : State) (e : MEntry) (f : SchedFrame) : Bool :=
  let o := f.start.toNat % s.tTick
  let lo := if e.kind = 2 then s.prof.arbStart else e.start
  let hi := if e.kind = 2 then s.prof.arbEnd else e.start + e.len
  decide (8 * lo ≤ o) && decide (o + airtime f.len.toNat ≤ 8 * hi)

/-- The grounds of R420: none, failed CRC or ABORT, format, or unexplained. -/
inductive Discard | none | crc | format | window
  deriving DecidableEq, Repr

def State.frameDiscard (s : State) (c : Channel) (f : SchedFrame) : Discard :=
  let bc := s.cycleOf f.start % 64
  if f.abort || !SchedFrame.crcOk f then .crc
  else if 6 ≤ f.cls.toNat || f.rsv != 0 || 1024 ≤ f.src.toNat || 256 < f.len.toNat || f.payload.length != f.len.toNat
      || f.bc.toNat != bc then .format
  else if (s.table c).any fun e => e.activeIn bc && e.explains f && s.startsIn e f then .none
  else .window

/-- Counts a discard in MER_SCHERR; the first of a matrix cycle on the last ground raises MER_WINDOW, with the frame ID
and the channel as its detail (R420, R439). (DEDUCED: log 65.) -/
def State.countDiscard (s : State) (c : Channel) (f : SchedFrame) (d : Discard) : State :=
  let m := s.mers
  match d with
  | .none => s
  | .crc => { s with mers := { m with errCrc := satAdd 65535 m.errCrc 1, crcCnt := vmod m.crcCnt (chanIdx c) (· + 1) } }
  | .format => { s with mers := { m with errCrc := satAdd 65535 m.errCrc 1 } }
  | .window =>
    let s1 := { s with mers := { m with errWin := satAdd 65535 m.errWin 1, winRaised := true } }
    if m.winRaised then s1
    else s1.raise 0x1011 1 false (some (BitVec.ofNat 32 (f.fid.toNat + 65536 * (chanIdx c).val)))

/-- Receives a schedule frame: whether it is kept, and the state with a discard counted. (DEDUCED: log 65.) -/
def State.receive (s : State) (c : Channel) (f : SchedFrame) : Bool × State :=
  let d := s.frameDiscard c f
  (d == .none, s.countDiscard c f d)

end Sys2Proof.Machine
end

