-- ==== Sys2Proof/Machine/Feedback.lean ====
section
/-! DEFINITION. Position and speed feedback (R289–R308): SSI words, positions relayed by drives, the end of the gather
window, the speed estimator, the extrapolation to the control instant, and feedback timeouts. -/

namespace Sys2Proof.Machine

def State.modFbk (s : State) (a : Fin 128) (f : AxFbk → AxFbk) : State := { s with fbk := vmod s.fbk a f }

/-- FBK_AXSRCa.SRC and PORT in force (R289). (DEDUCED: log 55.) -/
def State.fbkSrc (s : State) (a : Nat) : Nat := fld (s.regN (0xC1000 + a * 0x20)) 31 30
def State.fbkPort (s : State) (a : Nat) : Nat := fld (s.regN (0xC1000 + a * 0x20)) 27 24

/-- The axis that a port serves; a port serves at most one (R289). -/
def State.portAxis (s : State) (p : Nat) : Option (Fin 128) :=
  (List.finRange 128).find? fun a => s.fbkSrc a.val == 1 && s.fbkPort a.val == p

/-- The cause codes of FBK_AXSTATa. -/
def causeNotReady : Nat := 1
def causeNoStart : Nat := 2
def causeCrc : Nat := 3
def causeAlarm : Nat := 4
def causeJump : Nat := 5
def causeNoFrame : Nat := 6
def causeDrvInvalid : Nat := 7
def causeLofs : Nat := 8
def causeNoEnd : Nat := 9

/-! ### SSI ports -/

def State.modSsi (s : State) (p : Fin 16) (f : SsiPort → SsiPort) : State := { s with ssi := vmod s.ssi p f }

/-- Whether `ts` is the first ENC edge at or after t0(n) − ADV of some tick (R292); t0 and ADV lie on the 10 ns grid of ENC. -/
def State.ssiEdge (s : State) (p ts : Nat) : Bool :=
  (ts + s.ssiAdv (s.regN (0xC0100 + p * 0x40)) (s.regN (0xC0108 + p * 0x40))) % s.tTick == 0

/-- SSI_FRAME_START (R291, R292): the clock of an enabled port starts at `ts`, the ENC edge at or after t0(n) − ADV;
`high` says that DATA was high during the two ENC samples before it. No frame starts at another time. -/
def execSsiFrameStart (p : Fin 16) (ts : DWord) (high : Bool) (s : State) : Res :=
  .next (if bitOf (s.regN (0xC0100 + p.val * 0x40)) 31 && s.ssiEdge p.val ts.toNat then
    ({ s with now := ts } : State).modSsi p fun x => { x with started := some ((ts.toNat : Int), high) }
    else s)

/-- The number that bits spell, the first bit most significant. -/
def msbVal (b : List Bool) : Nat := b.foldl (fun v x => 2 * v + bnat x) 0
/-- Gray code to binary (R296): each bit is the exclusive or of the bits from the top down to it. -/
def grayToBin : Bool → List Bool → List Bool
  | _, [] => []
  | p, b :: bs => (p != b) :: grayToBin (p != b) bs

/-- What an SSI word gives: its cause (0 if it is valid but for JUMP), its delay, its status bits and its position word. -/
structure SsiDec where
  cause : Nat
  td    : Nat
  stat  : Nat
  word  : Nat

/-- Checks 1 to 5 of R295, in order. -/
def State.ssiDecode (s : State) (p : Nat) (high : Bool) (bits : List Bool) (td : Option Nat) (endLow : Bool) : SsiDec :=
  let fmt := s.regN (0xC0100 + p * 0x40)
  let crc := s.regN (0xC0104 + p * 0x40)
  let tim := s.regN (0xC0108 + p * 0x40)
  let npos := fld fmt 27 22
  let nstat := fld fmt 18 16
  let clen := fld fmt 4 0
  let pos := (bits.drop (fld fmt 21 19)).take npos
  let stat := (bits.drop (fld fmt 21 19 + npos)).take nstat
  let chk := (bits.drop (fld fmt 21 19 + npos + nstat)).take clen
  let dc := bitOf tim 21
  let noStart := dc && (match td with | some x => decide (fld tim 12 5 < x) | none => true)
  let want := ssiCrc clen (fld crc 15 0) (fld crc 31 16 % 2 ^ clen) (pos ++ stat)
  let got := Nat.xor (msbVal chk) (if bitOf fmt 7 then 2 ^ clen - 1 else 0)
  let st := msbVal stat
  let alarm := (List.range nstat).any fun i => bitOf (fld fmt 15 12) i && bitOf st i == bitOf (fld fmt 11 8) i
  let word := msbVal (if bitOf fmt 30 then grayToBin false pos else pos)
  { cause := if !high then causeNotReady else if noStart then causeNoStart
      else if bitOf fmt 6 && !endLow then causeNoEnd
      else if clen != 0 && got != want then causeCrc
      else if alarm then causeAlarm else 0
    td := if dc then td.getD 0 else fld tim 20 13
    stat := st, word := word }

/-- The position of a word (R296), given what the axis held before. -/
def AxFbk.position (f : AxFbk) (fmt npos word : Nat) : Int :=
  if bitOf fmt 29 then
    match f.lastWord with
    | some w => f.pos + sextTo npos ((word : Int) - w)
    | none => word
  else if bitOf fmt 28 then sextTo npos word else word

/-- JUMP (R297): a word far from the expectation, once a valid latch of the configuration stands. -/
def AxFbk.jumps (f : AxFbk) (jmpMax : Nat) (p t : Int) : Bool :=
  jmpMax != 0 && f.conf && !f.timeout && decide ((jmpMax : Int) < (p - (f.pos + rndDiv (f.est.v * (t - f.time)) (10 ^ 9))).natAbs)

/-- A valid latch of an axis becomes its last one. -/
def AxFbk.accept (f : AxFbk) (p t : Int) (word : Option Int) : AxFbk :=
  { f with latch := .valid p t, posPrev := f.pos, pos := p, time := t, have1 := true, conf := true, lastWord := word }

/-- SSI_WORD (R293–R297, R307): a received word is checked in order and gives a position or an invalid cause. `bits` are
the frame's bits in the order received, `td` the measured delay in 10 ns units, `endLow` DATA after the last bit.
In replay the word is discarded (R470). -/
def execSsiWord (p : Fin 16) (bits : List Bool) (td : Option Nat) (endLow : Bool) (s : State) : Res :=
  .next (match (s.ssi[p]).started with
  | none => s
  | some (ts, high) =>
    if s.eph.replay then s.modSsi p fun x => { x with started := none } else
    let fmt := s.regN (0xC0100 + p.val * 0x40)
    let lat := s.regN (0xC010C + p.val * 0x40)
    let d := s.ssiDecode p.val high bits td endLow
    let stamp : Int := (ts + 5 * d.td + fld lat 31 16) / 10 * 10
    let ax := s.portAxis p.val
    let pos : Int := match ax with | some a => (s.fbk[a]).position fmt (fld fmt 27 22) d.word | none => 0
    let jump := match ax with | some a => d.cause == 0 && (s.fbk[a]).jumps (fld lat 15 0) pos stamp | none => false
    let cause := if jump then causeJump else d.cause
    let x := s.ssi[p]
    let alarm := cause == causeAlarm
    let clean := cause == 0 || cause == causeJump
    let s1 := s.modSsi p fun x => { x with
      started := none, td := if d.cause == causeNoStart || d.cause == causeNotReady then x.td else d.td
      stat := d.stat, cause := cause, valid := cause == 0, raw := bits
      errCnt := if cause == 0 then x.errCnt else satAdd 65535 x.errCnt 1
      crcCnt := if cause == causeCrc then satAdd 65535 x.crcCnt 1 else x.crcCnt
      wordArmed := cause == 0 || (x.wordArmed && alarm)
      alarmArmed := clean || (x.alarmArmed && !alarm) }
    let s2 := match ax with
      | some a => s1.modFbk a fun f =>
        if cause == 0 then { f.accept pos stamp (some d.word) with cause := 0 }
        else { f with latch := .invalid cause, cause := cause }
      | none => s1
    if alarm then (if x.alarmArmed then s2.raise 0x0C02 2 else s2)
    else if cause != 0 && x.wordArmed then s2.raise 0x0C01 1
    else s2)

/-! ### Frames of drives and I/O nodes (R298, R422, R423) -/

/-- One axis record of a FEEDBACK payload. -/
structure FbRec where
  idx   : Nat
  flags : Nat
  lofs  : Int
  pos   : Int
  mpos  : Int
  angle : Int

def fbRec (b : List Byte) (o : Nat) : FbRec :=
  { idx := valAt b o 1, flags := valAt b (o + 1) 1, lofs := sextTo 16 (valAt b (o + 2) 2)
    pos := sextTo 32 (valAt b (o + 4) 4), mpos := sextTo 32 (valAt b (o + 8) 4), angle := sextTo 16 (valAt b (o + 12) 2) }

/-- A relayed 32-bit count extended to 64 bits (R298). -/
def extend32 (last : Option Int) (ext new : Int) : Int :=
  match last with
  | some w => ext + sextTo 32 (new - w)
  | none => new

/-- The axis record of a drive takes effect (R290, R298, R307): the motor position and load angle, and, for an axis whose
source is its drive, the primary position with its cause. -/
def State.applyFbRec (s : State) (a : Fin 128) (r : FbRec) (t0 : Nat) : State :=
  let motorOk := bitOf r.flags 1
  let s1 := s.modFbk a fun f => { f with
    lofs := r.lofs
    motorOk := motorOk
    motor := if motorOk then extend32 f.lastMotor f.motor r.mpos else f.motor
    lastMotor := if motorOk then some r.mpos else f.lastMotor
    angle := if bitOf r.flags 2 then some r.angle else none }
  if s.fbkSrc a.val != 2 then s1
  else
    let cause := if !bitOf r.flags 0 then causeDrvInvalid else if 1000 < r.lofs.natAbs then causeLofs else 0
    if cause = 0 then
      s1.modFbk a fun f =>
        { f.accept (extend32 f.lastWord f.pos r.pos) ((t0 : Int) + r.lofs) (some r.pos) with cause := 0, drvArmed := true }
    else
      let s2 := s1.modFbk a fun f => { f with latch := .invalid cause, cause := cause, drvArmed := false }
      if (s.fbk[a]).drvArmed then s2.raise 0x0C03 1 else s2

/-- The axis channel that a node's AXIDX maps to. -/
def State.nodeAxis (s : State) (node idx : Nat) : Option (Fin 128) :=
  (s.prof.axNodes.find? fun m => m.node == node && m.idx == idx).map fun m => m.ax

/-- One burst block: its samples replace those of its axis and burst channel. -/
def AxFbk.addBurst (f : AxFbk) (bch : Nat) (xs : List (BitVec 16)) : AxFbk :=
  { f with bursts := assocSet f.bursts bch xs }

/-- FEEDBACK_FRAME (R290, R298, R420, R422, R423, R425): a node's frame that is kept gives the positions of its axes (when
it arrives by the end of the gather window), their bursts, its SPLOST bit and its input image through the gate. -/
def execFeedbackFrame (ch : Channel) (f : SchedFrame) (t : DWord) (s : State) : Res :=
  let s0 : State := { s with now := t }
  let k := s0.receive ch f
  let b := f.payload
  let node := f.src.toNat
  let nax := valAt b 2 1
  let nb := valAt b 3 1
  let iolen := valAt b 4 2
  let io := s0.prof.ioIns.find? fun n => n.node == node
  let t0 := s0.cycleOf f.start * s0.tTick
  .next (if s.eph.replay then s0
    else if !k.1 || f.cls != 1 then k.2
    else if 8 < nax || 8 < nb || b.length != 8 + 16 * nax + 20 * nb + iolen then k.2.countDiscard ch f .format
    else if iolen != (match io with | some n => n.len | none => 0) then k.2
    else
      let lost := bitOf (valAt b 0 2) 0
      let was := k.2.mers.splost.contains node
      let s1 := { k.2 with mers := { k.2.mers with
        splost := if lost then (if was then k.2.mers.splost else node :: k.2.mers.splost) else k.2.mers.splost.filter (· != node) } }
      let s2 := if lost && !was then s1.raise 0x1013 2 false (some (BitVec.ofNat 32 node)) else s1
      let inTime := decide (t.toNat ≤ t0 + s0.gatherNs)
      let s3 := if inTime then (List.range nax).foldl (fun st i =>
          let r := fbRec b (8 + 16 * i)
          match st.nodeAxis node r.idx with
          | some a => st.applyFbRec a r t0
          | none => st) s2 else s2
      let s4 := (List.range nb).foldl (fun st i =>
          let o := 8 + 16 * nax + 20 * i
          let cnt := min 8 (valAt b (o + 2) 1)
          match st.nodeAxis node (valAt b o 1) with
          | some a => st.modFbk a fun f =>
            f.addBurst (valAt b (o + 1) 1) ((List.range cnt).map fun j => BitVec.ofNat 16 (valAt b (o + 4 + 2 * j) 2))
          | none => st) s3
      match io with
      | some n =>
        let stamp := s4.stampAt t
        s4.gatePush stamp (match ch with | .a => 2 | .b => 3)
          (.image n.image (BitVec.ofNat 64 stamp) (bytesAt b (8 + 16 * nax + 20 * nb) iolen))
      | none => s4)

/-- The recorded feedback of an axis with the estimator state of the part that replays (R466, R470). -/
def AxFbk.replayed (cur rec : AxFbk) : AxFbk :=
  { rec with est := cur.est, act := cur.act, act1 := cur.act1, speed := cur.speed, outage := cur.outage, toRaised := cur.toRaised }

/-- GATHER_END (R28, R298, R304, R307, R470): an axis without a valid latch is STALE; a drive axis without a frame has cause
NOFRAME. -/
def execGatherEnd (s : State) : Res :=
  .next (match s.eph.rpNow with
  | some b => { s with
      fbk := vmap (fun a f => f.replayed (b.axes.toList.getD a {})) s.fbk
      lines := vmap (fun n l => { l with latch := b.lines.toList.getD n {}, est := { l.est with ran := false } }) s.lines }
  | none => (List.finRange 128).foldl (fun st a =>
    let src := st.fbkSrc a.val
    let f := st.fbk[a]
    let ok := match f.latch with | .valid _ _ => true | _ => false
    let noFrame := src == 2 && f.latch == .none
    if !st.axisPresent a.val || src = 0 then st
    else
      let s1 := st.modFbk a fun f => { f with
        valid := ok, stale := !ok
        latch := if noFrame then .invalid causeNoFrame else f.latch
        cause := if noFrame then causeNoFrame else f.cause
        drvArmed := if noFrame then false else f.drvArmed }
      if noFrame && f.drvArmed then s1.raise 0x0C03 1 else s1) s)

/-! ### The speed estimator (R303) -/

def satSpeed (x : Int) : Int := clampInt (-(2 ^ 31)) (2 ^ 31 - 1) x

/-- Drops the oldest points while a history holds more than `n`. -/
def keepLast (n : Nat) (h : List (Int × Int)) : List (Int × Int) := h.drop (h.length - n)

def isign (x : Int) : Int := if x > 0 then 1 else if x < 0 then -1 else 0

/-- One run of the estimator on a valid latch (p, t), with its window and its standstill timeout in ns. -/
def Estim.run (e : Estim) (win : Nat) (tStill p t : Int) : Estim :=
  let e0 := { e with starting := false, reversed := false, ran := true }
  let e1 : Estim :=
    if e.first then { e0 with first := false, still := true, v := 0, dir := 0, hist := [(p, t)], tChg := t }
    else if p = e.pPrev then
      if !e.still && decide (tStill ≤ t - e.tChg) then { e0 with still := true, v := 0, dir := 0, hist := [(p, t)] } else e0
    else
      let d := isign (p - e.pPrev)
      let e2 : Estim :=
        if e.still then { e0 with
          v := satSpeed (rndDiv ((p - e.pPrev) * 10 ^ 9) tStill), starting := true, still := false, hist := [(p, t)] }
        else if d ≠ e.dir then { e0 with
          v := satSpeed (rndDiv ((p - e.pPrev) * 10 ^ 9) (t - e.tChg)), reversed := true, hist := [(e.pPrev, e.tChg), (p, t)] }
        else
          let h := keepLast (win + 1) (e.hist ++ [(p, t)])
          let first := nth h 0 (p, t)
          { e0 with v := satSpeed (rndDiv ((p - first.1) * 10 ^ 9) (t - first.2)), hist := h }
      { e2 with dir := d, tChg := t }
  { e1 with pPrev := p, tPrev := t }

/-- A run of the estimator on this latch would end in the standstill timeout. -/
def Estim.stillDue (e : Estim) (tStill p t : Int) : Bool :=
  !e.ran && !e.first && !e.still && decide (p = e.pPrev) && decide (tStill ≤ t - e.tChg)

def State.axWin (s : State) (a : Nat) : Nat := fld (s.regN (0xC1000 + a * 0x20)) 23 20
def State.axStill (s : State) (a : Nat) : Int := fld (s.regN (0xC1000 + a * 0x20)) 15 4 * 10 ^ 6
def State.lineWin (s : State) (n : Nat) : Nat := fld (s.regN (0xC0080 + n * 4)) 3 0
def State.lineStill (s : State) (n : Nat) : Int := fld (s.regN (linCtrlOff n)) 15 4 * 10 ^ 6

/-- STANDSTILL_TIMEOUT (R303): the run of a source's estimator on its latch of this tick in which the standstill timeout
is reached; EXTRAPOLATE_PHASE runs every estimator that has not run in the tick. -/
def execStandstillTimeout (src : EstSrc) (s : State) : Res :=
  .next (match src with
  | .axis a =>
    match (s.fbk[a]).latch with
    | .valid p t =>
      if (s.fbk[a]).est.stillDue (s.axStill a.val) p t then
        s.modFbk a fun f => { f with est := f.est.run (s.axWin a.val) (s.axStill a.val) p t }
      else s
    | _ => s
  | .line n =>
    let l := (s.lines[n]).latch
    if (s.lineProf n.val).en && (s.lines[n]).est.stillDue (s.lineStill n.val) l.count l.time.toNat then
      s.modLine n fun x => { x with est := x.est.run (s.lineWin n.val) (s.lineStill n.val) l.count l.time.toNat }
    else s)

/-! ### Extrapolation and timeout (R301, R302) -/

/-- Whether the last valid latch of an axis is too old (R302): older than a tick and 2 µs, or none since reset. -/
def State.fbkLate (s : State) (f : AxFbk) : Bool :=
  !f.have1 || decide (((s.tTick : Int) + 2000) < (s.t0 s.epoch : Int) - f.time)

/-- The feedback of one axis in the extrapolate phase (R301–R304). In manual mode and otherwise alike. -/
def State.axisEstimate (s : State) (a : Fin 128) : State :=
  let win := s.axWin a.val
  let still := s.axStill a.val
  s.modFbk a fun f =>
    let f1 : AxFbk := match f.latch with
      | .valid p t =>
        let e0 := if f.timeout && f.have1 then { f.est with first := true } else f.est
        if f.est.ran && !f.timeout then f
        else { f with est := e0.run win still p t }
      | _ => { f with est := { f.est with starting := false, reversed := false } }
    let late := s.fbkLate f1
    if late then { f1 with
        act := if f1.have1 then f1.pos else 0, act1 := f.act, speed := 0, timeout := true, outage := f1.have1 }
    else { f1 with
        act1 := f.act, act := f1.pos + rndDiv (f1.est.v * ((s.t0 s.epoch : Int) - f1.time)) (10 ^ 9), speed := f1.est.v
        timeout := false, outage := false, toRaised := false }

/-- EXTRAPOLATE_PHASE (R26, R156–R168, R186–R195, R300–R304): the estimators of lines and axes run, positions are brought
to the control instant, then the arm generators and the auxiliary generators advance. An axis in the hold or in Dusk runs
the same way; what a stop changes is in the generators. -/
def execExtrapolatePhase (s : State) : Res :=
  .next (if !s.running then s
    else
      let s1 := (List.finRange 8).foldl (fun st n =>
        let l := (st.lines[n]).latch
        if (st.lineProf n.val).en && !(st.lines[n]).est.ran then
          st.modLine n fun x => { x with est := x.est.run (st.lineWin n.val) (st.lineStill n.val) l.count l.time.toNat }
        else st) s
      let s2 := (List.finRange 128).foldl (fun st a =>
        if st.axisPresent a.val && st.fbkSrc a.val != 0 then st.axisEstimate a else st) s1
      let s3 := (List.finRange 8).foldl (fun st k => st.armTick k) s2
      (List.finRange 128).foldl (fun st a => match st.auxProf a.val with | some p => (st.auxTick p).loadTick p | none => st) s3)

/-- FBK_TIMEOUT (R302): raised once per outage that follows a valid latch; F3 for an axis that runs a cascade. -/
def execFbkTimeout (a : Fin 128) (s : State) : Res :=
  let f := s.fbk[a]
  .next (if s.fbkSrc a.val != 0 && f.timeout && f.outage && !f.toRaised then
    (s.modFbk a fun f => { f with toRaised := true }).raise 0x0C04 (if s.runsCascade a.val then 3 else 1)
    else s)

end Sys2Proof.Machine
end

