-- ==== Sys2Proof/Machine/Meridian.lean ====
section
/-! DEFINITION. The Meridian fabric (R47–R51, R390–R412): link frames and repeating, cold start, link delay and clock
correction, synchronisation states, enumeration and addresses, and the port states. -/

namespace Sys2Proof.Machine

def portIdx (c : Channel) (p : LPort) : Fin 4 :=
  match c, p with
  | .a, .north => 0
  | .a, .south => 1
  | .b, .north => 2
  | .b, .south => 3
def otherPort (p : LPort) : LPort := match p with | .north => .south | .south => .north
def portNo (p : LPort) : Nat := match p with | .north => 0 | .south => 1
def State.port (s : State) (c : Channel) (p : LPort) : MerPort := s.mer.ports[portIdx c p]
def State.modMer (s : State) (f : Mer → Mer) : State := { s with mer := f s.mer }
def State.modPort (s : State) (c : Channel) (p : LPort) (f : MerPort → MerPort) : State :=
  s.modMer fun m => { m with ports := vmod m.ports (portIdx c p) f }
def allPorts : List (Channel × LPort) := [(.a, .north), (.a, .south), (.b, .north), (.b, .south)]

/-- A quotient whose rounding the spec leaves open: the floor, or one more where it is not exact (log entry 5).
(DESIGN CHOICE: log 9.) -/
def freeQuot (x : Int) (d : Nat) : Int := if x % d = 0 then x / d else x / d + bnat (Config.roundUp x d)

/-! ### Link frames (R398) -/

def LinkFrame.body (f : LinkFrame) : List Byte :=
  [f.type, f.scope, f.seq, f.rsv] ++ leBytes f.uid.toNat 6 ++ leBytes f.addr.toNat 2 ++ f.payload
/-- A link frame that is not discarded: its CRC holds and its TYPE is not reserved. (DESIGN CHOICE: log 91.) -/
def LinkFrame.ok (f : LinkFrame) : Bool :=
  f.crc == crc32c 0xFFFFFFFF (LinkFrame.body f) && decide (1 ≤ f.type.toNat) && decide (f.type.toNat ≤ 8) && f.payload.length == 20

def pad20 (b : List Byte) : List Byte := bytesAt b 0 20

/-- Sends a link frame on a port: SEQ counts the frames of the TYPE, and the CRC closes it. -/
def State.sendLink (s : State) (c : Channel) (p : LPort) (type scope : Byte) (payload : List Byte) : State :=
  let seq := assoc (0 : Byte) s.mer.seqs type.toNat
  let f : LinkFrame := ⟨type, scope, seq, 0, s.uid, (match s.mer.addr with | some a => BitVec.ofNat 16 a | none => 0xFFFF), pad20 payload, 0⟩
  (s.out (.link c p { f with crc := crc32c 0xFFFFFFFF (LinkFrame.body f) })).modMer fun m =>
    { m with seqs := assocSet m.seqs type.toNat (seq + 1) }

/-- Whether a port may carry link frames other than COLDSTART (R398). -/
def MerPort.linked (p : MerPort) : Bool := p.state == .measure || p.state == .ready

def State.isLodestar (s : State) : Bool := s.mer.cold == .lodestar
/-- The key of R400. -/
def State.ownKey (s : State) : Nat := s.prof.mer.prio * 2 ^ 48 + s.uid.toNat
/-- A matrix cycle in ns (R400, R415). -/
def State.matrixNs (s : State) : Nat := 64 * s.tTick

/-- Sends COLDSTART on every port of both channels (R400, R401). -/
def State.sendColdstart (s : State) : State :=
  allPorts.foldl (fun st e => st.sendLink e.1 e.2 1 1 (leBytes st.ownKey 8 ++ [BitVec.ofNat 8 st.prof.mer.csaddr])) s

/-- The ports on which a node sends downstream: both of the lodestar, and the port that is not upstream of any other. -/
def State.isDownstream (s : State) (c : Channel) (p : LPort) : Bool :=
  (s.port c p).state == .ready && (s.isLodestar || !(s.port c p).upstream)

/-- Sends ENUM on a downstream port (R407). -/
def State.sendEnum (s : State) (c : Channel) (p : LPort) : State :=
  let m := s.mer
  let path := if s.isLodestar then 0 else (m.path[chanIdx c]).getD 0
  let block : Byte := match m.number with | some k => BitVec.ofNat 8 k | none => 0xFF
  if s.isDownstream c p then
    s.sendLink c p 4 0 ([BitVec.ofNat 8 m.hops, 0, block, BitVec.ofNat 8 (bnat s.prof.mer.pinMode)] ++ leBytes path.toNat 4)
  else s
def State.sendEnums (s : State) : State := allPorts.foldl (fun st e => st.sendEnum e.1 e.2) s

/-- Sends NODE_ADDR for every pinned address of the profile down a pinned segment (R408). -/
def State.sendNodeAddrs (s : State) : State :=
  if !s.prof.mer.pinMode then s
  else allPorts.foldl (fun st e =>
    if st.isDownstream e.1 e.2 then
      st.prof.mer.nodeAddrs.foldl (fun st n => st.sendLink e.1 e.2 7 0 (leBytes n.1.toNat 6 ++ leBytes n.2 2)) st
    else st) s

/-! ### Port states (R409) -/

/-- A fall to DOWN raises MER_LINK_DOWN, with the channel and port as its detail. -/
def State.portFall (s : State) (c : Channel) (p : LPort) : State :=
  if (s.port c p).state == .down || (s.port c p).state == .blocked then s
  else
    (s.modPort c p fun x => { x with state := .down, downs := satAdd 255 x.downs 1, peerTrain := false, samples := [], req := none }).raise
      0x1001 1 false (some (BitVec.ofNat 32 ((chanIdx c).val * 256 + portNo p)))

/-- LINK_DOWN (R409): loss of signal, no comma for 1 µs, or 16 code violations in one basic cycle. -/
def execLinkDown (c : Channel) (p : LPort) (t : DWord) (s : State) : Res := .next (({ s with now := t } : State).portFall c p)

/-- TRAIN_SEND (R409): a port in DOWN sends TRAIN for 10 µs every 1 ms. -/
def execTrainSend (c : Channel) (p : LPort) (s : State) : Res :=
  .next (if (s.port c p).state == .down then s.out (.train c p) else s)

/-- TRAIN_RECEIVE (R409): TRAIN brings a port in DOWN to TRAIN; before boot stage 7 and in BOOTFAIL ports stay DOWN (R497). -/
def execTrainReceive (c : Channel) (p : LPort) (s : State) : Res :=
  .next (match (s.port c p).state with
  | .down => if s.boot.stage < 7 then s else s.modPort c p fun x => { x with state := .train, peerTrain := true, retrains := satAdd 255 x.retrains 1 }
  | .train => s.modPort c p fun x => { x with peerTrain := true }
  | _ => s)

/-- LINK_MEASURE (R409): 1 024 consecutive valid symbols with TRAIN seen from the peer. -/
def execLinkMeasure (c : Channel) (p : LPort) (s : State) : Res :=
  .next (if (s.port c p).state == .train && (s.port c p).peerTrain then
    s.modPort c p fun x => { x with state := .measure, samples := [], req := none } else s)

/-- LINK_READY (R409, R411): a port with 16 delay samples becomes READY at basic cycle 0 of a matrix, and enumeration
runs downstream of it. -/
def execLinkReady (c : Channel) (p : LPort) (t : DWord) (s : State) : Res :=
  let s0 : State := { s with now := t }
  .next (if (s.port c p).state == .measure && (s.port c p).samples.length == 16 && s.cycleOf t % 64 == 0 then
    let s1 := s0.modPort c p fun x => { x with state := .ready }
    if s1.mer.addr.isSome || s1.isLodestar then
      (if s1.mer.number.isSome then (s1.sendEnum c p).sendNodeAddrs else s1.sendEnum c p)
    else s1
    else s0)

/-- The effect of MER_CTRL.RETRAIN (R409). -/
def State.retrain (s : State) (mask : BitVec 4) : State :=
  allPorts.foldl (fun st e => if mask.getLsbD (portIdx e.1 e.2).val then st.portFall e.1 e.2 else st) s

/-- MER_RETRAIN (R409): each port named is forced to DOWN. -/
def execMerRetrain (mask : BitVec 4) (t : DWord) (s : State) : Res := .next (({ s with now := t } : State).retrain mask)

/-- The effect of MER_CTRL.PORTDIS (R409): a port named is BLOCKED; a write without its bit releases a blocked port,
which starts again in DOWN. (DEDUCED: log 66.) -/
def State.portdis (s : State) (mask : BitVec 4) : State :=
  let s1 := s.setReg 0x100030 (BitVec.ofNat 32 mask.toNat)
  allPorts.foldl (fun st e =>
    st.modPort e.1 e.2 fun x =>
      if mask.getLsbD (portIdx e.1 e.2).val then { x with state := .blocked, peerTrain := false, samples := [], req := none }
      else if x.state == .blocked then { x with state := .down } else x) s1

/-- MER_PORTDIS (R409): a write of MER_CTRL.PORTDIS. -/
def execMerPortdis (mask : BitVec 4) (t : DWord) (s : State) : Res := .next (({ s with now := t } : State).portdis mask)

/-! ### Repeating (R392, R393) -/

/-- RPTLAT of this device in ns, and in the 1/16 ns units of DELAY_RESP. -/
def rptlatNs : Nat := 92

/-- FRAME_REPEAT (R392, R393): a schedule frame or FLOOD link frame from one READY port leaves on the other; a CRC
failure makes the copy end in ABORT, which the port that received one counts, a FLOOD frame among the last 8 repeated is dropped, and LOCAL frames are not
repeated. -/
def execFrameRepeat (c : Channel) (p : LPort) (f : MerFrame) (s : State) : Res :=
  let q := otherPort p
  let up := (s.port c p).state == .ready && (s.port c q).state == .ready
  .next (match f with
    | .sched g =>
      let s1 := if g.abort then s.modPort c p fun x => { x with aborts := satAdd 65535 x.aborts 1 } else s
      if up then s1.out (.repeated c q f rptlatNs (g.abort || !SchedFrame.crcOk g)) else s1
    | .link g =>
      let key := (g.type, g.uid, g.seq)
      if !up || g.scope != 1 || s.mer.flood.contains key then s
      else (s.out (.repeated c q f rptlatNs (g.crc != crc32c 0xFFFFFFFF (LinkFrame.body g)))).modMer fun m =>
        { m with flood := (key :: m.flood).take 8 })

/-! ### Cold start (R400–R402, R48) -/

/-- Joins as a follower. -/
def Mer.follow (m : Mer) (result : Nat) : Mer := { m with cold := .follower, result := if m.result = 0 then result else m.result }

/-- Sends its own COLDSTART and opens the 50 µs window (R400). -/
def State.contend (s : State) (t : DWord) : State :=
  (s.sendColdstart).modMer fun m => { m with cold := .contend (t.toNat + 50000) }

/-- COLDSTART_LISTEN_END (R400): a permitted controller that heard nothing sends COLDSTART and opens its window. -/
def execColdstartListenEnd (t : DWord) (s : State) : Res :=
  .next (match s.mer.cold with
  | .listen stop => if stop ≤ t.toNat then ({ s with now := t } : State).contend t else s
  | _ => s)

/-- Whether a COLDSTART is the beacon of a running lodestar (R400): it arrives in the idle time of a basic cycle whose
sync window was received too. -/
def State.isBeacon (s : State) (t : DWord) : Bool :=
  (s.mer.syncCycle == some (s.cycleOf t) && decide (8 * s.prof.arbEnd ≤ t.toNat % s.tTick)) || (s.isLodestar && s.mer.foreign)

/-- COLDSTART_RECEIVE (R400, R401): the decision of the table of R400, or a beacon. -/
def execColdstartReceive (c : Channel) (p : LPort) (f : LinkFrame) (t : DWord) (s : State) : Res :=
  let s0 : State := { s with now := t }
  let key := valAt f.payload 0 8 % 2 ^ 52
  let own := s.ownKey
  let beacon := s.isBeacon t
  let clash (st : State) : State := (st.modMer fun m => { m with cold := .clash, result := 4 }).raise 0x1002 1
  .next (if !LinkFrame.ok f || f.type != 1 || (s.port c p).state == .blocked then s0
    else match s.mer.cold with
    | .listen _ =>
      if beacon then s0.modMer fun m => { m.follow 3 with lsKey := key }
      else
        let s1 := s0.modMer fun m => { m with contests := satAdd 255 m.contests 1 }
        if key < own then s1.modMer fun m => m.follow 2
        else if key = own then clash s1
        else s1.contend t
    | .contend _ =>
      if beacon then s0.modMer fun m => { m.follow 3 with lsKey := key }
      else
        let s1 := s0.modMer fun m => { m with contests := satAdd 255 m.contests 1 }
        if key < own then s1.modMer fun m => m.follow 2
        else if key = own then clash s1
        else s1
    | .lodestar =>
      if beacon && key != own then
        let s1 := if s.mer.dual then s0 else (s0.modMer fun m => { m with dual := true }).raise 0x1003 1
        if own < key then s1 else s1.modMer fun m => { m with cold := .rejoin }
      else if key = own && !beacon then clash s0
      else s0
    | .follower => if beacon then s0.modMer fun m => { m with lsKey := key } else s0
    | _ => s0)

/-- The Sidereal time that a cold start loads (R48). -/
def coldSidereal (coarse : Nat) : Nat := (coarse + 2000000000 + 1999999999) / 2000000000 * 2000000000

/-- COLDSTART_WINDOW_END (R48, R400, R407): a contender that holds its claim becomes lodestar: Sidereal time is loaded,
its address is 0x000, and enumeration begins. `asTime` is the 802.1AS time of a port that has held lock for 1 s. -/
def execColdstartWindowEnd (t : DWord) (asTime : Option DWord) (s : State) : Res :=
  .next (match s.mer.cold with
  | .contend stop =>
    if stop ≤ t.toNat then
      let coarse := match asTime with
        | some x => if s.prof.mer.asSteer then x.toNat else s.coarseNow.toNat
        | none => s.coarseNow.toNat
      (({ s.crystal with now := BitVec.ofNat 64 (coldSidereal coarse) } : State).modMer fun m => { m with
        cold := .lodestar, result := 1, sync := .locked, joining := false, addr := some 0, number := some 0
        hops := 0, path := Vector.replicate 2 (some 0), lsKey := s.ownKey, mask := 1 }).sendEnums.sendNodeAddrs
    else s
  | _ => s)

/-- LODESTAR_BEACON (R401): the lodestar floods its COLDSTART in the idle time of every basic cycle with BC = 0. -/
def execLodestarBeacon (t : DWord) (s : State) : Res :=
  .next (if s.isLodestar && s.cycleOf t % 64 == 0 then ({ s with now := t } : State).sendColdstart else s)

/-- MER_NO_LODESTAR (R402): raised once, 1 s after stage 7 began without a sync window. -/
def execMerNoLodestar (t : DWord) (s : State) : Res :=
  .next (match s.mer.stage7 with
  | some b =>
    if !s.prof.mer.permit && !s.mer.noLode && s.mer.syncCycle.isNone && decide (b + 1000000000 ≤ t.toNat) then
      (({ s with now := t } : State).modMer fun m => { m with noLode := true }).raise 0x1009 1
    else s
  | none => s)

/-! ### Link delay (R403) -/

/-- DELAY_REQ_SEND (R403): the downstream node asks once per basic cycle and keeps T1. -/
def execDelayReqSend (c : Channel) (p : LPort) (t1 : DWord) (s : State) : Res :=
  .next (if (s.port c p).linked then
    let seq := assoc (0 : Byte) s.mer.seqs 2
    (({ s with now := t1 } : State).sendLink c p 2 0 []).modPort c p fun x => { x with req := some (seq, t1) }
    else s)

/-- DELAY_REQ_RECEIVE (R403): the upstream node answers with T2, T3, its RPTLAT and the request's SEQ. -/
def execDelayReqReceive (c : Channel) (p : LPort) (f : LinkFrame) (t2 t3 : DWord) (s : State) : Res :=
  .next (if LinkFrame.ok f && f.type == 2 && (s.port c p).linked then
    ({ s with now := t3 } : State).sendLink c p 3 0 (leBytes t2.toNat 8 ++ leBytes t3.toNat 8 ++ leBytes (16 * rptlatNs) 2 ++ [f.seq])
    else s)

/-- DELAY_RESP_RECEIVE (R403): the response to the request on its way gives one link delay sample, in 1/16 ns. -/
def execDelayRespReceive (c : Channel) (p : LPort) (f : LinkFrame) (t4 : DWord) (s : State) : Res :=
  .next (match (s.port c p).req with
  | some (seq, t1) =>
    if LinkFrame.ok f && f.type == 3 && valAt f.payload 18 1 == seq.toNat && (s.port c p).linked then
      let t2 := valAt f.payload 0 8
      let t3 := valAt f.payload 8 8
      let x : Int := 8 * (((t4.toNat : Int) - t1.toNat) - ((t3 : Int) - t2)) - nth s.prof.mer.asym (portIdx c p).val 0
      ({ s with now := t4 } : State).modPort c p fun q =>
        { q with samples := keepLast16 (q.samples ++ [x]), req := none, rptlat := valAt f.payload 16 2 }
    else s
  | none => s)
where
  keepLast16 (l : List Int) : List Int := l.drop (l.length - 16)

/-- The link delay of a port in 1/16 ns: the mean of its samples. -/
def MerPort.delay (p : MerPort) : Int :=
  if p.samples.isEmpty then 0 else freeQuot (p.samples.foldl (· + ·) 0) p.samples.length

/-! ### Sync (R404, R405, R421, R431) -/

def rateCode : Rate → Nat
  | .k4 => 0
  | .k8 => 1
  | .k16 => 2

/-- Builds a schedule frame of this controller for the basic cycle in progress (R419). -/
def State.mkFrame (s : State) (cls : BitVec 4) (fid : BitVec 12) (t : DWord) (payload : List Byte) : SchedFrame :=
  let f : SchedFrame := ⟨cls, fid, BitVec.ofNat 16 (s.mer.addr.getD 0x3FF), BitVec.ofNat 16 payload.length,
    BitVec.ofNat 8 (s.cycleOf t % 64), 0, payload, 0, false, t⟩
  { f with crc := crc32c 0xFFFFFFFF (SchedFrame.header f ++ payload) }

def clampAbs (b x : Int) : Int := clampInt (-b) b x

/-- The lodestar's steering of the fabric rate toward the 802.1AS grandmaster, where the profile enables it and the plant
time is there (R49): per basic cycle by at most what 1 ppm per second allows, within ±200 ppm. How far it goes within that
bound is free. (DESIGN CHOICE: log 107.) -/
def State.steer (s : State) (t : DWord) (asTime : Option DWord) : State :=
  match s.prof.mer.asSteer, asTime with
  | true, some a =>
    let d := s.draw
    let step : Int := d.1.toNat % (65536 * s.tTick / 1000000000 + 1)
    d.2.modMer fun m => { m with
      rate := clampAbs (200 * 65536) (if t.toNat < a.toNat then m.rate + step else if a.toNat < t.toNat then m.rate - step else m.rate) }
  | _, _ => s

/-- SYNC_SEND (R421): the lodestar sends the sync frame at t0(n) on both channels. -/
def execSyncSend (t : DWord) (s0 : State) (asTime : Option DWord := none) : Res :=
  .next (if s0.isLodestar && !s0.eph.replay then
    let s := s0.steer t asTime
    let n := s.cycleOf t
    let pr := s.prof
    let f := s.mkFrame 0 0 t (leBytes (n * s.tTick) 8 ++ leBytes (n / 64) 4 ++ [BitVec.ofNat 8 (n % 64), BitVec.ofNat 8 (rateCode pr.rate), BitVec.ofNat 8 (bnat pr.mer.asSteer), 0]
      ++ leBytes pr.guard 2 ++ leBytes pr.arbStart 2 ++ leBytes pr.arbEnd 2 ++ leBytes pr.msLen 2)
    (({ s with now := t } : State).out (.sched .a f)).out (.sched .b f)
    else s0)

/-- The sync carries schedule values that differ from the profile's (R431). -/
def State.syncDiffers (s : State) (b : List Byte) : Bool :=
  valAt b 13 1 != rateCode s.prof.rate || valAt b 16 2 != s.prof.guard || valAt b 18 2 != s.prof.arbStart
    || valAt b 20 2 != s.prof.arbEnd || valAt b 22 2 != s.prof.msLen

/-- The clock correction of R404 with the offset of basic cycle n in 1/16 ns, and the runs that R50 and R51 count: one
offset counts for each basic cycle, the latest; a cycle without one breaks the run of good cycles only.
(DESIGN CHOICE: log 107.) -/
def Mer.correct (m : Mer) (n : Nat) (off : Int) : Mer :=
  let again := m.measured == some n
  let good := if again then m.good0 else if m.measured == some (n - 1) then m.good else 0
  let bad := if again then m.bad0 else m.bad
  let acc0 := if again then m.acc0 else m.acc
  let acc := clampAbs (2000000 * 16) (acc0 + off)
  let rate := clampAbs (200 * 65536) (m.rate0 - off * 256 - acc)
  let near := decide (off.natAbs ≤ 320)
  let first := m.sync == .unsync && near
  { m with
    acc := acc, rate := rate, offset16 := off
    good := if near then good + 1 else 0
    bad := if 3200 < off.natAbs then bad + 1 else 0
    acc0 := acc0, good0 := good, bad0 := bad, measured := some n
    sync := if first then .locked else m.sync
    rate0 := if first then rate else m.rate0 }

/-- SYNC_RECEIVE (R394, R400, R401, R404, R405, R410, R420, R431): a sync frame on a port. -/
def execSyncReceive (c : Channel) (p : LPort) (f : SchedFrame) (t : DWord) (s : State) : Res :=
  let s0 : State := { s with now := t }
  let b := f.payload
  let ts := valAt b 0 8
  let n := ts / s.tTick
  .next (if f.abort || !SchedFrame.crcOk f then s0.countDiscard c f .crc
    else if f.cls != 0 || f.fid != 0 || b.length != 24 || f.rsv != 0 then s0.countDiscard c f .format
    else if (s.port c p).state == .blocked then s0
    else
      let ring := (s.port c (otherPort p)).syncCycle == some n
      let s1 := if ring then (s0.modPort c p fun x => { x with state := .blocked }).raise 0x1007 1 else s0
      let s2 := s1.modPort c p fun x => { x with syncCycle := some n }
      if ring then s2
      else if s.isLodestar then s2.modMer fun m => { m with foreign := true, syncCycle := some n }
      else
        let up := (s2.port c .north).upstream || (s2.port c .south).upstream
        let s3 := if up then s2 else s2.modPort c p fun x => { x with upstream := true }
        let s4 := s3.modMer fun m => match m.cold with
          | .listen _ | .contend _ | .idle => m.follow 3
          | _ => m
        let s5 := if s4.syncDiffers b && !s4.mers.mismatch then
            ({ s4 with mers := { s4.mers with mismatch := true } } : State).raise 0x1010 1 else s4
        let use := c == .a || s5.mer.syncCycle != some n || s5.mer.syncFrom != 1
        let off : Int := 16 * ((t.toNat : Int) - ts) - (s5.mer.path[chanIdx c]).getD 0
        let s6 := s5.modMer fun m => { m with syncCycle := some n }
        if !use || s6.mer.cold == .clash || s6.mer.cold == .rejoin then s6
        else
          let s7 := s6.modMer fun m => { m with syncFrom := match c with | .a => 1 | .b => 2 }
          if s7.mer.joining then
            if (s7.mer.path[chanIdx c]).isSome then
              { s7.modMer fun m => { m with joining := false, offset16 := off } with
                now := BitVec.ofInt 64 ((t.toNat : Int) - freeQuot off 16) }
            else s7
          else s7.modMer fun m => m.correct n off)

/-- SYNC_DEGRADED (R50): the offset exceeded ±200 ns in 8 consecutive basic cycles. -/
def execSyncDegraded (s : State) : Res :=
  .next (if s.mer.sync == .locked && decide (8 ≤ s.mer.bad) then
    (s.modMer fun m => { m with sync := .degraded, good := 0, good0 := 0 }).raise 0x0E10 1 else s)

/-- The basic cycle in progress: that of the epoch, or of Sidereal time where the tick sequencer stands (R507). -/
def State.cycleNow (s : State) : Nat := if s.running then s.epoch else s.cycleOf s.now

/-- The consecutive basic cycles that ended without a sync window, on a node that follows a lodestar (R50, R405). -/
def State.missedCycles (s : State) : Nat :=
  match s.isLodestar, s.mer.syncCycle with
  | false, some n => s.cycleNow - 1 - n
  | _, _ => 0

/-- The basic cycles spent in HOLDOVER (R50). -/
def State.heldCycles (s : State) : Nat := s.cycleNow - s.mer.holdFrom

/-- SIDEREAL_HOLDOVER (R50): no sync window in 4 consecutive basic cycles. -/
def execSiderealHoldover (s : State) : Res :=
  .next (if (s.mer.sync == .locked || s.mer.sync == .degraded) && decide (4 ≤ s.missedCycles) then
    (s.modMer fun m => { m with sync := .holdover, holdFrom := s.cycleNow }).raise 0x0E11 1 else s)

/-- SIDEREAL_LOST (R50): 64 basic cycles spent in HOLDOVER. -/
def execSiderealLost (s : State) : Res :=
  .next (if s.mer.sync == .holdover && decide (64 ≤ s.heldCycles) then
    (s.modMer fun m => { m with sync := .lost }).raise 0x0E12 2 true else s)

/-- SYNC_RELOCK (R51): back to LOCKED from DEGRADED after 64 cycles within ±20 ns, from HOLDOVER when sync windows
arrive again within ±1 µs. -/
def execSyncRelock (s : State) : Res :=
  let m := s.mer
  .next (if (m.sync == .degraded && decide (64 ≤ m.good))
      || (m.sync == .holdover && s.missedCycles == 0 && decide (m.offset16.natAbs ≤ 16000)) then
    s.modMer fun m => { m with sync := .locked, rate0 := m.rate } else s)

/-- What the fabric does at the start of a basic cycle (R401, R420): a second lodestar's sync is forgotten after a cycle
without one, and a matrix start clears what is counted per matrix cycle. -/
def State.merBoundary (s : State) : State :=
  let s1 := s.modMer fun m => { m with foreign := m.foreign && m.syncCycle == some (s.epoch - 1) }
  if s.epoch % 64 = 0 then
    { s1 with mers := { s1.mers with winRaised := false, crcCnt := Vector.replicate 2 0, crcRaised := Vector.replicate 2 false } }
  else s1

/-! ### Enumeration and addresses (R407, R408, R411) -/

/-- ENUM_RECEIVE (R404, R407, R408): a controller takes its hops and path delay, reports itself upstream and passes ENUM
on; hops above 255 or a path over 40 µs leave it unaddressed. -/
def execEnumReceive (c : Channel) (p : LPort) (f : LinkFrame) (t : DWord) (s : State) : Res :=
  let s0 : State := { s with now := t }
  let hops := valAt f.payload 0 1 + 1
  let q := s.port c p
  let path : Int := (valAt f.payload 4 4 : Nat) + q.delay + (if hops = 1 then 0 else (q.rptlat : Int))
  .next (if !LinkFrame.ok f || f.type != 4 || s.isLodestar || !q.linked then s0
    else
      let s1 := s0.modMer fun m => { m with hops := hops, path := m.path.set (chanIdx c) (some path) }
      if 255 < hops || 640000 < path then
        (s1.modMer fun m => { m with addr := none }).raise 0x1006 1 false (some (BitVec.ofNat 32 (hops * 256 + valAt f.payload 1 1)))
      else
        let d := s1.draw
        let pin : Byte := match s.prof.mer.pin with | some k => BitVec.ofNat 8 k.val | none => 0xFF
        let s2 := d.2.sendLink c p 5 1 ([pin, BitVec.ofNat 8 hops, d.1.setWidth 8] ++ leBytes path.toNat 4)
        s2.sendEnum c (otherPort p))

/-- CTRL_REPORT_RECEIVE (R407, R408): the lodestar records a controller; its branch is the port the report arrived on. In a
fabric already numbered a controller that rejoins is to be told its number again. -/
def execCtrlReportReceive (c : Channel) (p : LPort) (f : LinkFrame) (t : DWord) (s : State) : Res :=
  let s0 : State := { s with now := t }
  let pinB := valAt f.payload 0 1
  let pin : Option (Fin 16) := if h : pinB < 16 then some ⟨pinB, h⟩ else none
  let old := s.mer.reports.find? fun r => r.uid == f.uid
  let new : CtrlRep := ⟨f.uid, pin, valAt f.payload 1 1, portNo p, match old with | some r => r.number | none => none⟩
  .next (if !LinkFrame.ok f || f.type != 5 || !s.isLodestar || !(s.port c p).linked then s0
    else s0.modMer fun m => { m with
      reports := m.reports.filter (fun r => r.uid != f.uid) ++ [new]
      lastRep := if old.isNone || m.numbered then some t.toNat else m.lastRep })

/-- Order of unpinned controllers: branch 0 first, then ascending hops. -/
def repInsert (r : CtrlRep) : List CtrlRep → List CtrlRep
  | [] => [r]
  | x :: l => if r.branch * 256 + r.hops < x.branch * 256 + x.hops then r :: x :: l else x :: repInsert r l

/-- Gives a number to one controller that has none: its pinned number if that is free, else the lowest free one.
(DEDUCED: log 66.) -/
def assignOne (st : List CtrlRep × List CtrlRep) (r : CtrlRep) : List CtrlRep × List CtrlRep :=
  let taken (k : Nat) : Bool := k == 0 || st.1.any fun x => x.number == some k
  match r.pin with
  | some k => if taken k.val then (st.1 ++ [r], st.2 ++ [r]) else (st.1 ++ [{ r with number := some k.val }], st.2)
  | none => (st.1 ++ [{ r with number := (List.range 16).find? fun k => !taken k }], st.2)

/-- CONTROLLER_ASSIGN (R407, R408): two matrix cycles after the last new report, and at once in a fabric already
numbered, the lodestar numbers the controllers and floods an ASSIGN for each; a pinned number already taken raises
MER_ENUM_CONFLICT. -/
def execControllerAssign (t : DWord) (s : State) : Res :=
  let s0 : State := { s with now := t }
  let m := s.mer
  let due := match m.lastRep with | some b => m.numbered || decide (b + 2 * s.matrixNs ≤ t.toNat) | none => false
  .next (if !s.isLodestar || !due then s0
    else
      let kept := m.reports.filter fun r => r.number.isSome
      let fresh := m.reports.filter fun r => r.number.isNone
      let pinned := fresh.filter fun r => r.pin.isSome
      let free := (fresh.filter fun r => r.pin.isNone).foldl (fun l r => repInsert r l) []
      let r := (pinned ++ free).foldl assignOne (kept, [])
      let s1 := r.2.foldl (fun st x =>
        st.raise 0x1004 1 false (some (BitVec.ofNat 32 (match x.pin with | some k => k.val | none => 0)))) s0
      let s2 := r.1.foldl (fun st x => match x.number with
        | some k => (allPorts.foldl (fun st e =>
            if st.isDownstream e.1 e.2 then st.sendLink e.1 e.2 6 1 (leBytes x.uid.toNat 6 ++ [BitVec.ofNat 8 k]) else st) st).modMer
              fun m => { m with mask := m.mask ||| (1#16 <<< k) }
        | none => st) s1
      s2.modMer fun m => { m with reports := r.1, numbered := true, lastRep := none })

/-- ASSIGN_RECEIVE (R407, R408, R411): the controller named takes its number and address and addresses its segment; a
pinned controller whose number goes to another takes MER_ENUM_CONFLICT. -/
def execAssignReceive (c : Channel) (p : LPort) (f : LinkFrame) (t : DWord) (s : State) : Res :=
  let s0 : State := { s with now := t }
  let uid := BitVec.ofNat 48 (valAt f.payload 0 6)
  let k := valAt f.payload 6 1
  .next (if !LinkFrame.ok f || f.type != 6 || s.isLodestar || 16 ≤ k || !(s.port c p).linked then s0
    else
      let s1 := s0.modMer fun m => { m with mask := m.mask ||| (1#16 <<< k) }
      if uid == s.uid then
        let moved := match s.mer.addr with | some a => a != 64 * k | none => false
        let s2 := if moved then
            s1.raise 0x1008 1 false (some (BitVec.ofNat 32 (s.mer.addr.getD 0 * 65536 + 64 * k))) else s1
        if s.mer.number == some k then s2
        else ((s2.modMer fun m => { m with number := some k, addr := some (64 * k) }).sendEnums).sendNodeAddrs
      else if s.prof.mer.pin.map Fin.val == some k && s.mer.number != some k then
        s1.raise 0x1004 1 false (some (BitVec.ofNat 32 k))
      else s1)

/-- NODE_ADDR_RECEIVE (R408): the node `uid` of this controller's pinned segment takes the address that the NODE_ADDR
gives it; a node to which the profile gives no address stays unaddressed and raises MER_UNPINNED here. -/
def execNodeAddrReceive (uid : BitVec 48) (f : LinkFrame) (s : State) : Res :=
  let known := s.prof.mer.nodeAddrs.any fun e => e.1 == uid
  let target := BitVec.ofNat 48 (valAt f.payload 0 6)
  let addr := valAt f.payload 6 2 % 1024
  .next (if !LinkFrame.ok f || f.type != 7 || !s.prof.mer.pinMode then s
    else if !known then
      (s.modMer fun m => { m with unaddr := satAdd 255 m.unaddr 1 }).raise 0x1005 1 false (some (uid.setWidth 32))
    else if target != uid then s
    else s.modMer fun m => { m with
      nodes := match m.nodes.find? (fun n => n.uid == uid) with
        | some n => m.nodes.map fun x => if x.uid == uid then
            { x with addr := some addr, loads := if n.addr == some addr then x.loads else [] } else x
        | none => m.nodes ++ [({ uid := uid, addr := some addr } : FabNode)] })

/-- ADDR_ACK_RECEIVE (R408, R411, R430): a node of this controller's segment confirms its address; its schedule is to be
loaded on both channels, unless it regained the address it had. -/
def execAddrAckReceive (c : Channel) (p : LPort) (f : LinkFrame) (t : DWord) (s : State) : Res :=
  let s0 : State := { s with now := t }
  let a := valAt f.payload 0 2
  .next (if !LinkFrame.ok f || f.type != 8 || !(s.port c p).linked || s.mer.number != some (a / 64) || 1024 ≤ a || a % 64 = 0
      || s.mer.acks.contains a then s0
    else s0.modMer fun m => { m with
      acks := m.acks ++ [a]
      nodes := if m.nodes.any (fun n => n.uid == f.uid) then
          m.nodes.map fun n => if n.uid == f.uid then { n with addr := some a } else n
        else m.nodes ++ [({ uid := f.uid, addr := some a } : FabNode)]
      loads := m.loads ++ [⟨a, false, m.tags, 0, false, false⟩, ⟨a, true, m.tags + 1, 0, false, false⟩]
      tags := m.tags + 2 })

end Sys2Proof.Machine
end

