-- ==== Sys2Proof/Machine/MerSchedule.lean ====
section
/-! DEFINITION. The Meridian schedule on the sending side (R415–R440): setpoint frames, schedule loads, the arbitrating
window, event frames, what the nodes do with their setpoints, and cycle points. -/

namespace Sys2Proof.Machine

/-- Whether this controller may send schedule frames (R408, R417, R431, R470, R507). -/
def State.maySend (s : State) : Bool :=
  (s.mer.sync == .locked || s.mer.sync == .degraded || s.mer.sync == .holdover) && s.mer.addr.isSome && !s.mers.mismatch &&
    !s.eph.replay && s.boot.power == .run

/-! ### Setpoints (R424, R425) -/

def sptFlags (st : Safety) : Byte := match st with | .run => 0 | .sto => 1 | _ => 2

def SptRec.bytes (r : SptRec) : List Byte := leBytes (r.dest.toNat + 1024 * r.kind.toNat) 2 ++ [r.index, r.flags] ++ leBytes r.value.toNat 4

/-- The records of one axis that has a node: a cascade's, or a stepper node's; an unused channel, and an axis on a step
channel, sends none (R17, R180, R196, R267, R424). (DESIGN CHOICE: log 20.) -/
def State.axisRecs (s : State) (m : AxNode) : List SptRec :=
  let mk (kind : Nat) (v : Int) : SptRec :=
    ⟨BitVec.ofNat 10 m.node, BitVec.ofNat 6 kind, BitVec.ofNat 8 m.idx, sptFlags s.coreSafety, BitVec.ofInt 32 v⟩
  if s.runsCascade m.ax.val then
    [mk (if bitOf (s.ctlCfg m.ax.val) 0 then 1 else 0) (s.cascs[m.ax]).u]
  else if (s.auxProf m.ax.val).map (fun p => p.out) == some .node then
    let g := s.aux[m.ax]
    [mk 2 g.cmd0, mk 3 (ffInt g.v), mk 4 (g.icur : Int)]
  else []

/-- The setpoint records of this controller on a channel: axes in ascending channel number, then tool words, then the
words of the output images (log entry 20, DESIGN CHOICE: the spec gives no order). -/
def State.setpointRecs (s : State) (ch : Channel) : List SptRec :=
  let b := ch == .b
  let fl := sptFlags s.coreSafety
  let axes := (List.finRange 128).flatMap fun a =>
    (s.prof.axNodes.filter fun m => m.ax == a && m.chB == b).flatMap s.axisRecs
  let tools := (s.prof.toolNodes.filter fun m => m.chB == b).map fun m =>
    (⟨BitVec.ofNat 10 m.node, 5, BitVec.ofNat 8 m.idx, fl, ((s.arms[m.ax.val % 8]'(Nat.mod_lt _ (by decide))).toolOut).setWidth 32⟩ : SptRec)
  let outs := (mapFrom (fun i n => (i, n)) 0 s.prof.ioOuts).flatMap fun e =>
    if e.2.chB == b then (List.range (e.2.len / 4)).map fun w =>
      (⟨BitVec.ofNat 10 e.2.node, 6, BitVec.ofNat 8 w, fl, BitVec.ofNat 32 (valAt (nth s.outImage e.1 []) (4 * w) 4)⟩ : SptRec)
    else []
  axes ++ tools ++ outs

/-- Lists of at most `n` entries. -/
def chunks {α : Type} (n : Nat) : Nat → List α → List (List α)
  | 0, _ => []
  | fuel + 1, l => match l with
    | [] => []
    | _ => l.take n :: chunks n fuel (l.drop n)

/-- The window that the frames of one entry need (R432): airtimes, gaps and GUARD. -/
def windowNeed (guard : Nat) (lens : List Nat) : Nat := lens.foldl (fun x l => x + airtime l) 0 + 16 * (lens.length - 1) + 8 * guard

/-- Where the frames of a window start after its START, in ns: back to back, with the gap of 16 ns (R419, R427). -/
def backToBack (lens : List Nat) : List Nat :=
  (lens.foldl (fun (x : Nat × List Nat) l => (x.1 + airtime l + 16, x.2 ++ [x.1])) (0, [])).2

/-- The entries of this controller that carry SETPOINT frames in a basic cycle, by ascending start (R427–R429). -/
def State.sptEntries (s : State) (ch : Channel) (bc : Nat) : List MEntry :=
  (s.table ch).filter fun e =>
    e.kind == 0 && some e.sender == s.mer.addr && e.activeIn bc && !s.prof.mer.haloFids.contains e.fid

/-- SETPOINT_SEND (R27, R417, R424, R432): the setpoints of tick n leave in the SETPOINT frames of this channel. A window
that its frames would not fit sends nothing. -/
def execSetpointSend (ch : Channel) (s : State) : Res :=
  .next (if !(s.running && s.maySend) then s
    else
      let t0 := s.t0 s.epoch
      let parts := chunks 31 400 (s.setpointRecs ch)
      let r := (s.sptEntries ch (s.epoch % 64)).foldl (fun (x : List (List SptRec) × State) e =>
        let mine := x.1.take (e.nfr + 1)
        let lens := mine.map fun l => 8 + 8 * l.length
        let st := if decide (windowNeed s.prof.guard lens ≤ 8 * e.len) then
            (mapFrom (fun i l => (i, l)) 0 (List.zip mine (backToBack lens))).foldl (fun st q =>
              st.out (.sched ch (st.mkFrame 2 (BitVec.ofNat 12 (e.fid + q.1)) (BitVec.ofNat 64 (t0 + 8 * e.start + q.2.2))
                ([BitVec.ofNat 8 q.2.1.length] ++ leBytes 0 7 ++ q.2.1.flatMap SptRec.bytes)))) x.2
          else x.2
        (x.1.drop (e.nfr + 1), st)) (parts, s)
      r.2)

/-- SETPOINT_APPLY (R27, R425): at t0(n + 1) the nodes apply the records of basic cycle n that arrived; a node whose
expected records all arrived leaves SPLOST. (DESIGN CHOICE: log 68.) -/
def execSetpointApply (recs : List SptRec) (s : State) : Res :=
  .next (s.modMer fun m => recs.foldl (fun m r =>
    let v : NodeVal := ⟨r.dest, r.kind, r.index, r.value, 0, false⟩
    let same (x : NodeVal) : Bool := x.dest == r.dest && x.kind == r.kind && x.index == r.index
    let vals := m.vals.filter (fun x => !same x) ++ [v]
    { m with
      vals := vals
      lostNodes := if vals.any (fun x => x.dest == r.dest && 0 < x.miss) then m.lostNodes else m.lostNodes.filter (· != r.dest) }) m)

/-- What a node does with a record that did not arrive (R425). -/
def NodeVal.lose (v : NodeVal) : NodeVal :=
  let w := { v with miss := v.miss + 1 }
  if w.miss < 2 then w
  else if v.kind == 0 || v.kind == 1 || v.kind == 3 then { w with value := 0 }
  else if v.kind == 4 then { w with holdCur := true }
  else w

/-- SETPOINT_LOSS (R425): expected records that did not arrive in a basic cycle; the second in a row sets SPLOST.
(DESIGN CHOICE: log 68.) -/
def execSetpointLoss (recs : List SptRec) (s : State) : Res :=
  .next (s.modMer fun m => recs.foldl (fun m r =>
    let same (x : NodeVal) : Bool := x.dest == r.dest && x.kind == r.kind && x.index == r.index
    let vals := if m.vals.any same then m.vals.map fun x => if same x then x.lose else x
      else m.vals ++ [(⟨r.dest, r.kind, r.index, 0, 1, false⟩ : NodeVal)]
    let lost := vals.any fun x => same x && decide (2 ≤ x.miss)
    { m with vals := vals, lostNodes := if lost && !m.lostNodes.contains r.dest then r.dest :: m.lostNodes else m.lostNodes }) m)

/-! ### Events and schedule loads (R426, R430) -/

/-- EVENT_FRAME (R22, R85, R426): four payload bytes become the DATA of a class 0x02 event through the gate. -/
def execEventFrame (ch : Channel) (f : SchedFrame) (t : DWord) (s : State) : Res :=
  let r := ({ s with now := t } : State).receive ch f
  .next (if r.1 && f.cls == 4 && f.payload.length == 4 then
    r.2.gateIn t (match ch with | .a => 2 | .b => 3) (.event none (mkEv 2 f.src.toNat (valAt f.payload 0 4)))
    else r.2)

/-- A matrix entry as its 64 bits (R427). -/
def MEntry.bits (e : MEntry) : Nat :=
  e.start * 2 ^ 48 + e.len % 4096 * 2 ^ 36 + e.fid % 4096 * 2 ^ 24 + e.sender % 1024 * 2 ^ 14 + e.replog % 8 * 2 ^ 11
    + e.base % 64 * 32 + e.kind % 4 * 8 + e.nfr % 8

/-- Reads a matrix entry from its 64 bits (R427). -/
def entryOf (v : Nat) : MEntry :=
  ⟨fld v 63 48, fld v 47 36, fld v 35 24, fld v 23 14, fld v 13 11, fld v 10 5, fld v 4 3, fld v 2 0⟩

/-- Puts a frame behind the others that wait for their minislots. -/
def State.pushArb (s : State) (ch : Channel) (f : ArbFrame) : State :=
  s.modMer fun m => { m with arb := vmod m.arb (chanIdx ch) (· ++ [f]) }

/-- The frame ID of this controller's own arbitrating slot on a channel. -/
def State.ownSlot (s : State) (ch : Channel) : Option MEntry :=
  (s.table ch).find? fun e => e.kind == 2 && some e.sender == s.mer.addr

/-- SCHEDLOAD_SEND (R430): the load of a node's entries waits for the controller's own minislot. Its ACTMATRIX is at
least 2 matrix cycles ahead (a free value above 3, log entry 5); a load is sent at most 3 times. -/
def execSchedloadSend (node : BitVec 10) (ch : Channel) (s : State) : Res :=
  .next (match s.mer.loads.find? (fun l => l.node == node.toNat && l.chB == (ch == .b)), s.ownSlot ch with
  | some l, some slot =>
    if l.acked || 3 ≤ l.tries then s
    else
      let d := s.draw
      let act := s.epoch / 64 + 3 + d.1.toNat % 64
      let ents := ((s.table ch).filter fun e => e.sender == node.toNat || e.kind == 1).take 30
      let pay := leBytes node.toNat 2 ++ [0x10, l.tag] ++ leBytes act 4 ++ [BitVec.ofNat 8 ents.length, BitVec.ofNat 8 (chanIdx ch).val]
        ++ leBytes 0 2 ++ ents.flatMap fun e => leBytes e.bits 8
      (d.2.pushArb ch ⟨5, BitVec.ofNat 12 slot.fid, pay, 0⟩).modMer fun m => { m with
        loads := m.loads.map fun x => if x.node == l.node && x.chB == l.chB then { x with tries := x.tries + 1 } else x }
  | _, _ => s)

/-- SCHEDLOAD_RECEIVE (R430): the node named stores the entries, which take effect at BC 0 of ACTMATRIX. -/
def execSchedloadReceive (uid : BitVec 48) (ch : Channel) (f : SchedFrame) (s : State) : Res :=
  let b := f.payload
  .next (if f.abort || !SchedFrame.crcOk f || f.cls != 5 || valAt b 2 1 != 0x10 then s
    else s.modMer fun m => { m with nodes := m.nodes.map fun n =>
      if n.uid == uid && n.addr == some (valAt b 0 2 % 1024) then
        let ents := (List.range (min 30 (valAt b 8 1))).map fun i => entryOf (valAt b (12 + 8 * i) 8)
        { n with loads := n.loads.filter (fun l => l.1 != (ch == .b)) ++ [(ch == .b, valAt b 4 4, ents)] }
      else n })

/-- SCHEDACK_RECEIVE (R426, R430): a node confirms the load whose TAG it carries. -/
def execSchedackReceive (ch : Channel) (f : SchedFrame) (t : DWord) (s : State) : Res :=
  let r := ({ s with now := t } : State).receive ch f
  let b := f.payload
  .next (if r.1 && f.cls == 5 && valAt b 2 1 == 0x11 && some (valAt b 0 2 % 1024) == s.mer.addr then
    r.2.modMer fun m => { m with loads := m.loads.map fun l =>
      if l.node == f.src.toNat && l.tag.toNat == valAt b 3 1 then { l with acked := true } else l }
    else r.2)

/-- MER_SCHED_LOAD (R430): no SCHEDACK after 3 loads. -/
def execMerSchedLoad (node : BitVec 10) (ch : Channel) (s : State) : Res :=
  .next (match s.mer.loads.find? (fun l => l.node == node.toNat && l.chB == (ch == .b)) with
  | some l =>
    if 3 ≤ l.tries && !l.acked && !l.raised then
      (s.modMer fun m => { m with loads := m.loads.map fun x =>
        if x.node == l.node && x.chB == l.chB then { x with raised := true } else x }).raise 0x1015 1 false
          (some (BitVec.ofNat 32 node.toNat))
    else s
  | none => s)

/-! ### The arbitrating window (R433, R434) -/

def ceilDiv (a b : Nat) : Nat := (a + b - 1) / b

/-- The loop of R433, in units of 1 ns: `seen` gives the LEN of a frame of another sender by minislot index.
(DEDUCED: log 67.) -/
def arbLoop (s : State) (ch : Channel) (seen : List (Nat × Nat)) : Nat → Nat → Nat → List (ArbFrame × Nat) → List (ArbFrame × Nat)
  | 0, _, _, sent => sent
  | fuel + 1, at0, m, sent =>
    let pr := s.prof
    let ms := 8 * pr.msLen
    if ms = 0 || 8 * pr.arbEnd < at0 + ms then sent
    else
      let queue := s.mer.arb[chanIdx ch]
      let own := (s.table ch).find? fun e => e.kind == 2 && some e.sender == s.mer.addr && e.start == m
      let ready := match own with
        | some e => queue.find? fun f => f.fid.toNat == e.fid
        | none => none
      let fits : Bool := match ready with
        | some f => decide (at0 + airtime f.payload.length + 8 * pr.guard ≤ 8 * pr.arbEnd)
        | none => false
      let len := match ready with
        | some f => if fits then some f.payload.length else (seen.find? fun e => e.1 == m).map fun e => e.2
        | none => (seen.find? fun e => e.1 == m).map fun e => e.2
      let sent' := match ready with
        | some f => if fits then sent ++ [(f, at0)] else sent
        | none => sent
      let next := match len with
        | some l => at0 + ceilDiv (airtime l + 8 * pr.guard) ms * ms
        | none => at0 + ms
      arbLoop s ch seen fuel next (m + 1) sent'

/-- ARBITRATING_SEND (R417, R433, R434): each ready frame is sent in its minislot, or deferred to the next basic cycle.
`seen` lists the minislots in which a start delimiter of another sender arrived, with the LEN of its frame.
(DEDUCED: log 67.) -/
def execArbitratingSend (ch : Channel) (seen : List (Nat × Nat)) (s : State) : Res :=
  .next (if !s.maySend then s
    else
      let sent := arbLoop s ch seen 4096 (8 * s.prof.arbStart) 0 []
      let left := sent.foldl (fun q e => q.erase e.1) s.mer.arb[chanIdx ch]
      let s1 := sent.foldl (fun st e =>
        st.out (.sched ch (st.mkFrame e.1.cls e.1.fid (BitVec.ofNat 64 (st.t0 st.epoch + e.2)) e.1.payload))) s
      let s2 := s1.modMer fun m => { m with arb := m.arb.set (chanIdx ch) (left.map fun f => { f with waits := f.waits + 1 }) }
      { s2 with mers := { s2.mers with
        sent := satAdd 65535 s2.mers.sent sent.length, deferred := satAdd 65535 s2.mers.deferred left.length } })

/-- MER_ARB_LATE (R434): a frame that has stayed ready for 64 basic cycles. -/
def execMerArbLate (ch : Channel) (fid : BitVec 12) (s : State) : Res :=
  .next (if (s.mer.arb[chanIdx ch]).any (fun f => f.fid == fid && f.waits == 64) then
    s.raise 0x1014 1 false (some (BitVec.ofNat 32 fid.toNat)) else s)

/-- MER_CRC (R439): 16 discards for CRC or ABORT on one channel in one matrix cycle. -/
def execMerCrc (ch : Channel) (s : State) : Res :=
  .next (if 16 ≤ s.mers.crcCnt[chanIdx ch] && !s.mers.crcRaised[chanIdx ch] then
    ({ s with mers := { s.mers with crcRaised := s.mers.crcRaised.set (chanIdx ch) true } } : State).raise 0x1012 1 else s)

/-! ### Cycle points (R437, R438) -/

def cpOff (k : Nat) : Nat := 0x100300 + k * 0x10

/-- The effect of a write of MER_CPk (R437): an OFFSET too late leaves EN at 0 and sets REJ. -/
def State.writeCp (s : State) (k : Nat) (v : Word) : State :=
  let x := v.toNat
  let late := bitOf x 31 && decide (s.tTick < fld x 17 0 + 3000)
  s.setReg (cpOff k) (BitVec.ofNat 32
    ((if late then 2 ^ 28 else bnat (bitOf x 31) * 2 ^ 31) + fld x 30 29 * 2 ^ 29 + fld x 23 18 * 2 ^ 18 + fld x 17 0))

/-- MER_CP_WRITE (R437): a write of MER_CPk. -/
def execMerCpWrite (k : Fin 16) (v : Word) (s : State) : Res := .next (s.writeCp k.val v)

/-- MERIDIAN_CYCLE_POINT (R437, R438): an enabled point fires in the basic cycles of its mask, in every state but UNSYNC:
it sets its FIRED bit, passes the gate as a class 0x03 event and raises its vector, which crosses to HOST as a pulse (R482).
(DESIGN CHOICE: log 108.) -/
def execMeridianCyclePoint (k : Fin 16) (s : State) : Res :=
  let x := s.regN (cpOff k.val)
  let bc := s.epoch % 64
  let mask := s.regN (cpOff k.val + 8) + 2 ^ 32 * s.regN (cpOff k.val + 12)
  .next (if s.running && bitOf x 31 && bitOf mask bc && s.mer.sync != .unsync then
    let t := BitVec.ofNat 64 (s.t0 s.epoch + fld x 17 0)
    let s1 : State := { s with now := t, mers := { s.mers with fired := s.mers.fired ||| (1#16 <<< k.val) } }
    let s2 := if bitOf x 29 then s1.gateIn t 2 (.event none (mkEv 3 k.val (s.epoch / 64))) else s1
    if bitOf x 30 then ((s2.pulse 4 28).2).msix (fld x 23 18) else s2
    else s)

end Sys2Proof.Machine
end

