-- ==== Sys2Proof/Machine/Ephemeris.lean ====
section
/-! DEFINITION. Ephemeris (R457–R472): tick blocks and their ring, the host stream, keyframes, the pinned window, and
replay. -/

namespace Sys2Proof.Machine

def State.modEph (s : State) (f : Eph → Eph) : State := { s with eph := f s.eph }

/-- EPH_STRCTRL.EN. -/
def State.strEn (s : State) : Bool := bitOf (s.regN 0x16004C) 0
/-- KFINT (R466). -/
def State.kfint (s : State) : Nat := 2 ^ s.prof.kfLog

/-! ### The stream (R463) -/

/-- Items are skipped: the next block carries GAP, and EPH_STREAM_GAP is raised once per gap. -/
def State.streamGap (s : State) (firstSeq : DWord) : State :=
  if s.eph.gapDue then s
  else ((s.modEph fun e => { e with gapDue := true, gapSt := true }).raise 0x1602 1 false (some (firstSeq.setWidth 32))).msix 3

def StreamItem.seq : StreamItem → DWord
  | .block b => b.seq
  | .key k => k.seq

/-- Bytes of an item in the host buffer. -/
def StreamItem.size : StreamItem → Nat
  | .block b => b.bytes
  | .key k => k.bytes

/-- Room in the circular buffer: PROD never reaches CONS from behind, so that equal offsets mean an empty buffer.
(DEDUCED: log 71.) -/
def State.streamRoom (s : State) : Nat :=
  let size := s.regN 0x160048
  if size = 0 then 0 else size - (s.eph.prod.toNat + size - s.regN 0x160054 % size) % size - 1

/-- An item is produced: it waits to be copied, or is skipped while the engine is suspended (R527). -/
def State.queueItem (s : State) (it : StreamItem) : State :=
  if !s.strEn then s
  else if bitOf s.host.susp.toNat 1 then s.streamGap it.seq
  else s.modEph fun e => { e with queue := e.queue ++ [it] }

/-- Whether two blocks are the same one of the stream: session and SEQ (R459). -/
def TickBlock.same (a b : TickBlock) : Bool := a.session == b.session && a.seq == b.seq
/-- Whether an item is a block. -/
def StreamItem.isBlock (it : StreamItem) (b : TickBlock) : Bool := match it with | .block x => x.same b | .key _ => false
/-- Whether an item is a keyframe. -/
def StreamItem.isKey (it : StreamItem) (k : Keyframe) : Bool :=
  match it with | .key x => x.session == k.session && x.epoch == k.epoch | .block _ => false

/-- An item with its mark of an uncorrectable error. -/
def StreamItem.marked : StreamItem → StreamItem
  | .block b => .block { b with bad := true }
  | .key k => .key { k with bad := true }

/-- What the check of the memory that holds an item finds (R345): an uncorrectable error raises EPH_ECC and marks the block
or keyframe bad, where it is held and where it waits to be copied. -/
def State.ephNote (s : State) (err : Ecc) : State :=
  match s.eph.queue with
  | [] => s
  | it :: rest =>
    let s1 := s.eccNote (match it with | .block _ => 3 | .key _ => 4) err
    if err != .uncorr then s1
    else (s1.modEph fun e => { e with
      queue := it.marked :: rest
      ring := e.ring.map fun (b : TickBlock) => if it.isBlock b then { b with bad := true } else b
      slots := vmap (fun _ (x : KfSlot) => match x with
        | .complete k => if it.isKey k then .complete { k with bad := true } else x
        | .pinned k => if it.isKey k then .pinned { k with bad := true } else x
        | y => y) e.slots }).raise 0x1605 1

/-- STREAM_COPY (R463): the oldest item is copied whole, or skipped for want of room, and a keyframe
raises vector 3 (R517); `err` is what the check of its memory
finds. -/
def execStreamCopy (s0 : State) (err : Ecc := .clean) : Res :=
  let s := if !s0.strEn || bitOf s0.host.susp.toNat 1 then s0 else s0.ephNote err
  .next (if !s.strEn || bitOf s.host.susp.toNat 1 then s
    else match s.eph.queue with
      | [] => s
      | it :: rest =>
        let s1 := s.modEph fun e => { e with queue := rest }
        if s.streamRoom < it.size then s1.streamGap it.seq
        else
          let prod := BitVec.ofNat 32 ((s.eph.prod.toNat + it.size) % s.regN 0x160048)
          match it with
          | .block b =>
            let b1 : TickBlock := { b with gap := s.eph.gapDue, pinned := s.eph.ring.any fun (x : TickBlock) => x.same b && x.pinned }
            (s1.modEph fun e => { e with prod := prod, gapDue := false, copied := e.copied ++ [.block b1] }).out (.stream false b.seq)
          | .key k => ((s1.modEph fun e => { e with prod := prod, copied := e.copied ++ [it] }).out (.stream true k.seq)).msix 3)

/-- STREAM_ENABLE (R463): a write of EN = 1 sets PROD and CONS to 0. Blocks closed while EN was 0, after others that were
copied, are a gap. -/
def execStreamEnable (s : State) : Res :=
  let s1 := (s.setReg 0x16004C 1).setReg 0x160054 0
  let s2 := s1.modEph fun e => { e with prod := 0 }
  let last := s.eph.copied.filterMap fun it => match it with | .block b => some (b.session, b.seq) | .key _ => none
  .next (if s.strEn then s2
    else match last.getLast?, s.eph.ring.getLast? with
      | some l, some b => if l.1 == b.session && decide (l.2.toNat < b.seq.toNat) then s2.streamGap (l.2 + 1) else s2
      | _, _ => s2)

/-! ### The ring (R459–R462) -/

/-- Zigzag: 2v for v ≥ 0, −2v − 1 for v < 0 (R460). (DESIGN CHOICE: log 70.) -/
def zigzag (v : Int) : Nat := if 0 ≤ v then (2 * v).toNat else (-2 * v - 1).toNat

/-- A little-endian base-128 integer: bit 7 set on every byte but the last (R460). (DESIGN CHOICE: log 70.) -/
def base128 : Nat → Nat → List Byte
  | 0, v => [BitVec.ofNat 8 (v % 128)]
  | n + 1, v => if v < 128 then [BitVec.ofNat 8 v] else BitVec.ofNat 8 (128 + v % 128) :: base128 n (v / 128)

/-- How a field is coded against the record before it: a count or position, a stamp, or as it stands. -/
inductive EphField | count | stamp | plain
  deriving DecidableEq, Repr

/-- The coded value of a field: absolute where there is no record before, else the difference, or the offset from t0(n). -/
def EphField.value (k : EphField) (t0 v : Int) : Option Int → Int
  | none => v
  | some p => match k with
    | .count => v - p
    | .stamp => v - t0
    | .plain => v

/-- The payload of a record. -/
def ephPayload (t0 : Int) : List (EphField × Int) → Option (List Int) → List Byte
  | [], _ => []
  | (k, v) :: fs, prev =>
    base128 10 (zigzag (k.value t0 v (prev.map fun l => nth l 0 0))) ++ ephPayload t0 fs (prev.map List.tail)

/-- The fields of an axis latch: position, motor position and load angle where there is one, stamp, cause (R299). -/
def AxFbk.ephFields (f : AxFbk) : List (EphField × Int) :=
  (.count, f.pos) :: ((if f.motorOk then [(.count, f.motor)] else []) ++ (match f.angle with | some x => [(.count, x)] | none => [])
    ++ [(.stamp, f.time), (.plain, f.cause)])

/-- The fields of a line latch: count, uncertainty, QERR count, status, stamp (R69). -/
def State.lineFields (s : State) (n : Fin 8) : List (EphField × Int) :=
  let r := s.lineRec n
  [(.count, (s.lines[n]).latch.count), (.count, r.uncert.toNat), (.count, r.qerr.toNat), (.plain, r.status.toNat),
   (.stamp, (s.lines[n]).latch.time.toNat)]

/-- The feedback records of the tick, axes before lines, coded against those of the block before, or absolutely (R459,
R460). (DEDUCED: log 70.) -/
def State.ephRecs (s : State) (abs : Bool) : List EphRec :=
  let last : List EphRec := match abs, s.eph.ring.getLast? with | false, some b => b.recs | _, _ => []
  let mk (code sub : Byte) (fs : List (EphField × Int)) : EphRec :=
    let prev := (last.find? fun r => r.code == code && r.sub == sub && r.vals.length == fs.length).map fun r => r.vals
    ⟨code, sub, fs.map fun f => f.2, ephPayload (s.t0 s.epoch) fs prev⟩
  ((List.finRange 128).filterMap fun a =>
      if s.fbkSrc a.val != 0 then some (mk 0x10 (BitVec.ofNat 8 a.val) (s.fbk[a]).ephFields) else none)
    ++ (List.finRange 8).filterMap fun n =>
      if (s.lineProf n.val).en then some (mk 0x11 (BitVec.ofNat 8 n.val) (s.lineFields n)) else none

/-- The stored size of a record: its header, and its payload padded to 4 bytes. -/
def EphRec.size (r : EphRec) : Nat := 4 + (r.payload.length + 3) / 4 * 4

/-- The stored length of a block: its frame, its feedback records, and a free length for the others, whose payloads have no
layout, within the bound of R461. (DESIGN CHOICE: log 70.) -/
def State.blockBytes (s : State) (recs : List EphRec) : Nat :=
  let own := 0x28 + (recs.map EphRec.size).sum
  own + 4 * ((Config.freeVal s.free).toNat % ((33554432 * s.tTick / 1000000000 - own) / 4 + 1))

/-- SPDIG: CRC-32C of the setpoint records of the tick in send order, channel A first. -/
def State.spDigest (s : State) : Word :=
  crc32c 0xFFFFFFFF ((s.setpointRecs .a ++ s.setpointRecs .b).flatMap SptRec.bytes)

def ringBytes (l : List TickBlock) : Nat := l.foldl (fun n (b : TickBlock) => n + b.bytes) 0
/-- Pinned blocks of the window. -/
def Eph.pinnedBytes (e : Eph) : Nat := ringBytes (e.ring.filter fun (b : TickBlock) => b.pinned)

/-- The oldest block outside the pinned region is overwritten; one that the stream still owes is skipped. -/
def State.dropOldest (s : State) : State :=
  match s.eph.ring.find? (fun (b : TickBlock) => !b.pinned) with
  | none => s
  | some b =>
    let s1 := s.modEph fun e => { e with
      ring := e.ring.filter fun (x : TickBlock) => !x.same b, wrapped := true, queue := e.queue.filter fun it => !it.isBlock b }
    if s.eph.queue.any (fun it => it.isBlock b) then s1.streamGap b.seq else s1

/-- The ring of 48 MiB. (DESIGN CHOICE: log 92.) -/
def State.trimRing : Nat → State → State
  | 0, s => s
  | n + 1, s => if ringBytes s.eph.ring ≤ 50331648 then s else State.trimRing n s.dropOldest

/-- EPH_COVER: ticks from the oldest block outside the pinned region to the newest block. (DEDUCED: log 71.) -/
def Eph.cover (e : Eph) : Nat :=
  match e.ring.find? (fun (b : TickBlock) => !b.pinned), e.ring.getLast? with
  | some a, some b => min (2 ^ 32 - 1) (b.epoch + 1 - a.epoch)
  | _, _ => 0

/-- SHORT and REPLAY_WINDOW_SHORT (R462). -/
def State.checkShort (s : State) : State :=
  let short := s.eph.wrapped && decide (s.eph.cover < 2 * s.kfint)
  let s1 := s.modEph fun e => { e with short := short }
  if short && !s.eph.short then s1.raise 0x1601 1 else s1

/-- While the pinned window fills, its blocks are pinned up to 24 MiB (R464). -/
def Eph.pinBlocks (e : Eph) : Eph :=
  if !e.filling then e
  else
    let r := e.ring.foldl (fun (x : List TickBlock × Nat × Option Nat) (b : TickBlock) =>
      if e.pinFrom ≤ b.epoch && decide (b.epoch ≤ e.pinEnd) && x.2.2.isNone then
        if x.2.1 + b.bytes ≤ 25165824 then (x.1 ++ [{ b with pinned := true }], x.2.1 + b.bytes, none)
        else (x.1 ++ [b], x.2.1, some (b.epoch - 1))
      else (x.1 ++ [b], x.2)) ([], 0, none)
    match r.2.2 with
    | some last => { e with ring := r.1, trunc := true, pinEnd := last }
    | none => { e with ring := r.1 }

/-- TICK_BLOCK_CLOSE (R457–R459): the block of the tick is closed and written to the ring, and queued for the stream. -/
def State.closeBlock (s : State) (alm : Almanac) : State :=
  let sum := (alm.highest, alm.qdepth, alm.haloCnt, alm.duskCnt.toNat)
  if s.eph.replay then s
  else
    let kf := s.eph.slots.toList.any fun (k : KfSlot) => match k with
      | .capturing k | .complete k | .pinned k => k.epoch == s.epoch && k.session == BitVec.ofNat 32 s.aon.boot
      | .empty => false
    let recs := s.ephRecs kf
    let b : TickBlock := {
      abs := kf, recs := recs
      seq := s.eph.seq, epoch := s.epoch, session := BitVec.ofNat 16 s.aon.boot, kf := kf
      almcrc := alm.crc, spdig := s.spDigest, gate := s.eph.released, axes := s.fbk, sum := sum
      lines := vmap (fun _ (l : Line) => l.latch) s.lines, bytes := s.blockBytes recs }
    let s1 : State := { s with free := s.free + 1 }
    let s2 := (s1.modEph fun e => { e with ring := e.ring ++ [b], seq := e.seq + 1 }).queueItem (.block b)
    ((s2.modEph Eph.pinBlocks).trimRing s2.eph.ring.length).checkShort

/-! ### Keyframes (R466–R468) -/

/-- The registers of the deterministic blocks. -/
def detRegs (b : Bank) : Bank := b.filter fun e => (blockOf e.1).isSome

/-- The deterministic state (R466): of the capture records those that fill, no closed ones. -/
def State.keyState (s : State) : KeyState where
  now := s.now
  regs := detRegs s.regs
  shadow := s.shadow
  due := s.due
  commits := s.commits
  gate := s.gate
  reqs := s.reqs
  cellEvs := s.cellEvs
  published := s.published
  view := s.view
  cutFail := s.cutFail
  planGen := s.planGen
  coreSafety := s.coreSafety
  haloLimits := s.haloLimits
  minsep := s.minsep
  cores := s.cores
  data := s.data
  arms := s.arms
  aux := s.aux
  chans := s.chans
  solver := s.solver
  cascs := s.cascs
  mans := s.mans
  dyns := s.dyns
  lanes := s.lanes
  fbk := s.fbk
  lines := s.lines
  cap := { s.cap with recs := s.cap.recs.filter fun r => !r.closed, reading := none }
  jrn := s.jrn
  rings := s.host.rings
  outImage := s.outImage

/-- A line of a keyframe on the part that replays: the latch and the estimator are the recorded ones, while the counter and
what else the ENC domain holds counts on (R67). -/
def Line.replayed (cur rec : Line) : Line := { cur with latch := rec.latch, est := rec.est }

/-- Puts the state of a keyframe in force. -/
def State.loadKey (s : State) (f : Keyframe) : State :=
  let k := f.state
  { s with
    epoch := f.epoch, running := true
    now := k.now
    regs := k.regs.foldl (fun b e => assocSet b e.1 e.2) (s.regs.filter fun e => (blockOf e.1).isNone)
    shadow := k.shadow, due := k.due, commits := k.commits, gate := [], reqs := k.reqs, cellEvs := k.cellEvs
    published := k.published, view := k.view, cutFail := k.cutFail, planGen := k.planGen
    coreSafety := k.coreSafety, haloLimits := k.haloLimits, minsep := k.minsep
    cores := k.cores.set 9 (s.core 9)
    data := k.data, arms := k.arms, aux := k.aux, chans := k.chans
    solver := k.solver, cascs := k.cascs, mans := k.mans, dyns := k.dyns, lanes := k.lanes
    fbk := k.fbk, lines := vmap (fun n (l : Line) => l.replayed (k.lines.toList.getD n {})) s.lines
    cap := { k.cap with rdAddr := s.cap.rdAddr, rdDone := s.cap.rdDone, rdNorec := s.cap.rdNorec, rdOvr := s.cap.rdOvr }
    jrn := k.jrn
    host := { s.host with rings := k.rings }
    outImage := k.outImage }

/-- The slot that a capture writes (R468). -/
def Eph.captureSlot (e : Eph) : Fin 2 :=
  match e.slots[0], e.slots[1] with
  | .pinned _, _ => 1
  | _, .pinned _ => 0
  | _, _ => match e.newest with
    | some i => if i = 0 then 1 else 0
    | none => 0

def KfSlot.isCapturing : KfSlot → Bool
  | .capturing _ => true
  | _ => false

/-- KEYFRAME_CAPTURE (R466): after step 7 of a boundary whose epoch is a multiple of KFINT, or the first of the session. -/
def execKeyframeCapture (s : State) : Res :=
  .next (if s.running && !s.eph.replay && (s.epoch % s.kfint == 0 || s.epoch == s.boot.sessionAt)
      && !(s.eph.slots.toList.any KfSlot.isCapturing) then
    let i := s.eph.captureSlot
    let k : Keyframe := ⟨s.epoch, s.eph.seq, BitVec.ofNat 32 s.aon.boot, 0, s.keyState, false⟩
    s.modEph fun e => { e with
      slots := e.slots.set i (.capturing k)
      newest := if e.newest == some i then (if e.pin then some (1 - i) else none) else e.newest }
  else s)

/-- KEYFRAME_COMPLETE (R467, R468): `bytes` is the compressed length, at most 8 MiB. (DESIGN CHOICE: log 70.) -/
def execKeyframeComplete (bytes : Nat) (s : State) : Res :=
  .next ((List.finRange 2).foldl (fun st i => match st.eph.slots[i] with
    | .capturing k =>
      if 8388608 < bytes then st
      else
        let k1 : Keyframe := { k with bytes := bytes }
        (st.modEph fun e => { e with slots := e.slots.set i (.complete k1), newest := some i }).queueItem (.key k1)
    | _ => st) s)

/-- EPH_KF_ABANDON (R467): the slot is left empty. -/
def execEphKfAbandon (t : DWord) (s : State) : Res :=
  .next ((List.finRange 2).foldl (fun st i => match st.eph.slots[i] with
    | .capturing k =>
      ((st.atTime t).modEph fun e => { e with slots := e.slots.set i .empty, abandon := true }).raise 0x1603 1 false
        (some (BitVec.ofNat 32 k.epoch))
    | _ => st) s)

/-! ### The pinned window (R464) -/

/-- An F2 or F3 pins the newest complete keyframe and the blocks around it; `stamp` is the boundary that applies the
reaction. -/
def State.pinFault (s : State) (stamp : Nat) : State :=
  if s.eph.replay then s
  else if s.eph.pin then (s.modEph fun e => { e with pinMiss := satAdd 65535 e.pinMiss 1 }).raise 0x1604 0
  else match s.eph.newest with
    | none => s
    | some i => match s.eph.slots[i] with
      | .complete k => s.modEph fun e => ({ e with
          slots := e.slots.set i (.pinned k), pin := true, filling := true, trunc := false
          pinFrom := k.epoch, pinEnd := stamp + s.prof.postPin } : Eph).pinBlocks
      | _ => s

/-- PIN_COMPLETE (R464): the last tick of the window is in the ring, or the window is cut. -/
def execPinComplete (s : State) : Res :=
  .next (s.modEph fun e =>
    if e.filling && (e.trunc || e.ring.any fun (b : TickBlock) => decide (e.pinEnd ≤ b.epoch)) then { e with filling := false } else e)

/-- PIN_RELEASE (R464): a release while the window fills is discarded. -/
def Eph.release (e : Eph) : Eph :=
  if e.pin && !e.filling then { e with
    pin := false
    ring := e.ring.map fun (b : TickBlock) => { b with pinned := false }
    slots := vmap (fun _ (k : KfSlot) => match k with | .pinned x => .complete x | x => x) e.slots }
  else e
def execPinRelease (s : State) : Res := .next (s.modEph Eph.release)

/-! ### Replay (R469–R472) -/

/-- A replay stops with a CAUSE. -/
def State.stopReplay (s : State) (cause : Nat) : State := s.modEph fun e => { e with rpRun := false, rpCause := cause, rpNow := none }

/-- Takes the next tick block of the image (R472): CAUSE 5 CRC, 6 sequence gap, 7 GAP flag. -/
def State.nextBlock (s : State) (seq : DWord) (epoch : Nat) : State :=
  match s.eph.rpLeft with
  | [] => s.stopReplay 6
  | b :: rest =>
    if b.bad then s.stopReplay 5
    else if b.seq != seq || b.epoch != epoch then s.stopReplay 6
    else if b.gap then s.stopReplay 7
    else s.modEph fun e => { e with rpNow := some b, rpLeft := rest }

/-- The blocks of an image: those of the keyframe's session from its tick on. (DEDUCED: log 72.) -/
def imageBlocks (k : Keyframe) (l : List StreamItem) : List TickBlock :=
  l.filterMap fun it => match it with
    | .block b => if b.session == k.session.setWidth 16 && decide (k.epoch ≤ b.epoch) then some b else none
    | .key _ => none

/-- REPLAY_START (R469): `image` names the keyframe of the image among the items that this part streamed; the three flags
are what the device finds of REV, PROFDIG and the resources. (DEDUCED: log 72.) -/
def execReplayStart (image : Nat) (revOk profOk resOk : Bool) (s : State) : Res :=
  let refuse (c : Nat) : State := s.modEph fun e => { e with rpRefused := true, rpCause := c }
  .next (if s.eph.rpRun then s
    else if s.saf.state != .sto then refuse 1
    else if !revOk then refuse 2
    else if !profOk then refuse 3
    else if !resOk then refuse 4
    else match s.eph.copied[image]? with
      | some (.key k) =>
        if k.bad then refuse 5 else
        let s1 := (s.loadKey k).modEph fun e => { e with
          replay := true, rpRun := true, rpDone := false, rpRefused := false, rpDiv := false, rpCause := 0, rpDivAt := 0
          rpLeft := imageBlocks k e.copied, rpNow := none }
        s1.nextBlock k.seq k.epoch
      | _ => refuse 5)

/-- REPLAY_TICK (R470–R472): a replayed tick has run; its digests are compared, and the next block is taken.
(DESIGN CHOICE: log 92.) -/
def execReplayTick (s : State) : Res :=
  .next (if !s.eph.rpRun then s
    else match s.eph.rpNow with
      | none => s
      | some b =>
        let same := match s.published with
          | some a => a.epoch == BitVec.ofNat 64 b.epoch && a.crc == b.almcrc && s.spDigest == b.spdig
          | none => false
        if !same then s.modEph fun e => { e with rpRun := false, rpDiv := true, rpDivAt := b.epoch }
        else if (s.regN 0x160090 + 2 ^ 32 * s.regN 0x160094) % 2 ^ 63 ≤ b.epoch then s.modEph fun e => { e with rpRun := false, rpDone := true }
        else
          let s1 := s.nextBlock (b.seq + 1) (b.epoch + 1)
          match s1.eph.rpNow with
          | some n => { s1 with gate := n.gate }
          | none => s1)

end Sys2Proof.Machine
end

