-- ==== Sys2Proof/Machine/HostIf.lean ====
section
/-! DEFINITION. The host interface (R511, R518–R533): rings and their doorbells, the plant command ring, the completion
queue, DMA engines, service queues, the flash path and the debug unlock. -/

namespace Sys2Proof.Machine

def State.modHost (s : State) (f : HostIf → HostIf) : State := { s with host := f s.host }
def State.modRing (s : State) (r : Fin 4) (f : Ring → Ring) : State := s.modHost fun h => { h with rings := vmod h.rings r f }

/-- A 64-bit register, both words. -/
def State.reg64 (s : State) (off : Nat) : Nat := s.regN off + 2 ^ 32 * s.regN (off + 4)

/-! ### Command rings (R518–R522) -/

def State.ringCfg (s : State) (r : Fin 4) : Nat := s.regN (0x108 + 0x20 * r.val)
def State.ringEn (s : State) (r : Fin 4) : Bool := bitOf (s.ringCfg r) 0
def State.ringSize (s : State) (r : Fin 4) : Nat := 2 ^ fld (s.ringCfg r) 7 4

/-- Entries of a ring that are fetched and not yet taken. -/
def State.untaken (s : State) (r : Fin 4) : Nat :=
  (s.host.rings[r]).released.length + (s.gate.filter fun (g : GateIn) => match g.item with | .ringEntry q _ _ => q == r | _ => false).length

/-- RING_DOORBELL (R519, R521): the write passes the gate; a discarded doorbell changes nothing else. -/
def execRingDoorbell (r : Fin 4) (p : Word) (t : DWord) (s : State) : Res :=
  let q := s.host.rings[r]
  let s1 := (s.atTime t).gateIn t 6 (.doorbell r p)
  .next (if s.eph.replay || !s.ringEn r then s1
    else if s.ringSize r < (p - q.cons).toNat || (p - q.fetch).toInt < 0 then s1.modRing r fun q => { q with idxErr := true }
    else s1.modRing r fun q => { q with prod := p })

/-- RING_FETCH (R519): the fetch of entry F completes; its 64 bytes are a gate input of source 5. -/
def execRingFetch (r : Fin 4) (bytes : List Byte) (t : DWord) (s : State) : Res :=
  let q := s.host.rings[r]
  .next (if s.eph.replay || !s.ringEn r || bitOf s.host.susp.toNat (3 + r.val) || (q.prod - q.fetch).toInt ≤ 0 || decide (64 ≤ s.untaken r) then s
    else ((s.atTime t).gateIn t 5 (.ringEntry r q.fetch.toNat (bytesAt bytes 0 64))).modRing r fun q => { q with fetch := q.fetch + 1 })

/-- PLANT_COMMAND_DATAGRAM (R522): a datagram that meets every condition is the next entry of PRING. -/
def execPlantCommandDatagram (port : Fin 2) (dstPort : Nat) (srcIp : Word) (bytes : List Byte) (t : DWord) (s : State) : Res :=
  .next (match s.prof.pring with
    | none => s
    | some r =>
      if s.eph.replay || port != s.prof.plantIf || dstPort != s.prof.plantPort || !s.prof.plantFrom.contains srcIp || bytes.length != 64 then s
      else if 64 ≤ s.untaken r then s.modRing r fun q => { q with drops := satAdd 65535 q.drops 1 }
      else ((s.atTime t).gateIn t 4 (.ringEntry r (s.host.rings[r]).fetch.toNat bytes)).modRing r fun q => { q with fetch := q.fetch + 1, prod := q.prod + 1 })

/-! ### Completions (R523–R526) -/

/-- A record joins the backlog, or is lost where 4 096 wait; HOST_CQ_OVERFLOW is raised once per episode (R525). -/
def State.postCq (s : State) (r : CqRec) : State :=
  if s.host.backlog.length < 4096 then s.modHost fun h => { h with backlog := h.backlog ++ [r] }
  else
    let s1 := s.modHost fun h => { h with lost := satAdd 65535 h.lost 1, lostRaised := true }
    if s.host.lostRaised then s1 else s1.raise 0x0003 1

/-- The record of an entry of the journal. -/
def JEntry.record (e : JEntry) (result : BitVec 16) (intr : Bool) : CqRec :=
  ⟨e.seq, result, e.ring, intr, e.ridx, BitVec.ofNat 32 (valAt e.cmd 0 4)⟩

/-- The 16 bytes of a record in the slot of index `p` of a queue of `size` records (R523). -/
def CqRec.bytes (r : CqRec) (p size : Nat) : List Byte :=
  leBytes r.seq.toNat 4 ++ leBytes r.result.toNat 2 ++ [r.ring, BitVec.ofNat 8 (bnat r.intr + 128 * bnat (p / size % 2 == 0))]
    ++ leBytes r.ridx.toNat 4 ++ leBytes r.tag.toNat 4

def State.cqSize (s : State) : Nat := 2 ^ (6 + fld (s.regN 0x208) 7 4)
/-- Whether a record can be written now. -/
def State.cqRoom (s : State) : Bool :=
  bitOf (s.regN 0x208) 0 && !bitOf s.host.susp.toNat 7 && decide ((s.reg 0x20C - s.reg 0x210).toNat < s.cqSize)

/-- Writes waiting records in order. -/
def State.cqWrite : Nat → State → State
  | 0, s => s
  | n + 1, s =>
    match s.host.backlog with
    | [] => s
    | r :: rest =>
      if s.cqRoom then
        let p := s.regN 0x20C
        let s1 := s.modHost fun h => { h with backlog := rest, lostRaised := false }
        State.cqWrite n ((s1.out (.host (BitVec.ofNat 64 (s.reg64 0x200 + 16 * (p % s.cqSize))) (r.bytes p s.cqSize))).setReg 0x20C (BitVec.ofNat 32 (p + 1)))
      else s

/-- Writes what can be written, and vector 1 follows. -/
def State.cqFlush (s : State) : State :=
  if s.cqRoom && !s.host.backlog.isEmpty then (s.cqWrite 4096).msix 1 else s

/-- COMPLETION_POST (R523–R525). -/
def execCompletionPost (s : State) : Res := .next s.cqFlush

/-! ### DMA engines (R527) and the resets of R511 -/

/-- The stream skips what waits (R463, R527). -/
def State.streamSkip (s : State) : State :=
  match s.eph.queue with
  | [] => s
  | it :: _ => (s.modEph fun e => { e with queue := [] }).streamGap it.seq

/-- DMA_SUSPEND (R527): engine 0 push, 1 stream, 2 readout, 3 to 6 rings, 7 completion, 8 to 11 service queues; `err` is the
code of GLB_DMAERR.LAST; the detail holds the engine and the error (R534). (DEDUCED: log 79.) -/
def execDmaSuspend (e : Fin 12) (err : Nat) (t : DWord) (s : State) : Res :=
  .next (if bitOf s.host.susp.toNat e.val then s
    else
      let s1 := (((s.atTime t).modHost fun h => { h with susp := h.susp ||| BitVec.ofNat 12 (2 ^ e.val), lastErr := err % 256 }).raise 0x0002 1 false
        (some (BitVec.ofNat 32 (e.val + 256 * (err % 256))))).msix 7
      if e.val = 0 then { s1 with push := none }
      else if e.val = 1 then s1.streamSkip
      else if e.val = 2 then (if s.cap.reading.isSome then (s1.modCap fun c => { c with reading := none }).msix 4 else s1)
      else s1)

/-- DMA_RESUME (R527): a write of ones to GLB_DMAERR.SUSP. -/
def execDmaResume (mask : BitVec 12) (s : State) : Res := .next (s.modHost fun h => { h with susp := h.susp &&& ~~~mask })

/-- HOST_RESET (R511): only the HOST domain. Entries already released stay released; push and stream skip until host
software enables them again. (DEDUCED: log 79.) -/
def execHostReset (linkDown : Bool) (t : DWord) (s : State) : Res :=
  let s1 : State := { s.atTime t with
    regs := (assocDel s.regs 0x16004C).filter fun e => decide (0x10000 ≤ e.1)
    push := none
    paths := vmod s.paths 0 fun _ => {}
    clk := { s.clk with pulses := ((s.clk.pulses.set 3 none).set 4 none).set 5 none } }
  let s2 := s1.modHost fun h => { h with
    rings := vmap (fun _ (q : Ring) => { released := q.released }) h.rings
    susp := 0, lastErr := 0, badSize := 0, unmapped := 0, lost := 0, lostRaised := false, flRefused := false
    discards := Vector.replicate 4 0, pba := 0, pushOff := true, linkDown := linkDown }
  let s3 := (if s.strEn then s2.streamSkip else s2).modCap fun c => { c with reading := none }
  .next (if linkDown && !s.host.linkDown then s3.raise 0x0001 1 else s3)

/-! ### Service queues (R528, R529) -/

/-- The registers of service queue q: its configuration, P and C. The device is the consumer of the descriptors. -/
def sqOff (q : Fin 4) : Nat := 0x300 + 0x20 * q.val
def State.sqReady (s : State) (q : Fin 4) : Bool :=
  bitOf (s.regN (sqOff q + 8)) 0 && !bitOf s.host.susp.toNat (8 + q.val) && s.reg (sqOff q + 12) != s.reg (sqOff q + 16)
/-- The address of the descriptor at C. -/
def State.sqDesc (s : State) (q : Fin 4) : Nat :=
  s.reg64 (sqOff q) + 16 * (s.regN (sqOff q + 16) % 2 ^ fld (s.regN (sqOff q + 8)) 7 4)
def State.sqTake (s : State) (q : Fin 4) : State := s.setReg (sqOff q + 16) (s.reg (sqOff q + 16) + 1)

/-- A receive queue takes a frame into the buffer of its next descriptor, or discards it (R529). -/
def State.sqReceive (s : State) (q : Fin 4) (port : Nat) (bytes : List Byte) (addr : DWord) : State :=
  if s.sqReady q then
    let b := bytes.take 2048
    let flags : Byte := if 2048 < bytes.length then 3 else 1
    (((s.out (.host addr b)).out (.host (BitVec.ofNat 64 (s.sqDesc q + 8)) (leBytes b.length 2 ++ [BitVec.ofNat 8 port, flags]))).sqTake q).msix 5
  else s.modHost fun h => { h with discards := vmod h.discards q fun n => satAdd 65535 n 1 }

/-- A transmit queue's descriptor is done. -/
def State.sqSent (s : State) (q : Fin 4) : State := (s.out (.host (BitVec.ofNat 64 (s.sqDesc q + 11)) [1])).sqTake q

/-- PLANT_FRAME_RECEIVE (R529): a plant frame that no other rule takes goes to PRX; `addr` is the ADDR of its descriptor. -/
def execPlantFrameReceive (port : Fin 2) (bytes : List Byte) (addr : DWord) (s : State) : Res :=
  .next (if s.eph.replay then s else s.sqReceive 0 port.val bytes addr)

/-- PLANT_FRAME_TRANSMIT (R529): PTX sends the frame that its descriptor names, as given. -/
def execPlantFrameTransmit (port : Fin 2) (bytes : List Byte) (_addr : DWord) (s : State) : Res :=
  .next (if s.sqReady 1 then (s.out (.plant port bytes)).sqSent 1 else s)

/-- SERVICE_FRAME_RECEIVE (R426, R529): a SERVICE frame addressed to this controller with OP 0x01 to 0x0F goes to MRX. -/
def execServiceFrameReceive (ch : Channel) (f : SchedFrame) (addr t : DWord) (s : State) : Res :=
  let r := (s.atTime t).receive ch f
  let op := valAt f.payload 2 1
  .next (if s.eph.replay then s
    else if r.1 && f.cls == 5 && some (valAt f.payload 0 2 % 1024) == s.mer.addr && decide (1 ≤ op) && decide (op ≤ 15) then
      r.2.sqReceive 2 (chanIdx ch).val f.payload addr
    else r.2)

/-- SERVICE_TRANSMIT (R426, R529): MTX sends a SERVICE payload in this controller's arbitrating or polled window; one with
OP 0x10 or 0x11 is discarded. (DEDUCED: log 78.) -/
def execServiceTransmit (ch : Channel) (payload : List Byte) (_addr : DWord) (s : State) : Res :=
  let op := valAt payload 2 1
  .next (if !s.sqReady 3 then s
    else if op = 0x10 ∨ op = 0x11 then s.sqSent 3
    else match s.ownSlot ch with
      | some slot => (s.pushArb ch ⟨5, BitVec.ofNat 12 slot.fid, payload, 0⟩).sqSent 3
      | none => match (s.table ch).find? fun e => e.kind == 1 with
        | some e => if !s.maySend then s
          else (s.out (.sched ch (s.mkFrame 5 (BitVec.ofNat 12 e.fid) (BitVec.ofNat 64 (s.t0 s.epoch + 8 * e.start)) payload))).sqSent 3
        | none => s)

/-! ### The flash path (R530) -/

/-- What a slot of the flash holds once host software has programmed or erased in it: the profile that boot then reads is
open, for the layout of an image's sections is not given (R500). -/
opaque freeProfile : Nat → Profile

/-- A flash command is accepted or refused (R530): OP 1 read, 2 program, 3 erase. -/
def State.flashGo (s : State) (key : BitVec 16) (op size : Nat) : State :=
  let a := s.regN 0x404 % 2 ^ 27 / size * size
  let active := a / 2 ^ 25 == s.boot.slot.val && !s.boot.failed
  let stage := !s.boot.failed && decide (4 ≤ s.boot.stage) && decide (s.boot.stage ≤ 6)
  if key != 0xF1A5 then s
  else if active || stage || s.host.flOp.isSome then s.modHost fun h => { h with flRefused := true }
  else (s.modHost fun h => { h with flRefused := false, flOp := some (op, a) }).out
    (.flash op a (if op = 2 then s.host.staging.readN 0 256 else []))

def execFlashRead (key : BitVec 16) (s : State) : Res := .next (s.flashGo key 1 4096)
def execFlashProgram (key : BitVec 16) (s : State) : Res := .next (s.flashGo key 2 256)
def execFlashErase (key : BitVec 16) (s : State) : Res := .next (s.flashGo key 3 65536)

/-- FLASH_DONE (R530): the command ends; a read fills the staging buffer. -/
def execFlashDone (data : List Byte) (s : State) : Res :=
  .next (match s.host.flOp with
    | none => s
    | some (op, a) =>
      let s1 := s.modHost fun h => { h with flOp := none }
      if op = 1 then s1.modHost fun h => { h with staging := h.staging.writeN 0 (bytesAt data 0 4096) }
      else { s1 with
        slots := vmod s1.slots ⟨a / 2 ^ 25 % 4, Nat.mod_lt _ (by decide)⟩ (fun _ => freeProfile s1.free), free := s1.free + 1 })

/-! ### Debug (R531–R533) -/

def State.modDbg (s : State) (f : Dbg → Dbg) : State := { s with dbg := f s.dbg }
/-- Draws a new challenge. -/
def State.newChal (s : State) : State :=
  { (s.modDbg fun d => { d with chal := (List.range 8).map fun k => (Config.freeVal (s.free + k)).setWidth 32 }) with free := s.free + 8 }
/-- A word of the challenge; the one of the first power-on is free. -/
def State.chalWord (s : State) (k : Nat) : Word := nth s.dbg.chal k (Config.powerOnChal k)

/-- DBG_UNLOCK_GO (R532, R533): `keyOk` and `sigOk` are the results of the two checks of R532. (DEDUCED: log 80.) -/
def execDbgUnlockGo (keyOk sigOk : Bool) (t : DWord) (s : State) : Res :=
  let scope := (assoc (0 : Word) s.dbg.unlk 0).toNat
  .next (if 3 ≤ s.dbg.tries then s
    else
      let s1 := (s.atTime t).newChal
      if keyOk && sigOk && (scope == 1 || (scope == 2 && s.saf.state == .sto)) then
        (s1.modDbg fun d => { d with scope := scope }).raise 0x1C01 0 false (some (BitVec.ofNat 32 scope))
      else (s1.modDbg fun d => { d with tries := d.tries + 1 }).raise 0x1C02 1 false (some (BitVec.ofNat 32 (s.dbg.tries + 1))))

/-- TAP_BYPASS (R531): nothing but the bypass register. -/
def execTapBypass (s : State) : Res := .next s
/-- The IDCODE of R531. -/
def State.idcode (s : State) : Word := if s.is8064 then 0xB8064A5B else 0xB8128A5B
def execTapIdcode (s : State) : Res := .next (s.out (.data .jtag (s.idcode.setWidth 64)))
/-- TAP_DBGCHAL (R531, R532). -/
def execTapDbgchal (k : Fin 8) (s : State) : Res := .next (s.out (.data .jtag ((s.chalWord k.val).setWidth 64)))
/-- TAP_DBGUNLOCK (R531, R532): a word of the unlock record, until three attempts have been refused. -/
def execTapDbgunlock (k : Fin 33) (v : Word) (s : State) : Res :=
  .next (if 3 ≤ s.dbg.tries then s else s.modDbg fun d => { d with unlk := assocSet d.unlk k.val v })

end Sys2Proof.Machine
end

