-- ==== Sys2Proof/Machine/Clocks.lean ====
section
/-! DEFINITION. Clocks and crossings (R478–R493) and the monitors of rails and temperature (R319): the source of MA, MB
and HOST, resynchronisations, and what a monitor reports. -/

namespace Sys2Proof.Machine

def State.modClk (s : State) (f : Clk → Clk) : State := { s with clk := f s.clk }

/-- The monitors of CORE (1) and CTL (2) are masked in Quiet (R506). -/
def State.monMasked (s : State) (d : Nat) : Bool := s.boot.power == .quiet && (d == 1 || d == 2)

/-- CLK_STOP (R490–R492): F3 with detail d; for d ≠ SAFE the outputs go off at once, for SAFE the AON monitor forces
WDOG_SAFE low. A domain reported stopped stays so until a device reset. -/
def execClkStop (d : Fin 9) (t : DWord) (s : State) : Res :=
  .next (if s.stopped d.val || s.monMasked d.val then s
    else
      let s1 := ((s.atTime t).modClk fun c => { c with stopped := c.stopped ||| BitVec.ofNat 9 (2 ^ d.val) }).raise 0x0101 3 false
        (some (BitVec.ofNat 32 d.val))
      if d.val = 3 then s1.modSaf fun f => { f with wdog := false, stoDyn := false }
      else s1.modSaf fun f => { f with stoDyn := false, forced := 0xFF })

/-- CLK_FREQ (R490): a domain outside ±5 % for 1 ms. -/
def execClkFreq (d : Fin 9) (t : DWord) (s : State) : Res :=
  .next (if s.monMasked d.val then s
    else ((s.atTime t).modClk fun c => { c with freqErr := c.freqErr ||| BitVec.ofNat 9 (2 ^ d.val) }).raise 0x0102 3)

/-- VOLT_MON, TEMP_WARN, TEMP_MON (R319, R340). -/
def execVoltMon (t : DWord) (s : State) : Res := .next ((s.atTime t).raise 0x0103 3)
def execTempWarn (t : DWord) (s : State) : Res := .next ((s.atTime t).raise 0x0104 1)
def execTempMon (t : DWord) (s : State) : Res := .next ((s.atTime t).raise 0x0105 3)

/-- Whether a channel's domain runs on the recovered clock: its upstream port is in MEASURE or READY, and this is not the
lodestar (R480). (DEDUCED: log 81.) -/
def State.recovered (s : State) (c : Channel) : Bool :=
  !s.isLodestar && [LPort.north, LPort.south].any fun p => (s.port c p).upstream && (s.port c p).linked

/-- CLOCK_SOURCE_SWITCH (R480): domain 0 MA, 1 MB, 2 HOST goes to PLL_S or from it; no crossing is reset. MA and MB follow
their ports; HOST follows the lock of PLL_H. (DEDUCED: log 81.) -/
def execClockSourceSwitch (d : Fin 3) (fallback : Bool) (s : State) : Res :=
  .next (if d.val = 2 then s.modClk fun c => { c with
      fb := bitSet c.fb 2 fallback, locks := bitSet c.locks 3 (!fallback), pcieRef := c.pcieRef || !fallback }
    else s.modClk fun c => { c with fb := bitSet c.fb d.val (!s.recovered (if d.val = 0 then .a else .b)) })

/-- CROSSING_RESYNC (R488): one handshake, with the entries that the live side discarded. -/
def execCrossingResync (dropped : Nat) (s : State) : Res :=
  .next (s.modClk fun c => { c with resync := satAdd (2 ^ 32 - 1) c.resync 1, xdrop := satAdd (2 ^ 32 - 1) c.xdrop dropped })

end Sys2Proof.Machine
end

