-- ==== Sys2Proof/Machine/Kinematics.lean ====
section
/-! DEFINITION. The forward kinematics and the Jacobian of an arm model (R209, R211), in binary64. Whether a product is
fused into the sum it enters is free (`Config.solverFused`, log entry 7). -/

namespace Sys2Proof.Machine

/-- acc + a × b as the tiles form it. (DESIGN CHOICE: log 7.) -/
def macc (acc a b : DWord) : DWord :=
  if Config.solverFused then (f64Fma false false a b acc).1 else fadd acc (fmul a b)
/-- acc − a × b as the tiles form it. (DESIGN CHOICE: log 7.) -/
def msub (acc a b : DWord) : DWord :=
  if Config.solverFused then (f64Fma true false a b acc).1 else fsub acc (fmul a b)

/-- A dot product in ascending index order (R205). -/
def dotAsc : List DWord → List DWord → DWord
  | a :: as, b :: bs => ((as.zip bs).foldl (fun acc e => macc acc e.1 e.2) (fmul a b))
  | _, _ => 0

/-- Rows, columns and position of a 3×4 transform in row order (R209). -/
def mAt (t : List DWord) (i j : Nat) : DWord := nth t (4 * i + j) 0
def mRow (t : List DWord) (i : Nat) : List DWord := [mAt t i 0, mAt t i 1, mAt t i 2]
def mCol (t : List DWord) (j : Nat) : List DWord := [mAt t 0 j, mAt t 1 j, mAt t 2 j]
def mPos (t : List DWord) : List DWord := mCol t 3

def mIdentity : List DWord := [f64One, 0, 0, 0, 0, f64One, 0, 0, 0, 0, f64One, 0]

/-- The product of two transforms. -/
def mMul (t l : List DWord) : List DWord :=
  (List.range 3).flatMap fun i =>
    ((List.range 3).map fun j => dotAsc (mRow t i) (mCol l j)) ++ [fadd (dotAsc (mRow t i) (mPos l)) (mAt t i 3)]

/-- The rotation block of a transform applied to a vector. -/
def mRot (t v : List DWord) : List DWord := (List.range 3).map fun i => dotAsc (mRow t i) v

def vSub (a b : List DWord) : List DWord := List.zipWith fsub a b
def vCross (a b : List DWord) : List DWord :=
  let c (i j : Nat) : DWord := msub (fmul (nth a i 0) (nth b j 0)) (nth a j 0) (nth b i 0)
  [c 1 2, c 2 0, c 0 1]

/-- The motion of a joint: rotation about its axis by q, or translation along it (R211). -/
def jointMotion (prismatic : Bool) (axis : List DWord) (q : DWord) : List DWord :=
  let x := nth axis 0 0
  let y := nth axis 1 0
  let z := nth axis 2 0
  if prismatic then [f64One, 0, 0, fmul x q, 0, f64One, 0, fmul y q, 0, 0, f64One, fmul z q]
  else
    let s := Config.sin64 q
    let c := Config.cos64 q
    let v := fsub f64One c
    let diag (a : DWord) : DWord := macc c (fmul a a) v
    let off (a b n : DWord) : DWord := macc (fmul n s) (fmul a b) v
    [diag x, off x y (f64Negate z), off x z y, 0,
     off x y z, diag y, off y z (f64Negate x), 0,
     off x z (f64Negate y), off y z x, diag z, 0]

/-- The frames of an arm: for each joint its axis z, its origin o and the frame after its motion. -/
structure JointFrame where
  z : List DWord
  o : List DWord
  t : List DWord
  prismatic : Bool

def chainFrames : List JointModel → List DWord → List DWord → List JointFrame
  | m :: ms, qs, t =>
    let t1 := mMul t m.link
    let t2 := mMul t1 (jointMotion m.prismatic m.axis (nth qs 0 0))
    ⟨mRot t1 m.axis, mPos t1, t2, m.prismatic⟩ :: chainFrames ms qs.tail t2
  | [], _, _ => []

/-- The frame of the last joint, or the base of an arm without joints. -/
def lastFrame (base : List DWord) (fs : List JointFrame) : List DWord :=
  match fs.getLast? with
  | some f => f.t
  | none => base

/-- The tool frame of an arm (R211). -/
def ArmProf.toolFrame (p : ArmProf) (base : List DWord) (fs : List JointFrame) : List DWord := mMul (lastFrame base fs) p.tool

/-- The columns of the Jacobian (R211), six values each. -/
def jacobian (fs : List JointFrame) (tcp : List DWord) : List (List DWord) :=
  fs.map fun f => if f.prismatic then f.z ++ [0, 0, 0] else vCross f.z (vSub (mPos tcp) f.o) ++ f.z

/-- A joint coordinate from a count (R211). -/
def JointModel.coord (m : JointModel) (count : Int) : DWord := fmul (fsub (fofInt count) (fofInt m.coffs)) m.cscale

end Sys2Proof.Machine
end

