-- ==== Sys2Proof/Machine/Halo.lean ====
section
/-! DEFINITION. Halo (13) and its frames (14, R374–R378): capsules in the site frame, distances, limits, enforcement,
zones and claims, publication results, and what is exchanged with neighbour cells. Coordinates and radii are in
2⁻¹⁶ m, speeds in mm/s, times in µs unless said otherwise. -/

namespace Sys2Proof.Machine

def State.modHalo (s : State) (f : Halo → Halo) : State := { s with halo := f s.halo }

/-! ### Exact geometry (R356, R357) -/

def V3.sub (a b : V3) : V3 := ⟨a.x - b.x, a.y - b.y, a.z - b.z⟩
def V3.dot (a b : V3) : Int := a.x * b.x + a.y * b.y + a.z * b.z
def V3.cross (a b : V3) : V3 := ⟨a.y * b.z - a.z * b.y, a.z * b.x - a.x * b.z, a.x * b.y - a.y * b.x⟩

/-- The integer square root, rounded down. -/
def isqrt (n : Nat) : Nat := isqrtFrom n (Nat.log2 n / 2 + 1) 0

/-- The squared distance of a point from a segment, rounded down. -/
def pointSeg2 (p a b : V3) : Nat :=
  let ab := V3.sub b a
  let ap := V3.sub p a
  let t := V3.dot ap ab
  let l := V3.dot ab ab
  if t ≤ 0 then (V3.dot ap ap).toNat
  else if l ≤ t then (let bp := V3.sub p b; V3.dot bp bp).toNat
  else ((V3.dot ap ap * l - t * t) / l).toNat

/-- The squared distance of two segments, rounded down: the least over the end points, and over the interiors where both
nearest points lie inside. -/
def segSeg2 (p0 p1 q0 q1 : V3) : Nat :=
  let u := V3.sub p1 p0
  let v := V3.sub q1 q0
  let w := V3.sub p0 q0
  let a := V3.dot u u
  let b := V3.dot u v
  let c := V3.dot v v
  let d := V3.dot u w
  let e := V3.dot v w
  let det := a * c - b * b
  let sn := b * e - c * d
  let tn := a * e - b * d
  let ends := min (min (pointSeg2 p0 q0 q1) (pointSeg2 p1 q0 q1)) (min (pointSeg2 q0 p0 p1) (pointSeg2 q1 p0 p1))
  if 0 < det ∧ 0 ≤ sn ∧ sn ≤ det ∧ 0 ≤ tn ∧ tn ≤ det then
    let n := V3.cross u v
    let h := V3.dot w n
    min ends (h * h / V3.dot n n).toNat
  else ends

/-- The signed distance between the surfaces of two capsules, rounded toward −∞ (R357). -/
def capDist (p0 p1 : V3) (r : Int) (q0 q1 : V3) (r' : Int) : Int := (isqrt (segSeg2 p0 p1 q0 q1) : Int) - r - r'

/-! ### Capsules in the site frame (R349–R354) -/

/-- The capsules of an arm: the profile's, then the accepted published ones (R351). -/
def State.armCaps (s : State) (k : Nat) : List CapRec :=
  nth s.prof.saf.caps k [] ++ ((s.halo.tool.find? fun e => e.1 == k).map Prod.snd).getD []

/-- The latch of a joint channel that the engine uses: the one of this tick, or the last valid one (R354). The flag says
that it is of this tick. -/
def State.haloLatch (s : State) (a : Fin 128) : Option (Int × Int × Bool) :=
  match s.fbk[a].latch with
  | .valid p t => some (p, t, true)
  | _ => (s.halo.latches.find? fun e => e.1 == a.val).map fun e => (e.2.1, e.2.2, false)

/-- Keeps the latest valid latch of every joint of an arm. (DEDUCED: log 62.) -/
def State.keepLatches (s : State) : State :=
  let js := (List.range 8).flatMap fun k => ((s.armProf k).map fun p => p.joints).getD []
  let keep (l : List (Nat × Int × Int)) (a : Fin 128) : List (Nat × Int × Int) := match s.fbk[a].latch with
    | .valid p t => (a.val, p, t) :: l.filter fun e => e.1 != a.val
    | _ => l
  s.modHalo fun h => { h with latches := js.foldl keep h.latches }

/-- A point of a frame in the site frame, on the Q15.16 grid: where within 0.2 mm (13.1 units) of the exact point it lies
is free (R357, `Config.haloErr`, log entry 9). `use` names the arm and the period, `i` the point. -/
def sitePoint (use i : Nat) (t : List DWord) (p : V3) : V3 :=
  let q := [fratio' p.x, fratio' p.y, fratio' p.z]
  let w := List.zipWith fadd (mRot t q) (mPos t)
  let e (c : Nat) : Int := Config.haloErr use (3 * i + c)
  let near := decide (e 0 * e 0 + e 1 * e 1 + e 2 * e 2 ≤ 171)
  let at' (c : Nat) : Int := fround' (fmul (nth w c 0) (fofInt 65536)) + if near then e c else 0
  ⟨at' 0, at' 1, at' 2⟩
where
  fratio' (x : Int) : DWord := fdiv (fofInt x) (fofInt 65536)
  fround' (x : DWord) : Int := (f64ToIntExact true x).1

/-- The largest enforcement value of an arm (R354). -/
def State.armEnv (s : State) (k : Nat) : Nat := (s.halo.caps.filter fun c => c.arm == k).foldl (fun m c => max m c.env) 0

/-- A capsule placed for this period: its arm, its index, where it lies, and the stamp of the latch of its joint. -/
structure Placed where
  arm : Nat
  cap : Nat
  p0  : V3
  p1  : V3
  r   : Int
  t   : Int

/-- The frame stage for one arm (R354, R355). A joint that never had a valid latch has a free position. -/
def State.placeArm (s : State) (k : Nat) : List Placed :=
  match s.armProf k with
  | none => []
  | some p =>
    let ls := p.joints.map fun a => (s.haloLatch a).getD ((Config.freeVal (s.free + a.val)).toInt, 0, false)
    let q := List.zipWith (fun m l => JointModel.coord m l.1) p.model ls
    let base := mMul s.prof.saf.cellSite p.base
    let fs := chainFrames p.model q base
    let tool := ArmProf.toolFrame p base fs
    let use := s.halo.period.toNat * 8 + k
    let env := s.armEnv k
    let grow (j : Nat) : Int := (mapFrom (fun i l => if i ≤ j && !l.2.2 then
        freeQuot ((env : Int) * ((s.t0 s.epoch : Int) - l.2.1) * 65536) 1000000000000 else 0) 0 ls).foldl (· + ·) 0
    mapFrom (fun i c =>
      let last := ls.length - 1
      let j := if c.link == 0xFF then last else c.link.toNat
      let t := if c.link == 0xFF then tool else ((fs[j]?).map fun f => f.t).getD tool
      { arm := k, cap := i, p0 := sitePoint use (2 * i) t c.p0, p1 := sitePoint use (2 * i + 1) t c.p1
        r := c.r + grow j, t := (nth ls j (0, 0, false)).2.1 }) 0 (s.armCaps k)

/-! ### Zones and claims (R353, R366, R367) -/

def State.zoneKey (s : State) (arm : Nat) : Nat := s.prof.saf.cellNo.val * 8 + arm
def State.zoneAt (s : State) (z : Nat) : Option ZoneRec := s.prof.saf.zones[z]?
def State.zoneHolder (s : State) (z : Nat) : Option Nat := (s.halo.holders.find? fun e => e.1 == z).map Prod.snd

/-- The cells that share zones with this one. -/
def State.nbrCells (s : State) : List (Fin 16) := s.prof.saf.nbrs.map fun n => n.cell

/-- A zone shared with a neighbour whose frames are lost. -/
def State.nbrLost (s : State) (z : Nat) (c : Fin 16) : Bool :=
  (s.halo.nbrs[c]).held && ((s.zoneAt z).map fun r => r.cells.getLsbD c.val).getD false

/-- A neighbour shows a zone held, or its frames are lost and it shares the zone (R367, R368). -/
def State.nbrHolds (s : State) (z : Nat) : Bool :=
  s.nbrCells.any fun c =>
    let n := s.halo.nbrs[c]
    (n.zones.any fun x => x.zone == z && x.holder != 0xFF) || s.nbrLost z c

/-- Whether a zone acts as an obstacle to an arm (R366, R372). -/
def State.zoneBlocks (s : State) (z : Nat) (r : ZoneRec) (arm : Nat) : Bool :=
  let listed := r.arms.getLsbD arm
  let granted := s.zoneHolder z == some (s.zoneKey arm)
  let lost := s.nbrCells.any fun c => s.nbrLost z c
  if r.excl then !(listed && granted) else !listed || lost

/-- The pending claims of a zone: accepted and not granted, by key. -/
def State.pendingKeys (s : State) (z : Nat) : List Nat :=
  (s.halo.claims.filter fun c => c.2.1 == z && s.zoneHolder z != some (s.zoneKey c.2.2)).map fun c => s.zoneKey c.2.2
def leastOf (l : List Nat) : Option Nat := match l with | [] => none | x :: xs => some (xs.foldl min x)

/-- The state of a zone in SAF_HALO_ZONE. (DEDUCED: log 63.) -/
def State.zoneState (s : State) (z : Nat) : Nat :=
  if (s.zoneHolder z).isSome then 1 else if s.nbrHolds z then 2 else if !(s.pendingKeys z).isEmpty then 3 else 0

/-- CLAIM_GRANT at a period start (R367): the lowest pending key, unless the zone is held or a neighbour showed a lower
pending key in this period or the one before. (DEDUCED: log 63.) -/
def State.grantZone (s : State) (z : Nat) : State :=
  match leastOf (s.pendingKeys z) with
  | none => s
  | some key =>
    let lower (l : List ZoneStat) : Bool := l.any fun x => x.zone == z && decide (x.pending < key)
    let blocked := (s.zoneHolder z).isSome || s.nbrHolds z ||
      s.nbrCells.any fun c => lower (s.halo.nbrs[c]).zones || lower (s.halo.nbrs[c]).oldZones
    if blocked then s
    else
      let s1 := s.modHalo fun h => { h with holders := h.holders ++ [(z, key)] }
      match s.halo.claims.find? fun c => c.2.1 == z && s.zoneKey c.2.2 == key with
      | some c =>
        let core : Fin 9 := ⟨c.1 % 9, Nat.mod_lt _ (by decide)⟩
        s1.gatePush (s.epoch + 1) 1 (.event (some core) (mkEv 0x12 1 (0x100 + z)))
      | none => s1

/-! ### Limits (R358–R361) -/

/-- TR of R358, in µs. -/
def State.haloTr (s : State) : Nat := (s.tHalo + 2 * s.tTick) / 1000 + s.prof.saf.tdrv
def State.zrOf (s : State) (k : Nat) : Nat := nth s.prof.saf.zr k 0 + 500
def State.asOf (s : State) (k : Nat) : Nat := nth s.prof.saf.astop k 0

/-- The speed bound of R359 in mm/s, from dp in µm and b in µs. -/
def speedBound (as : Nat) (dp : Int) (b : Nat) : Nat :=
  if dp ≤ 0 || as = 0 then 0
  else as * (isqrt (b * b + 2 * dp.toNat * 1000000000 / as) - b) / 1000000

/-- d in µm less constant terms in µm and a term in nm, rounded down. -/
def freeDist (d : Int) (um nm : Int) (half : Bool) : Int :=
  let n := d * 15625000 - 1024 * (1000 * um + nm)
  n / (if half then 2048000 else 1024000)

/-- What a capsule is measured against: the distance, the bound it gives, and for a volume or an obstacle its key and
whether an overlap is a fault (R370). -/
structure PairRes where
  d     : Int
  lim   : Nat
  hit   : Option (Nat × Bool)

def State.volPair (s : State) (c : Placed) (i : Nat) (v : VolRec) : PairRes :=
  let conn := (s.prof.saf.conns.find? fun x => x.en && !x.signal && x.slots.any fun k => k.val == i).getD {}
  let d := capDist c.p0 c.p1 c.r v.p0 v.p1 v.r
  let vh := max v.vh (if v.kind == 1 then 1600 else s.prof.saf.vhminObj)
  let as := s.asOf c.arm
  let cc := if v.kind == 1 then conn.cPerson else conn.cObject
  let dp := freeDist d (cc + conn.zd + s.zrOf c.arm) (vh * (s.haloTr + conn.texp * 1000)) false
  ⟨d, speedBound as dp (s.haloTr + ceilDiv (vh * 1000000) (max 1 as)), some (i, v.kind == 1)⟩

def State.capPairs (s : State) (all : List Placed) (c : Placed) : List PairRes :=
  let tr := s.haloTr
  let zr := s.zrOf c.arm
  let arms := (all.filter fun o => o.arm != c.arm).map fun o =>
    let d := capDist c.p0 c.p1 c.r o.p0 o.p1 o.r
    let as := min (s.asOf c.arm) (s.asOf o.arm)
    PairRes.mk d (speedBound as (freeDist d (s.prof.saf.caa + zr + s.zrOf o.arm) 0 true) tr) none
  let vols := (List.finRange 32).filterMap fun i =>
    let v := (s.halo.vols[i]).v
    if v.kind == 0 then none else some (s.volPair c i.val v)
  let zones := (mapFrom (fun z r => (z, r)) 0 s.prof.saf.zones).filterMap fun e =>
    if s.zoneBlocks e.1 e.2 c.arm then
      let d := capDist c.p0 c.p1 c.r e.2.p0 e.2.p1 e.2.r
      some (PairRes.mk d (speedBound (s.asOf c.arm) (freeDist d zr 0 false) tr) (some (32 + e.1, true)))
    else none
  let nbrs := s.nbrCells.flatMap fun n => (s.halo.nbrs[n]).caps.map fun o =>
    let d := capDist c.p0 c.p1 c.r o.p0 o.p1 o.r
    PairRes.mk d (speedBound (s.asOf c.arm) (freeDist d (s.prof.saf.caa + zr) 0 false) tr) none
  arms ++ vols ++ zones ++ nbrs

/-! ### The period (R354, R355, R363, R364, R371) -/

/-- The measured speed of a capsule in mm/s: the larger displacement of its end points over the difference of the stamps
(R363); its rounding is free, and so is its value over a difference of 0. -/
def measuredSpeed (period : Nat) (o : CapState) (c : Placed) : Nat :=
  match o.seen with
  | none => 0
  | some t0 =>
    let dt := c.t - (t0 : Int)
    if dt ≤ 0 then Config.haloSpeed period (16 * c.arm + c.cap)
    else
      let a := V3.sub c.p0 o.p0
      let b := V3.sub c.p1 o.p1
      let d2 := (max (V3.dot a a) (V3.dot b b)).toNat
      let den := 65536 * dt.toNat
      let n := d2 * 1000000000000 * 1000000000000 / (den * den)
      let r := isqrt n
      if r * r * (den * den) == d2 * 1000000000000 * 1000000000000 then r else r + bnat (Config.roundUp d2 den)

/-- One capsule in one period: its limit, its envelope and the check of R363. Answers the state to keep and whether the
overspeed fault is raised. -/
def State.capPeriod (s : State) (c : Placed) (pairs : List PairRes) : CapState × Bool :=
  let o := (s.halo.caps.find? fun x => x.arm == c.arm && x.cap == c.cap).getD { arm := c.arm, cap := c.cap }
  let lim0 := match pairs with
    | [] => nth s.prof.saf.vmaxc c.arm 0
    | p :: ps => ps.foldl (fun m x => min m x.lim) p.lim
  let lim := if s.saf.state == .hold then min lim0 s.prof.slsMm else lim0
  let w := ceilDiv (s.haloTr * 1000) (max 1 s.tHalo) + 1
  let hi := (o.hist.take w).foldl max 0
  let fall := (freeQuot ((s.asOf c.arm : Int) * s.tHalo) 1000000000).toNat
  let first := s.halo.first
  let env := if first then lim else max hi (o.env - fall)
  let vm := if first then 0 else measuredSpeed s.halo.period.toNat o c
  let sto := s.saf.state == .sto
  let overs := if sto || first then 0 else if env + s.prof.saf.vtol < vm then o.overs + 1 else 0
  ({ arm := c.arm, cap := c.cap, p0 := c.p0, p1 := c.p1, r := c.r, seen := some c.t.toNat, lim := lim
     hist := (lim :: o.hist).take 64, env := env, overs := overs, vmeas := vm }, overs == 2)

/-- Whether the engine computes: the sequencer runs and this tick starts a Halo period; in Quiet it computes nothing. -/
def State.haloTick (s : State) : Bool := s.running && s.epoch % s.prof.haloDiv == 0 && s.boot.power != .quiet

/-- HALO_COMPUTE (R355–R364, R368, R370): the frame, pair and limit stages of period p, whose limit set is stamped p + 1.
`pairFail` says that an injected pair gave a wrong result (R340). -/
def execHaloCompute (pairFail : Bool) (t : DWord) (s : State) : Res :=
  .next (if !s.haloTick then s
    else
      let s0 := (s.atTime t).keepLatches
      let all := (List.range 8).flatMap s.placeArm
      let res := all.map fun c => (c, s.capPairs all c)
      let caps := res.map fun e => s.capPeriod e.1 e.2
      let limOf (k : Nat) : Nat :=
        if (s.armProf k).isNone then 0
        else match (caps.filter fun c => c.1.arm == k).map fun c => c.1.lim with
          | [] => nth s.prof.saf.vmaxc k 0
          | x :: xs => xs.foldl min x
      let sepOf (k : Nat) : Nat :=
        if (s.armProf k).isNone then 0
        else ((res.filter fun e => e.1.arm == k).flatMap Prod.snd).foldl
          (fun m (p : PairRes) => min m (p.d * 15625 / 1024).toNat) 65535000
      let lims := (List.range 8).map limOf
      let seps := (List.range 8).map sepOf
      let overlaps := res.flatMap fun e => e.2.filterMap fun (p : PairRes) => match p.hit with
        | some (key, _) => if p.d < 0 then some (e.1.arm, e.1.cap, key) else none
        | none => none
      let raised := res.flatMap fun e => e.2.filter fun (p : PairRes) => match p.hit with
        | some (key, bad) => bad && decide (p.d < 0) && !s.halo.overlaps.contains (e.1.arm, e.1.cap, key)
        | none => false
      let both := s.halo.holders.any fun h => s.nbrCells.any fun c =>
        (s.halo.nbrs[c]).zones.any fun x => x.zone == h.1 && x.holder != 0xFF
      let s1 := s0.modHalo fun h => { h with
        caps := caps.map Prod.fst, lims := lims, seps := seps, overlaps := overlaps, conflict := both, first := false }
      let s2 := if caps.any Prod.snd then s1.raise 0x1901 3 else s1
      let s3 := if s.saf.state == .sto then s2 else raised.foldl (fun st _ => st.raise 0x1903 2) s2
      let s4 := if both && !s.halo.conflict then s3.raise 0x1904 2 else s3
      let s5 := if pairFail then (s4.modSaf fun f => { f with diagFail := true }).raise 0x1805 3 else s4
      s5.gatePush (s5.epoch + 1) 1 (.haloLimits lims seps))

/-- The plausibility check of one axis (R306). -/
def State.plausAxis (s : State) (a : Fin 128) : State :=
  let r := s.regN (0xC2000 + 8 * a.val)
  let ptol : Int := fld (s.regN (0xC2004 + 8 * a.val)) 31 8
  let num : Int := fld r 31 16
  let den : Int := fld r 15 0
  if num = 0 then s
  else
    let f := s.fbk[a]
    match f.latch, f.motorOk with
    | .valid load _, true =>
      s.modFbk a fun f => match f.plRef with
        | none => { f with plRef := some (load, f.motor) }
        | some (lref, mref) =>
          let dev := (f.motor - mref) * den - (load - lref) * num
          { f with plCnt := if ptol * num < dev.natAbs then f.plCnt + 1 else 0 }
    | _, _ => s

/-- The neighbour records that come into use at a period start (R368, R376): without accepted frames the last capsules
stay for one period, then the shared zones count as held. -/
def NbrRx.atPeriod (n : NbrRx) : NbrRx :=
  if n.staged then { n with caps := n.nextCaps, oldZones := n.zones, zones := n.nextZones, staged := false, held := false }
  else if 2 ≤ n.lostRun then { n with caps := [], oldZones := n.zones, held := true }
  else { n with oldZones := n.zones }

/-- HALO_PERIOD_START (R306, R313, R341, R342, R347, R354, R367, R376): at a tick whose epoch is a multiple of HALODIV; in
Quiet the SAFE oscillator gives the markers. The command stands for the period's start up to the crossing of the latches.
(DEDUCED: log 62.) -/
def execHaloPeriodStart (s : State) : Res :=
  .next (if !(s.running && s.epoch % s.prof.haloDiv == 0) && s.boot.power != .quiet then s
    else
      let s1 := (s.modSaf fun f => { f with
        f3Prev := f.f3Now, f3Now := none, flowSig := s.prof.saf.flowSeed, flowDone := false
        mbx := { f.mbx with seen := f.mbx.busy } }).diagReserve
      let s2 := s1.modHalo fun h => { h with period := h.period + 1, nbrs := vmap (fun _ n => n.atPeriod) h.nbrs }
      let s3 := (s2.modCore 9 Core.newPeriod).wakeCore 9
      if s.boot.power == .quiet then s3
      else
        let s4 := (List.finRange 128).foldl State.plausAxis s3.keepLatches
        (List.range 16).foldl State.grantZone s4)

/-- ENC_PLAUS (R306). -/
def execEncPlaus (a : Fin 128) (t : DWord) (s : State) : Res :=
  let n := fld (s.regN (0xC2004 + 8 * a.val)) 7 0
  .next (if fld (s.regN (0xC2000 + 8 * a.val)) 31 16 != 0 && n != 0 && (s.fbk[a]).plCnt == n then
    ((s.atTime t).modFbk a fun f => { f with plaus := true }).raise 0x0C05 3
  else s)

/-- HALO_TICK_WINDOW (R21, R507): the interval between two markers in ns of the SAFE oscillator. -/
def execHaloTickWindow (interval : Nat) (t : DWord) (s : State) : Res :=
  let h := s.tHalo
  .next (if (10 * interval < 9 * h || 11 * h < 10 * interval) && s.boot.power != .quiet then (s.atTime t).raise 0x1803 3
    else s)

/-! ### Publication results (R351, R367, R369) -/

def v3Of (b : List Byte) (o : Nat) : V3 :=
  let w (i : Nat) : Int := (BitVec.ofNat 32 (valAt b (o + 4 * i) 4)).toInt
  ⟨w 0, w 1, w 2⟩
def i32At (b : List Byte) (o : Nat) : Int := (BitVec.ofNat 32 (valAt b o 4)).toInt
def zeroBytes (b : List Byte) (o n : Nat) : Bool := (bytesAt b o n).all (· == 0)

/-- The first failure of a set of tool capsules of an arm (R350, R369); 0 if none. -/
def State.toolCheck (s : State) (k : Nat) (recs : List (List Byte)) : Nat :=
  let nj := ((s.armProf k).map fun p => p.joints.length).getD 0
  let have0 := (nth s.prof.saf.caps k []).length
  (mapFrom (fun i b =>
    let link := valAt b 0 1
    let r := i32At b 0x1C
    if !zeroBytes b 2 2 || 11 < valAt b 1 1 || r * 1000 < 65536 || 131072 < r then 1
    else if link != 0xFF && nj ≤ link then 2
    else if 12 < have0 + i + 1 then 3
    else 0) 0 recs).foldl (fun (c : Nat) x => if c = 0 then x else c) 0

/-- The first failure of a set of claims of a core (R367, R369); 0 if none. -/
def State.claimCheck (s : State) (core : Nat) (recs : List (List Byte)) : Nat :=
  let zs := recs.map fun b => valAt b 0 1
  let one (i : Nat) (b : List Byte) : Nat :=
    let z := valAt b 0 1
    let arm := valAt b 1 1
    if !zeroBytes b 2 30 || 15 < z || 7 < arm then 1
    else match s.zoneAt z with
      | none => 4
      | some r =>
        if !r.excl then 4
        else if !r.arms.getLsbD arm || (core < 8 && arm != core) then 5
        else if (zs.take i).contains z then 7
        else 0
  let first := (mapFrom one 0 recs).foldl (fun (c : Nat) x => if c = 0 then x else c) 0
  if first != 0 then first
  else
    let kept (c : Nat × Nat × Nat) : Bool := recs.any fun b => valAt b 0 1 == c.2.1 && valAt b 1 1 == c.2.2
    let still (c : Nat × Nat × Nat) : Bool := match s.zoneAt c.2.1 with
      | none => false
      | some r => s.zoneHolder c.2.1 == some (s.zoneKey c.2.2) &&
          s.halo.caps.any fun x => x.arm == c.2.2 && decide (capDist x.p0 x.p1 x.r r.p0 r.p1 r.r < 0)
    if s.halo.claims.any fun c => c.1 == core && !kept c && still c then 6 else 0

/-- The set of one kind is accepted: it replaces the previous one; a zone stays held while a claim in force names it for its
holder (R367). -/
def State.acceptPub (s : State) (core kind : Nat) (recs : List (List Byte)) : State :=
  if kind = 0 then
    let caps := recs.map fun b => ({ link := BitVec.ofNat 8 (valAt b 0 1), p0 := v3Of b 4, p1 := v3Of b 0x10, r := i32At b 0x1C } : CapRec)
    s.modHalo fun h => { h with tool := h.tool.filter (fun e => e.1 != core) ++ (if caps.isEmpty then [] else [(core, caps)]) }
  else
    let new := recs.map fun b => (core, valAt b 0 1, valAt b 1 1)
    s.modHalo fun h =>
      let left := h.claims.filter (fun c => c.1 != core) ++ new
      { h with
        claims := left
        holders := h.holders.filter fun e => left.any fun c => c.2.1 == e.1 && s.zoneKey c.2.2 == e.2 }

/-- HPUB_CHECK (R136, R369): at a period start the sets of a core are accepted or rejected; the answer passes the gate. -/
def execHpubCheck (c : Fin 9) (t : DWord) (s : State) : Res :=
  .next (if !s.haloTick then s
    else
      let mine := s.halo.pubs.filter fun p => p.1 == c
      let s0 := (s.atTime t).modHalo fun h => { h with pubs := h.pubs.filter fun p => p.1 != c }
      mine.foldl (fun st p =>
        let kind := p.2.1
        let code := if kind = 0 then st.toolCheck c.val p.2.2 else st.claimCheck c.val p.2.2
        let st1 := if code = 0 then st.acceptPub c.val kind p.2.2 else st.raise 0x1905 0 false (some (BitVec.ofNat 32 code))
        st1.gatePush (st.epoch + 1) 1 (.event (some c) (mkEv 0x12 kind code))) s0)

/-! ### Halo frames (R368, R374–R378) -/

/-- The start of the Halo period whose frames are on the fabric in this basic cycle. -/
def State.framePeriod (s : State) : Nat := (s.epoch - 1) / s.prof.haloDiv * s.prof.haloDiv

def V3.bytes (p : V3) : List Byte :=
  leBytes (BitVec.ofInt 32 p.x).toNat 4 ++ leBytes (BitVec.ofInt 32 p.y).toNat 4 ++ leBytes (BitVec.ofInt 32 p.z).toNat 4

/-- Whether a zone names a cell other than this one. -/
def State.outward (s : State) (r : ZoneRec) : Bool :=
  (List.finRange 16).any fun c => c != s.prof.saf.cellNo && r.cells.getLsbD c.val

/-- The radius that a neighbour sees (R368). -/
def State.sentRadius (s : State) (c : CapState) : Int :=
  let as := max 1 (s.asOf c.arm)
  let l := c.lim
  let n := s.zrOf c.arm * 2000 * as + l * s.haloTr * 2 * as + l * l * 1000000
  c.r + freeQuot ((n * 65536 : Nat) : Int) (2000 * as * 1000000)

/-- The records of a period in their order (R374). -/
def State.haloRecords (s : State) : List (List Byte) :=
  let cell := s.prof.saf.cellNo.val
  let zs := (mapFrom (fun z r => (z, r)) 0 s.prof.saf.zones).filter fun e => s.outward e.2
  let caps := s.halo.caps.filter fun c => zs.any fun e => e.2.arms.getLsbD c.arm
  (caps.map fun c => leBytes cell 1 ++ leBytes c.arm 1 ++ leBytes c.cap 1 ++ [0] ++ c.p0.bytes ++ c.p1.bytes ++
      leBytes (BitVec.ofInt 32 (s.sentRadius c)).toNat 4) ++
  zs.map fun e => leBytes cell 1 ++ leBytes e.1 1 ++ leBytes ((s.zoneHolder e.1).getD 0xFF) 1 ++
      leBytes ((leastOf (s.pendingKeys e.1)).getD 0xFF) 1 ++ List.replicate 28 0

/-- The payload of a part without its check value (R374). -/
def haloPart (cell period div part nparts : Nat) (recs : List (List Byte)) : List Byte :=
  leBytes cell 1 ++ leBytes (period / div) 1 ++ leBytes part 1 ++ leBytes nparts 1 ++ leBytes recs.length 1 ++
    [0, 0, 0] ++ leBytes period 4 ++ recs.flatten

/-- The entries of a channel in which this controller sends its HALO frames in the basic cycle (R429), in the order in which
the profile names their first frame IDs. -/
def State.haloEntries (s : State) (ch : Channel) : List MEntry :=
  s.prof.mer.haloFids.filterMap fun fid => (s.table ch).find? fun e =>
    e.kind == 0 && e.fid == fid && some e.sender == s.mer.addr && e.activeIn (s.epoch % 64)

/-- The frame IDs and window offsets of the parts of a Halo period, part 0 first: the frames of an entry are back to back
(R427, R429). -/
def State.haloSlots (s : State) (ch : Channel) (lens : List Nat) : List (Nat × Nat) :=
  ((s.haloEntries ch).foldl (fun (x : List Nat × List (Nat × Nat)) e =>
    let mine := x.1.take (e.nfr + 1)
    (x.1.drop (e.nfr + 1), x.2 ++ mapFrom (fun i o => (e.fid + i, 8 * e.start + o)) 0 (backToBack mine))) (lens, [])).2

/-- The payloads of the parts of a Halo period (R374). -/
def State.haloParts (s : State) : List (List Byte) :=
  let n := s.prof.saf.npart
  (List.range n).map fun i =>
    let body := haloPart s.prof.saf.cellNo.val s.framePeriod s.prof.haloDiv i n ((s.haloRecords.drop (7 * i)).take 7)
    body ++ leBytes (crc32c s.prof.saf.hkey body).toNat 4

/-- The parts as frames of one channel, each in its window. -/
def State.sendHalo (s0 : State) (ch : Channel) (s : State) : State :=
  let parts := s0.haloParts
  (List.zip parts (s0.haloSlots ch (parts.map List.length))).foldl (fun (st : State) e =>
    st.out (.sched ch (s0.mkFrame 3 (BitVec.ofNat 12 e.2.1) (BitVec.ofNat 64 (s0.t0 s0.epoch + e.2.2)) e.1))) s

/-- HALO_FRAME_SEND (R374, R429): in basic cycle p + 1 each part leaves on both channels, with byte-identical payloads. -/
def execHaloFrameSend (t : DWord) (s : State) : Res :=
  .next (if !(s.maySend && s.running) then s else State.sendHalo s .b (State.sendHalo s .a (s.atTime t)))

/-- A copy as the receiver sees it: its payload if it is present (R375). -/
def State.haloCopy (s : State) (ch : Channel) (cell part : Nat) (f : Option SchedFrame) : Option (List Byte) × State :=
  match f with
  | none => (none, s)
  | some f =>
    let r := s.receive ch f
    let b := f.payload
    let n := b.length - 4
    let np := ((s.prof.saf.nbrs.find? fun x => x.cell.val == cell).map fun x => x.nparts).getD 0
    let p := s.framePeriod
    let ok := r.1 && f.cls == 3 && s.cycleOf f.start == p + 1 && decide (16 ≤ b.length) &&
      valAt b n 4 == (crc32c s.prof.saf.hkey (b.take n)).toNat && valAt b 0 1 == cell &&
      valAt b 1 1 == p / s.prof.haloDiv % 256 && valAt b 8 4 == p % 2 ^ 32 && valAt b 2 1 == part && valAt b 3 1 == np &&
      n == 12 + 32 * valAt b 4 1
    (if ok then some b else none, r.2)

def State.modNbr (s : State) (c : Fin 16) (f : NbrRx → NbrRx) : State := s.modHalo fun h => { h with nbrs := vmod h.nbrs c f }

/-- HALO_FRAME_RECEIVE (R375). -/
def execHaloFrameReceive (cell part : Fin 16) (copyA copyB : Option SchedFrame) (t : DWord) (s : State) : Res :=
  .next (if !s.nbrCells.contains cell then s
    else
      let a := (s.atTime t).haloCopy .a cell.val part.val copyA
      let b := a.2.haloCopy .b cell.val part.val copyB
      let put (st : State) (x : Option (List Byte)) (miss : BitVec 2) (n : Nat) : State :=
        st.modNbr cell fun r => { r with
          parts := r.parts.filter (fun e => e.1 != part.val) ++ [(part.val, x)]
          missNow := r.missNow ||| miss, missed := satAdd 65535 r.missed n }
      match a.1, b.1 with
      | some x, some y =>
        if x == y then put b.2 (some x) 0 0
        else ((put b.2 none 0 0).modNbr cell fun r => { r with mismatch := satAdd 65535 r.mismatch 1 }).raise 0x1081 2
      | some x, none => put b.2 (some x) 2 1
      | none, some y => put b.2 (some y) 1 1
      | none, none => put b.2 none 3 2)

/-- The neighbour records of accepted parts; a record with RADIUS 0 is a zone status (R368). -/
def nbrRecords (parts : List (List Byte)) : List NbrCap × List ZoneStat :=
  let recs := parts.flatMap fun b => (List.range (valAt b 4 1)).map fun i => bytesAt b (12 + 32 * i) 32
  (recs.filterMap fun r => if i32At r 0x1C = 0 then none
      else some ⟨valAt r 1 1, valAt r 2 1, v3Of r 4, v3Of r 0x10, i32At r 0x1C⟩,
   recs.filterMap fun r => if i32At r 0x1C = 0 then some ⟨valAt r 1 1, valAt r 2 1, valAt r 3 1⟩ else none)

/-- HALO_PERIOD_ACCEPT (R376–R378): at the end of the basic cycle a sender's period is accepted or discarded. -/
def execHaloPeriodAccept (cell : Fin 16) (t : DWord) (s : State) : Res :=
  .next (match s.prof.saf.nbrs.find? fun x => x.cell == cell with
    | none => s
    | some n =>
      let r := s.halo.nbrs[cell]
      let got := (List.range n.nparts).map fun i => ((r.parts.find? fun e => e.1 == i).map Prod.snd).getD none
      let absent := (List.range n.nparts).filter fun i => !(r.parts.any fun e => e.1 == i)
      let miss : BitVec 2 := if absent.isEmpty then r.missNow else 3
      let ok := got.all Option.isSome
      let recs := nbrRecords (got.filterMap id)
      let s1 := (s.atTime t).modNbr cell fun r => { r with
        parts := [], missNow := 0, missed := satAdd 65535 r.missed (2 * absent.length)
        missA := if miss.getLsbD 0 then r.missA + 1 else 0
        missB := if miss.getLsbD 1 then r.missB + 1 else 0
        raised := r.raised &&& miss
        accepted := ok, lostRun := if ok then 0 else r.lostRun + 1, lostArmed := ok
        staged := ok, nextCaps := recs.1, nextZones := recs.2 }
      if !ok && r.lostArmed then s1.raise 0x1083 1 false (some (BitVec.ofNat 32 cell.val)) else s1)

/-- HALO_COPY_MISSING (R377): once per run of misses, on each channel. -/
def execHaloCopyMissing (cell : Fin 16) (t : DWord) (s : State) : Res :=
  let r := s.halo.nbrs[cell]
  let m := s.prof.saf.missMax
  let due : BitVec 2 := BitVec.ofNat 2 (bnat (decide (m < r.missA)) + 2 * bnat (decide (m < r.missB))) &&& ~~~r.raised
  let s1 := (s.atTime t).modNbr cell fun r => { r with raised := r.raised ||| due }
  .next (if due == 0 then s
    else if due == 3 then (s1.raise 0x1082 2 true).raise 0x1082 2 true
    else s1.raise 0x1082 2 true)

end Sys2Proof.Machine
end

