-- ==== Sys2Proof/Machine/SafeComm.lean ====
section
/-! DEFINITION. Plant safety telegrams (14, R379–R388): the receive checks, failure and recovery of connections, and
transmission. -/

namespace Sys2Proof.Machine

def State.modConn (s : State) (c : Fin 32) (f : Conn → Conn) : State :=
  { s with scomm := { s.scomm with conns := vmod s.scomm.conns c f } }
def State.connProf (s : State) (c : Fin 32) : ConnProf := nth s.prof.saf.conns c.val {}

/-- The receive connection that an identity names (R379). -/
def State.connOf (s : State) (id : Nat) : Option (Fin 32) :=
  (List.finRange 32).find? fun c => (s.connProf c).en && (s.connProf c).connid.toNat == id

/-- A volume record as it was received (R352). -/
def volOf (b : List Byte) : VolRec :=
  { kind := valAt b 1 1, vh := valAt b 2 2, p0 := v3Of b 4, p1 := v3Of b 0x10, r := i32At b 0x1C }

/-- VOLUME_RECORD (R365): a valid record of a bound slot replaces its content; any other is counted. -/
def State.volRecord (s : State) (c : Fin 32) (b : List Byte) : State :=
  let slot := valAt b 0 1
  if h : slot < 32 then
    if (s.connProf c).slots.contains ⟨slot, h⟩ && valAt b 1 1 ≤ 2 then
      s.modHalo fun x => { x with vols := x.vols.set slot { v := volOf b, fail := false } }
    else s.modHalo fun x => { x with badRec := satAdd 65535 x.badRec 1 }
  else s.modHalo fun x => { x with badRec := satAdd 65535 x.badRec 1 }

/-- The payload of an accepted telegram takes effect (R379, R384). -/
def State.usePayload (s : State) (c : Fin 32) (pay : List Byte) : State :=
  if (s.connProf c).signal then s.modConn c fun k => { k with buf := pay }
  else (List.range (pay.length / 32)).foldl (fun st i => st.volRecord c (bytesAt pay (32 * i) 32)) s

/-- A telegram with a cause that is an error (R384): 1 format, 2 ident, 3 crc, 4 time, 5 sequence, 7 resync.
(DEDUCED: log 64.) -/
def Conn.error (k : Conn) (cause : Nat) : Conn :=
  { k with
    cause := cause, errRun := satAdd 15 k.errRun 1
    recov := if cause = 7 then k.recov else 0
    st := if cause != 7 && k.st == .recovering then .failed else k.st
    seqErr := if cause = 5 then satAdd 255 k.seqErr 1 else k.seqErr
    timeErr := if cause = 4 then satAdd 255 k.timeErr 1 else k.timeErr
    crcErr := if cause = 3 then satAdd 255 k.crcErr 1 else k.crcErr }

/-- The fail-safe content of a connection that has failed (R365, R385). -/
def State.failSafe (s : State) (c : Fin 32) : State :=
  let p := s.connProf c
  if p.signal then s.modConn c fun k => { k with buf := p.failpay }
  else p.slots.foldl (fun (st : State) (i : Fin 32) => st.modHalo fun h => { h with vols := h.vols.set i { v := p.failvol, fail := true } }) s

/-- A receive connection fails (R365, R385, R389): its fail-safe content, and the fault of its type with the cause. -/
def State.failConn (s : State) (c : Fin 32) (cause : Nat) : State :=
  let p := s.connProf c
  let s1 := (s.modConn c fun k => { k with st := .failed, recov := 0, fails := satAdd 255 k.fails 1 }).failSafe c
  if p.signal then
    s1.raise 0x1A01 (if p.f2 then 2 else 1) p.hold
      (some (BitVec.ofNat 32 (c.val + 256 * cause + 65536 * bnat (p.f2 && p.hold))))
  else s1.raise 0x1902 1

/-- A telegram with an error on a connection: one that is OK fails at its ERRMAX-th error in a row (R384, R385). -/
def State.connError (s : State) (c : Fin 32) (cause : Nat) : State :=
  let s1 := s.modConn c fun k => k.error cause
  if (s.scomm.conns[c]).st == .ok && decide ((s.connProf c).errmax ≤ (s1.scomm.conns[c]).errRun) then s1.failConn c cause else s1

/-- A telegram that passed the checks up to its age, on a connection that is not OK (R386). -/
def State.resync (s : State) (c : Fin 32) (seq : BitVec 16) (age : Word) (pay : List Byte) : State :=
  let p := s.connProf c
  let k := s.scomm.conns[c]
  let d := (seq - k.slast).toNat
  let n := if k.st == .failed then 1 else if 1 ≤ d && d ≤ p.seqwin then k.recov + 1 else 0
  if n = 0 then s.modConn c fun k => { k.error 7 with st := .failed, recov := 0 }
  else if p.recovn ≤ n then
    (s.modConn c fun k => { k with st := .ok, slast := seq, recov := p.recovn, errRun := 0, cause := 0, age := age }).usePayload
      c pay
  else s.modConn c fun k => { k.error 7 with st := .recovering, slast := seq, recov := n }

/-- TELEGRAM_RECEIVE (R380–R386): `rx` is the plant time of the port at reception, in µs. (DEDUCED: log 64.) -/
def execTelegramReceive (bytes : List Byte) (srcIp : Word) (srcPort : Nat) (port : Fin 2) (rx : Word) (t : DWord)
    (s : State) : Res :=
  let id := valAt bytes 0 4
  let len := valAt bytes 6 1
  let s0 := s.atTime t
  let fmt := bytes.length == 16 + len && decide (len ≤ 64) && valAt bytes 7 1 == 0
  let known := if 4 ≤ bytes.length then s.connOf id else none
  .next (match fmt, known with
    | false, none => s0
    | false, some c => s0.connError c 1
    | true, none =>
      let s1 := { s0 with scomm := { s0.scomm with unk := satAdd 65535 s0.scomm.unk 1 } }
      let quiet : Bool := match s.scomm.unkAt with | some x => decide (t.toNat < x + 1000000000) | none => false
      if quiet then s1
      else ({ s1 with scomm := { s1.scomm with unkAt := some t.toNat } } : State).raise 0x1A02 0 false (some (BitVec.ofNat 32 id))
    | true, some c =>
      let p := s.connProf c
      let k := s.scomm.conns[c]
      let pay := bytesAt bytes 12 len
      let ts := BitVec.ofNat 32 (valAt bytes 8 4)
      let age := rx - ts
      let seq := BitVec.ofNat 16 (valAt bytes 4 2)
      let d := (seq - k.slast).toNat
      if srcIp != p.srcIp || srcPort != p.srcPort || port != p.port then s0.connError c 2
      else if (crc32c p.key (bytes.take (12 + len))).toNat != valAt bytes (12 + len) 4 then s0.connError c 3
      else if !s.scomm.valid.getLsbD port.val || age.toInt < -1000 || (p.texp * 1000 : Nat) < age.toInt then
        s0.connError c 4
      else if k.st != .ok then s0.resync c seq age pay
      else if d = 0 then s0.modConn c fun k => { k with cause := 6 }
      else if p.seqwin < d then s0.connError c 5
      else (s0.modConn c fun k => { k with slast := seq, cause := 0, errRun := 0, age := age }).usePayload c pay)

/-- SAFE_CONN_FAIL (R365, R385, R389): after ERRMAX consecutive errors, or TEXP after the last acceptance. -/
def execSafeConnFail (c : Fin 32) (t : DWord) (s : State) : Res :=
  let p := s.connProf c
  let k := s.scomm.conns[c]
  .next (if !(p.en && k.st == .ok) then s
    else (s.atTime t).failConn c (if p.errmax ≤ k.errRun then k.cause else 0))

/-- TELEGRAM_SEND (R387): `ts` is the port's plant time and `payload` the transmit buffer as it stands. -/
def execTelegramSend (k : Fin 8) (ts : Word) (payload : List Byte) (s : State) : Res :=
  .next (match s.prof.saf.txs[k.val]? with
    | none => s
    | some p =>
      if !s.scomm.valid.getLsbD p.port.val then s
      else
        let seq := s.scomm.txSeq[k]
        let pay := payload.take 64
        let body := leBytes p.connid.toNat 4 ++ leBytes seq.toNat 2 ++ leBytes pay.length 1 ++ [0] ++ leBytes ts.toNat 4 ++ pay
        ({ s with scomm := { s.scomm with txSeq := s.scomm.txSeq.set k (seq + 1) } } : State).out
          (.telegram p.port (body ++ leBytes (crc32c p.key body).toNat 4)))

/-- SAFE_TIME_INVALID (R382). -/
def execSafeTimeInvalid (port : Fin 2) (t : DWord) (s : State) : Res :=
  .next (if s.scomm.valid.getLsbD port.val then
    ({ s.atTime t with scomm := { s.scomm with valid := bitSet s.scomm.valid port.val false } } : State).raise 0x1A03 1 false
      (some (BitVec.ofNat 32 port.val))
  else s)

/-- PLANT_TIME_VALID (R382). -/
def execPlantTimeValid (port : Fin 2) (s : State) : Res :=
  .next { s with scomm := { s.scomm with valid := bitSet s.scomm.valid port.val true } }

end Sys2Proof.Machine
end

