-- ==== Sys2Proof/Machine/Boot.lean ====
section
/-! DEFINITION. Start-up, profiles and power (R494–R509, R542, R543): the device resets, the boot stages with the journal
scan of R475, the start of the tick sequencer, profile switches, the power states, and the always-on domain. -/

namespace Sys2Proof.Machine

def State.modBoot (s : State) (f : Boot → Boot) : State := { s with boot := f s.boot }

/-! ### The last-fault record (R344, R503) -/

/-- The 32 bytes of a log entry (R344). -/
def LogEntry.bytes (e : LogEntry) : List Byte :=
  leBytes e.code.toNat 2 ++ [e.flags, e.block] ++ leBytes e.detail.toNat 4 ++ leBytes e.stamp.toNat 8 ++ leBytes e.epoch 8
    ++ leBytes e.seq.toNat 4 ++ leBytes e.count 2 ++ leBytes 0 2

/-- The latest entry of class F2 or F3 in the log. -/
def Saf.latestF23 (f : Saf) : Option LogEntry :=
  (f.log.map fun (e : Nat × LogEntry) => e.2).foldl (fun (best : Option LogEntry) e =>
    if e.code.toNat < 0x8000 then best
    else match best with
      | some b => if (e.seq - b.seq).toInt < 0 then best else some e
      | none => some e) none

/-- The record with its CRC: 256 bytes. -/
def lastFaultBytes (entry : List Byte) (epoch boot cause : Nat) : List Byte :=
  let b := bytesAt (bytesAt entry 0 32 ++ leBytes epoch 8 ++ leBytes boot 4 ++ [1, BitVec.ofNat 8 cause]) 0 0xFC
  b ++ leBytes (crc32c 0xFFFFFFFF b).toNat 4

/-- Writes the record: CAUSE 0 a fault, 1 Standby entry. The AON domain is not written in replay (R470). -/
def State.writeLastFault (s : State) (cause : Nat) : State :=
  if s.eph.replay then s
  else
    let e := match s.saf.latestF23 with | some e => e.bytes | none => []
    { s with aon := { s.aon with lastFault := lastFaultBytes e s.epoch s.aon.boot cause } }

/-! ### Device resets (R494–R496) -/

/-- What a warm reset keeps of a line: its counters, the filtered levels of its inputs, and the index seen since power-on
(R67, R494). The index reference, the window of QERRs, LINE_FAULT and the estimator start anew. (DESIGN CHOICE: log 54.) -/
def Line.warm (l : Line) : Line :=
  { ab := l.ab, zCond := l.zCond, hw := l.hw, hwLatch := l.hwLatch, ext := l.ext, uncert := l.uncert, qerr := l.qerr
    idxSeen := l.idxSeen, idxCnt := l.idxCnt, idxTime := l.idxTime, latch := { l.latch with fault := false } }

/-- What a warm reset keeps of Ephemeris (R465, R477); what host software received stays in its memory. -/
def Eph.warm (e : Eph) : Eph :=
  { ring := e.ring, wrapped := e.wrapped, newest := e.newest, copied := e.copied, pin := e.pin, filling := e.filling
    trunc := e.trunc, pinMiss := e.pinMiss, pinFrom := e.pinFrom, pinEnd := e.pinEnd
    slots := vmap (fun _ (k : KfSlot) => match k with | .capturing _ => .empty | x => x) e.slots }

/-- A device reset (R494, R495): `causes` is CLK_RSTCAUSE of the boot that follows. Pin levels, what stands in other devices
and what was sent before stay as they are; the challenge is drawn anew (R532). (DEDUCED: log 74.) -/
def State.afterReset (s : State) (warm : Bool) (causes : Nat) (slot : Fin 4) : State :=
  let r := State.reset
  ({ r with
    pending := s.pending, outbox := s.outbox, free := s.free, variant := s.variant, uid := s.uid, now := s.now, slots := s.slots
    aonSid := s.aonSid, aon := { s.aon with boot := satAdd (2 ^ 32 - 1) s.aon.boot 1 }
    jrn := { r.jrn with entries := if warm then s.jrn.entries else [], next := s.aon.jseq + 1, last := s.aon.jseq }
    lines := if warm then vmap (fun _ l => Line.warm l) s.lines else r.lines
    eph := if warm then s.eph.warm else { r.eph with copied := s.eph.copied }
    saf := { r.saf with estA := s.saf.estA, estB := s.saf.estB, sin := s.saf.sin, rstPin := s.saf.rstPin }
    mer := { r.mer with nodes := s.mer.nodes, vals := s.mer.vals, lostNodes := s.mer.lostNodes }
    clk := if warm then { r.clk with pcieRef := s.clk.pcieRef, resync := s.clk.resync, xdrop := s.clk.xdrop } else r.clk
    host := { r.host with linkDown := warm && s.host.linkDown }
    boot := { r.boot with slot := slot, psel := s.boot.psel, rstCause := BitVec.ofNat 7 causes, warmStart := warm } } : State).newChal

/-- POWER_ON_RESET (R494–R496, R499, R542): PSEL names the slot; an AON domain that lost both sources reads 0.
(DEDUCED: log 74.) (DESIGN CHOICE: log 86.) -/
def execPowerOnReset (psel : Fin 4) (standby powerLoss aonLost : Bool) (s : State) : Res :=
  let s0 : State := if aonLost then { s with aon := { boot := 0 }, aonSid := 0 } else s
  let causes := if standby || powerLoss then 2 * bnat standby + 4 * bnat powerLoss else 1
  .next ((s0.afterReset false causes psel).modBoot fun b => { b with psel := psel })

/-- Whether the device is powered. -/
def State.powered (s : State) : Bool := s.boot.power != .standby && s.boot.power != .off

/-- WARM_RESET (R494, R533, R538): WRST_N or DBG; `hold` says that scan, memory self-test or TESTEN holds the device in it.
(DESIGN CHOICE: log 86.) -/
def execWarmReset (pin dbg hold : Bool) (s : State) : Res :=
  .next (if s.powered then (s.afterReset true (8 * bnat pin + 64 * bnat dbg) s.boot.slot).modDbg fun d => { d with hold := hold } else s)

/-- WARM_RESET_REQUEST (R494): a write of CLK_RESET with its key. -/
def execWarmResetRequest (key : BitVec 16) (s : State) : Res :=
  .next (if key == 0xD4A3 && s.powered then s.afterReset true 16 s.boot.slot else s)

/-- SCAN_ENTRY (R489, R533): entry to boundary scan or memory self-test needs full scope and holds the device in warm
reset. -/
def execScanEntry (s : State) : Res :=
  .next (if s.dbg.scope == 2 then (s.afterReset true 64 s.boot.slot).modDbg fun d => { d with hold := true } else s)

/-! ### Boot (R497) and the journal scan (R475) -/

/-- Whether a sequence number is later than another (R54). -/
def seqLater (a b : Word) : Bool := decide (0 < (a - b).toInt)

/-- Entries in ascending sequence order. -/
def jInsert (e : Nat × JEntry) : List (Nat × JEntry) → List (Nat × JEntry)
  | [] => [e]
  | x :: xs => if seqLater x.2.seq e.2.seq then e :: x :: xs else x :: jInsert e xs
def jOrder (l : List (Nat × JEntry)) : List (Nat × JEntry) := l.foldl (fun l e => jInsert e l) []

/-- Posts entries to the host as INTERRUPTED, in ascending sequence order, and frees them (R475, R499). -/
def State.postInterrupted (s : State) (l : List (Nat × JEntry)) : State :=
  let s1 := l.foldl (fun (st : State) e => st.postCq (JEntry.record e.2 0xFFFF true)) s
  { s1 with jrn := { s1.jrn with
      entries := s1.jrn.entries.filter fun e => !(l.any fun x => x.1 == e.1), intr := satAdd 255 s1.jrn.intr l.length } }

/-- JOURNAL_SCAN (R475): `corrupt` are the indices whose CRC fails. -/
def State.journalScan (s : State) (corrupt : List Nat) : State :=
  let bad := s.jrn.entries.filter fun e => corrupt.contains e.1
  let s1 := bad.foldl (fun (st : State) e => st.raise 0x1606 1 false (some (BitVec.ofNat 32 e.1))) s
  let good := jOrder (s.jrn.entries.filter fun e => !corrupt.contains e.1 && !seqLater e.2.seq s.aon.jseq)
  let s2 : State := { s1 with jrn := { s1.jrn with
    entries := s1.jrn.entries.filter fun e => good.any fun x => x.1 == e.1
    replay := vmap (fun c _ => (good.filter fun e => e.2.idem && e.2.core.val == c).map fun e => e.2.seq) s1.jrn.replay } }
  s2.postInterrupted (good.filter fun e => !e.2.idem)

/-- Writes the bytes of an image. (DESIGN CHOICE: log 75.) -/
def loadImage (l : List (Nat × Byte)) : Memory := l.foldl (fun m e => Memory.write m e.1 e.2) []

/-- One word of a lane image: lane, memory (0 program, 1 X, 2 Y), address and value. -/
def State.loadLane (s : State) (e : Nat × Nat × Nat × Nat) : State :=
  if h : e.1 < 32 then
    { s with lanes := vmod s.lanes ⟨e.1, h⟩ fun l =>
      if e.2.1 = 0 then { l with prog := assocSet l.prog e.2.2.1 (BitVec.ofNat 32 e.2.2.2) }
      else if e.2.1 = 1 then { l with x := assocSet l.x e.2.2.1 (BitVec.ofNat 16 e.2.2.2) }
      else { l with y := assocSet l.y e.2.2.1 (BitVec.ofNat 16 e.2.2.2) } }
  else s

/-- A joint record of an arm model image (R209). -/
def jointModelOf (b : List Byte) : JointModel where
  prismatic := nth b 0 0 == 2
  cscale := BitVec.ofNat 64 (valAt b 8 8)
  coffs := (BitVec.ofNat 64 (valAt b 0x10 8)).toInt
  link := f64sAt b 0x18 12
  axis := f64sAt b 0x78 3
  mass := BitVec.ofNat 64 (valAt b 0x90 8)
  com := f64sAt b 0x98 3
  inertia := f64sAt b 0xB0 6
  rotor := BitVec.ofNat 64 (valAt b 0xE0 8)
  visc := BitVec.ofNat 64 (valAt b 0xE8 8)
  coul := BitVec.ofNat 64 (valAt b 0xF0 8)

/-- The arm entry with the model that its image holds (R209): a header of 256 bytes, then NJ joint records. -/
def ArmProf.parsed (p : ArmProf) : ArmProf :=
  let b := p.image
  if b.isEmpty then p
  else { p with
    base := f64sAt b 8 12, tool := f64sAt b 0x68 12, pmass := BitVec.ofNat 64 (valAt b 0xC8 8), pcom := f64sAt b 0xD0 3
    model := (List.range (nth b 0 0).toNat).map fun j => jointModelOf (bytesAt b (256 + 256 * j) 256) }

/-- Stage 6 (R73, R274, R385, R497): code, data, lanes, safety code and register values of the profile; connections start
failed with their fail-safe content. (DESIGN CHOICE: log 2.) (DESIGN CHOICE: log 17.) -/
def State.loadProfile (s : State) : State :=
  let p := s.slots[s.boot.slot]
  let s1 : State := { s with
    prof := { p with slot := s.boot.slot.val, arms := p.arms.map (Option.map ArmProf.parsed) }
    data := loadImage p.dataImage, code := loadImage p.codeImage, scode := loadImage p.safeCode
    codeLocked := true, hashOk := true
    regs := p.regInit.foldl (fun b e => assocSet b e.1 e.2) s.regs }
  let s2 := p.laneImage.foldl State.loadLane s1
  (List.finRange 32).foldl (fun (st : State) i =>
    if (st.connProf i).en then st.failSafe i else st) s2

/-- Stage 7 (R400, R497): Meridian start-up begins, and the safety core runs. -/
def State.startMeridian (s : State) (t : DWord) : State :=
  let m := s.prof.mer
  (s.modMer fun x => { x with
    stage7 := some t.toNat
    cold := if m.permit then .listen (t.toNat + 2 * s.matrixNs + m.csaddr * 200000) else .follower }).modCore 9 fun _ => { mode := .running }

/-- A core's class 0x14 event with the number of its replayable entries (R142), at boundary `n`. -/
def State.tellReplay (s : State) (c : Fin 9) (n : Nat) : State :=
  let k := (s.jrn.replay[c]).length
  if k = 0 || s.jrn.told.getLsbD c.val then s
  else { s with
    cellEvs := s.cellEvs ++ [(n, c, mkEv 0x14 0 k)]
    jrn := { s.jrn with told := s.jrn.told ||| BitVec.ofNat 9 (2 ^ c.val) } }

/-- TICK_SEQUENCER_START (R18, R66, R497, R504, R508): at LOCKED, at time `t`, the first tick boundary is the next one; the
cores of AUTOSTART start there at a boot, with their class 0x14 events. (DEDUCED: log 76.) -/
def execTickSequencerStart (t : DWord) (s : State) : Res :=
  let n := t.toNat / s.tTick + 1
  let boot := s.boot.stage == 7
  .next (if s.running || !(boot || s.boot.power == .dawn) || s.mer.sync != .locked || s.boot.failed then s
    else
      let s1 : State := { s with
        running := true, epoch := n - 1, now := t, published := none, view := none
        boot := { s.boot with stage := 8, ready := true, power := .run, sessionAt := n } }
      let s2 := if boot then (List.finRange 9).foldl (fun (st : State) c =>
          if st.prof.autostart.getLsbD c.val then
            let off := 0x40100 + 0x40 * c.val
            let st1 : State := { st.setReg off 1 with due := assocSet st.due off 1 }
            st1.tellReplay c n
          else st) s1 else s1
      s2.msix 8)

/-! ### Profile switch (R499, R526) -/

/-- The standstill of R499. -/
def State.switchable (s : State) : Bool :=
  (s.arms.toList.all s.armStands) && (s.aux.toList.all fun g => g.queue.isEmpty && f64IsZero g.v) && !s.eph.replay

/-- PROFILE_SWITCH (R499, R509, R526): an accepted switch posts the whole journal as INTERRUPTED and performs a warm reset
into the new slot. -/
def execProfileSwitch (slot : Fin 4) (key : BitVec 16) (s : State) : Res :=
  .next (if key != 0x5E1C || !s.powered then s
    else if s.boot.failed || s.switchable then
      let s1 := (s.postInterrupted (jOrder s.jrn.entries)).cqFlush
      let s2 : State := { s1 with jrn := {} }
      s2.afterReset true 32 slot
    else s.modBoot fun b => { b with swref := true })

/-! ### Power states (R505–R509, R543) -/

def State.refusePower (s : State) : State := s.modBoot fun b => { b with pwrRefused := true }

/-- QUIET_REQUEST (R506): only in STO with every planner core stopped or halted and no replay; the tick in progress is the
last one. (DEDUCED: log 77.) -/
def execQuietRequest (s : State) : Res :=
  let still := (List.range 9).all fun c => let m := (s.core ⟨c % 10, Nat.mod_lt _ (by decide)⟩).mode; m == .stopped || m == .halted
  .next (if s.boot.power == .run && s.boot.ready && s.saf.state == .sto && still && !s.eph.replay then
    (s.modBoot fun b => { b with power := .quiet }).msix 8
  else s.refusePower)

/-- DAWN_REQUEST (R508): out of Quiet; a new Ephemeris session begins and the boot counter advances. -/
def execDawnRequest (s : State) : Res :=
  .next (if s.boot.power == .quiet then
    let s1 : State := { s with
      running := false
      aon := { s.aon with boot := satAdd (2 ^ 32 - 1) s.aon.boot 1 }
      eph := { s.eph with seq := 0 } }
    (s1.modBoot fun b => { b with power := .dawn }).msix 8
  else s.refusePower)

/-- STANDBY_REQUEST (R503, R506): only in Quiet with the journal empty; the last-fault record is written and PWR_EN driven
low. (DEDUCED: log 77.) -/
def execStandbyRequest (s : State) : Res :=
  .next (if s.boot.power == .quiet && s.jrn.entries.isEmpty then
    (((s.writeLastFault 1).modBoot fun b => { b with power := .standby, pwrEn := false }).out (.pwrEn false))
  else s.refusePower)

/-- WAKE (R543): WAKE_N low for 1 ms in Standby releases PWR_EN. -/
def execWake (s : State) : Res :=
  .next (if s.boot.power == .standby then (s.modBoot fun b => { b with pwrEn := true }).out (.pwrEn true) else s)

/-- VBAT_APPLY (R543). -/
def execVbatApply (s : State) : Res := .next ((s.modBoot fun b => { b with pwrEn := true }).out (.pwrEn true))

/-- COARSE_SIDEREAL_LOAD (R502): while LOCKED, and never backwards. -/
def execCoarseSiderealLoad (t : DWord) (s : State) : Res :=
  let c := s.crystal
  .next (if s.mer.sync == .locked && !s.eph.replay && decide (c.aonSid.toNat ≤ t.toNat) then { c with aonSid := t } else c)

end Sys2Proof.Machine
end

