-- ==== Sys2Proof/Machine/Faults.lean ====
section
/-! DEFINITION. A fault reaches the fault queue (R317–R325), with the pinned window (R464) and the last-fault record (R503)
that an F2 or F3 brings with it. -/

namespace Sys2Proof.Machine

/-- A report as it is ordered: an F2 that escalates counts as F3 (R323, R324). -/
def State.asTaken (s : State) (r : FaultRep) : FaultRep := if s.escalates r then { r with cls := 3, hold := false } else r

/-- One report: the queue takes it in; an F2 or F3 that is taken pins a window, and each rewrites the last-fault record.
(DEDUCED: log 13.) -/
def State.reportOne (t : DWord) (s : State) (r : FaultRep) : State :=
  let s1 := s.intake t r
  let isReact := s1.saf.react.isSome && s1.saf.react != s.saf.react
  if (s.asTaken r).cls < 2 then s1
  else
    let s2 := s1.writeLastFault 0
    if isReact then s2.pinFault (s.stampAt t) else s2

/-- Where a report stands among those of one SAFE cycle, by the class it is taken with (R323). (DEDUCED: log 56.) -/
def State.reportInsert (s : State) (r : FaultRep) : List FaultRep → List FaultRep
  | [] => [r]
  | x :: xs => if FaultRep.before (s.asTaken x) (s.asTaken r) then x :: s.reportInsert r xs else r :: x :: xs

/-- The F2 and F3 that were taken from the queue since `old` pin, or find the pin held (R464). -/
def State.pinDrained (old s : State) (t : DWord) : State :=
  (old.saf.queue.filter fun (q : QFault) => decide (2 ≤ q.rep.cls) && !s.saf.queue.contains q).foldl
    (fun (st : State) _ => st.pinFault (old.stampAt t)) s

/-- FAULT_REPORT (R321–R324): the `n` oldest reports reach the queue in one SAFE cycle, at time `t`. -/
def execFaultReport (n : Nat) (t : DWord) (s : State) : Res :=
  let s0 := State.pinDrained s s.settleFaults t
  let now := (s0.reports.take n).foldl (fun l r => s0.reportInsert r l) []
  let s1 : State := { s0 with reports := s0.reports.drop n }
  .next (now.foldl (State.reportOne t) s1)

/-- FAULT_DEQUEUE (R321, R322): a reaction has ended, and the queue is drained. -/
def execFaultDequeue (s : State) : Res := .next (State.pinDrained s s.settleFaults s.now)

/-- DUSK_REST (R322, R327, R328). -/
def execDuskRest (t : DWord) (s : State) : Res := .next (State.pinDrained s (s.duskRest t) t)

end Sys2Proof.Machine
end

