-- ==== Sys2Proof/Machine/Boundary.lean ====
section
/-! DEFINITION. The tick boundary (R22, R23, R26, R35–R40, R85–R87, R305, R317, R326, R333), the publication of the Almanac
with its tick block (R30–R35, R459), and the commits of the journal (R473, R474). -/

namespace Sys2Proof.Machine

/-! ### Step 1: the reactions of the SAFE domain -/

/-- A class 0x05 event to every running core (R86, R317). -/
def State.safetyEvent (s : State) : State :=
  (List.finRange 9).foldl (fun (st : State) c =>
    if st.coreLive c.castSucc then
      (st.deliver c (mkEv 5 0 s.coreSafety.num) 0).modCore c.castSucc fun k => { k with safetyEv := true }
    else st) s

/-- The safe outputs with OFFAT = 1 (R326). -/
def State.offAt (s : State) : Byte :=
  BitVec.ofNat 8 ((List.range 8).foldl (fun m i => m + (if bitOf (s.sinCfg i) 7 then 2 ^ i else 0)) 0)

/-- Dusk is applied (R173, R199, R271, R326): generators enter their stopping state and manual mode ends. -/
def State.applyDusk (s : State) (counts : Bool) : State :=
  if s.coreSafety == .sto then s
  else
    let s1 := (List.finRange 8).foldl (fun (st : State) k => (st.withholdAll k).modArm k fun a => { a with
      stopping := if a.stopping == .stop then .stop else .dusk }) s
    let s2 : State := { s1 with
      aux := vmap (fun _ g => { g with stopping := if g.stopping == .stop then .stop else .dusk }) s1.aux
      regs := clearMan s1.regs, coreSafety := .dusk }
    let s3 := if s.eph.replay then s2 else s2.modSaf fun f => { f with
      state := if f.state == .sto then .sto else .dusk, forced := f.forced ||| s.offAt
      duskCnt := if counts then satAdd 65535 f.duskCnt 1 else f.duskCnt }
    if s.coreSafety == .dusk then s3 else s3.safetyEvent

/-- The hold begins (R173, R199, R328): arms and axes resume; an arm whose segment names a line in LINE_FAULT does not.
(DEDUCED: log 61.) -/
def State.applyHold (s : State) : State :=
  if s.coreSafety != .dusk then s
  else
    let bad (a : Arm) : Bool := match a.active with
      | x :: _ => (nth (s.lines.toList.map fun (l : Line) => l.latch.fault) x.d.line.toNat false)
      | [] => false
    ({ s with
      arms := vmap (fun _ a => if a.stopping == .dusk && !bad a then { a with stopping := .no } else a) s.arms
      aux := vmap (fun _ g => if g.stopping == .dusk then { g with stopping := .no } else g) s.aux
      coreSafety := .hold } : State).safetyEvent

/-- STO is applied (R174, R200, R272, R330); it cuts the step batches in progress. -/
def State.applySto (s : State) : State :=
  let s1 := if s.eph.replay then s else s.modSaf Saf.enterSto
  if s.coreSafety == .sto then s1 else s1.cutBatches.stoCore.safetyEvent

/-- The run state of an accepted reset edge (R333, R339). -/
def State.applyRun (s : State) : State :=
  let s1 := if s.eph.replay then s else s.modSaf fun f => { f with forced := 0 }
  if s.coreSafety == .run then s1 else ({ s1 with coreSafety := .run } : State).safetyEvent

/-- A limit set of Halo (R163, R361): binary64 m/s for the generators, binary32 for the safety summary.
(DEDUCED: log 61.) -/
def State.applyLimits (s : State) (limits seps : List Nat) : State :=
  { s with
    arms := vmap (fun k a => { a with vhalo := fratio (nth limits k 0) 1000 }) s.arms
    haloLimits := limits.map fun v => f64ToF32 (fratio v 1000)
    minsep := seps.map fun v => f64ToF32 (fratio (min v 65535000) 1000000) }

/-- Step 1 for one gate input. (DEDUCED: log 14.) -/
def State.stepOne (s : State) (i : GateItem) : State :=
  match i with
  | .safety .dusk => s.applyDusk true
  | .safety .hold => s.applyHold
  | .safety .sto => s.applySto
  | .safety .run => s.applyRun
  | .finalRamp => s.applyDusk false
  | .haloLimits l m => s.applyLimits l m
  | _ => s

/-! ### Step 2: the release of the gate -/

/-- The place of a gate input in the release order: its source, then for ring entries the ring (R23). -/
def GateIn.key (g : GateIn) : Nat × Nat := match g.item with | .ringEntry r _ _ => (g.src, r.val) | _ => (g.src, 0)
/-- Puts an input behind every input that it does not precede; arrival order holds within a source. -/
def gateInsert (g : GateIn) : List GateIn → List GateIn
  | [] => [g]
  | x :: xs =>
    let a := GateIn.key x
    let b := GateIn.key g
    if decide (a.1 < b.1) || (a.1 == b.1 && decide (a.2 ≤ b.2)) then x :: gateInsert g xs else g :: x :: xs
/-- The inputs of a release in the order of R23. -/
def releaseOrder (l : List GateIn) : List GateIn := l.foldl (fun r g => gateInsert g r) []

/-- What step 2 carries along: the state, the commits with what they take in, and the shadow writes released after the last
GO of their block. -/
structure Release where
  st   : State
  snaps : Snaps := []
  late : List (Nat × Word) := []

def Release.shadow (x : Release) (off : Nat) (v : Word) : Release := { x with st := { x.st with shadow := assocSet x.st.shadow off v } }

/-- Releases one input; `rest` are the inputs still to come. -/
def Release.one (x : Release) (g : GateIn) (rest : List GateIn) : Release :=
  match g.item with
  | .event core e =>
    let c := core.getD (x.st.route e.cls.toNat e.source.toNat)
    { x with st := x.st.deliver c e 0 }
  | .image off stamp bytes => { x with st := { x.st with data := x.st.data.writeN off (leBytes stamp.toNat 4 ++ bytes) } }
  | .ringEntry r idx bytes =>
    let st := { x.st with host := { x.st.host with
      rings := vmod x.st.host.rings r fun q => { q with released := q.released ++ [(BitVec.ofNat 32 idx, bytes)] } } }
    let more := rest.any fun (y : GateIn) => match y.item with | .ringEntry q _ _ => q == r | _ => false
    { x with st := if more then st else st.deliver (st.route 1 r.val) (mkEv 1 r.val (idx + 1)) 0 }
  | .shadow off v =>
    match blockOf off with
    | some b => if x.snaps.any fun e => e.1 == b then { x with late := x.late ++ [(off, v)] } else x.shadow off v
    | none => x
  | .commit b =>
    let mine (e : Nat × Word) : Bool := blockOf e.1 == some b
    let x1 := (x.late.filter mine).foldl (fun (y : Release) e => y.shadow e.1 e.2) { x with late := x.late.filter fun e => !mine e }
    let r := x1.st.releaseGo x1.snaps b
    { x1 with st := r.1, snaps := r.2 }
  | _ => x

def Release.all : Release → List GateIn → Release
  | x, [] => x
  | x, g :: rest => Release.all (x.one g rest) rest

/-! ### Step 3: what a commit changes beside its registers -/

/-- R305: an axis whose source or port registers changed, and a line whose window or timeout changed, start anew. -/
def AxFbk.restart (f : AxFbk) : AxFbk := { f with est := {}, conf := false, lastWord := none, lastMotor := none }

/-- An axis that a commit leaves without a source has no latch, and is in no timeout (R289, R302). -/
def AxFbk.unsourced (f : AxFbk) : AxFbk :=
  { f.restart with valid := false, stale := false, timeout := false, outage := false, toRaised := false }

def State.feedbackChange (old s : State) : State :=
  let diff (off : Nat) (mask : Word) : Bool := (old.reg off &&& mask) != (s.reg off &&& mask)
  let port (a : Nat) : Bool := s.fbkSrc a == 1 &&
    (List.range 16).any fun i => diff (0xC0100 + s.fbkPort a * 0x40 + 4 * i) 0xFFFFFFFF
  { s with
    fbk := vmap (fun a f => if diff (0xC1000 + a * 0x20) 0xCFF0FFF0 || port a then (if s.fbkSrc a = 0 then f.unsourced else f.restart) else f) s.fbk
    lines := vmap (fun n l => if diff (0xC0080 + n * 4) 0xF || diff (linCtrlOff n) 0xFFF0 then { l with est := {} } else l) s.lines }

/-! ### TICK_BOUNDARY -/

/-- The register that a shared access will write, with the cycle in which it is ready (R81). -/
def SharedAcc.pending (a : SharedAcc) (slot : Nat) : List (CReg × Nat) :=
  match a.op with
  | .load d _ _ => if d == .g 0 then [] else [(d, slot + 2)]
  | .amo d _ _ _ => if d = 0 then [] else [(.g d, slot + 3)]
  | .store _ _ => []

/-- A planner core at TCYCLE 0 of a tick (R77, R79): it has frozen at RUNCYC, what was in flight has completed, and an access
that waits through the freeze holds the memory unit to its slot of this tick (R76, R81). -/
def Core.newTick (k0 : Core) (c runcyc : Nat) : Core :=
  let k := if (k0.mode == .running || k0.mode == .waiting) && !k0.frozen then k0.freeze runcyc else k0
  { k with
    cyc := 0, frozen := false, pair := none, divFree := 0, fdivFree := 0, safetyEv := false
    pend := match k.shared with | some a => a.pending c | none => []
    memFree := if k.shared.isSome then c + 1 else 0
    shared := k.shared.map fun (a : SharedAcc) => { a with slot := c, nextTick := false }
    areaNow := k.areaNext, areaNext := none }

/-- The shared accesses whose slots lay in the tick that ends have taken effect (R77). -/
def State.settleAll (s : State) : State := (List.finRange 9).foldl (fun (st : State) c => st.settleShared c.castSucc st.runcyc) s

/-- What begins with a tick, before step 1. -/
def State.beginTick (s0 : State) : State :=
  let s := s0.settleAll
  let n := s.epoch + 1
  let outs := s.prof.ioOuts.map fun (o : IoNode) => s.data.readN o.image o.len
  let s1 : State := { s with
    epoch := n, now := BitVec.ofNat 64 (s.t0 n), outImage := outs, cutApplied := false, comApplied := false
    cores := vmap (fun c k => if c < 9 then k.newTick c s.runcyc else k) s.cores
    solver := { s.solver with clock := 0 }
    host := { s.host with rings := vmap (fun _ (q : Ring) => { q with late := 0 }) s.host.rings }
    fbk := vmap (fun _ f => { f with latch := .none, angle := none, motorOk := false, est := { f.est with ran := false }, bursts1 := f.bursts, bursts := [], lofs1 := f.lofs }) s.fbk }
  if s.eph.replay then s1 else s1.merBoundary

/-- A published set takes the place of one of the same core and kind that still waits for its Halo period (R136).
(DEDUCED: log 104.) -/
def putPub (l : List (Fin 9 × Nat × List (List Byte))) (p : Fin 9 × Nat × List (List Byte)) : List (Fin 9 × Nat × List (List Byte)) :=
  (l.filter fun q => !(q.1 == p.1 && q.2.1 == p.2.1)) ++ [p]

/-- The HPUB sets of the last tick cross to the Halo engine (R122, R136). In replay their results come from the image.
(DEDUCED: log 104.) -/
def State.crossPubs (s : State) : State :=
  let t := s.takeReqs Req.isHpub
  if s.eph.replay then t.2
  else { t.2 with halo := { t.2.halo with
    pubs := t.1.foldl (fun l (e : ReqEntry) => match e.req with | .hpub k r => putPub l (e.core, k, r) | _ => l) t.2.halo.pubs } }

/-- TICK_BOUNDARY (R26): steps 1, 2, 3 and 6, with what begins in step 7; steps 4 and 5 and the wakes of step 7 have their
own commands. Where signals become visible too, the cell events wait behind them for SIGNAL_DELIVER (R85). In Quiet the tick in progress was the last one; a replay that has stopped runs
no further tick, nor does a stopped CORE domain (R492).
(DEDUCED: log 14.) -/
def execTickBoundary (s : State) : Res :=
  .next (if !s.running || s.stopped 1 then s
    else if s.boot.power == .quiet then { s with running := false }
    else if s.eph.replay && !s.eph.rpRun then s
    else
      let s0 := s.beginTick
      let due := releaseOrder (s0.gate.filter fun g => decide (g.stamp ≤ s0.epoch))
      let s1 : State := { s0 with
        gate := s0.gate.filter fun g => !decide (g.stamp ≤ s0.epoch)
        eph := { s0.eph with released := due } }
      let s2 := due.foldl (fun (st : State) g => st.stepOne g.item) s1
      let r := Release.all { st := s2 } due
      let s3 := if r.st.reqs.any (ReqEntry.signalDue r.st) then r.st else r.st.deliverCell
      let s4 := State.feedbackChange s3 (s3.step3 r.snaps)
      let s5 := r.late.foldl (fun (st : State) e => { st with shadow := assocSet st.shadow e.1 e.2 }) s4
      let s6 := State.capCommit s5
      { s6.crossPubs with view := s6.published })

/-! ### The Almanac (R17, R30, R164, R267, R268) -/

/-- HIGHEST: the highest-class fault in progress or queued. -/
def Saf.highest (f : Saf) : Nat :=
  (f.react.toList ++ f.queue).foldl (fun (m : Nat) (q : QFault) => if m / 0x4000 < q.rep.cls || m = 0 then q.rep.full else m) 0

/-- The axis record. (DEDUCED: log 82.) -/
def State.axisRec (s : State) (a : Fin 128) : AxisRec :=
  let f := s.fbk[a]
  let k := s.cascs[a]
  let g := s.aux[a]
  let casc := s.runsCascade a.val
  let joint := (s.jointOf a.val).isSome
  let cmd := (s.axisCmd a).1
  if !s.axisPresent a.val || !(joint || (s.auxProf a.val).isSome) then {}
  else
    let feed := s.hasFeedback a.val
    let ipeak := fld (s.auxReg a.val 0) 29 20
    let stepper := match s.auxProf a.val with | some p => (match p.out with | .step _ => true | _ => false) | none => false
    { act := BitVec.ofInt 64 (if joint || feed || !stepper then s.axisAct a else g.cmd2)
      cmd := BitVec.ofInt 64 cmd
      vel := BitVec.ofInt 32 f.speed
      spt := BitVec.ofInt 32 (if casc then k.u else ffInt g.v)
      err := BitVec.ofInt 32 (if casc then k.ep else if feed then sat32 (g.cmd2 - s.axisAct a) else 0)
      status := bits4 (f.stale && s.fbkSrc a.val != 0) (if joint then k.atLim else g.atLimit)
        (if casc then k.sat else g.icur == ipeak) (if casc then k.fault else false)
      mode := if s.mans[a] then 3 else if joint then 1 else 2 }

/-- The arm record. (DEDUCED: log 82.) -/
def State.armRec (s : State) (k : Fin 8) : ArmRec :=
  match s.armProf k.val with
  | none => {}
  | some p =>
    let a := s.arms[k]
    let qs := List.zipWith (fun (m : JointModel) (c : Fin 128) => m.coord s.fbk[c].act) p.model p.joints
    let tcp := mPos (ArmProf.toolFrame p p.base (chainFrames p.model qs p.base))
    { segId := match a.active with | x :: _ => x.d.segId | [] => if s.armState a == 4 || a.stopped then a.lastSegId else 0
      gen := a.gen
      line := match a.active with | x :: _ => x.d.line | [] => 0xFF
      state := s.armState a
      s := a.s, sigma := a.sigma, vhalo := a.vhalo
      tcpX := nth tcp 0 0, tcpY := nth tcp 1 0, tcpZ := nth tcp 2 0 }

/-- What the SAFE domain gives the safety summary; in replay it is the recorded one. -/
def State.safSummary (s : State) : BitVec 16 × Byte × Word × Nat :=
  match s.eph.rpNow with
  | some b => b.sum
  | none => (BitVec.ofNat 16 s.saf.highest, BitVec.ofNat 8 s.saf.queue.length, s.halo.period, s.saf.duskCnt)

/-- The Almanac of the tick in progress (R30). -/
def State.almanac (s : State) : Almanac :=
  let axes := (List.finRange 128).map s.axisRec
  let stale := axes.any fun (r : AxisRec) => r.status.getLsbD 0
  let flags := bnat (s.epoch % s.prof.planDiv == 0) + 2 * bnat (s.epoch % s.prof.haloDiv == 0) + 4 * bnat s.cutApplied
    + 8 * bnat s.comApplied + 16 * bnat stale + 32 * bnat (s.coreSafety == .dusk || s.coreSafety == .hold) + 64 * bnat (s.coreSafety == .sto)
  let sum := s.safSummary
  { epoch := BitVec.ofNat 64 s.epoch, t0 := BitVec.ofNat 64 (s.t0 s.epoch), flags := BitVec.ofNat 32 flags
    planGen := s.planGen, rate := BitVec.ofNat 32 s.rateHz
    axes := axes, arms := (List.finRange 8).map s.armRec, lines := (List.finRange 8).map s.lineRec
    safety := BitVec.ofNat 32 s.coreSafety.num, highest := sum.1, qdepth := sum.2.1, haloCnt := sum.2.2.1
    duskCnt := BitVec.ofNat 16 sum.2.2.2
    limits := (List.range 8).map fun k => nth s.haloLimits k 0, minsep := (List.range 8).map fun k => nth s.minsep k 0
    areas := ((List.finRange 9).map fun c => bytesAt (s.core c.castSucc).area 0 256)
    jseq := s.jrn.last, ringCons := (List.finRange 4).map fun r => (s.host.rings[r]).cons - BitVec.ofNat 32 (s.host.rings[r]).late }

/-- EN and SLOTS_LOG2 of ALM_PUSH_CTRL: the host slot of an Almanac, if it is pushed (R34, R511, R527). -/
def State.pushSlot (s : State) (a : Almanac) : Option Nat :=
  let cfg := s.regN 0x20010
  if bitOf cfg 0 && !s.host.pushOff && !bitOf s.host.susp.toNat 0 then some (a.epoch.toNat % 2 ^ fld cfg 7 4) else none

/-- The push that starts at a publication: slot s of the host lies at ALM_PUSH_BASE + s × 0x2000 (R34). -/
def State.pushStart (s : State) (a : Almanac) : Option PushDma :=
  (s.pushSlot a).map fun i =>
    ⟨i, BitVec.ofNat 64 ((s.reg 0x2001C).toNat * 2 ^ 32 + (s.reg 0x20018).toNat + i * 0x2000), a⟩

/-- The writes of a push in ascending address order: the header EPOCH first, the trailer EPOCH last (R32). -/
def PushDma.writes (p : PushDma) : List Out :=
  [.host p.addr (leBytes p.alm.epoch.toNat 8),
   .host (p.addr + 8) ((List.range 0x1FF0).map fun i => p.alm.byte (8 + i)),
   .host (p.addr + 0x1FF8) (leBytes p.alm.epoch.toNat 8)]

/-- A push ends: its slot is written, whatever the push registers hold by now (R46), and vector 2 follows slot 0 (R34,
R517). (DESIGN CHOICE: log 110.) -/
def State.pushDone (s : State) : State :=
  match s.push with
  | none => s
  | some p =>
    let s1 : State := { s with push := none, outbox := s.outbox ++ p.writes }
    if p.slot = 0 then s1.msix 2 else s1

/-- A program area takes what the core published for this tick (R137). -/
def Core.publishArea (k : Core) : Core :=
  match k.areaNow with
  | some b => { k with area := b, areaNow := none }
  | none => k

/-- ALMANAC_PUBLISH (R30–R32, R46, R137, R459): program areas take what was published for this tick; the tick block is
closed; an earlier push that still runs is finished first. (DESIGN CHOICE: log 110.) -/
def execAlmanacPublish (s : State) : Res :=
  .next (if !s.running then s
    else
      let s0 : State := { s with cores := vmap (fun _ k => Core.publishArea k) s.cores }
      let a := s0.almanac
      let stale := a.axes.any fun (r : AxisRec) => r.status.getLsbD 0
      let s1 := if s0.push.isSome then ({ s0.pushDone with pushLate := true } : State) else s0
      let s2 : State := { s1 with
        published := some a, staleTicks := satAdd 65535 s1.staleTicks (bnat stale)
        push := s1.pushStart a }
      s2.closeBlock a)

/-- ALMANAC_PUSH (R34): the push of the Almanac completes; what the checks of the words it copied found is counted (R345). -/
def execAlmanacPush (s : State) (err : Ecc := .clean) : Res := .next (if s.push.isSome then s.pushDone.eccNote 6 err else s.pushDone)

/-! ### The journal (R473, R474) -/

/-- The free entry of lowest index. -/
def Journal.freeIdx (j : Journal) : Option Nat := (List.range 2048).find? fun i => !(assocHas j.entries i)

/-- JOURNAL_COMMIT (R139, R473): the JREC entries of the last tick are committed, each with its CRC and then the sequence
number in the AON domain. (DEDUCED: log 73.) -/
def execJournalCommit (s : State) : Res :=
  let t := s.takeReqs Req.isJrec
  .next (t.1.foldl (fun (st : State) e => match e.req, st.jrn.freeIdx with
    | .jrec seq idem ring ridx b, some i =>
      let x : JEntry := ⟨seq, idem, e.core, ring, ridx, st.epoch, bytesAt b 0 64⟩
      { st with
        jrn := { st.jrn with entries := assocSet st.jrn.entries i x, last := seq }
        aon := if st.eph.replay then st.aon else { st.aon with jseq := seq } }
    | _, _ => st) t.2)

/-- JDONE_COMMIT (R474, R524): the entry is freed and its completion posted, in the order in which JDONEs commit. -/
def execJdoneCommit (s : State) : Res :=
  let t := s.takeReqs Req.isJdone
  .next (t.1.foldl (fun (st : State) e => match e.req with
    | .jdone seq result => match st.jrn.entries.find? fun (x : Nat × JEntry) => x.2.seq == seq with
      | some x => ({ st with jrn := { st.jrn with entries := assocDel st.jrn.entries x.1 } } : State).postCq (JEntry.record x.2 result false)
      | none => st
    | _ => st) t.2)

end Sys2Proof.Machine
end

