-- ==== Sys2Proof/Machine/CoreFp.lean ====
section
/-! DEFINITION. Binary64 instructions of the planner cores (R104–R107): groups 0x04 and 0x05. The safety core has
none of them (R113), so their core operand is a planner core. -/

namespace Sys2Proof.Machine

/-- An operation on two f registers with a binary64 result and flags. -/
def State.fpRR (s : State) (c : Fin 9) (cls : IssClass) (fd fa fb : Fin 32) (f : DWord → DWord → DWord × FFlags) : Res :=
  s.exec1 c.castSucc cls [.f fa, .f fb] (some (.f fd)) fun k =>
    (k.wf fd (f (k.rf fa) (k.rf fb)).1).orFF (f (k.rf fa) (k.rf fb)).2

/-- A compare of two f registers: 1 or 0 to gd, with flags. -/
def State.fpCmp (s : State) (c : Fin 9) (rd fa fb : Fin 32) (f : DWord → DWord → Bool × FFlags) : Res :=
  s.exec1 c.castSucc .fpShort [.f fa, .f fb] (dstG rd) fun k =>
    (k.wg rd (if (f (k.rf fa) (k.rf fb)).1 then 1 else 0)).orFF (f (k.rf fa) (k.rf fb)).2

/-- A fused multiply-add with the signs of R107. -/
def State.fpFma (s : State) (c : Fin 9) (np na : Bool) (fd fa fb fc : Fin 32) : Res :=
  s.exec1 c.castSucc .fp [.f fa, .f fb, .f fc] (some (.f fd)) fun k =>
    (k.wf fd (f64Fma np na (k.rf fa) (k.rf fb) (k.rf fc)).1).orFF (f64Fma np na (k.rf fa) (k.rf fb) (k.rf fc)).2

/-- The sign transfers of R104: magnitude of the first operand with a sign. -/
def f64WithSign (a : DWord) (neg : Bool) : DWord := f64Abs a ||| (if neg then 0x8000000000000000 else 0)

/-- FADD (R104). -/
def execFadd (c : Fin 9) (fd fa fb : Fin 32) (s : State) : Res := s.fpRR c .fp fd fa fb f64Add
/-- FSUB (R104). -/
def execFsub (c : Fin 9) (fd fa fb : Fin 32) (s : State) : Res := s.fpRR c .fp fd fa fb f64Sub
/-- FMUL (R104). -/
def execFmul (c : Fin 9) (fd fa fb : Fin 32) (s : State) : Res := s.fpRR c .fp fd fa fb f64Mul
/-- FDIV (R104). -/
def execFdiv (c : Fin 9) (fd fa fb : Fin 32) (s : State) : Res := s.fpRR c .fdiv fd fa fb f64Div
/-- FMIN (R105). -/
def execFmin (c : Fin 9) (fd fa fb : Fin 32) (s : State) : Res := s.fpRR c .fp fd fa fb (f64MinMax false)
/-- FMAX (R105). -/
def execFmax (c : Fin 9) (fd fa fb : Fin 32) (s : State) : Res := s.fpRR c .fp fd fa fb (f64MinMax true)
/-- FSGNJ (R104). -/
def execFsgnj (c : Fin 9) (fd fa fb : Fin 32) (s : State) : Res := s.fpRR c .fpShort fd fa fb (fun a b => (f64WithSign a (f64Neg b), 0))
/-- FSGNJN (R104). -/
def execFsgnjn (c : Fin 9) (fd fa fb : Fin 32) (s : State) : Res := s.fpRR c .fpShort fd fa fb (fun a b => (f64WithSign a (!f64Neg b), 0))
/-- FSGNJX (R104). -/
def execFsgnjx (c : Fin 9) (fd fa fb : Fin 32) (s : State) : Res := s.fpRR c .fpShort fd fa fb (fun a b => (f64WithSign a (f64Neg a != f64Neg b), 0))
/-- FSQRT (R104). -/
def execFsqrt (c : Fin 9) (fd fa : Fin 32) (s : State) : Res :=
  s.exec1 c.castSucc .fsqrt [.f fa] (some (.f fd)) fun k => (k.wf fd (f64Sqrt (k.rf fa)).1).orFF (f64Sqrt (k.rf fa)).2
/-- FEQ (R105). -/
def execFeq (c : Fin 9) (rd fa fb : Fin 32) (s : State) : Res :=
  s.fpCmp c rd fa fb fun a b => (f64Eq a b, f64SigFlag a b)
/-- FLT (R105). -/
def execFlt (c : Fin 9) (rd fa fb : Fin 32) (s : State) : Res :=
  s.fpCmp c rd fa fb fun a b => (f64Lt a b, if f64IsNaN a || f64IsNaN b then flagNV else 0)
/-- FLE (R105). -/
def execFle (c : Fin 9) (rd fa fb : Fin 32) (s : State) : Res :=
  s.fpCmp c rd fa fb fun a b => (f64Le a b, if f64IsNaN a || f64IsNaN b then flagNV else 0)
/-- FCLASS (R105). -/
def execFclass (c : Fin 9) (rd fa : Fin 32) (s : State) : Res :=
  s.exec1 c.castSucc .fpShort [.f fa] (dstG rd) fun k => k.wg rd (f64Class (k.rf fa))
/-- FCVT.D.L (R104). -/
def execFcvtDL (c : Fin 9) (fd ra : Fin 32) (s : State) : Res :=
  s.exec1 c.castSucc .fp [.g ra] (some (.f fd)) fun k =>
    (k.wf fd (f64OfInt (k.rg ra).toInt).1).orFF (f64OfInt (k.rg ra).toInt).2
/-- FCVT.L.D (R106): toward zero. -/
def execFcvtLD (c : Fin 9) (rd fa : Fin 32) (s : State) : Res :=
  s.exec1 c.castSucc .fp [.f fa] (dstG rd) fun k =>
    (k.wg rd (f64ToI64 false (k.rf fa)).1).orFF (f64ToI64 false (k.rf fa)).2
/-- FCVT.L.D.N (R106): to nearest, ties to even. -/
def execFcvtLDN (c : Fin 9) (rd fa : Fin 32) (s : State) : Res :=
  s.exec1 c.castSucc .fp [.f fa] (dstG rd) fun k =>
    (k.wg rd (f64ToI64 true (k.rf fa)).1).orFF (f64ToI64 true (k.rf fa)).2
/-- FMV.G.F (R104): a bit copy. -/
def execFmvGF (c : Fin 9) (rd fa : Fin 32) (s : State) : Res :=
  s.exec1 c.castSucc .fpShort [.f fa] (dstG rd) fun k => k.wg rd (k.rf fa)
/-- FMV.F.G (R104): a bit copy. -/
def execFmvFG (c : Fin 9) (fd ra : Fin 32) (s : State) : Res :=
  s.exec1 c.castSucc .fpShort [.g ra] (some (.f fd)) fun k => k.wf fd (k.rg ra)
/-- FMADD (R107): fa × fb + fc, rounded once. -/
def execFmadd (c : Fin 9) (fd fa fb fc : Fin 32) (s : State) : Res := s.fpFma c false false fd fa fb fc
/-- FMSUB (R107): fa × fb − fc, rounded once. -/
def execFmsub (c : Fin 9) (fd fa fb fc : Fin 32) (s : State) : Res := s.fpFma c false true fd fa fb fc
/-- FNMSUB (R107): −(fa × fb) + fc, rounded once. -/
def execFnmsub (c : Fin 9) (fd fa fb fc : Fin 32) (s : State) : Res := s.fpFma c true false fd fa fb fc
/-- FNMADD (R107): −(fa × fb) − fc, rounded once. -/
def execFnmadd (c : Fin 9) (fd fa fb fc : Fin 32) (s : State) : Res := s.fpFma c true true fd fa fb fc

end Sys2Proof.Machine
end

