-- ==== Sys2Proof/Machine/CoreInt.lean ====
section
/-! DEFINITION. Integer instructions of the planner cores and the safety core (R101–R103): groups 0x00 to 0x03. -/

namespace Sys2Proof.Machine

/-- A two-operand integer instruction of group 0x00. -/
def State.intRR (s : State) (c : Fin 10) (cls : IssClass) (rd ra rb : Fin 32) (f : DWord → DWord → DWord) : Res :=
  s.exec1 c cls [.g ra, .g rb] (dstG rd) fun k => k.wg rd (f (k.rg ra) (k.rg rb))

/-- A one-operand integer instruction. -/
def State.intR (s : State) (c : Fin 10) (rd ra : Fin 32) (f : DWord → DWord) : Res :=
  s.exec1 c .alu [.g ra] (dstG rd) fun k => k.wg rd (f (k.rg ra))

/-- A division: the result and the sticky flags of R102. -/
def State.intDiv (s : State) (c : Fin 10) (rd ra rb : Fin 32) (f : DWord → DWord → DWord × BitVec 2) : Res :=
  s.exec1 c .div [.g ra, .g rb] (dstG rd) fun k =>
    (k.wg rd (f (k.rg ra) (k.rg rb)).1).orIF (f (k.rg ra) (k.rg rb)).2

/-- A shift by imm12[5:0]; imm12[11:6] must be 0, or the instruction raises ILLEGAL (R100, R101). -/
def State.intShift (s : State) (c : Fin 10) (rd ra : Fin 32) (opx : Nat) (imm : BitVec 12)
    (f : DWord → Nat → DWord) : Res :=
  s.execWith c .alu [.g ra] (dstG rd) fun s1 cyc =>
    if imm.toNat < 64 then s1.modCore c fun k => (k.wg rd (f (k.rg ra) imm.toNat)).adv
    else s1.except c cyc 1 (wordI 1 rd.val ra.val opx imm.toNat)

def boolWord (b : Bool) : DWord := if b then 1 else 0

/-- The number of leading zeros of the low `n` bits. -/
def clzFrom (x : DWord) : Nat → Nat
  | 0 => 0
  | n + 1 => if x.getLsbD n then 0 else 1 + clzFrom x n

/-- The number of set bits among the low `n`. -/
def popFrom (x : DWord) : Nat → Nat
  | 0 => 0
  | n + 1 => (if x.getLsbD n then 1 else 0) + popFrom x n

/-- ADD (R101, table of group 0x00). -/
def execAdd (c : Fin 10) (rd ra rb : Fin 32) (s : State) : Res := s.intRR c .alu rd ra rb (fun a b => a + b)
/-- SUB (R101, table of group 0x00). -/
def execSub (c : Fin 10) (rd ra rb : Fin 32) (s : State) : Res := s.intRR c .alu rd ra rb (fun a b => a - b)
/-- AND (R101, table of group 0x00). -/
def execAndR (c : Fin 10) (rd ra rb : Fin 32) (s : State) : Res := s.intRR c .alu rd ra rb (fun a b => a &&& b)
/-- OR (R101, table of group 0x00). -/
def execOrR (c : Fin 10) (rd ra rb : Fin 32) (s : State) : Res := s.intRR c .alu rd ra rb (fun a b => a ||| b)
/-- XOR (R101, table of group 0x00). -/
def execXorR (c : Fin 10) (rd ra rb : Fin 32) (s : State) : Res := s.intRR c .alu rd ra rb (fun a b => a ^^^ b)
/-- SLL (R101, table of group 0x00). -/
def execSll (c : Fin 10) (rd ra rb : Fin 32) (s : State) : Res := s.intRR c .alu rd ra rb (fun a b => a <<< (b.toNat % 64))
/-- SRL (R101, table of group 0x00). -/
def execSrl (c : Fin 10) (rd ra rb : Fin 32) (s : State) : Res := s.intRR c .alu rd ra rb (fun a b => a >>> (b.toNat % 64))
/-- SRA (R101, table of group 0x00). -/
def execSra (c : Fin 10) (rd ra rb : Fin 32) (s : State) : Res := s.intRR c .alu rd ra rb (fun a b => a.sshiftRight (b.toNat % 64))
/-- SLT (R101, table of group 0x00). -/
def execSlt (c : Fin 10) (rd ra rb : Fin 32) (s : State) : Res := s.intRR c .alu rd ra rb (fun a b => boolWord (decide (a.toInt < b.toInt)))
/-- SLTU (R101, table of group 0x00). -/
def execSltu (c : Fin 10) (rd ra rb : Fin 32) (s : State) : Res := s.intRR c .alu rd ra rb (fun a b => boolWord (decide (a.toNat < b.toNat)))
/-- MIN (R101, table of group 0x00). -/
def execMin (c : Fin 10) (rd ra rb : Fin 32) (s : State) : Res := s.intRR c .alu rd ra rb (fun a b => if a.toInt < b.toInt then a else b)
/-- MAX (R101, table of group 0x00). -/
def execMax (c : Fin 10) (rd ra rb : Fin 32) (s : State) : Res := s.intRR c .alu rd ra rb (fun a b => if a.toInt < b.toInt then b else a)
/-- MINU (R101, table of group 0x00). -/
def execMinu (c : Fin 10) (rd ra rb : Fin 32) (s : State) : Res := s.intRR c .alu rd ra rb (fun a b => if a.toNat < b.toNat then a else b)
/-- MAXU (R101, table of group 0x00). -/
def execMaxu (c : Fin 10) (rd ra rb : Fin 32) (s : State) : Res := s.intRR c .alu rd ra rb (fun a b => if a.toNat < b.toNat then b else a)
/-- CLZ (R101): 0 to 64. -/
def execClz (c : Fin 10) (rd ra : Fin 32) (s : State) : Res := s.intR c rd ra fun a => BitVec.ofNat 64 (clzFrom a 64)
/-- POPC (R101). -/
def execPopc (c : Fin 10) (rd ra : Fin 32) (s : State) : Res := s.intR c rd ra fun a => BitVec.ofNat 64 (popFrom a 64)
/-- MUL (R101). -/
def execMul (c : Fin 10) (rd ra rb : Fin 32) (s : State) : Res := s.intRR c .mul rd ra rb (fun a b => a * b)
/-- MULH (R101). -/
def execMulh (c : Fin 10) (rd ra rb : Fin 32) (s : State) : Res := s.intRR c .mul rd ra rb (fun a b => BitVec.ofInt 64 (a.toInt * b.toInt / 2 ^ 64))
/-- MULHU (R101). -/
def execMulhu (c : Fin 10) (rd ra rb : Fin 32) (s : State) : Res := s.intRR c .mul rd ra rb (fun a b => BitVec.ofNat 64 (a.toNat * b.toNat / 2 ^ 64))
/-- DIV (R101, R102). -/
def execDiv (c : Fin 10) (rd ra rb : Fin 32) (s : State) : Res := s.intDiv c rd ra rb divS
/-- DIVU (R101, R102). -/
def execDivu (c : Fin 10) (rd ra rb : Fin 32) (s : State) : Res := s.intDiv c rd ra rb divU
/-- REM (R101, R102). -/
def execRem (c : Fin 10) (rd ra rb : Fin 32) (s : State) : Res := s.intDiv c rd ra rb remS
/-- REMU (R101, R102). -/
def execRemu (c : Fin 10) (rd ra rb : Fin 32) (s : State) : Res := s.intDiv c rd ra rb remU
/-- ADDI (R101, group 0x01): the second operand is sext(imm12). -/
def execAddi (c : Fin 10) (rd ra : Fin 32) (imm : BitVec 12) (s : State) : Res :=
  s.intR c rd ra fun a => a + sext12 imm
/-- ANDI (R101, group 0x01): the second operand is sext(imm12). -/
def execAndi (c : Fin 10) (rd ra : Fin 32) (imm : BitVec 12) (s : State) : Res :=
  s.intR c rd ra fun a => a &&& sext12 imm
/-- ORI (R101, group 0x01): the second operand is sext(imm12). -/
def execOri (c : Fin 10) (rd ra : Fin 32) (imm : BitVec 12) (s : State) : Res :=
  s.intR c rd ra fun a => a ||| sext12 imm
/-- XORI (R101, group 0x01): the second operand is sext(imm12). -/
def execXori (c : Fin 10) (rd ra : Fin 32) (imm : BitVec 12) (s : State) : Res :=
  s.intR c rd ra fun a => a ^^^ sext12 imm
/-- SLTI (R101, group 0x01): the second operand is sext(imm12). -/
def execSlti (c : Fin 10) (rd ra : Fin 32) (imm : BitVec 12) (s : State) : Res :=
  s.intR c rd ra fun a => boolWord (decide (a.toInt < (sext12 imm).toInt))
/-- SLTIU (R101, group 0x01): the second operand is sext(imm12). -/
def execSltiu (c : Fin 10) (rd ra : Fin 32) (imm : BitVec 12) (s : State) : Res :=
  s.intR c rd ra fun a => boolWord (decide (a.toNat < (sext12 imm).toNat))
/-- SLLI (R101, group 0x01). -/
def execSlli (c : Fin 10) (rd ra : Fin 32) (imm : BitVec 12) (s : State) : Res :=
  s.intShift c rd ra 4 imm (fun a n => a <<< n)
/-- SRLI (R101, group 0x01). -/
def execSrli (c : Fin 10) (rd ra : Fin 32) (imm : BitVec 12) (s : State) : Res :=
  s.intShift c rd ra 5 imm (fun a n => a >>> n)
/-- SRAI (R101, group 0x01). -/
def execSrai (c : Fin 10) (rd ra : Fin 32) (imm : BitVec 12) (s : State) : Res :=
  s.intShift c rd ra 6 imm (fun a n => a.sshiftRight n)
/-- LIW (R103): gd = sext(imm22). -/
def execLiw (c : Fin 10) (rd : Fin 32) (imm : BitVec 22) (s : State) : Res :=
  s.exec1 c .alu [] (dstG rd) fun k => k.wg rd (sext22 imm)
/-- LIS (R103): gd = (gd << 22) or imm22, unsigned. -/
def execLis (c : Fin 10) (rd : Fin 32) (imm : BitVec 22) (s : State) : Res :=
  s.exec1 c .alu [.g rd] (dstG rd) fun k => k.wg rd ((k.rg rd <<< 22) ||| imm.setWidth 64)

end Sys2Proof.Machine
end

