-- ==== Sys2Proof/Machine/Dynamics.lean ====
section
/-! DEFINITION. The dynamics of an arm model in the cell frame (R211): the recursive Newton–Euler pass and the composite
rigid body recursion. The spec names the two and gives no formulas: log entry 8. -/

namespace Sys2Proof.Machine

def vAdd (a b : List DWord) : List DWord := List.zipWith fadd a b
def vScale (k : DWord) (a : List DWord) : List DWord := a.map fun x => fmul k x
def vZero : List DWord := [0, 0, 0]

/-- The inertia tensor of a joint record applied to a vector (R209: Ixx, Iyy, Izz, Ixy, Ixz, Iyz). -/
def inertiaMul (i v : List DWord) : List DWord :=
  let e (k : Nat) : DWord := nth i k 0
  [dotAsc [e 0, e 3, e 4] v, dotAsc [e 3, e 1, e 5] v, dotAsc [e 4, e 5, e 2] v]

/-- The transpose of a rotation block applied to a vector. -/
def mRotT (t v : List DWord) : List DWord := (List.range 3).map fun k => dotAsc (mCol t k) v

/-- The inertia of a link about its centre of mass, applied in the cell frame. -/
def linkInertia (m : JointModel) (t v : List DWord) : List DWord := mRot t (inertiaMul m.inertia (mRotT t v))

/-- One joint in an evaluation: its model, frame, velocity and acceleration. -/
structure DynJoint where
  m   : JointModel
  f   : JointFrame
  qd  : DWord
  qdd : DWord

/-- The motion of a link frame: angular velocity and acceleration, the acceleration of its origin, and the origin. -/
structure LinkMotion where
  w : List DWord
  a : List DWord
  l : List DWord
  o : List DWord

/-- The acceleration of a point that moves with a link, at an offset from its origin. -/
def LinkMotion.accel (k : LinkMotion) (d : List DWord) : List DWord :=
  vAdd k.l (vAdd (vCross k.a d) (vCross k.w (vCross k.w d)))

/-- The motion of the next link. -/
def LinkMotion.next (k : LinkMotion) (j : DynJoint) : LinkMotion :=
  let o := mPos j.f.t
  let base := k.accel (vSub o k.o)
  let zqd := vScale j.qd j.f.z
  let zqdd := vScale j.qdd j.f.z
  if j.f.prismatic then
    ⟨k.w, k.a, vAdd base (vAdd zqdd (vScale (fadd f64One f64One) (vCross k.w zqd))), o⟩
  else ⟨vAdd k.w zqd, vAdd k.a (vAdd zqdd (vCross k.w zqd)), base, o⟩

/-- The force of a link and its moment about the link's origin. -/
def linkWrench (k : LinkMotion) (j : DynJoint) : List DWord × List DWord :=
  let c := mRot j.f.t j.m.com
  let f := vScale j.m.mass (k.accel c)
  (f, vAdd (vCross c f) (vAdd (linkInertia j.m j.f.t k.a) (vCross k.w (linkInertia j.m j.f.t k.w))))

/-- The sign of a number, 0 for ±0. -/
def signOf (x : DWord) : DWord := if f64IsZero x then 0 else if f64Neg x then f64Negate f64One else f64One

/-- The joint torque beside the rigid body's: rotor, viscous and Coulomb friction (R209). -/
def jointExtra (j : DynJoint) : DWord :=
  fadd (fmul j.m.rotor j.qdd) (fadd (fmul j.m.visc j.qd) (fmul j.m.coul (signOf j.qd)))

/-- The recursive Newton–Euler pass: outward motions, inward forces. Answers the torques, and the force on the first link
with its moment about that link's origin, and that origin. `tail` is what the links beyond the last one add to it. -/
def newtonEuler (tail : LinkMotion → List DWord × List DWord) : LinkMotion → List DynJoint → List DWord × List DWord × List DWord × List DWord
  | k, [] => let w := tail k; ([], w.1, w.2, k.o)
  | k, j :: js =>
    let k1 := k.next j
    let r := newtonEuler tail k1 js
    let w := linkWrench k1 j
    let f := vAdd w.1 r.2.1
    let n := vAdd w.2 (vAdd r.2.2.1 (vCross (vSub r.2.2.2 k1.o) r.2.1))
    (fadd (dotAsc j.f.z (if j.f.prismatic then f else n)) (jointExtra j) :: r.1, f, n, k1.o)

/-- The joints of an arm at positions, velocities and accelerations. -/
def dynJoints : List JointModel → List JointFrame → List DWord → List DWord → List DynJoint
  | m :: ms, f :: fs, qds, qdds => ⟨m, f, nth qds 0 0, nth qdds 0 0⟩ :: dynJoints ms fs qds.tail qdds.tail
  | _, _, _, _ => []

/-- Inverse dynamics of one arm (type 0x05): gravity as an acceleration of the base, the payload as a point mass on the
last link, and the external wrench through the Jacobian. (DESIGN CHOICE: log 8.) -/
def ArmProf.inverse (p : ArmProf) (gravity q qd qdd wrench : List DWord) : List DWord :=
  let fs := chainFrames p.model q p.base
  let tcp := p.toolFrame p.base fs
  let payload := vAdd (mRot tcp p.pcom) (mPos tcp)
  let tail (k : LinkMotion) : List DWord × List DWord :=
    let d := vSub payload k.o
    let f := vScale p.pmass (k.accel d)
    (f, vCross d f)
  let t := (newtonEuler tail ⟨vZero, vZero, gravity.map f64Negate, mPos p.base⟩ (dynJoints p.model fs qd qdd)).1
  let w := if Config.wrenchInTool then mRot tcp (wrench.take 3) ++ mRot tcp (wrench.drop 3) else wrench
  List.zipWith (fun x c => if Config.wrenchOnArm then fsub x (dotAsc c w) else fadd x (dotAsc c w)) t (jacobian fs tcp)

/-! ### The mass matrix -/

/-- A composite body: its mass, its first moment and its inertia about the origin of the cell frame (by columns). -/
structure Composite where
  m : DWord
  h : List DWord
  j : List (List DWord)

/-- A point mass or link at a place of the cell frame, with its inertia columns about that place. -/
def bodyAt (m : DWord) (x : List DWord) (cols : List (List DWord)) : Composite :=
  let unit (i : Nat) : List DWord := (List.range 3).map fun k => if k = i then f64One else 0
  ⟨m, vScale m x, mapFrom (fun i c => vAdd c (vScale m (vCross x (vCross (unit i) x)))) 0 cols⟩

def Composite.add (a b : Composite) : Composite := ⟨fadd a.m b.m, vAdd a.h b.h, List.zipWith vAdd a.j b.j⟩

/-- The velocity of a joint about the origin of the cell frame: angular, and of the body point at the origin. -/
def jointTwist (f : JointFrame) : List DWord × List DWord := if f.prismatic then (vZero, f.z) else (f.z, vCross f.o f.z)

/-- The momentum that a joint's unit velocity gives a composite body: linear, and angular about the origin. -/
def Composite.momentum (c : Composite) (v : List DWord × List DWord) : List DWord × List DWord :=
  (vAdd (vScale c.m v.2) (vCross v.1 c.h),
   vAdd ((List.range 3).map fun i => dotAsc (c.j.map fun col => nth col i 0) v.1) (vCross c.h v.2))

/-- The composites from each joint outward, in descending joint order. -/
def composites (tail : Composite) : List (JointModel × JointFrame) → List Composite
  | [] => []
  | (m, f) :: js =>
    let cs := composites tail js
    let unit (i : Nat) : List DWord := (List.range 3).map fun k => if k = i then f64One else 0
    let body := bodyAt m.mass (vAdd (mRot f.t m.com) (mPos f.t)) ((List.range 3).map fun i => linkInertia m f.t (unit i))
    Composite.add body (cs.headD tail) :: cs

/-- The mass matrix of one arm, by columns (R211). (DESIGN CHOICE: log 8.) -/
def ArmProf.massMatrix (p : ArmProf) (fs : List JointFrame) (tcp : List DWord) : List (List DWord) :=
  let payload := bodyAt p.pmass (vAdd (mRot tcp p.pcom) (mPos tcp)) [vZero, vZero, vZero]
  let cs := composites payload (p.model.zip fs)
  let entry (i k : Nat) : DWord :=
    let hi := max i k
    let lo := min i k
    match cs[hi]?, fs[hi]?, fs[lo]? with
    | some c, some fh, some fl =>
      let mom := c.momentum (jointTwist fh)
      let v := jointTwist fl
      let x := fadd (dotAsc v.1 mom.2) (dotAsc v.2 mom.1)
      if i = k then fadd x (match p.model[i]? with | some m => m.rotor | none => 0) else x
    | _, _, _ => 0
  let n := p.model.length
  (List.range n).map fun k => (List.range n).map fun i => entry i k

end Sys2Proof.Machine
end

