-- ==== Sys2Proof/Machine/SolverNum.lean ====
section
/-! DEFINITION. The solver's numerics (R209–R248): pivots, dense factor-solves, inverse kinematics, warm-start matching,
cycle counts and outcomes, in binary64 (types 0x01 to 0x04). Q-mode, the dynamics and the cell MPC have files of their
own. -/

namespace Sys2Proof.Machine

/-! ### Reading blocks (R214) -/

def f64Bytes (l : List DWord) : List Byte := l.flatMap fun x => leBytes x.toNat 8

def finite (l : List DWord) : Bool := l.all f64IsFinite

/-! ### Pivots (R228–R231) -/

/-- The tolerances of a job, the scale of a factorisation, and the pivots flagged so far. -/
structure PivCfg where
  tauRel : DWord
  tauAbs : DWord
  lambda : DWord

structure Pivs where
  count : Nat := 0
  first : Nat := 0xFFFF

/-- How a flagged pivot is replaced: its own sign, always +1, always −1, or as a Cholesky pivot (R229, R231). -/
inductive PivKind | signed | positive | dual | cholesky
  deriving DecidableEq, Repr

/-- One more flagged pivot, at an index (R230). -/
def Pivs.flag (p : Pivs) (k : Nat) : Pivs :=
  { count := min 65535 (p.count + 1), first := if p.count = 0 then k else p.first }

/-- The pivot rule of R230 and R231; none when the pivot is not finite (R232). -/
def pivotRule (c : PivCfg) (dmax : DWord) (kind : PivKind) (k : Nat) (d : DWord) (p : Pivs) : Option (DWord × Pivs) :=
  if !f64IsFinite d then none
  else
    let low : Bool := f64Lt (f64Abs d) (fmul c.tauRel dmax) || f64Lt (f64Abs d) c.tauAbs
    let flagged : Bool := f64IsZero d || low || (kind == .cholesky && f64Le d 0)
    if flagged then
      let d' := match kind with
        | .signed => if f64Lt d 0 then fsub d c.lambda else fadd d c.lambda
        | .positive => fadd d c.lambda
        | .dual => fsub d c.lambda
        | .cholesky => if f64Le d 0 then c.lambda else fadd d c.lambda
      some (d', p.flag k)
    else some (d, p)

/-- The largest magnitude of a list. -/
def maxAbs (l : List DWord) : DWord := l.foldl (fun m x => fmax m (f64Abs x)) 0

/-! ### LDLᵀ and Cholesky (types 0x01, 0x02 and the step of 0x04) -/

/-- The rows of a factor with its pivots, and whether a value that is not finite arose (R232); `chol` selects L Lᵀ. -/
structure Factor where
  rows : List (List DWord) := []
  ds   : List DWord := []
  p    : Pivs := {}
  bad  : Bool := false

/-- One row of the factor against the rows before it: L_kj for ascending j. -/
def factorRow (chol : Bool) (f : Factor) (ak : Nat → DWord) : Nat → List DWord → List DWord
  | 0, acc => acc
  | n + 1, acc =>
    let j := acc.length
    let row := nth f.rows j []
    let scaled := if chol then acc else List.zipWith fmul acc f.ds
    let num := (scaled.zip row).foldl (fun a e => msub a e.1 e.2) (ak j)
    factorRow chol f ak n (acc ++ [fdiv num (nth f.ds j 0)])

/-- Factors a symmetric matrix given by its lower triangle, pivot after pivot; it ends at a pivot that is not finite. -/
def factorLoop (chol : Bool) (c : PivCfg) (dmax : DWord) (kind : Nat → PivKind) (a : Nat → Nat → DWord) : Nat → Factor → Factor
  | 0, f => f
  | n + 1, f =>
    let k := f.rows.length
    let row := factorRow chol f (a k) k []
    let scaled := if chol then row else List.zipWith fmul row f.ds
    let d := (scaled.zip row).foldl (fun x e => msub x e.1 e.2) (a k k)
    match pivotRule c dmax (kind k) k d f.p with
    | none => { f with bad := true }
    | some (d', p) =>
      let dk := if chol then fsqrt d' else d'
      if finite row && f64IsFinite dk then factorLoop chol c dmax kind a n { rows := f.rows ++ [row], ds := f.ds ++ [dk], p := p }
      else { f with p := p, bad := true }

/-- Forward substitution, ascending. -/
def forwardSub (chol : Bool) (ds : List DWord) : List (List DWord) → List DWord → List DWord → List DWord
  | r :: rs, b :: bs, acc =>
    let y := (r.zip acc).foldl (fun a e => msub a e.1 e.2) b
    forwardSub chol ds rs bs (acc ++ [if chol then fdiv y (nth ds acc.length 0) else y])
  | _, _, acc => acc

/-- Backward substitution: the column below the diagonal in ascending index. -/
def backSub (chol : Bool) (f : Factor) (z : List DWord) : Nat → List DWord → List DWord
  | 0, acc => acc
  | i + 1, acc =>
    let col := (List.range acc.length).map fun m => nth (nth f.rows (i + 1 + m) []) i 0
    let x := (col.zip acc).foldl (fun a e => msub a e.1 e.2) (nth z i 0)
    backSub chol f z i ((if chol then fdiv x (nth f.ds i 0) else x) :: acc)

def factorSolve (chol : Bool) (f : Factor) (b : List DWord) : List DWord :=
  let y := forwardSub chol f.ds f.rows b []
  let z := if chol then y else List.zipWith fdiv y f.ds
  backSub chol f z f.rows.length []

/-! ### The data a job reads, and its dimensions -/

/-- Everything a job's result is a function of: descriptor, input block, copied measurements. -/
def Job.data (j : Job) : List Nat :=
  let d := j.d
  [d.type.toNat, d.mode.toNat, d.iterCap.toNat, d.armMask.toNat, d.h.toNat, d.n.toNat, d.m.toNat, d.k.toNat, d.warmOff.toNat,
    d.tauRel.toNat, d.tauAbs.toNat, d.lambda.toNat, d.epsAbs.toNat, d.epsRel.toNat]
    ++ j.input.map BitVec.toNat
    ++ j.axes.flatMap (fun r => [(if d.mode.getLsbD 2 then r.cmd else r.act).toNat, r.vel.toNat])

/-- The arms of ARMMASK that the profile declares, ascending. -/
def State.jobArms (s : State) (mask : Byte) : List ArmProf :=
  (List.range 8).filterMap fun k => if mask.getLsbD k then s.armProf k else none

def njOf (arms : List ArmProf) : Nat := arms.foldl (fun n p => n + p.joints.length) 0
def ceil16 (n : Nat) : Nat := (n + 15) / 16
def ceilTo (n d : Nat) : Nat := if d = 0 then 0 else (n + d - 1) / d

/-- A Q-array's size in bytes (R245). -/
def qSize (n : Nat) : Nat := 8 + (4 * n + 7) / 8 * 8

/-- The size of the output block (R214). -/
def State.outSize (s : State) (d : JobDesc) (nrec : Nat) : Nat :=
  let arms := s.jobArms d.armMask
  let n := d.n.toNat
  let k := d.k.toNat
  let two (a b : Nat) : Nat := if d.mode.getLsbD 0 then qSize a + qSize b else 8 * (a + b)
  let t := d.type.toNat
  if t = 1 ∨ t = 2 then two (n * k) n
  else if t = 3 then two (n * k) k
  else if t = 4 then 8 * (njOf arms + 6)
  else if t = 5 then 8 * njOf arms
  else if t = 6 ∨ t = 7 then 8 * (3 * d.h.toNat * njOf arms + nrec)
  else arms.foldl (fun x p => x + 8 * (12 + 6 * p.joints.length + p.joints.length * p.joints.length)) 0

/-- The factor-solve or iteration term of R221, without set-up and assembly. -/
def coreTerm (d : JobDesc) (nj : Nat) : Nat :=
  let pn := ceil16 d.n.toNat
  let pm := ceil16 d.m.toNat
  let p := ceil16 nj
  let k := d.k.toNat
  let nt := d.nt.toNat
  let t := d.type.toNat
  if t = 1 then ceilTo (160 * pn ^ 3 + 64 * pn ^ 2 * k) nt
  else if t = 2 then ceilTo (140 * pn ^ 3 + 64 * pn ^ 2 * k) nt
  else if t = 3 then ceilTo (320 * pm * pn ^ 2 + 64 * pm * pn * k) nt
  else if t = 4 then 900 + 260 * nj
  else if t = 6 ∨ t = 7 then ceilTo (1650 * d.h.toNat * p ^ 3) nt + 4000
  else 0

/-- The assembly term of R221. -/
def asmTerm (d : JobDesc) (arms : List ArmProf) : Nat :=
  let nt := d.nt.toNat
  let t := d.type.toNat
  let sum (f : Nat → Nat) : Nat := arms.foldl (fun x p => x + f p.joints.length) 0
  if t = 5 then ceilTo (sum fun n => 1200 + 420 * n) nt
  else if t = 8 then ceilTo (sum fun n => 600 + 300 * n + 40 * n ^ 2) nt
  else if t = 6 ∨ t = 7 then ceilTo (1000 * njOf arms * d.h.toNat) nt
  else 0

/-- The working set of R217. (DEDUCED: log 47.) -/
def workSet (d : JobDesc) (arms : List ArmProf) : Nat :=
  let pn := ceil16 d.n.toNat
  let pm := ceil16 d.m.toNat
  let p := ceil16 (njOf arms)
  let t := d.type.toNat
  if t = 1 ∨ t = 2 then 8 * (256 * pn ^ 2 + 16 * pn * d.k.toNat)
  else if t = 3 then 8 * (256 * pm * pn + 16 * pm * d.k.toNat)
  else if t = 6 ∨ t = 7 then 24 * d.h.toNat * (32 * p) ^ 2
  else 65536 * arms.length

/-- The OVERFLOW result after some cycles (R232, R233): its flags read 0, its counts are those of the phases that ran. -/
def overflowRes (cycles iter : Nat) (p : Pivs) : JobResult :=
  { code := 2, iter := BitVec.ofNat 8 iter, cycles := cycles, pivots := BitVec.ofNat 16 p.count, firstPiv := BitVec.ofNat 16 p.first }

/-- The REGULARISED flag and the pivot fields (R230). -/
def JobResult.withPivs (r : JobResult) (p : Pivs) : JobResult :=
  { r with
    code := if p.count = 0 then r.code else r.code ||| 0x200
    pivots := BitVec.ofNat 16 p.count
    firstPiv := BitVec.ofNat 16 p.first }

/-- The result of a direct job: its output, or OVERFLOW at the end of its last phase (R232). -/
def directRes (cycles : Nat) (p : Pivs) (bad : Bool) (out : List DWord) : JobResult :=
  if bad || !finite out then overflowRes cycles 0 p else JobResult.withPivs { cycles := cycles, output := f64Bytes out } p

/-- The mark of a phase that ended. -/
def markOf (cycles iter : Nat) (p : Pivs) : JobMark :=
  { cycles := cycles, iter := BitVec.ofNat 8 iter, pivots := BitVec.ofNat 16 p.count, firstPiv := BitVec.ofNat 16 p.first }

/-! ### Dense jobs (types 0x01 to 0x03) -/

def Job.pivCfg (j : Job) : PivCfg := ⟨j.d.tauRel, j.d.tauAbs, j.d.lambda⟩

/-- A column of a column-major array. -/
def column (b : List DWord) (n c : Nat) : List DWord := (List.range n).map fun i => nth b (c * n + i) 0

/-- LDLᵀ and Cholesky in binary64. -/
def Job.dense (j : Job) (chol : Bool) : JobResult :=
  let n := j.d.n.toNat
  let k := j.d.k.toNat
  let a := f64sAt j.input 0 (n * n)
  let b := f64sAt j.input (8 * n * n) (n * k)
  let at2 (i c : Nat) : DWord := nth a (c * n + i) 0
  let lower := (List.range n).flatMap fun c => (List.range (n - c)).map fun i => at2 (c + i) c
  let full := 2000 + coreTerm j.d 0
  if !(finite lower && finite b) then overflowRes 2000 0 {}
  else
    let f := factorLoop chol j.pivCfg (maxAbs ((List.range n).map fun i => at2 i i))
      (fun _ => if chol then .cholesky else .signed) at2 n {}
    directRes full f.p f.bad ((List.range k).flatMap (fun c => factorSolve chol f (column b n c)) ++ f.ds)

/-- One column eliminated by its Householder reflector (R229): the pivot R_kk, and the columns behind it with their first
row split off. (DESIGN CHOICE: log 8.) -/
def reflect (x : List DWord) (cols : List (List DWord)) : DWord × List (List DWord) :=
  let x0 := nth x 0 0
  let norm := fsqrt (dotAsc x x)
  let alpha := if f64Lt x0 0 then norm else f64Negate norm
  let v := fsub x0 alpha :: x.tail
  let vv := dotAsc v v
  (alpha, cols.map fun y =>
    if f64IsZero vv then y
    else
      let t := fdiv (fmul (fadd f64One f64One) (dotAsc v y)) vv
      List.zipWith (fun a b => msub a t b) y v)

/-- The rows of R beside the transformed right-hand sides, and what is left of these below R. -/
structure QrState where
  rows : List (List DWord) := []
  cols : List (List DWord)
  p    : Pivs := {}
  bad  : Bool := false

/-- Householder QR, pivot after pivot (R228–R230). -/
def qrLoop (c : PivCfg) (dmax : DWord) : Nat → QrState → QrState
  | 0, f => f
  | n + 1, f =>
    match f.cols with
    | [] => f
    | x :: rest =>
      let r := reflect x rest
      match pivotRule c dmax .signed f.rows.length r.1 f.p with
      | none => { f with bad := true }
      | some (d, p) => qrLoop c dmax n { rows := f.rows ++ [d :: r.2.map fun y => nth y 0 0], cols := r.2.map List.tail, p := p }

/-- Back substitution over the rows of R, for one right-hand side. -/
def qrSolve (rows : List (List DWord)) (c : Nat) : List DWord :=
  rows.foldr (fun row xs =>
    fdiv ((row.tail.zip xs).foldl (fun a e => msub a e.1 e.2) (nth row (1 + xs.length + c) 0)) (nth row 0 0) :: xs) []

/-- Householder QR least squares in binary64 (type 0x03). (DESIGN CHOICE: log 8.) -/
def Job.qr (j : Job) : JobResult :=
  let n := j.d.n.toNat
  let m := j.d.m.toNat
  let k := j.d.k.toNat
  let all := f64sAt j.input 0 (m * (n + k))
  if !finite all then overflowRes 2000 0 {}
  else
    let cols := (List.range (n + k)).map fun c => column all m c
    let norms (l : List (List DWord)) : List DWord := l.map fun x => fsqrt (dotAsc x x)
    let f := qrLoop j.pivCfg (maxAbs (norms (cols.take n))) n { cols := cols }
    directRes (2000 + coreTerm j.d 0) f.p (f.bad || !f.rows.all finite)
      ((List.range k).flatMap (fun c => qrSolve f.rows c) ++ norms f.cols)

/-! ### Inverse kinematics (type 0x04, R237) -/

/-- The joint coordinate range of R237, in radians or metres. -/
def jointRange (m : JointModel) (l : JointLim) : DWord × DWord :=
  let a := m.coord l.qmin
  let b := m.coord l.qmax
  (fmin a b, fmax a b)

/-- The pose error of an iterate. -/
def poseErr (target pose : List DWord) : List DWord :=
  let rel := (List.range 3).flatMap fun i => (List.range 3).map fun k => dotAsc (mRow target i) (mRow pose k)
  vSub (mPos target) (mPos pose) ++ (List.range 3).map fun i => Config.rotvec rel i

structure IkIter where
  q   : List DWord
  e   : List DWord
  res : DWord

def ArmProf.ikEval (p : ArmProf) (target w q : List DWord) : IkIter × List (List DWord) :=
  let fs := chainFrames p.model q p.base
  let tcp := p.toolFrame p.base fs
  let e := poseErr target tcp
  (⟨q, e, maxAbs (List.zipWith fmul w e)⟩, jacobian fs tcp)

/-- The iterations of R235–R237: the best iterate, the pivots, and how the job ended. -/
def Job.ikLoop (j : Job) (p : ArmProf) (target w : List DWord) (bound : DWord) :
    Nat → Nat → IkIter × List (List DWord) → IkIter → Pivs → List JobMark → JobResult
  | fuel, it, cur, best, pv, marks =>
    let cost (n : Nat) : Nat := 2000 + n * coreTerm j.d p.joints.length
    let finish (code : BitVec 16) (b : IkIter) : JobResult :=
      JobResult.withPivs
        { code := code, iter := BitVec.ofNat 8 it, resid := b.res, cycles := cost it, output := f64Bytes (b.q ++ b.e), marks := marks } pv
    if !(finite cur.1.q && finite cur.1.e && f64IsFinite cur.1.res) then { overflowRes (cost it) it pv with marks := marks }
    else if f64Le cur.1.res bound then finish 0 cur.1
    else match fuel with
      | 0 => finish 1 best
      | fuel + 1 =>
        let w2 := w.map fun x => fmul x x
        let cols := cur.2
        let wcols := cols.map fun c => List.zipWith fmul c w2
        let n := p.joints.length
        let a (i c : Nat) : DWord := dotAsc (nth wcols i []) (nth cols c [])
        let g := wcols.map fun c => dotAsc c cur.1.e
        let f := factorLoop false j.pivCfg (maxAbs ((List.range n).map fun i => a i i)) (fun _ => .positive) a n { p := pv }
        let step := List.zipWith fadd cur.1.q (factorSolve false f g)
        if f.bad || !finite step then { overflowRes (cost (it + 1)) (it + 1) f.p with marks := marks }
        else
          let q := List.zipWith (fun x (ml : JointModel × JointLim) =>
            let r := jointRange ml.1 ml.2
            fmax r.1 (fmin r.2 x)) step (p.model.zip p.lims)
          let nxt := p.ikEval target w q
          j.ikLoop p target w bound fuel (it + 1) nxt (if f64Le nxt.1.res best.res then nxt.1 else best) f.p
            (marks ++ [markOf (cost (it + 1)) (it + 1) f.p])

def Job.ik (j : Job) (p : ArmProf) : JobResult :=
  let target := f64sAt j.input 0 12
  let w := f64sAt j.input 96 6
  let q0 := f64sAt j.input 144 p.joints.length
  if !(finite target && finite w && finite q0) then overflowRes 2000 0 {}
  else
    let c0 := p.ikEval target w q0
    j.ikLoop p target w (fadd j.d.epsAbs (fmul j.d.epsRel c0.1.res)) j.d.iterCap.toNat 0 c0 c0.1 {} []

/-! ### Warm starts (R241–R244) -/

/-- The entries of a warm-start block, or none where it is treated as empty. -/
def warmEntries (b : List Byte) (off n : Nat) : List (Nat × DWord) :=
  (List.range n).map fun i => (valAt b (off + 16 * i) 2, BitVec.ofNat 64 (valAt b (off + 16 * i + 8) 8))

/-- The block at an offset of an input block of `len` bytes (R241): its variable entries, shifted and the dropped ones
taken out (R243), its constraint entries, and whether every VALUE is finite. -/
def warmBlock (b : List Byte) (len off : Nat) : List (Nat × DWord) × List (Nat × DWord) × Bool :=
  let nv := valAt b off 2
  let nc := valAt b (off + 2) 2
  let sh := valAt b (off + 4) 1
  let rsv := (bytesAt b (off + 5) 11).any (· != 0)
    || (List.range (nv + nc)).any fun i => (bytesAt b (off + 16 + 16 * i + 2) 6).any (· != 0)
  if 8192 < nv || 512 < nc || 63 < sh || rsv || len < off + 16 + 16 * (nv + nc) then ([], [], true)
  else
    let vars := warmEntries b (off + 16) nv
    let cons := warmEntries b (off + 16 + 16 * nv) nc
    ((vars.filter fun e => decide (e.1 < 8192) && decide (sh ≤ e.1 % 64)).map fun e => (e.1 - sh, e.2),
     cons, finite ((vars ++ cons).map fun e => e.2))

/-- Matches tags in order: each entry is used once. Answers the values found, none for an unmatched tag. -/
def matchTags : List Nat → List (Nat × DWord) → List (Option DWord)
  | [], _ => []
  | t :: ts, es =>
    match es.find? fun e => e.1 == t with
    | some e => some e.2 :: matchTags ts (es.erase e)
    | none => none :: matchTags ts es

end Sys2Proof.Machine
end

