-- ==== Sys2Proof/Machine/SolverMpc.lean ====
section
/-! DEFINITION. The cell MPC (types 0x06 and 0x07; R212, R220, R228–R244): the problem that a header, a reference block and
constraint records pose over the joints of ARMMASK, its KKT system, and the active-set iteration. What the spec leaves open of
it is free or chosen in log entry 106. -/

namespace Sys2Proof.Machine

/-! ### Variables and rows of the KKT system -/

/-- The kinds of rows (R212, R229): position, velocity and input of a joint at a stage, slack; the multipliers of the
dynamics of a position and of a velocity, and of a working-set inequality. -/
inductive KKind | q | v | u | slack | dynQ | dynV | work
  deriving DecidableEq, Repr

def KKind.num : KKind → Nat
  | .q => 0 | .v => 1 | .u => 2 | .slack => 3 | .dynQ => 4 | .dynV => 5 | .work => 6

def KKind.primal (k : KKind) : Bool := k.num < 4

/-- One row: its kind, its stage, and the joint, slack or inequality it is of. -/
structure KRow where
  kind  : KKind
  stage : Nat
  idx   : Nat
  deriving DecidableEq, Repr

/-- An inequality Σ a x ≤ l + s: the terms over the stage variables, the bound, the slack that softens it, and the stage. -/
structure MpcIneq where
  terms : List (KRow × DWord)
  limit : DWord
  slack : Option KRow
  stage : Nat

/-- The problem: sizes, header values, measured state, reference by stage, acceleration bounds, inequalities in order, and
the stage of each slack. -/
structure MpcProb where
  n      : Nat
  h      : Nat
  dt     : DWord
  wq     : DWord
  wv     : DWord
  wu     : DWord
  wslack : DWord
  q0     : List DWord
  v0     : List DWord
  refq   : List DWord
  amax   : List DWord
  ineqs  : List MpcIneq
  slacks : List KRow
  nrec   : Nat

/-- An iterate: the inputs, stage after stage, the slacks, the working set with its multipliers, and its residual. -/
structure MpcIter where
  u    : List DWord
  s    : List DWord
  work : List (Nat × DWord)
  res  : DWord := 0

def f64Half : DWord := 0x3FE0000000000000
def sumF (l : List DWord) : DWord := match l with | [] => 0 | x :: xs => xs.foldl fadd x

/-- A weight of the quadratic cost as the Hessian has it. (DESIGN CHOICE: log 106.) -/
def hess (w : DWord) : DWord := if Config.mpcHalf then w else fadd w w

/-- DT² / 2, the weight of an input in the position after it (R212). -/
def MpcProb.dt2 (m : MpcProb) : DWord := fmul (fmul m.dt m.dt) f64Half

/-! ### The dynamics (R212) -/

/-- The stage states that inputs lead to, position and velocity of each joint, by the exact double integrator: of each stage
before its input, or after it. (DESIGN CHOICE: log 106.) -/
def MpcProb.roll (m : MpcProb) : Nat → List DWord → List DWord → List DWord → List (List DWord × List DWord)
  | 0, _, _, _ => []
  | k + 1, q, v, us =>
    let u := us.take m.n
    let q1 := List.zipWith (fun (a : DWord × DWord) x => macc (macc a.1 m.dt a.2) m.dt2 x) (q.zip v) u
    let v1 := List.zipWith (fun a x => macc a m.dt x) v u
    (if Config.mpcAfter then (q1, v1) else (q, v)) :: m.roll k q1 v1 (us.drop m.n)

def MpcProb.states (m : MpcProb) (u : List DWord) : List (List DWord × List DWord) := m.roll m.h m.q0 m.v0 u

/-- The value of a variable in an iterate with its states. -/
def MpcIter.value (it : MpcIter) (n : Nat) (st : List (List DWord × List DWord)) (r : KRow) : DWord :=
  match r.kind with
  | .q => nth (nth st r.stage ([], [])).1 r.idx 0
  | .v => nth (nth st r.stage ([], [])).2 r.idx 0
  | .u => nth it.u (r.stage * n + r.idx) 0
  | .slack => nth it.s r.idx 0
  | _ => 0

/-- aᵀx − l − s of an inequality. -/
def MpcIneq.gap (c : MpcIneq) (val : KRow → DWord) : DWord :=
  let l := fsub (dotAsc (c.terms.map fun e => e.2) (c.terms.map fun e => val e.1)) c.limit
  match c.slack with
  | some r => fsub l (val r)
  | none => l

/-- The coefficient of a variable in an inequality, the slack's being −1. -/
def MpcIneq.coef (c : MpcIneq) (r : KRow) : DWord :=
  if c.slack == some r then f64Negate f64One else ((c.terms.find? fun e => e.1 == r).map fun e => e.2).getD 0

/-! ### The KKT system (R212, R228, R229) -/

/-- The coefficient of a variable in the dynamics row of a joint at a stage: x_k − A x_{k−1} − B u. -/
def MpcProb.dynCoef (m : MpcProb) (row var : KRow) : DWord :=
  let pos := row.kind == .dynQ
  let inStage : Bool := if Config.mpcAfter then var.stage == row.stage else var.stage + 1 == row.stage
  if var.idx != row.idx then 0
  else match var.kind with
    | .q => if pos then (if var.stage = row.stage then f64One else if var.stage + 1 = row.stage then f64Negate f64One else 0) else 0
    | .v =>
      if var.stage = row.stage then (if pos then 0 else f64One)
      else if var.stage + 1 = row.stage then f64Negate (if pos then m.dt else f64One) else 0
    | .u => if inStage then f64Negate (if pos then m.dt2 else m.dt) else 0
    | _ => 0

/-- The coefficient of a variable in a multiplier's row. -/
def MpcProb.dualCoef (m : MpcProb) (row var : KRow) : DWord :=
  match row.kind with
  | .work => match m.ineqs[row.idx]? with | some c => c.coef var | none => 0
  | _ => m.dynCoef row var

/-- An entry of the KKT matrix. -/
def MpcProb.entry (m : MpcProb) (r c : KRow) : DWord :=
  if r.kind.primal && c.kind.primal then
    if r == c then (match r.kind with | .q => hess m.wq | .v => hess m.wv | .u => hess m.wu | _ => 0) else 0
  else if r.kind.primal then m.dualCoef c r
  else if c.kind.primal then m.dualCoef r c
  else 0

/-- The right-hand side of a row: the negated linear cost, the constant of the dynamics, or the bound. -/
def MpcProb.rhs (m : MpcProb) (r : KRow) : DWord :=
  match r.kind with
  | .q => fmul (hess m.wq) (nth m.refq (r.stage * m.n + r.idx) 0)
  | .slack => f64Negate m.wslack
  | .dynQ =>
    if r.stage != 0 then 0
    else if Config.mpcAfter then macc (nth m.q0 r.idx 0) m.dt (nth m.v0 r.idx 0) else nth m.q0 r.idx 0
  | .dynV => if r.stage = 0 then nth m.v0 r.idx 0 else 0
  | .work => match m.ineqs[r.idx]? with | some c => c.limit | none => 0
  | _ => 0

/-- Puts a row in its place: stages ascending, within a stage the kinds by their slots, and joints as listed (R212). -/
def rowInsert (r : KRow) : List KRow → List KRow
  | [] => [r]
  | x :: xs =>
    let slot (y : KRow) : Nat := Config.kktSlot y.kind.num
    if decide (r.stage < x.stage) || (decide (r.stage = x.stage) && decide (slot r < slot x)) then r :: x :: xs else x :: rowInsert r xs

/-- The rows of the KKT system of a working set, in order. (DESIGN CHOICE: log 106.) -/
def MpcProb.rows (m : MpcProb) (work : List (Nat × DWord)) : List KRow :=
  let per (k : KKind) : List KRow := (List.range m.h).flatMap fun st => (List.range m.n).map fun j => ⟨k, st, j⟩
  let dual := work.map fun e => (⟨.work, match m.ineqs[e.1]? with | some c => c.stage | none => 0, e.1⟩ : KRow)
  (per .q ++ per .v ++ per .u ++ m.slacks ++ per .dynQ ++ per .dynV ++ dual).foldl (fun l r => rowInsert r l) []

/-- The KKT system of a working set factored and solved under R230, in one pass: the value of every row. -/
def MpcProb.solve (m : MpcProb) (c : PivCfg) (work : List (Nat × DWord)) (p : Pivs) : Factor × (KRow → DWord) :=
  let rows := m.rows work
  let row (i : Nat) : KRow := nth rows i ⟨.q, 0, 0⟩
  let place (i : Nat) : Nat := i + Config.kktPad i
  let f := factorLoop false c (maxAbs (rows.map fun r => m.entry r r)) (fun i => if (row i).kind.primal then .positive else .dual)
    (fun i k => m.entry (row i) (row k)) rows.length { p := { p with first := 0xFFFF } }
  let x := factorSolve false f (rows.map m.rhs)
  let first := if p.count = 0 then (if f.p.count = 0 then 0xFFFF else place f.p.first) else p.first
  ({ f with p := { f.p with first := first }, bad := f.bad || !finite x },
   fun r => match (rows.zip x).find? fun e => e.1 == r with | some e => e.2 | none => 0)

/-! ### The residual (R235, R238) -/

/-- The multipliers' share of a variable's gradient. -/
def MpcProb.pull (m : MpcProb) (work : List (Nat × DWord)) (r : KRow) : DWord :=
  dotAsc (work.map fun e => match m.ineqs[e.1]? with | some c => c.coef r | none => 0) (work.map fun e => e.2)

/-- The gradient with respect to the inputs, by the adjoint of the dynamics, last stage first: the multipliers of the state
of the stage after, and the gradients so far. -/
def MpcProb.adjoint (m : MpcProb) (it : MpcIter) (st : List (List DWord × List DWord)) : Nat → List DWord → List DWord → List DWord → List DWord
  | 0, _, _, acc => acc
  | k + 1, lq, lv, acc =>
    let grad (kind : KKind) (w x : DWord) (j : Nat) : DWord := macc (m.pull it.work ⟨kind, k, j⟩) (hess w) x
    let js := List.range m.n
    let gq := js.map fun j => grad .q m.wq (fsub (nth (nth st k ([], [])).1 j 0) (nth m.refq (k * m.n + j) 0)) j
    let gv := js.map fun j => grad .v m.wv (nth (nth st k ([], [])).2 j 0) j
    let lq1 := List.zipWith fadd gq lq
    let lv1 := List.zipWith fadd gv (List.zipWith (fun a b => macc b m.dt a) lq lv)
    let byQ := if Config.mpcAfter then lq1 else lq
    let byV := if Config.mpcAfter then lv1 else lv
    let gu := js.map fun j => fadd (grad .u m.wu (nth it.u (k * m.n + j) 0) j)
      (macc (fmul m.dt2 (nth byQ j 0)) m.dt (nth byV j 0))
    m.adjoint it st k lq1 lv1 (gu ++ acc)

/-- ‖r‖∞ of an iterate: stationarity in the inputs and the slacks, violated inequalities, negative multipliers; and the
iterate with it. A value that is not finite makes the residual a NaN. -/
def MpcProb.judge (m : MpcProb) (it : MpcIter) : MpcIter :=
  let st := m.states it.u
  let zero := List.replicate m.n (0 : DWord)
  let gaps := m.ineqs.map fun c => c.gap (it.value m.n st)
  let r := m.adjoint it st m.h zero zero [] ++ (m.slacks.map fun s => fadd m.wslack (m.pull it.work s)) ++ gaps.map (fmax 0)
    ++ it.work.map fun e => fmax 0 (f64Negate e.2)
  { it with res := if finite (r ++ gaps) && st.all (fun x => finite x.1 && finite x.2) then maxAbs r else f64NaN }

/-- ‖b‖∞: the linear cost term and the bounds (R238). -/
def MpcProb.bNorm (m : MpcProb) : DWord :=
  maxAbs (m.refq.map (fmul (hess m.wq)) ++ m.slacks.map (fun _ => m.wslack) ++ m.ineqs.map fun c => c.limit)

/-! ### The iteration (R238, R239) -/

/-- The initial working set at a starting point (R239). -/
def MpcProb.initial (m : MpcProb) (epsAbs : DWord) (u s : List DWord) : MpcIter :=
  let it : MpcIter := { u := u, s := s, work := [] }
  let st := m.states u
  let gaps := m.ineqs.map fun c => c.gap (it.value m.n st)
  { it with work := (mapFrom (fun i g => (i, g)) 0 gaps).filterMap fun e => if f64Le (f64Negate epsAbs) e.2 then some (e.1, 0) else none }

/-- The solved inputs, slacks and multipliers of a working set. -/
def MpcProb.target (m : MpcProb) (val : KRow → DWord) (work : List (Nat × DWord)) : MpcIter where
  u := (List.range m.h).flatMap fun st => (List.range m.n).map fun j => val ⟨.u, st, j⟩
  s := m.slacks.map val
  work := work.map fun e => (e.1, val ⟨.work, match m.ineqs[e.1]? with | some c => c.stage | none => 0, e.1⟩)

/-- Steps 2 and 3 of R238: the largest step up to 1, the lowest-indexed blocking constraint joining; without one, the most
negative multiplier leaving. (DEDUCED: log 106.) -/
def MpcProb.advance (m : MpcProb) (it goal : MpcIter) : MpcIter :=
  let st := m.states it.u
  let sg := m.states goal.u
  let ratios := (mapFrom (fun i (c : MpcIneq) => (i, c.gap (it.value m.n st), c.gap (goal.value m.n sg))) 0 m.ineqs).filterMap fun e =>
    let slope := fsub e.2.2 e.2.1
    if it.work.any (fun w => w.1 == e.1) || !(f64Lt 0 slope && f64Lt 0 e.2.2) then none
    else some (e.1, fmax 0 (fdiv (f64Negate e.2.1) slope))
  match ratios.foldl (fun (best : Option (Nat × DWord)) e => match best with
      | some b => if f64Lt e.2 b.2 then some e else best
      | none => some e) none with
  | some (i, a) =>
    let mix (x y : DWord) : DWord := macc x a (fsub y x)
    { u := List.zipWith mix it.u goal.u, s := List.zipWith mix it.s goal.s, work := goal.work ++ [(i, 0)] }
  | none =>
    let out := goal.work.foldl (fun (best : Option (Nat × DWord)) e => match best with
      | some b => if f64Lt e.2 b.2 || (f64Eq e.2 b.2 && decide (e.1 < b.1)) then some e else best
      | none => if f64Lt e.2 0 then some e else none) none
    match out with
    | some e => { goal with work := goal.work.filter fun w => w.1 != e.1 }
    | none => goal

/-! ### The problem of an input block (R212, R214, R220) -/

/-- A constraint record. -/
structure MpcRec where
  kind  : Nat
  arm   : Nat
  link  : Nat
  other : Nat
  k0    : Nat
  k1    : Nat
  tag   : Nat
  limit : DWord
  dir   : List Word
  olink : Nat

def mpcRecs (b : List Byte) : List MpcRec :=
  (List.range (valAt b 0 2)).map fun i =>
    let o := valAt b 0x34 4 + 32 * i
    { kind := valAt b o 1, arm := valAt b (o + 1) 1, link := valAt b (o + 2) 1, other := valAt b (o + 3) 1, k0 := valAt b (o + 4) 1,
      k1 := valAt b (o + 5) 1, tag := valAt b (o + 6) 2, limit := BitVec.ofNat 64 (valAt b (o + 8) 8),
      dir := (List.range 3).map fun k => BitVec.ofNat 32 (valAt b (o + 16 + 4 * k) 4), olink := valAt b (o + 28) 4 }

/-- The arms of a job with where their joints begin. -/
structure MpcArm where
  k    : Nat
  p    : ArmProf
  base : Nat

def mpcArmsFrom : Nat → List (Nat × ArmProf) → List MpcArm
  | _, [] => []
  | b, (k, p) :: l => ⟨k, p, b⟩ :: mpcArmsFrom (b + p.joints.length) l

def State.mpcArms (s : State) (mask : Byte) : List MpcArm :=
  mpcArmsFrom 0 ((List.range 8).filterMap fun k => if mask.getLsbD k then (s.armProf k).map fun p => (k, p) else none)

/-- The variable tags of the problem, in KKT order: by stage, arm and joint (R212, R242). -/
def mpcTags (arms : List MpcArm) (h : Nat) : List Nat :=
  (List.range h).flatMap fun st => arms.flatMap fun a => (List.range a.p.joints.length).map fun jn => a.k * 1024 + jn * 64 + st

/-- A DIR that is not zero, and one that is not finite (R220). -/
def dirSet (dir : List Word) : Bool := dir.any fun w => w.toNat % 2 ^ 31 != 0
def dirBad (dir : List Word) : Bool := dir.any fun w => fld w.toNat 30 23 == 255

/-- The fields of a record lie in their ranges. -/
def MpcRec.ok (arms : List MpcArm) (h : Nat) (r : MpcRec) : Bool :=
  let link (arm l : Nat) (tcp : Bool) : Bool := arms.any fun a => a.k == arm && (decide (l < a.p.joints.length) || (tcp && l == 0xFF))
  decide (1 ≤ r.kind) && decide (r.kind ≤ 4) && link r.arm r.link (decide (3 ≤ r.kind)) && decide (r.k0 ≤ r.k1) && decide (r.k1 < h)
    && (r.kind != 4 || (link r.other r.olink true && dirSet r.dir))

/-- DIR normalised. -/
def unitDir (dir : List Word) : List DWord :=
  let d := dir.map f32ToF64
  let n := fsqrt (dotAsc d d)
  d.map fun x => fdiv x n

/-- The point of an arm that a record names, at a reference, and its positional Jacobian by joints (R220): a joint beyond the
link does not move it. -/
def MpcArm.point (a : MpcArm) (link : Nat) (q : List DWord) : List DWord × List (List DWord) :=
  let fs := chainFrames a.p.model q a.p.base
  if link = 0xFF then
    let tcp := a.p.toolFrame a.p.base fs
    (mPos tcp, (jacobian fs tcp).map fun c => c.take 3)
  else
    let t := match fs[link]? with | some f => f.t | none => a.p.base
    (mPos t, mapFrom (fun i c => if i ≤ link then c.take 3 else vZero3) 0 (jacobian fs t))
where
  vZero3 : List DWord := [0, 0, 0]

/-- The inequalities of a record at a stage, with its slack. (DEDUCED: log 106.) -/
def MpcRec.ineqs (r : MpcRec) (arms : List MpcArm) (refAt : Nat → List DWord) (slack : KRow) (st : Nat) : List MpcIneq :=
  let make (t : List (KRow × DWord)) (l : DWord) : MpcIneq := ⟨t, l, some slack, st⟩
  match arms.find? fun a => a.k == r.arm with
  | none => []
  | some a =>
    let qr (x : MpcArm) : List DWord := ((refAt st).drop x.base).take x.p.joints.length
    let along (kind : KKind) (x : MpcArm) (d : List DWord) (jac : List (List DWord)) : List (KRow × DWord) :=
      mapFrom (fun i c => (⟨kind, st, x.base + i⟩, dotAsc d c)) 0 jac
    let both (kind : KKind) (c : DWord) : List MpcIneq :=
      [make [(⟨kind, st, a.base + r.link⟩, f64One)] (fadd c r.limit),
       make [(⟨kind, st, a.base + r.link⟩, f64Negate f64One)] (fsub r.limit c)]
    if r.kind = 1 then both .q (if Config.mpcBandRef then nth (qr a) r.link 0 else 0)
    else if r.kind = 2 then both .v 0
    else if r.kind = 3 then
      let jac := (a.point r.link (qr a)).2
      let one (i : Nat) (x : DWord) : List DWord := (List.range 3).map fun k => if k = i then x else 0
      let dirs := if dirSet r.dir then [unitDir r.dir]
        else (List.range 3).flatMap fun i => [one i f64One, one i (f64Negate f64One)]
      dirs.map fun d => make (along .v a d jac) r.limit
    else
      match arms.find? fun x => x.k == r.other with
      | none => []
      | some b =>
        let d := unitDir r.dir
        let pa := a.point r.link (qr a)
        let pb := b.point r.olink (qr b)
        let ja := along .q a d pa.2
        let jb := along .q b d pb.2
        let at0 (j : List (KRow × DWord)) (x : MpcArm) : DWord := dotAsc (j.map fun e => e.2) (qr x)
        let dist := dotAsc d (vSub pa.1 pb.1)
        let merged := if r.other = r.arm then mapFrom (fun i e => (e.1, fsub (nth jb i (⟨.q, 0, 0⟩, 0)).2 e.2)) 0 ja
          else ja.map (fun e => (e.1, f64Negate e.2)) ++ jb
        [make merged (fsub dist (fadd r.limit (fsub (at0 ja a) (at0 jb b))))]

/-- The problem an input block poses at measured joint states: the records' inequalities in record order, then the position
and velocity bounds of each joint, each with a slack of its own, the acceleration bounds, and s ≥ 0. (DEDUCED: log 106.) -/
def mpcProb (b : List Byte) (arms : List MpcArm) (h : Nat) (q0 v0 : List DWord) : MpcProb :=
  let n := arms.foldl (fun x a => x + a.p.joints.length) 0
  let f (o : Nat) : DWord := BitVec.ofNat 64 (valAt b o 8)
  let refq := f64sAt b (valAt b 0x30 4) (h * n)
  let refAt (st : Nat) : List DWord := (refq.drop (st * n)).take n
  let recs := mpcRecs b
  let lims : List (JointModel × JointLim) := arms.flatMap fun a => a.p.model.zip a.p.lims
  let rate (ml : JointModel × JointLim) (w : Word) : DWord := fmul (f32ToF64 w) (f64Abs ml.1.cscale)
  let recSlack : List KRow := mapFrom (fun i (r : MpcRec) => ⟨.slack, r.k0, i⟩) 0 recs
  let ofRecs := (recs.zip recSlack).flatMap fun e =>
    (List.range h).flatMap fun st => if e.1.k0 ≤ st ∧ st ≤ e.1.k1 then e.1.ineqs arms refAt e.2 st else []
  let bounds (st j : Nat) (ml : JointModel × JointLim) : List MpcIneq :=
    let i := recs.length + 4 * (st * n + j)
    let r := jointRange ml.1 ml.2
    let v := rate ml ml.2.vmax
    let mk (k : Nat) (kind : KKind) (c l : DWord) : MpcIneq := ⟨[(⟨kind, st, j⟩, c)], l, some ⟨.slack, st, i + k⟩, st⟩
    [mk 0 .q f64One r.2, mk 1 .q (f64Negate f64One) (f64Negate r.1), mk 2 .v f64One v, mk 3 .v (f64Negate f64One) v]
  let ofBounds := (List.range h).flatMap fun st => (mapFrom (bounds st) 0 lims).flatten
  let amax := lims.map fun ml => rate ml ml.2.amax
  let ofAcc := (List.range h).flatMap fun st => (mapFrom (fun j a =>
    ([⟨[(⟨.u, st, j⟩, f64One)], a, none, st⟩, ⟨[(⟨.u, st, j⟩, f64Negate f64One)], a, none, st⟩] : List MpcIneq)) 0 amax).flatten
  let slacks := recSlack ++ ofBounds.filterMap fun c => c.slack
  let ofSlack := slacks.map fun r => (⟨[(r, f64Negate f64One)], 0, none, r.stage⟩ : MpcIneq)
  { n := n, h := h, dt := f 8, wq := f 0x10, wv := f 0x18, wu := f 0x20, wslack := f 0x28, q0 := q0, v0 := v0, refq := refq, amax := amax,
    ineqs := ofRecs ++ ofBounds ++ ofAcc ++ ofSlack, slacks := slacks, nrec := recs.length }

/-! ### The jobs (types 0x06 and 0x07) -/

/-- A free job value as a count up to a bound, and an output of free values: the job of an input block whose fields lie
outside their ranges. (DESIGN CHOICE: log 8.) -/
def Job.freeNat (j : Job) (i bound : Nat) : Nat := (Config.jobVal j.data i).toNat % (bound + 1)
def Job.freeRes (j : Job) (asm iter words : Nat) : JobResult :=
  let it := if j.d.type.toNat = 7 then j.freeNat 2 j.d.iterCap.toNat else 0
  let out := (List.range words).map fun i => Config.jobVal j.data (16 + i)
  let n := j.freeNat 0 65535
  let p : Pivs := { count := n, first := if n = 0 then 0xFFFF else j.freeNat 1 65534 }
  let cyc := asm + (if j.d.type.toNat = 7 then it else 1) * iter
  if !finite out then overflowRes cyc it p
  else JobResult.withPivs
    { code := BitVec.ofNat 16 (if it = j.d.iterCap.toNat then j.freeNat 3 1 else 0) ||| (if j.freeNat 4 1 = 1 then 0x800 else 0)
      iter := BitVec.ofNat 8 it, resid := if j.d.type.toNat = 7 then Config.jobVal j.data 5 else 0, cycles := cyc, output := f64Bytes out } p

/-- What an MPC job writes: the inputs, the states by stage, and the slack of each record (R214). -/
def MpcProb.output (m : MpcProb) (it : MpcIter) : List DWord :=
  it.u ++ (m.states it.u).flatMap (fun x => x.1 ++ x.2) ++ it.s.take m.nrec

/-- SLACK: any slack of the written iterate is above 0. -/
def MpcIter.slackFlag (it : MpcIter) : BitVec 16 := if it.s.any (fun x => f64Lt 0 x) then 0x800 else 0

/-- The iterations of type 0x07 (R235, R236, R238): `tell` puts the warm-start counts into a result, `cost` counts the
cycles of a number of iterations. -/
def MpcProb.loop (m : MpcProb) (c : PivCfg) (bound : DWord) (cost : Nat → Nat) :
    Nat → Nat → MpcIter → MpcIter → Pivs → List JobMark → JobResult
  | fuel, it, cur, best, pv, marks =>
    let finish (code : BitVec 16) (b : MpcIter) : JobResult :=
      JobResult.withPivs
        { code := code ||| b.slackFlag, iter := BitVec.ofNat 8 it, resid := b.res, cycles := cost it, output := f64Bytes (m.output b)
          marks := marks } pv
    if !(f64IsFinite cur.res && finite (m.output cur)) then { overflowRes (cost it) it pv with marks := marks }
    else if f64Le cur.res bound then finish 0 cur
    else match fuel with
      | 0 => finish 1 best
      | fuel + 1 =>
        let r := m.solve c cur.work pv
        if r.1.bad then { overflowRes (cost (it + 1)) (it + 1) r.1.p with marks := marks }
        else
          let nxt := m.judge (m.advance cur (m.target r.2 cur.work))
          m.loop c bound cost fuel (it + 1) nxt (if f64Le nxt.res best.res then nxt else best) r.1.p
            (marks ++ [markOf (cost (it + 1)) (it + 1) r.1.p])

/-- The warm-start counts in every figure from the assembly on (R244). -/
def JobResult.tell (r : JobResult) (matched unmatched : Nat) : JobResult :=
  { r with
    code := if r.code.toNat % 256 < 2 && decide (0 < unmatched) then r.code ||| 0x100 else r.code
    matched := BitVec.ofNat 16 matched
    unmatched := BitVec.ofNat 16 unmatched
    marks := r.marks.map fun x => { x with matched := BitVec.ofNat 16 matched, unmatched := BitVec.ofNat 16 unmatched } }

/-- Types 0x06 and 0x07 over the measured joint states (R212, R235–R244). -/
def State.mpc (s : State) (j : Job) (q0 v0 : List DWord) : JobResult :=
  let arms := s.mpcArms j.d.armMask
  let h := j.d.h.toNat
  let b := j.input
  let m := mpcProb b arms h q0 v0
  let recs := mpcRecs b
  let warm := j.d.mode.getLsbD 1
  let blk := if warm then warmBlock b j.d.inLen.toNat j.d.warmOff.toNat else ([], [], true)
  let got := matchTags (mpcTags arms h) blk.1
  let gotS := matchTags (recs.map fun r => r.tag) blk.2.1
  let nm := ((got ++ gotS).filter Option.isSome).length
  let asm := 2000 + asmTerm j.d (arms.map fun a => a.p)
  let core := coreTerm j.d m.n
  let inRange := decide (recs.length ≤ 512) && decide (valAt b 0x30 4 + 8 * (h * m.n) ≤ j.d.inLen.toNat)
    && decide (64 ≤ j.d.inLen.toNat) && decide (valAt b 0x34 4 + 32 * recs.length ≤ j.d.inLen.toNat) && f64Lt 0 m.dt
    && recs.all (MpcRec.ok arms h)
  if !(finite [m.dt, m.wq, m.wv, m.wu, m.wslack] && finite m.refq && finite (recs.map fun r => r.limit) && blk.2.2)
      || recs.any (fun r => dirBad r.dir) then overflowRes 2000 0 {}
  else if !inRange then j.freeRes asm core (3 * h * m.n + recs.length)
  else
    let amax := ((List.range h).map fun _ => m.amax).flatten
    let u := List.zipWith (fun (x : Option DWord) a => fmax (f64Negate a) (fmin a (x.getD 0))) got amax
    let sl := (gotS.map fun x => fmax 0 (x.getD 0)) ++ List.replicate (m.slacks.length - recs.length) 0
    let start := m.initial j.d.epsAbs u sl
    let told (r : JobResult) : JobResult := if warm then r.tell nm (got.length + gotS.length - nm) else r
    if !(finite (m.ineqs.map fun c => c.limit) && f64IsFinite (m.judge start).res) then told (overflowRes asm 0 {})
    else if j.d.type.toNat = 6 then
      let r := m.solve j.pivCfg start.work {}
      let it := m.target r.2 start.work
      let res := directRes (asm + core) r.1.p r.1.bad (m.output it)
      { res with code := if res.code.toNat % 256 = 0 then res.code ||| it.slackFlag else res.code }
    else
      told (m.loop j.pivCfg (fadd j.d.epsAbs (fmul j.d.epsRel m.bNorm)) (fun n => asm + n * core) j.d.iterCap.toNat 0
          (m.judge start) (m.judge start) {} [])

end Sys2Proof.Machine
end

