-- ==== Sys2Proof/Machine/SolverQ.lean ====
section
/-! DEFINITION. Q-mode (R245–R248): job types 0x01 to 0x03 in 32-bit fixed point. A value is a word with whether anything
that went into it saturated; every word has an exponent E and the value w × 2^(E − 31). -/

namespace Sys2Proof.Machine

/-- A Q-mode word, and whether it or a word it was formed from saturated. -/
abbrev QW := Int × Bool

/-- A product or operand that enters a sum: its exact word, the power of two of its unit, and its sign in the sum. -/
structure QTerm where
  neg  : Bool := false
  raw  : Int
  unit : Int
  sat  : Bool

/-- x × 2^t on the integer grid: half a step added, then an arithmetic shift (R247). -/
def qShift (x t : Int) : Int := if 0 ≤ t then x * 2 ^ t.toNat else rndShift x (-t).toNat

/-- Saturation to a word (R247 step 4). -/
def qSat (x : Int) (sat : Bool) : QW := (sat32 x, sat || sat32 x != x)

/-- A term on the grid of 2^(Ed − 63) (R247 step 1). (DESIGN CHOICE: log 8.) -/
def QTerm.align (t : QTerm) (ed : Int) : Int :=
  if t.neg then (if Config.qNegFirst then qShift (-t.raw) (t.unit - (ed - 63)) else -(qShift t.raw (t.unit - (ed - 63))))
  else qShift t.raw (t.unit - (ed - 63))

/-- A sum for a destination of exponent Ed: aligned terms in ascending order in a saturating 128-bit accumulator, then the
destination grid and saturation (R247). -/
def qSum (ed : Int) (ts : List QTerm) : QW :=
  let acc := ts.foldl (fun (a : QW) t =>
    let x := a.1 + t.align ed
    let y := clampInt (-(2 ^ 127)) (2 ^ 127 - 1) x
    (y, a.2 || t.sat || y != x)) (0, false)
  qSat (rndShift acc.1 32) acc.2

def qOperand (e : Int) (x : QW) : QTerm := { raw := x.1, unit := e - 31, sat := x.2 }
def qProduct (neg : Bool) (ea eb : Int) (x : QW × QW) : QTerm :=
  { neg := neg, raw := x.1.1 * x.2.1, unit := ea + eb - 62, sat := x.1.2 || x.2.2 }

/-- A word on another exponent. -/
def qConv (ed e : Int) (x : QW) : QW := qSum ed [qOperand e x]
/-- x − Σ a × b, and Σ a × b. -/
def qMsub (ed e0 : Int) (x : QW) (ea eb : Int) (ps : List (QW × QW)) : QW := qSum ed (qOperand e0 x :: ps.map (qProduct true ea eb))
def qDot (ed ea eb : Int) (ps : List (QW × QW)) : QW := qSum ed (ps.map (qProduct false ea eb))

/-- A quotient: rounded half up to the destination grid and saturated (R247). A division by a zero word is free.
(DESIGN CHOICE: log 8.) -/
def qDiv (ed ea eb : Int) (a b : QW) : QW :=
  if b.1 = 0 then ((Config.qDivZero a.1).toNat % 2 ^ 32 |> fun n => sextTo 32 n, a.2 || b.2 || (Config.qDivZero a.1).msb)
  else
    let t := ea - eb - ed + 31
    let num := a.1 * 2 ^ t.toNat
    let den := b.1 * 2 ^ (-t).toNat
    qSat (Int.fdiv (2 * num + den) (2 * den)) (a.2 || b.2)

/-- The root of v × 2^t, rounded half up. -/
def qRoot (v : Nat) (t : Int) : Int :=
  let four := if 0 ≤ t + 2 then v * 2 ^ (t + 2).toNat else v / 2 ^ (-(t + 2)).toNat
  ((isqrtFrom four 240 0 + 1) / 2 : Nat)

/-- A square root on the destination grid (R247); the argument is never negative. -/
def qSqrt (ed e : Int) (x : QW) : QW := qSat (qRoot x.1.toNat (e + 31 - 2 * ed)) x.2

/-! ### Exponents and arrays (R245, R246) -/

/-- The exponents of a job: A and B by their headers, the others by the record. -/
structure QExps where
  ea : Int
  eb : Int
  ef : Int
  ed : Int
  ey : Int
  ex : Int
  en : Int

def qExpAt (b : List Byte) (off : Nat) : Int := sextTo 16 (valAt b off 2)

def QExps.ok (e : QExps) : Bool := [e.ea, e.eb, e.ef, e.ed, e.ey, e.ex, e.en].all fun x => decide (-126 ≤ x) && decide (x ≤ 127)

/-- The exponent of an intermediate result that the record does not name. (DESIGN CHOICE: log 8.) -/
def QExps.mid (e : QExps) (i : Nat) : Int := nth [e.ef, e.ed, e.ey, e.ex, e.en] (Config.qExp i % 5) 0

/-- The elements of a Q-array, and a Q-array of words. -/
def qWords (b : List Byte) (off n : Nat) : List QW :=
  (List.range n).map fun i => (sextTo 32 (valAt b (off + 8 + 4 * i) 4), false)
def qArray (e : Int) (l : List QW) : List Byte :=
  leBytes (BitVec.ofInt 16 e).toNat 2 ++ leBytes 0 6 ++ l.flatMap (fun w => leBytes (BitVec.ofInt 32 w.1).toNat 4)
    ++ leBytes 0 (if l.length % 2 = 1 then 4 else 0)

def qColumn (b : List QW) (n c : Nat) : List QW := (List.range n).map fun i => nth b (c * n + i) (0, false)

/-! ### Pivots (R230, R231, R248) -/

/-- The tolerances and LAMBDA on the grid of the pivots. -/
structure QTol where
  rel    : Int
  abs    : Int
  lambda : Int

/-- A binary64 number on the grid of exponent E. -/
def qOfF64 (e : Int) (x : DWord) : Int := qShift (f64SMan x) (f64Unit x - (e - 31))

/-- TAU_REL × dmax, TAU_ABS and LAMBDA on the ED grid, with dmax already there (R248). (DEDUCED: log 106.) -/
def Job.qTol (j : Job) (ed dmax : Int) : QTol where
  rel := qShift (f64SMan j.d.tauRel * dmax) (f64Unit j.d.tauRel)
  abs := qOfF64 ed j.d.tauAbs
  lambda := qOfF64 ed j.d.lambda

/-- The pivot rule on the ED grid; none where the pivot is still zero after regularisation (R248). -/
def qPivot (t : QTol) (chol : Bool) (k : Nat) (d : QW) (p : Pivs) : Option QW × Pivs :=
  let low : Bool := d.1 == 0 || decide ((d.1.natAbs : Int) < t.rel) || decide ((d.1.natAbs : Int) < t.abs)
  let r : QW × Pivs :=
    if chol && decide (d.1 ≤ 0) then (qSat t.lambda d.2, p.flag k)
    else if low then (qSat (if d.1 < 0 then d.1 - t.lambda else d.1 + t.lambda) d.2, p.flag k)
    else (d, p)
  (if r.1.1 = 0 then none else some r.1, r.2)

/-! ### LDLᵀ and Cholesky (types 0x01, 0x02) -/

/-- The factor: the rows of L, the pivots (for Cholesky the diagonal of L), and whether a pivot stayed zero. -/
structure QFactor where
  rows : List (List QW) := []
  ds   : List QW := []
  p    : Pivs := {}
  bad  : Bool := false

/-- One row: the numerators u_kj = L_kj D_j and the entries L_kj, ascending; for Cholesky the sum runs over L_ki L_ji. -/
def qRow (chol : Bool) (e : QExps) (f : QFactor) (ak : Nat → QW) : Nat → List QW → List QW → List QW × List QW
  | 0, us, ls => (us, ls)
  | n + 1, us, ls =>
    let j := ls.length
    let row := nth f.rows j []
    let eu := e.mid 0
    let u := qMsub eu e.ea (ak j) (if chol then e.ef else eu) e.ef ((if chol then ls else us).zip row)
    let l := qDiv e.ef eu (if chol then e.ef else e.ed) u (nth f.ds j (0, false))
    qRow chol e f ak n (us ++ [u]) (ls ++ [l])

def qFactor (chol : Bool) (e : QExps) (t : QTol) (a : Nat → Nat → QW) : Nat → QFactor → QFactor
  | 0, f => f
  | n + 1, f =>
    let k := f.rows.length
    let r := qRow chol e f (a k) k [] []
    let d := qMsub e.ed e.ea (a k k) (if chol then e.ef else e.mid 0) e.ef ((if chol then r.2 else r.1).zip r.2)
    match qPivot t chol k d f.p with
    | (none, p) => { f with p := p, bad := true }
    | (some d', p) =>
      qFactor chol e t a n { rows := f.rows ++ [r.2], ds := f.ds ++ [if chol then qSqrt e.ef e.ed d' else d'], p := p }

def qForward (chol : Bool) (e : QExps) (ds : List QW) : List (List QW) → List QW → List QW → List QW
  | r :: rs, b :: bs, acc =>
    let y := if chol then qDiv e.ey (e.mid 1) e.ef (qMsub (e.mid 1) e.eb b e.ef e.ey (r.zip acc)) (nth ds acc.length (0, false))
      else qMsub e.ey e.eb b e.ef e.ey (r.zip acc)
    qForward chol e ds rs bs (acc ++ [y])
  | _, _, acc => acc

def qBackward (chol : Bool) (e : QExps) (f : QFactor) (ez : Int) (z : List QW) : Nat → List QW → List QW
  | 0, acc => acc
  | i + 1, acc =>
    let col := (List.range acc.length).map fun m => nth (nth f.rows (i + 1 + m) []) i (0, false)
    let zi := nth z i (0, false)
    let x := if chol then qDiv e.ex (e.mid 3) e.ef (qMsub (e.mid 3) ez zi e.ef e.ex (col.zip acc)) (nth f.ds i (0, false))
      else qMsub e.ex ez zi e.ef e.ex (col.zip acc)
    qBackward chol e f ez z i (x :: acc)

def qSolve (chol : Bool) (e : QExps) (f : QFactor) (b : List QW) : List QW :=
  let y := qForward chol e f.ds f.rows b []
  let n := f.rows.length
  if chol then qBackward true e f e.ey y n [] else qBackward false e f (e.mid 2) (List.zipWith (qDiv (e.mid 2) e.ey e.ed) y f.ds) n []

/-! ### Householder QR (type 0x03) -/

structure QrQ where
  rows : List (List QW) := []
  cols : List (List QW)
  p    : Pivs := {}
  bad  : Bool := false

/-- One column eliminated: R_kk on the ED grid, and the columns behind it, `left` of them still columns of A (on EF) and
the rest right-hand sides (on EY). (DESIGN CHOICE: log 8.) -/
def qReflect (e : QExps) (left : Nat) (x : List QW) (cols : List (List QW)) : QW × List (List QW) :=
  let x0 := nth x 0 (0, false)
  let norm := qSqrt e.ed (e.mid 4) (qDot (e.mid 4) e.ef e.ef (x.zip x))
  let alpha : QW := if x0.1 < 0 then norm else (-norm.1, norm.2)
  let v := qSum e.ef [qOperand e.ef x0, { qOperand e.ed alpha with neg := true }] :: x.tail
  let vv := qDot (e.mid 5) e.ef e.ef (v.zip v)
  (alpha, mapFrom (fun i y =>
    if vv.1 = 0 then y
    else
      let ey := if i < left then e.ef else e.ey
      let t := qDiv (e.mid 7) (e.mid 6 + 1) (e.mid 5) (qDot (e.mid 6) e.ef ey (v.zip y)) vv
      List.zipWith (fun a b => qMsub ey ey a (e.mid 7) e.ef [(t, b)]) y v) 0 cols)

def qrLoopQ (e : QExps) (t : QTol) : Nat → QrQ → QrQ
  | 0, f => f
  | n + 1, f =>
    match f.cols with
    | [] => f
    | x :: rest =>
      let r := qReflect e n x rest
      match qPivot t false f.rows.length r.1 f.p with
      | (none, p) => { f with p := p, bad := true }
      | (some d, p) =>
        qrLoopQ e t n { rows := f.rows ++ [d :: r.2.map fun y => nth y 0 (0, false)], cols := r.2.map List.tail, p := p }

def qrSolveQ (e : QExps) (rows : List (List QW)) (c : Nat) : List QW :=
  rows.foldr (fun row xs =>
    qDiv e.ex (e.mid 8) e.ed (qMsub (e.mid 8) e.ey (nth row (1 + xs.length + c) (0, false)) e.ef e.ex (row.tail.zip xs))
      (nth row 0 (0, false)) :: xs) []

/-! ### The job -/

/-- The result of a Q-mode job: the two output Q-arrays, the pivots and SATURATED (R245–R248). -/
def qResult (e : QExps) (full : Nat) (p : Pivs) (bad : Bool) (all x second : List QW) : JobResult :=
  if bad then overflowRes full 0 p
  else JobResult.withPivs
    { code := if (all ++ x ++ second).any (fun w => w.2) then 0x400 else 0, cycles := full, output := qArray e.ex x ++ qArray e.en second } p

/-- A Q-mode job: the exponent record, then A and B (R246). -/
def Job.qmode (j : Job) : JobResult :=
  let n := j.d.n.toNat
  let k := j.d.k.toNat
  let qr := j.d.type.toNat = 3
  let chol := j.d.type.toNat == 2
  let rows := if qr then j.d.m.toNat else n
  let offB := 16 + qSize (rows * n)
  let named (i : Nat) : Int := qExpAt j.input (2 * i)
  let e : QExps := ⟨qExpAt j.input 16, qExpAt j.input offB, named 0, named 1, named 2, named 3, named 4⟩
  let full := 2000 + coreTerm j.d 0
  let a := qWords j.input 16 (rows * n)
  let b := qWords j.input offB (rows * k)
  if !e.ok then overflowRes 2000 0 {}
  else if qr then
    let colsA := (List.range n).map fun c => qColumn a rows c
    let dmax := colsA.foldl (fun (m : Int) x => max m (qRoot (x.foldl (fun s w => s + w.1.natAbs ^ 2) 0) (2 * e.ea - 2 * e.ed))) 0
    let f := qrLoopQ e (j.qTol e.ed dmax) n
      { cols := colsA.map (List.map (qConv e.ef e.ea)) ++ (List.range k).map fun c => (qColumn b rows c).map (qConv e.ey e.eb) }
    qResult e full f.p f.bad f.rows.flatten ((List.range k).flatMap fun c => qrSolveQ e f.rows c)
      (f.cols.map fun x => qSqrt e.en (e.mid 9) (qDot (e.mid 9) e.ey e.ey (x.zip x)))
  else
    let at2 (i c : Nat) : QW := nth a (c * n + i) (0, false)
    let dmax := (List.range n).foldl (fun (m : Int) i => max m (at2 i i).1.natAbs) 0
    let f := qFactor chol e (j.qTol e.ed (qShift dmax (e.ea - e.ed))) at2 n {}
    qResult e full f.p f.bad (f.rows.flatten ++ f.ds) ((List.range k).flatMap fun c => qSolve chol e f (qColumn b n c))
      (f.ds.map (qConv e.en (if chol then e.ef else e.ed)))

end Sys2Proof.Machine
end

