-- ==== Sys2Proof/Machine/SolverRun.lean ====
section
/-! DEFINITION. What a job computes, by its type (R211, R213, R221): the measured joint states it copied, assembly, and the
dispatch over the job types. -/

namespace Sys2Proof.Machine

/-- The arms of a job with their measured joint positions and velocities (R210, R211). -/
structure ArmMeas where
  p  : ArmProf
  q  : List DWord
  qd : List DWord

/-- The measured states of the arms, from the axis records the job copied, in the order of the arms and their joints;
`cmd` takes the commanded positions (MODE bit 2). -/
def measuredArms (cmd : Bool) : List ArmProf → List AxisRec → List ArmMeas
  | [], _ => []
  | p :: ps, l =>
    ⟨p, List.zipWith (fun (m : JointModel) (r : AxisRec) => m.coord (if cmd then r.cmd else r.act).toInt) p.model l,
     List.zipWith (fun (m : JointModel) (r : AxisRec) => fmul (fofInt r.vel.toInt) m.cscale) p.model l⟩
      :: measuredArms cmd ps (l.drop p.joints.length)

/-- Type 0x08: the tool frame, the Jacobian and the mass matrix of one arm (R214). -/
def ArmMeas.assemble (a : ArmMeas) : List DWord :=
  let fs := chainFrames a.p.model a.q a.p.base
  let tcp := a.p.toolFrame a.p.base fs
  tcp ++ (jacobian fs tcp).flatten ++ (a.p.massMatrix fs tcp).flatten

/-- Type 0x05: the torques of the arms, from their accelerations and then their wrenches (R214). -/
def inverseArms (gravity : List DWord) : List ArmMeas → List DWord → List (List DWord) → List DWord
  | [], _, _ => []
  | a :: as, qdd, w =>
    let n := a.p.joints.length
    a.p.inverse gravity a.q a.qd (qdd.take n) (w.headD []) ++ inverseArms gravity as (qdd.drop n) w.tail

/-- What a job computes, with its cycle count (R213, R221, R232). -/
def State.runJob (s : State) (j : Job) : JobResult :=
  let d := j.d
  let arms := s.jobArms d.armMask
  let t := d.type.toNat
  let ms := measuredArms (d.mode.getLsbD 2) arms j.axes
  if t ≤ 3 then (if d.mode.getLsbD 0 then j.qmode else if t = 3 then j.qr else j.dense (t == 2))
  else if t = 4 then (match arms with | p :: _ => j.ik p | [] => {})
  else if t = 5 then
    let n := njOf arms
    let qdd := f64sAt j.input 0 n
    let w := (List.range arms.length).map fun i => f64sAt j.input (8 * (n + 6 * i)) 6
    if !(finite qdd && w.all finite) then overflowRes 2000 0 {}
    else directRes (2000 + asmTerm d arms) {} false (inverseArms s.prof.gravity ms qdd w)
  else if t = 6 ∨ t = 7 then s.mpc j (ms.flatMap fun a => a.q) (ms.flatMap fun a => a.qd)
  else directRes (2000 + asmTerm d arms) {} false (ms.flatMap ArmMeas.assemble)

end Sys2Proof.Machine
end

