-- ==== Sys2Proof/Machine/Solver.lean ====
section
/-! DEFINITION. Solver jobs (R132–R135, R206–R226): submission, admission, tiles, ends, delivery, and the clean-up of a
core that stops or halts with the starting and stopping of cores (R117, R148). -/

namespace Sys2Proof.Machine

/-! ### Job descriptors (R215, R216) -/

def jobOfBytes (b : List Byte) : JobDesc where
  type := BitVec.ofNat 8 (valAt b 0 1)
  mode := BitVec.ofNat 8 (valAt b 1 1)
  nt := BitVec.ofNat 8 (valAt b 2 1)
  tmask := BitVec.ofNat 8 (valAt b 3 1)
  iterCap := BitVec.ofNat 8 (valAt b 4 1)
  armMask := BitVec.ofNat 8 (valAt b 5 1)
  h := BitVec.ofNat 16 (valAt b 6 2)
  n := BitVec.ofNat 16 (valAt b 8 2)
  m := BitVec.ofNat 16 (valAt b 0xA 2)
  k := BitVec.ofNat 16 (valAt b 0xC 2)
  rsv1 := BitVec.ofNat 16 (valAt b 0xE 2)
  inAddr := BitVec.ofNat 32 (valAt b 0x10 4)
  inLen := BitVec.ofNat 32 (valAt b 0x14 4)
  outAddr := BitVec.ofNat 32 (valAt b 0x18 4)
  outLen := BitVec.ofNat 32 (valAt b 0x1C 4)
  stAddr := BitVec.ofNat 32 (valAt b 0x20 4)
  tickMax := BitVec.ofNat 32 (valAt b 0x24 4)
  warmOff := BitVec.ofNat 32 (valAt b 0x28 4)
  rsv2 := BitVec.ofNat 32 (valAt b 0x2C 4)
  tauRel := BitVec.ofNat 64 (valAt b 0x30 8)
  tauAbs := BitVec.ofNat 64 (valAt b 0x38 8)
  lambda := BitVec.ofNat 64 (valAt b 0x40 8)
  epsAbs := BitVec.ofNat 64 (valAt b 0x48 8)
  epsRel := BitVec.ofNat 64 (valAt b 0x50 8)
  userTag := BitVec.ofNat 64 (valAt b 0x58 8)
  rsv3 := (bytesAt b 0x60 32).any (· != 0)

def popcount4 (m : BitVec 4) : Nat := ((List.range 4).filter fun i => m.getLsbD i).length
def popcount8 (m : Byte) : Nat := ((List.range 8).filter fun i => m.getLsbD i).length

/-- The tiles a job may use: TMASK (0 meaning any) within SLV_ALLOWn (R216, R223). -/
def State.jobTiles (s : State) (c : Fin 9) (d : JobDesc) : BitVec 4 :=
  (if d.tmask.setWidth 4 = 0 then 0xF else d.tmask.setWidth 4) &&& (s.reg (0x80100 + 4 * c.val)).setWidth 4 &&& s.tilesPresent

/-- Two ranges overlap. -/
def overlap (a la b lb : Nat) : Bool := decide (0 < la) && decide (0 < lb) && decide (a < b + lb) && decide (b < a + la)

/-- A finite binary64 that is at least 0. -/
def nonNeg (x : DWord) : Bool := f64IsFinite x && f64Le 0 x

/-- The issue checks of a job descriptor at address `at0`, by offset: the first failing field (R215, R216, R240).
The number of constraint records, which R214's output size counts, is
read from the input block. (DEDUCED: log 47.) -/
def State.jobCheck (s : State) (c : Fin 9) (at0 : Nat) (d : JobDesc) : Option Nat :=
  let t := d.type.toNat
  let dense := decide (1 ≤ t) && decide (t ≤ 3)
  let mpc := t == 6 || t == 7
  let arms := s.jobArms d.armMask
  let nt := d.nt.toNat
  let lo := 0x10000000
  let hi := lo + s.prof.priv64k * 65536
  let badAddr (a : Nat) : Bool := a % 8 != 0 || decide (a < lo) || decide (hi ≤ a)
  let i := d.inAddr.toNat
  let il := d.inLen.toNat
  let o := d.outAddr.toNat
  let ol := d.outLen.toNat
  let st := d.stAddr.toNat
  let warm := d.mode.getLsbD 1
  let n := d.n.toNat
  let nrec := valAt (s.data.readN (c.val * (s.prof.priv64k * 65536) + (i - lo)) 2) 0 2
  let dims : List (Nat × Bool) := [
    (0x05, (if dense then d.armMask != 0 else if t == 4 then popcount8 d.armMask != 1 else d.armMask == 0)
      || (List.range 8).any fun k => d.armMask.getLsbD k && (s.armProf k).isNone),
    (0x06, if mpc then d.h == 0 || decide (64 < d.h.toNat) else d.h != 0),
    (0x08, if dense then n == 0 || decide (2048 < n) else n != 0),
    (0x0A, if t == 3 then decide (d.m.toNat < n) || decide (2048 < d.m.toNat) else d.m != 0),
    (0x0C, if dense then d.k == 0 || decide (256 < d.k.toNat) else d.k != 0)]
  let checks : List (Nat × Bool) := [
    (0x00, t == 0 || decide (8 < t)),
    (0x01, decide (16 ≤ d.mode.toNat) || (d.mode.getLsbD 0 && !dense) || (warm && t != 7)),
    (0x02, nt == 0 || decide (4 < nt) || (t == 4 && nt != 1) || decide (popcount4 (s.jobTiles c d) < nt)
      || decide (nt * 2 * 1024 * 1024 < workSet d arms)),
    (0x03, decide (16 ≤ d.tmask.toNat)),
    (0x04, if t == 4 || t == 7 then d.iterCap == 0 else d.iterCap != 0)] ++ dims ++ [
    (0x0E, d.rsv1 != 0),
    (0x10, badAddr i || overlap i il at0 128),
    (0x14, il % 8 != 0 || decide (65536 < il) || decide (hi < i + il)),
    (0x18, badAddr o || overlap o ol at0 128 || overlap o ol i il),
    (0x1C, ol % 8 != 0 || decide (ol < 8) || decide (32768 < ol) || decide (hi < o + ol) || decide (ol < s.outSize d nrec)),
    (0x20, badAddr st || decide (hi < st + 64) || overlap st 64 at0 128 || overlap st 64 i il || overlap st 64 o ol),
    (0x28, if warm then decide (il < d.warmOff.toNat + 16) else d.warmOff != 0),
    (0x2C, d.rsv2 != 0),
    (0x30, !nonNeg d.tauRel), (0x38, !nonNeg d.tauAbs),
    (0x40, !(nonNeg d.lambda && !f64IsZero d.lambda)),
    (0x48, !nonNeg d.epsAbs), (0x50, !nonNeg d.epsRel), (0x60, d.rsv3)]
  (checks.find? fun e => e.2).map fun e => e.1

/-- The jobs a core holds: submitted, and delivered but not collected (R132). -/
def State.heldJobs (s : State) (c : Fin 9) : Nat :=
  let own (l : List Job) : Nat := (l.filter fun j => j.core == c && !j.discard).length
  own s.solver.queue + own s.solver.running + own s.solver.ended
    + (s.solver.delivered.filter fun e => e.1.toNat / 2 ^ 28 == c.val).length
    + s.ownReqs c Req.isJob

/-- JOB (R132, R215, R216): a mask that names a fused-off tile or arm raises RESOURCE before anything else that its operand
could raise (R146). (DEDUCED: log 48.) -/
def execJob (c : Fin 9) (rd ra : Fin 32) (err : Ecc) (s : State) : Res :=
  s.cell c rd [.g ra] fun s1 _ =>
    let a := (s1.rgOf c ra).toNat
    let word := wordR 0x12 rd.val ra.val 0 0
    let raw := match s1.operand c a 128 .clean with | .inr off => some (jobOfBytes (s1.data.readN off 128)) | .inl _ => none
    let fused : Bool := match raw with
      | some d => (List.range 4).any (fun t => d.tmask.getLsbD t && !s1.tilesPresent.getLsbD t)
          || (List.range 8).any fun k => d.armMask.getLsbD k && !s1.armPresent k
      | none => false
    if fused then .trap 7 word
    else s1.withBytes c a 128 err fun b =>
      let d := jobOfBytes b
      if 8 ≤ s1.heldJobs c then .done 18 (refuse 1 8) s1
      else match s1.jobCheck c a d with
        | some o => .done 18 (refuse 3 o) s1
        | none =>
          let k := s1.core c.castSucc
          let handle : Word := BitVec.ofNat 32 (c.val * 2 ^ 28 + k.jobCount.toNat)
          let s2 := s1.modCore c.castSucc fun k => { k with jobCount := k.jobCount + 1 }
          .done 18 (handle.setWidth 64) (s2.request c (.job { handle := handle, core := c, d := d, allowed := s1.jobTiles c d }))

/-- A handle that a core holds and whose result is not yet delivered. -/
def State.jobOpen (s : State) (c : Fin 9) (h : Word) : Bool :=
  let has (l : List Job) : Bool := l.any fun j => j.handle == h && j.core == c && !j.discard
  has s.solver.queue || has s.solver.running || has s.solver.ended
    || s.reqs.any fun e => e.core == c && match e.req with | .job j => j.handle == h | _ => false

/-- Collects a delivered result (R134): its completion code, and the state without the handle. -/
def State.collect (s : State) (c : Fin 9) (h : Word) : Option (BitVec 16 × State) :=
  if h.toNat / 2 ^ 28 != c.val then none
  else (s.solver.delivered.find? fun e => e.1 == h).map fun e =>
    (e.2, { s with solver := { s.solver with delivered := s.solver.delivered.erase e } })

/-- The outcome of JWAIT at an evaluation (R130, R134). (DESIGN CHOICE: log 102.) -/
def State.evalJob (s : State) (c : Fin 9) (h deadline : DWord) (atIssue : Bool) : Option (DWord × State) :=
  let h32 : Word := h.setWidth 32
  let k := s.core c.castSucc
  if !atIssue && k.safetyEv then some (refuse 6 (k.safetySeen s.coreSafety.num), s)
  else match s.collect c h32 with
    | some r => some (r.1.setWidth 64, r.2)
    | none =>
      if !s.jobOpen c h32 then some (refuse 7 h32.toNat, s)
      else if deadline != 0 && decide (deadline.toNat ≤ s.epoch) then some (refuse 4 s.epoch, s)
      else none

/-- JWAIT (R134). -/
def execJwait (c : Fin 9) (rd ra rb : Fin 32) (s : State) : Res :=
  s.cell c rd [.g ra, .g rb] fun s1 _ =>
    let h := s1.rgOf c ra
    let dl := s1.rgOf c rb
    match s1.evalJob c h dl true with
    | some r => .done 1 r.1 r.2
    | none => .sleep (s1.modCore c.castSucc fun k => { k with mode := .waiting, wait := some (.job rd h dl), waitFrom := s1.epoch })

/-- JWAIT_WAKE (R134): the evaluation at step 7 of a later boundary. (DEDUCED: log 34.) -/
def execJwaitWake (c : Fin 9) (s : State) : Res :=
  let k := s.core c.castSucc
  .next (match k.mode, k.wait with
    | .waiting, some (.job rd h dl) =>
      if k.waitFrom < s.epoch then
        match s.evalJob c h dl false with
        | some r => r.2.modCore c.castSucc fun k => k.endWait s.epoch rd r.1
        | none => s
      else s
    | _, _ => s)

/-- JSTAT (R134). (DESIGN CHOICE: log 102.) -/
def execJstat (c : Fin 9) (rd ra : Fin 32) (s : State) : Res :=
  s.cell c rd [.g ra] fun s1 _ =>
    let h : Word := (s1.rgOf c ra).setWidth 32
    match s1.collect c h with
    | some r => .done 1 (r.1.setWidth 64) r.2
    | none => .done 1 (if s1.jobOpen c h then refuse 0xB h.toNat else refuse 7 h.toNat) s1

/-- JCANCEL (R135): a job already delivered, or a handle not held, is refused with UNKNOWN. -/
def execJcancel (c : Fin 9) (rd ra : Fin 32) (s : State) : Res :=
  s.cell c rd [.g ra] fun s1 _ =>
    let h : Word := (s1.rgOf c ra).setWidth 32
    if s1.jobOpen c h then .done 1 0 (s1.request c (.jcancel h)) else .done 1 (refuse 7 h.toNat) s1

/-! ### Admission, tiles, ends (R206, R207, R210, R222–R225) -/

/-- Puts a job in its place of the queue (R222). -/
def queueInsert (j : Job) (q : List Job) : List Job :=
  if j.d.mode.getLsbD 3 then
    (q.filter fun x => x.d.mode.getLsbD 3) ++ [j] ++ (q.filter fun x => !x.d.mode.getLsbD 3)
  else q ++ [j]

/-- JOB_ADMIT (R210, R222): the jobs submitted in the last tick enter the queue with their measurements copied from the
Almanac view of this tick. -/
def execJobAdmit (s : State) : Res :=
  let t := s.takeReqs Req.isJob
  let admitted (j : Job) : Job :=
    { j with
      admitAt := s.epoch
      axes := (s.jobArms j.d.armMask).flatMap fun p => p.joints.map fun a =>
        match s.view with | some v => nth v.axes a.val {} | none => {}
      arms := (List.range 8).filterMap fun k =>
        if j.d.armMask.getLsbD k then some (match s.view with | some v => nth v.arms k {} | none => {}) else none }
  .next { t.2 with
    solver := { s.solver with
      queue := t.1.foldl (fun q e => match e.req with | .job j => queueInsert (admitted j) q | _ => q) s.solver.queue } }

/-- The tiles in use. -/
def Solver.busy (v : Solver) : BitVec 4 := v.running.foldl (fun m j => m ||| j.tiles) 0

/-- The lowest `n` tiles of a mask. -/
def lowestTiles (m : BitVec 4) (n : Nat) : BitVec 4 :=
  (((List.range 4).filter fun i => m.getLsbD i).take n).foldl (fun x i => x ||| BitVec.ofNat 4 (2 ^ i)) 0

/-- The bytes the input arrays take (R214); bytes of an array past the end of the input block are free. -/
def State.inSize (s : State) (d : JobDesc) : Nat :=
  let t := d.type.toNat
  let n := d.n.toNat
  let k := d.k.toNat
  let nj := njOf (s.jobArms d.armMask)
  let rows := if t = 3 then d.m.toNat else n
  if t ≤ 3 then (if d.mode.getLsbD 0 then 16 + qSize (rows * n) + qSize (rows * k) else 8 * (rows * n + rows * k))
  else if t = 4 then 8 * (18 + nj)
  else if t = 5 then 8 * (nj + 6 * (s.jobArms d.armMask).length)
  else if t = 6 ∨ t = 7 then 64
  else 0

/-- Starts waiting jobs in queue order (R223): each takes the lowest free tiles it may use, and none that lies within
the allowed tiles of a job ahead that still waits. -/
def State.startJobs (s : State) (s0 : Nat) : List Job → BitVec 4 → BitVec 4 → List Job × List Job
  | [], _, _ => ([], [])
  | j :: js, busy, blocked =>
    let can := j.allowed &&& (~~~busy) &&& (~~~blocked)
    if j.d.nt.toNat ≤ popcount4 can then
      let tiles := lowestTiles can j.d.nt.toNat
      let off := j.core.val * (s.prof.priv64k * 65536) + (j.d.inAddr.toNat - 0x10000000)
      let bytes := s.data.readN off j.d.inLen.toNat
      let pad := (List.range (s.inSize j.d - bytes.length)).map fun i => (Config.jobVal [j.handle.toNat, s.epoch] i).setWidth 8
      let j1 : Job := { j with started := some (s.epoch, s0), tiles := tiles, input := bytes ++ pad }
      let r := s.startJobs s0 js (busy ||| tiles) blocked
      (r.1, { j1 with result := s.runJob j1 } :: r.2)
    else
      let r := s.startJobs s0 js busy (blocked ||| j.allowed)
      (j :: r.1, r.2)

/-- JOB_START (R206, R218, R223): at TCYCLE 0, or in the cycle in which a tile became free; none start at or after RUNCYC. -/
def execJobStart (s : State) : Res :=
  .next (if s.running && decide (s.solver.clock < s.runcyc) then
    let r := s.startJobs s.solver.clock s.solver.queue s.solver.busy 0
    { s with solver := { s.solver with queue := r.1, running := s.solver.running ++ r.2 } }
  else s)

/-- Counts the busy cycles of the tiles a job ran on. -/
def Solver.countTiles (v : Solver) (tiles : BitVec 4) (n : Nat) : Solver :=
  { v with tileBusy := vmap (fun i x => if tiles.getLsbD i then x + n else x) v.tileBusy }

/-- The tile cycles a running job has run when it stops in a tick at a cycle. -/
def State.ranCycles (s : State) (j : Job) (tick cyc : Nat) : Nat :=
  match j.started with
  | some (b, s0) => (tick - b) * s.runcyc + cyc - s0
  | none => 0

/-- The run-window cycles in which a tile ran a job since reset (SLV_TCYCt), the job in progress up to `now` included. -/
def State.tileCycles (s : State) (i : Fin 4) : Nat :=
  let cyc := min s.runcyc ((s.now.toNat - s.t0 s.epoch) * 6 / 5)
  (s.solver.running.filter fun j => j.tiles.getLsbD i).foldl
    (fun n j => n + min j.result.cycles (s.ranCycles j s.epoch cyc)) s.solver.tileBusy[i]

/-- The result of a running job that stops: the figures of the last phase it went through (R219). (DEDUCED: log 47.) -/
def JobResult.stoppedAt (r : JobResult) (code : BitVec 16) (n : Nat) : JobResult :=
  let m := ((r.marks.filter fun x => decide (x.cycles ≤ n)).getLast?).getD {}
  { code := code, cycles := n, iter := m.iter, matched := m.matched, unmatched := m.unmatched, pivots := m.pivots, firstPiv := m.firstPiv }

/-- Takes a job out of the queue and the tiles and ends it with an outcome that writes no output (R225). -/
def State.stopJob (s : State) (h : Word) (code : BitVec 16) (tick cyc : Nat) : State :=
  match s.solver.queue.find? (fun j => j.handle == h), s.solver.running.find? (fun j => j.handle == h) with
  | some j, _ =>
    { s with solver := { s.solver with
        queue := s.solver.queue.filter fun x => x.handle != h
        ended := s.solver.ended ++ [{ j with ended := some (tick, cyc), result := { code := code } }] } }
  | none, some j =>
    let n := s.ranCycles j tick cyc
    { s with solver := { s.solver.countTiles j.tiles n with
        running := s.solver.running.filter fun x => x.handle != h
        ended := s.solver.ended ++ [{ j with ended := some (tick, cyc), result := j.result.stoppedAt code n }] } }
  | none, none => s

/-- JOB_END (R207, R224, R232): the job has run its cycle count, or read an uncorrectable error, and frees its tiles. A
corrected error that it read is counted. -/
def execJobEnd (handle : Word) (eccErr : Ecc) (s0 : State) : Res :=
  .next (match s0.solver.running.find? fun j => j.handle == handle with
    | none => s0
    | some j =>
      let s := s0.solverNote eccErr
      if eccErr == .uncorr then
        let s1 := s.stopJob handle 5 s.epoch s.solver.clock
        s1.raise 0x0801 2
      else
        match j.started with
        | none => s
        | some (b, c0) =>
          let last := c0 + j.result.cycles - 1
          let e := b + last / s.runcyc
          let cyc := last % s.runcyc
          if e != s.epoch then s
          else { s with solver := { s.solver.countTiles j.tiles j.result.cycles with
              running := s.solver.running.filter fun x => x.handle != handle
              ended := s.solver.ended ++ [{ j with ended := some (e, cyc) }]
              clock := cyc + 1 } })

/-- JOB_EXPIRE (R225): TICKMAX ticks after its admission a job stops, running or queued. -/
def execJobExpire (handle : Word) (s : State) : Res :=
  let late (j : Job) : Bool := j.handle == handle && j.d.tickMax != 0 && decide (j.admitAt + j.d.tickMax.toNat ≤ s.epoch + 1)
  .next (if s.solver.queue.any late || s.solver.running.any late then s.stopJob handle 4 s.epoch s.runcyc else s)

/-- JOB_CANCEL_APPLY (R135, R222, R225): the cancels of the last tick stop their jobs, one not yet admitted included.
(DEDUCED: log 48.) -/
def execJobCancelApply (s : State) : Res :=
  let s0 := s.dropDue Req.isJcancel
  let hs := (s.dueReqs Req.isJcancel).filterMap fun e => match e.req with | .jcancel h => some h | _ => none
  let mine (e : ReqEntry) : Bool := match e.req with | .job j => hs.contains j.handle | _ => false
  let early := (s0.reqs.filter mine).filterMap fun e => match e.req with
    | .job j => some { j with admitAt := s.epoch, ended := some (s.epoch, 0), result := { code := 3 } } | _ => none
  let s1 := { s0 with
    reqs := s0.reqs.filter fun e => !mine e
    solver := { s.solver with ended := s.solver.ended ++ early } }
  .next (hs.foldl (fun st h => st.stopJob h 3 s.epoch 0) s1)

/-! ### Delivery (R133, R219, R226) -/

/-- The 64-byte status word of R219. -/
def State.statusWord (s : State) (j : Job) : List Byte :=
  let r := j.result
  let wait := match j.started, j.ended with
    | some (b, s0), _ => (b - j.admitAt) * s.runcyc + s0
    | none, some (e, c) => (e - j.admitAt) * s.runcyc + c
    | none, none => 0
  leBytes j.handle.toNat 4 ++ leBytes r.code.toNat 2 ++ [r.iter, j.tiles.setWidth 8] ++ leBytes r.matched.toNat 2
    ++ leBytes r.unmatched.toNat 2 ++ leBytes r.pivots.toNat 2 ++ leBytes r.firstPiv.toNat 2 ++ leBytes r.resid.toNat 8
    ++ leBytes j.admitAt 8 ++ leBytes ((j.ended.map fun e => e.1).getD 0) 8 ++ leBytes r.cycles 4 ++ leBytes wait 4
    ++ leBytes 0 8 ++ leBytes j.d.userTag.toNat 8

/-- A job's output is written for CONVERGED and CAP only. -/
def JobResult.writes (r : JobResult) : Bool := r.code.toNat % 256 < 2

/-- Delivers one job: memory, the counters, the held result and its event (rank 3). -/
def State.deliverJob (s : State) (j : Job) : State :=
  let base := j.core.val * (s.prof.priv64k * 65536)
  let m1 := if j.result.writes then s.data.writeN (base + (j.d.outAddr.toNat - 0x10000000)) (j.result.output.take j.d.outLen.toNat) else s.data
  let m2 := m1.writeN (base + (j.d.stAddr.toNat - 0x10000000)) (s.statusWord j)
  let o := j.result.code.toNat % 256
  ({ s with
    data := m2
    solver := { s.solver with
      delivered := s.solver.delivered ++ [(j.handle, j.result.code)]
      done := vmap (fun i n => if i = o then satAdd (2 ^ 32 - 1) n 1 else n) s.solver.done } }).deliver j.core (mkEv 0x11 0 j.handle.toNat) 3

/-- The order in which jobs ended: tick, last cycle, lowest tile. (DEDUCED: log 89.) -/
def Job.endsBefore (a b : Job) : Bool :=
  let key (j : Job) : Nat × Nat × Nat :=
    ((j.ended.map fun e => e.1).getD 0, (j.ended.map fun e => e.2).getD 0, ((List.range 4).find? fun t => j.tiles.getLsbD t).getD 4)
  let x := key a
  let y := key b
  if x.1 != y.1 then decide (x.1 < y.1) else if x.2.1 != y.2.1 then decide (x.2.1 < y.2.1) else decide (x.2.2 ≤ y.2.2)

def endInsert (j : Job) : List Job → List Job
  | [] => [j]
  | x :: xs => if x.endsBefore j then x :: endInsert j xs else j :: x :: xs

/-- One core's deliveries at one boundary: up to 1 024 cycles of writing (R226). (DEDUCED: log 89.) -/
def deliverable : Nat → List Job → List Job
  | _, [] => []
  | used, j :: js =>
    let n := used + 1 + (if j.result.writes then (j.d.outLen.toNat + 127) / 128 else 0)
    if n ≤ 1024 then j :: deliverable n js else []

/-- JOB_DELIVERY (R133, R226): the jobs that ended before this tick, core by core in the order in which they ended. -/
def execJobDelivery (s : State) : Res :=
  let due (j : Job) : Bool := match j.ended with | some (e, _) => decide (e < s.epoch) | none => false
  let now := (List.finRange 9).flatMap fun c =>
    deliverable 0 (((s.solver.ended.filter fun j => j.core == c && due j)).foldl (fun l j => endInsert j l) [])
  let s1 := { s with solver := { s.solver with ended := s.solver.ended.filter fun j => !(now.any fun x => x.handle == j.handle) } }
  .next (now.foldl State.deliverJob s1)

/-! ### Starting and stopping cores (R117, R148) -/

/-- The clean-up of R148: the core's jobs go without delivery, and the appends and auxiliary moves it asked for.
(DEDUCED: log 88.) -/
def State.cleanUp (s : State) (c : Fin 9) : State :=
  let keep (l : List Job) : List Job := l.filter fun j => j.core != c
  let gone := s.solver.running.filter fun j => j.core == c
  let v := gone.foldl (fun (v : Solver) j => v.countTiles j.tiles (s.ranCycles j s.epoch 0)) s.solver
  { (s.modCore c.castSucc fun k => { k with cleanup := false }) with
    reqs := s.reqs.filter fun e => !(e.core == c && match e.req with
      | .sega _ | .auxq _ _ | .job _ | .jcancel _ => true
      | _ => false)
    solver := { v with
      queue := keep v.queue
      running := keep v.running
      ended := keep v.ended
      delivered := v.delivered.filter fun e => e.1.toNat / 2 ^ 28 != c.val } }

/-- The PLN_CTRLn write that the commit of this boundary carried, if it carried one. -/
def State.runWritten (s : State) (c : Fin 9) : Option Bool :=
  let off := 0x40100 + 0x40 * c.val
  if assocHas s.due off then some (assoc 0 s.due off != 0) else none

def State.dropRun (s : State) (c : Fin 9) : State := { s with due := assocDel s.due (0x40100 + 0x40 * c.val) }

/-- The registers and CSRs of a core that starts take their reset values; its program area, its counts and the events of
this boundary are kept (R117, R118). -/
def Core.restart (k : Core) (epoch : Nat) (entry : Word) : Core :=
  { mode := .running, pc := entry.setWidth 64, evq := k.evq.filter (fun e => e.tick == epoch), evqOvf := k.evqOvf,
    safetyEv := k.safetyEv, startedAt := some epoch, budget := k.budget, overrun := k.overrun, lateCnt := k.lateCnt,
    area := k.area, areaNow := k.areaNow, areaNext := k.areaNext, jobCount := k.jobCount, cleanup := k.cleanup,
    pcCopy := k.pcCopy, causeCopy := k.causeCopy }

/-- At its first boundary after a warm restart, a core with replayable entries has its class 0x14 event (R142).
(DEDUCED: log 23.) -/
def State.tellNow (s : State) (c : Fin 9) : State :=
  let n := (s.jrn.replay[c]).length
  if n = 0 || s.jrn.told.getLsbD c.val then s
  else ({ s with jrn := { s.jrn with told := s.jrn.told ||| BitVec.ofNat 9 (2 ^ c.val) } } : State).deliver c (mkEv 0x14 0 n) 2

/-- CORE_START (R117, R142): a commit carrying RUN = 1 starts a stopped or halted core. (DEDUCED: log 23.) -/
def execCoreStart (c : Fin 9) (s : State) : Res :=
  let k := s.core c.castSucc
  .next (if s.runWritten c == some true then
    let s1 := s.dropRun c
    if s.corePresent c.val && (k.mode == .stopped || k.mode == .halted) then
      (s1.modCore c.castSucc fun k => k.restart s.epoch (s.reg (0x40104 + 0x40 * c.val))).tellNow c
    else s1
  else s)

/-- CORE_STOP (R117, R148): a commit carrying RUN = 0 stops the core, empties its queue and makes its clean-up. -/
def execCoreStop (c : Fin 9) (s : State) : Res :=
  .next (if s.runWritten c == some false then
    ((s.dropRun c).modCore c.castSucc fun k => { k with mode := .stopped, wait := none, evq := [], shared := none }).cleanUp c
  else s)

/-- HALT_CLEANUP (R148): at the first boundary after a halt. (DEDUCED: log 88.) -/
def execHaltCleanup (c : Fin 9) (s : State) : Res :=
  .next (if (s.core c.castSucc).cleanup && (s.core c.castSucc).mode == .halted then s.cleanUp c else s)

end Sys2Proof.Machine
end

