-- ==== Sys2Proof/Machine/RegRead.lean ====
section
/-! DEFINITION. What every register of BAR0 reads as (R7, R36, R512 and the register tables of every chapter). A
shadowed or plain register reads the value in force; every other field is computed from the state it reports. -/

namespace Sys2Proof.Machine

/-- Packs fields: each the bit it starts at, its width and its value. -/
def packF : List (Nat × Nat × Nat) → Nat
  | [] => 0
  | (lo, w, v) :: l => v % 2 ^ w * 2 ^ lo + packF l

/-- A list of flags as a word, flag i in bit i. -/
def packB (l : List Bool) : Nat := (mapFrom (fun i b => bnat b * 2 ^ i) 0 l).foldl (· + ·) 0

/-- A signed value in `w` bits. -/
def inBits (w : Nat) (x : Int) : Nat := (x % 2 ^ w).toNat

/-- How many entries of a list satisfy a test. -/
def countIf {α : Type} (l : List α) (p : α → Bool) : Nat := (l.filter p).length

/-- The axis channels, lines and other indices from the index of a register. -/
def axIdx (i : Nat) : Fin 128 := ⟨i % 128, Nat.mod_lt _ (by decide)⟩
def ix (n : Nat) (h : 0 < n) (i : Nat) : Fin n := ⟨i % n, Nat.mod_lt _ h⟩

/-- GLB (21). -/
def State.readGlb (s : State) (r : RegAt) (raw : Nat) : Nat :=
  let h := s.host
  let ring := h.rings[ix 4 (by decide) r.i]
  match r.id with
  | .glbId => packF [(16, 16, if s.is8064 then 0x8064 else 0x8128), (8, 8, 0xB0), (4, 4, bnat (s.variant != .a8128))]
  | .glbCapptr => 0xF00
  | .glbErr => packF [(16, 16, h.badSize), (0, 16, h.unmapped)]
  | .glbDmaerr => packF [(24, 8, h.lastErr), (0, 12, h.susp.toNat)]
  | .glbRingcfg => packF [(16, 16, ring.drops), (8, 1, bnat ring.idxErr), (4, 4, raw / 16), (0, 1, raw)]
  | .glbRingdb => ring.prod.toNat
  | .glbRingfet => ring.fetch.toNat
  | .glbRingcons => ring.cons.toNat
  | .glbCqstat => packF [(16, 16, h.lost), (0, 13, h.backlog.length)]
  | .glbSqstat => h.discards[ix 4 (by decide) r.i]
  | .glbFlash => packF [(3, 1, bnat h.flRefused), (2, 1, bnat h.flOp.isSome)]
  | .glbCap => packF [(16, 16, if r.i = (if s.is8064 then 7 else 8) then 0 else 0xF00 + 4 * (r.i + 1)), (8, 8, 1), (0, 8, r.i + 1)]
  | .glbPba => h.pba.toNat
  | _ => raw

/-- CLK (19, 20). CLK_FREQd is measured by another clock: a free value (log entry 5). -/
def State.readClk (s : State) (r : RegAt) (raw : Nat) : Nat :=
  let c := s.clk
  let b := s.boot
  match r.id with
  | .clkPll => packF [(8, 3, c.fb.toNat), (4, 1, bnat c.pcieRef), (0, 4, c.locks.toNat)]
  | .clkMon => packF [(16, 9, c.freqErr.toNat), (0, 9, c.stopped.toNat)]
  | .clkXmerge => c.merged.toNat
  | .clkResync => c.resync
  | .clkXdrop => c.xdrop
  | .clkFreq => (Config.freeVal s.free).toNat % 2 ^ 32
  | .clkRstcause => b.rstCause.toNat
  | .clkReset | .clkProfsel => 0
  | .clkBoot => packF [(24, 8, if b.failed then b.cause else 0), (12, 4, if b.failed then 15 else b.stage), (8, 2, b.slot.val),
      (4, 2, b.psel.val), (1, 1, bnat b.swref), (0, 1, bnat b.ready)]
  | .clkBootdet => b.det.toNat
  | .clkPwr => packF [(8, 2, match b.power with | .quiet => 1 | .dawn => 2 | _ => 0), (4, 1, bnat b.pwrRefused)]
  | .clkAonboot => s.aon.boot
  | .clkAonjseq => s.aon.jseq.toNat
  | .clkAonsid => s.coarseNow.toNat
  | .clkLastfault => valAt s.aon.lastFault (4 * r.i) 4
  | _ => raw

/-- PENDING of a block: a GO that has passed the gate and awaits its boundary. -/
def State.commitPending (s : State) (b : CBlock) : Bool := s.gate.any fun (g : GateIn) => g.item == .commit b

/-- The block whose PREFIX_COMMIT register has an index. -/
def commitBlockOf (i : Nat) : CBlock := nth allBlocks i .alm

/-- PLN_STATUSn.STATE: a core in its handler reads 3 (R95). (DEDUCED: log 28.) -/
def Core.stateCode (k : Core) : Nat :=
  match k.mode with
  | .stopped => 0
  | .halted => 4
  | .running => if k.intrap then 3 else 1
  | .waiting => if k.intrap then 3 else 2

/-- ALM, PLN and SLV (01, 03, 07), and PREFIX_COMMIT of every block (R36). -/
def State.readCore (s : State) (r : RegAt) (raw : Nat) : Nat :=
  let k := s.cores[ix 10 (by decide) r.i]
  let v := s.solver
  match r.id with
  | .commit =>
    let c := s.commits[ix 9 (by decide) r.i]
    packF [(16, 8, c.reason.toNat), (3, 1, bnat c.reject), (2, 1, bnat c.merged), (1, 1, bnat (s.commitPending (commitBlockOf r.i)))]
  | .almTiming => packF [(11, 5, s.prof.haloDiv), (2, 6, s.prof.planDiv), (0, 2, rateCode s.prof.rate)]
  | .almEpoch => s.epoch
  | .almStatus => packF [(16, 16, min 65535 s.staleTicks), (2, 1, bnat s.pushLate), (1, 1, bnat s.cutFail), (0, 1, bnat s.running)]
  | .plnPart => s.prof.priv64k
  | .plnRuncyc => s.runcyc
  | .plnCode => packB [s.codeLocked, s.hashOk]
  | .plnStatus => packF [(24, 8, k.evq.length), (16, 8, min 255 k.lateCnt), (7, 1, bnat k.evqOvf), (0, 3, k.stateCode)]
  | .plnPc => k.pcCopy.toNat
  | .plnCause => k.causeCopy.toNat
  | .slvInfo => packF [(16, 16, 2048), (8, 8, 72), (0, 4, s.tilesPresent.toNat)]
  | .slvStatus => packF [(24, 8, v.queue.length), (16, 8, v.running.length), (0, 4, v.busy.toNat)]
  | .slvEcc => packF [(16, 1, bnat v.eccUncorr), (0, 16, v.eccCorr)]
  | .slvDone => v.done[ix 6 (by decide) r.i]
  | .slvTjob => match v.running.find? (fun j => j.tiles.getLsbD r.i) with | some j => j.handle.toNat | none => 0
  | .slvTcyc => s.tileCycles (ix 4 (by decide) r.i)
  | _ => raw

/-- CTL and FLN (09, 10). -/
def State.readCtl (s : State) (r : RegAt) (raw : Nat) : Nat :=
  let c := s.cascs[axIdx r.i]
  let l := s.lanes[ix 32 (by decide) r.i]
  let out (i : Nat) : Nat := (nth l.outEnd i 0).toNat
  match r.id with
  | .ctlInfo => packF [(8, 8, if s.is8064 then 64 else 128), (0, 4, 4)]
  | .ctlStatus => packF [(24, 8, countIf s.cascs.toList (·.sat)), (16, 8, countIf s.cascs.toList (·.fault)), (8, 8, countIf s.mans.toList id)]
  | .ctlDynstat =>
    let d := s.dyns[ix 8 (by decide) r.i]
    packF [(16, 16, d.fallbacks), (0, 1, bnat d.valid)]
  | .ctlAxctrl => raw % 2
  | .ctlStat => packB [c.sat, c.atLim, c.feWarn, c.fault, s.mans[axIdx r.i], c.dyn, c.presetSat]
  | .ctlIp => inBits 32 c.ip
  | .ctlIv => inBits 32 c.iv
  | .ctlSatcnt => c.satCnt
  | .flnInfo => packF [(16, 16, 2048), (0, 6, 32)]
  | .flnRun => packB (s.lanes.toList.map fun l => l.running)
  | .flnEcc => packF [(16, 1, bnat s.lanesEccUn), (0, 16, s.lanesEccC)]
  | .flnStat => packB [l.running, l.done, l.inSat, l.stSat, l.accSat, l.ecc, l.overrun, l.flow]
  | .flnCyc => l.lastCyc % 2 ^ 17
  | .flnOut01 => packF [(16, 16, out 1), (0, 16, out 0)]
  | .flnOut23 => packF [(16, 16, out 3), (0, 16, out 2)]
  | _ => raw

/-- FBK and AUX (11, 06). -/
def State.readFbk (s : State) (r : RegAt) (raw : Nat) : Nat :=
  let f := s.fbk[axIdx r.i]
  let g := s.aux[axIdx r.i]
  let x := s.ssi[ix 16 (by decide) r.i]
  match r.id with
  | .fbkInfo => packF [(8, 8, if s.is8064 then 64 else 128), (0, 8, 16)]
  | .fbkTout => packB ((List.range 32).map fun b => (s.fbk[axIdx (32 * r.i + b)]).timeout)
  | .fbkSsistat => packF [(24, 8, x.td), (12, 4, x.stat), (8, 4, x.cause), (0, 1, bnat x.valid)]
  | .fbkSsicnt => packF [(16, 16, x.errCnt), (0, 16, x.crcCnt)]
  | .fbkSsiraw => msbVal x.raw % 2 ^ 64
  | .fbkSsilen =>
    let fmt := s.regN (0xC0100 + 0x40 * r.i)
    let tim := s.regN (0xC0108 + 0x40 * r.i)
    packF [(16, 16, ssiF fmt tim / 10), (0, 16, s.ssiAdv fmt tim / 10)]
  | .fbkSsirawh => msbVal x.raw / 2 ^ 64 % 2 ^ 11
  | .fbkAxstat => packF [(8, 4, f.cause), (7, 1, bnat f.plaus), (6, 1, bnat f.timeout), (5, 1, bnat f.est.reversed), (4, 1, bnat f.est.still),
      (3, 1, bnat f.est.starting), (2, 1, bnat f.stale), (0, 1, bnat f.valid)]
  | .fbkAxpos => inBits 64 f.pos
  | .fbkAxtime => inBits 64 f.time
  | .fbkAxmot => inBits 64 f.motor
  | .auxChstat =>
    let w := s.regN (0xD0100 + 0x20 * r.i)
    packF [(16, 16, s.nmaxOf w), (0, 16, inBits 16 (s.chans[ix 16 (by decide) r.i]).last)]
  | .auxCtrl => 0
  | .auxStat => packF [(22, 10, g.icur), (13, 9, g.l8), (4, 4, g.queue.length), (3, 1, bnat (g.start.isNone && g.armedWaiting)), (2, 1, bnat g.stallLock),
      (1, 1, bnat (g.stopping != .no)), (0, 1, bnat (g.start.isSome && !f64IsZero g.v))]
  | .auxMoveid => match g.queue with | m :: _ => m.moveId.toNat | [] => 0
  | _ => raw

/-- LIN (02). (DEDUCED: log 28.) (DESIGN CHOICE: log 29.) -/
def State.readLin (s : State) (r : RegAt) (raw : Nat) : Nat :=
  let n := ix 8 (by decide) r.i
  let p := s.lineProf n.val
  let x := s.lines[n]
  let l := x.latch
  let sync : Nat := match s.mer.sync with | .unsync => 0 | .locked => 1 | .degraded => 2 | .holdover => 3 | .lost => 4
  match r.id with
  | .linSidereal => s.now.toNat
  | .linSync => packF [(16, 16, inBits 16 (clampInt (-32767) 32767 (freeQuot s.mer.offset16 16))), (5, 1, bnat s.isLodestar),
      (4, 1, bnat s.prof.mer.asSteer), (0, 3, sync)]
  | .linCfg => packF [(6, 2, p.zqual.toNat), (4, 2, p.idxMode), (1, 1, bnat p.dir), (0, 1, bnat p.en)]
  | .linIdxper => packF [(24, 8, p.tol), (0, 24, p.period)]
  | .linScale => p.scale.toNat
  | .linOrigin => p.origin.toNat
  | .linCount => inBits 64 l.count
  | .linHwcount => x.hw.toNat
  | .linStatus => packF [(16, 16, l.uncert), (4, 1, bnat l.idxSeen), (3, 1, bnat x.est.reversed), (2, 1, bnat l.fault), (1, 1, bnat (s.lineStands (ix 8 (by decide) r.i))),
      (0, 1, bnat x.est.starting)]
  | .linQerr => packF [(16, 4, min 15 (windowCount x.window (s.now.toNat / 10))), (0, 16, x.qerr)]
  | .linCtrl => raw / 16 * 16
  | .linIdxcnt => inBits 64 l.idxCnt
  | .linIdxtime => l.idxTime.toNat
  | _ => raw

/-- MER (14, 15, 16). (DESIGN CHOICE: log 29.) -/
def State.readMer (s : State) (r : RegAt) (raw : Nat) : Nat :=
  let m := s.mer
  let p := m.ports[ix 4 (by decide) (2 * r.i + r.j)]
  let pr := s.prof
  let n := s.halo.nbrs[ix 16 (by decide) r.i]
  let pathNs (c : Fin 2) : Nat := match m.path[c] with | some x => inBits 16 (freeQuot x 16) | none => 0
  match r.id with
  | .merId => packF [(31, 1, bnat m.number.isSome), (30, 1, bnat s.isLodestar), (16, 10, m.addr.getD 0x3FF), (0, 8, m.hops)]
  | .merUid => s.uid.toNat
  | .merCscfg => packF [(12, 1, bnat pr.mer.pin.isSome), (8, 4, match pr.mer.pin with | some k => k.val | none => 0), (4, 4, pr.mer.prio),
      (3, 1, bnat pr.mer.permit), (0, 2, pr.mer.csaddr)]
  | .merCsstat => packF [(8, 8, min 255 m.contests), (0, 3, m.result)]
  | .merLskey => m.lsKey % 2 ^ 52
  | .merSeg => packF [(16, 1, bnat pr.mer.pinMode), (8, 8, m.unaddr), (0, 8, m.acks.length)]
  | .merCtrls => m.mask.toNat
  | .merPath => packF [(16, 16, pathNs 1), (0, 16, pathNs 0)]
  | .merSyncsrc => packF [(2, 30, inBits 30 (freeQuot (m.rate * 1000) 65536)), (0, 2, m.syncFrom)]
  | .merLstat => packF [(24, 8, min 255 p.retrains), (16, 8, min 255 p.downs), (3, 1, bnat p.upstream),
      (0, 3, match p.state with | .down => 0 | .train => 1 | .measure => 2 | .ready => 3 | .blocked => 4)]
  | .merLdly => packF [(24, 8, p.samples.length), (0, 20, inBits 20 p.delay)]
  | .merLerr => packF [(16, 16, min 65535 p.aborts), (0, 16, min 65535 p.cv)]
  | .merLasym => inBits 16 (nth pr.mer.asym (2 * r.i + r.j) 0)
  | .merSchcfg => packF [(16, 16, pr.guard), (0, 16, 19 + pr.guard)]
  | .merArbcfg => packF [(16, 16, pr.arbEnd), (0, 16, pr.arbStart)]
  | .merArbcfg2 => packF [(24, 8, (pr.arbEnd - pr.arbStart) / pr.msLen), (0, 16, pr.msLen)]
  | .merSchstat => packF [(31, 1, bnat s.mers.mismatch), (10, 10, pr.tabB.length), (0, 10, pr.tabA.length)]
  | .merScherr => packF [(16, 16, min 65535 s.mers.errWin), (0, 16, min 65535 s.mers.errCrc)]
  | .merArbstat => packF [(16, 16, min 65535 s.mers.deferred), (0, 16, min 65535 s.mers.sent)]
  | .merCpstat => s.mers.fired.toNat
  | .merHcfg => packF [(16, 4, pr.saf.cellNo.val), (0, 16, packB ((List.finRange 16).map fun c => s.nbrCells.contains c))]
  | .merHcfg2 => packF [(8, 4, pr.saf.npart - 1), (0, 8, pr.saf.missMax)]
  | .merHrx => packF [(30, 1, bnat n.accepted), (16, 8, min 255 n.lostRun), (8, 8, min 255 n.missB), (0, 8, min 255 n.missA)]
  | .merHcnt => packF [(16, 16, min 65535 n.mismatch), (0, 16, min 65535 n.missed)]
  | .merMatA => match pr.tabA[r.i]? with | some e => e.bits | none => 0
  | .merMatB => match pr.tabB[r.i]? with | some e => e.bits | none => 0
  | _ => raw

/-- CAP and EPH (17, 18). -/
def State.readEph (s : State) (r : RegAt) (raw : Nat) : Nat :=
  let c := s.cap
  let e := s.eph
  match r.id with
  | .capStatus => packF [(16, 16, min 65535 c.drops), (8, 1, bnat c.insat), (0, 8, c.lastIdx.toNat)]
  | .capRdstat => packB [c.rdDone, c.reading.isSome, c.rdNorec, c.rdOvr]
  | .ephCfg => packF [(16, 16, s.prof.postPin), (0, 5, s.prof.kfLog)]
  | .ephStatus => packB [e.replay, e.short, e.gapSt, e.abandon]
  | .ephCover => min (2 ^ 32 - 1) e.cover
  | .ephSeq => match e.ring.getLast? with | some b => b.seq.toNat | none => 0
  | .ephKf => match e.slots[ix 2 (by decide) r.i] with
    | .empty => 0
    | .capturing k => packF [(62, 2, 1), (0, 62, k.epoch)]
    | .complete k => packF [(62, 2, 2), (0, 62, k.epoch)]
    | .pinned k => packF [(62, 2, 3), (0, 62, k.epoch)]
  | .ephPin => packF [(16, 16, e.pinMiss), (2, 1, bnat e.trunc), (1, 1, bnat e.filling), (0, 1, bnat e.pin)]
  | .ephPinend => e.pinEnd
  | .ephStrprod => e.prod.toNat
  | .ephJstat => packF [(8, 12, s.jrn.entries.length), (0, 8, min 255 s.jrn.intr)]
  | .ephRpstat => packF [(4, 4, e.rpCause), (3, 1, bnat e.rpDiv), (2, 1, bnat e.rpDone), (1, 1, bnat e.rpRefused), (0, 1, bnat e.rpRun)]
  | .ephRpdiv => e.rpDivAt
  | _ => raw

/-- SAF (12, 13). -/
def State.readSaf (s : State) (r : RegAt) (raw : Nat) : Nat :=
  let f := s.saf
  let p := s.prof.saf
  let m := f.mbx
  match r.id with
  | .safState => packF [(16, 16, f.highest), (11, 5, f.queue.length), (3, 1, bnat f.stuck), (2, 1, bnat (!f.latched.isEmpty)), (0, 2, f.state.num)]
  | .safDuskcnt => min 65535 f.duskCnt
  | .safTiming => packF [(16, 16, s.prof.tDuskMs), (6, 10, s.prof.tHoldS)]
  | .safHold => packF [(24, 8, s.prof.wdDlyMs), (0, 16, s.prof.slsMm)]
  | .safRstcfg => packF [(16, 16, p.tmaxMs), (0, 16, p.tminMs)]
  | .safPins => packB [f.estA, f.estB, f.estA != f.estB, f.rstPin, f.stoDyn, f.wdog]
  | .safSin => packF [(16, 16, (f.sinDisc ||| f.sinTest).toNat), (0, 16, f.sin.toNat)]
  | .safSout => packF [(16, 8, f.rbFail.toNat), (8, 8, f.rb.toNat), (0, 8, f.sout.toNat)]
  | .safDiag => packB [f.diagFail, f.diagLate, f.marchRes, f.haloRes]
  | .safLogseq => f.seq.toNat
  | .safLogidx => f.lastIdx % 1024
  | .safEcc => let x := f.ecc[ix 8 (by decide) r.i]; packF [(16, 16, x.2), (0, 16, x.1)]
  | .safSincfg => s.sinCfg r.i
  | .safMbxDb => 0
  | .safMbxStat => packF [(16, 16, m.result.toNat), (2, 1, bnat m.ovr), (1, 1, bnat m.busy), (0, 1, bnat m.done)]
  | .safMbxResp => (nth m.resp r.i 0).toNat
  | .safLog => match f.log.find? (fun e => e.1 == r.i) with | some e => valAt e.2.bytes (4 * r.j) 4 | none => 0
  | .safHaloCfg => packF [(16, 16, s.haloTr), (8, 8, countIf (List.range 32) s.slotBound), (3, 5, p.zones.length)]
  | .safHaloVolstat => packB (s.halo.vols.toList.map fun v => v.fail)
  | .safHaloBadrec => min 65535 s.halo.badRec
  | .safHaloZone => packF ((List.range 16).map fun z => (2 * z, 2, if z < p.zones.length then s.zoneState z else 0))
  | .safHaloArm => packF [(16, 16, (clampInt 0 65535 (freeQuot ((nth s.halo.seps r.i 0 : Nat) : Int) 1000)).toNat), (0, 16, min 65535 (nth s.halo.lims r.i 0))]
  | .safHaloCap => match s.halo.caps.find? (fun c => c.arm == r.i && c.cap == r.j) with
    | some c => packF [(16, 16, min 65535 c.vmeas), (0, 16, min 65535 c.lim)]
    | none => 0
  | _ => raw

/-- PLT and DBG (14, 21). LINK of a plant port, and ASLOCK of a port whose plant time is not valid, are facts of
another unit: free values (log entry 5). -/
def State.readPlt (s : State) (r : RegAt) (raw : Nat) : Nat :=
  let p := s.prof.saf
  let c := ix 32 (by decide) r.i
  let k := s.scomm.conns[c]
  let q := s.connProf c
  let free := Config.freeVal s.free
  match r.id with
  | .pltPort => packB [free.getLsbD 0, false, s.scomm.valid.getLsbD r.i || free.getLsbD 1]
  | .pltSafeinfo => packF [(16, 16, p.safePort), (12, 4, p.txs.length), (6, 6, countIf p.conns (·.en)), (1, 1, bnat (s.scomm.valid.getLsbD 1)),
      (0, 1, bnat (s.scomm.valid.getLsbD 0))]
  | .pltSafefail => packB (s.scomm.conns.toList.map fun k => k.st != .ok)
  | .pltSafeunk => min 65535 s.scomm.unk
  | .pltScfg => packF [(22, 10, q.texp), (14, 8, q.seqwin), (10, 4, q.errmax), (6, 4, q.recovn), (5, 1, bnat q.hold), (4, 1, bnat q.f2),
      (3, 1, q.port.val), (2, 1, bnat q.signal), (0, 1, bnat q.en)]
  | .pltSid => q.connid.toNat
  | .pltSstat => packF [(16, 16, k.slast.toNat), (12, 4, k.cause), (8, 4, k.errRun), (4, 4, k.recov),
      (0, 2, match k.st with | .ok => 0 | .recovering => 1 | .failed => 2)]
  | .pltScnt => packF [(24, 8, min 255 k.fails), (16, 8, min 255 k.seqErr), (8, 8, min 255 k.timeErr), (0, 8, min 255 k.crcErr)]
  | .pltSage => k.age.toNat
  | .dbgState => packF [(6, 2, s.dbg.tries), (4, 2, s.dbg.scope), (0, 1, 1)]
  | .dbgChal => (s.chalWord r.i).toNat
  | .dbgUnlk | .dbgUnlkgo => 0
  | _ => raw

/-- The whole value of a register, 64 bits for a wide one, at its base offset (its low word). A register of a fused-off
resource reads 0 (R3), and so does a block that the boot has not reached (R497). -/
def State.regFull (s : State) (base : Nat) (r : RegAt) : Nat :=
  let raw := wideVal s.regN base r.wide
  if s.fusedReg r then 0
  else if r.id == .commit then s.readCore r raw
  else if base < 0x10000 then s.readGlb r raw
  else if base < 0x20000 then s.readClk r raw
  else if base < 0xA0000 then s.readCore r raw
  else if base < 0xC0000 then s.readCtl r raw
  else if base < 0xE0000 then s.readFbk r raw
  else if base < 0x100000 then s.readLin r raw
  else if base < 0x140000 then s.readMer r raw
  else if base < 0x180000 then s.readEph r raw
  else if base < 0x1A0000 then s.readSaf r raw
  else s.readPlt r raw

end Sys2Proof.Machine
end

