-- ==== Sys2Proof/Machine/Regs.lean ====
section
/-! DEFINITION. Accesses to BAR0 and BAR2 (R3, R7–R13, R25, R36, R37, R491, R492, R497, R512–R516, R533): what becomes of
an access before it reaches a register, reads with the read latch, writes with the staging register, and what a write of
each register does. -/

namespace Sys2Proof.Machine

/-- The state that an outcome leaves; an outcome that is no next state leaves `s`. -/
def ranFrom (s : State) : Res → State
  | .next t => t
  | _ => s

/-! ### What becomes of an access -/

/-- The clock domain that an access to BAR0 waits on (R490): the domain of the registers' block. A register whose domain
the spec does not name waits on none. (DEDUCED: log 24.) -/
def regDomain (off : Nat) : Option Nat :=
  if off < 0x10000 then some 7
  else if off < 0x20000 then (if 0x10118 ≤ off then some 0 else none)
  else if off < 0xA0000 then some 1
  else if off < 0xC0000 then some 2
  else if off < 0xE0000 then some 1
  else if off < 0x100000 then some 4
  else if off < 0x140000 then none
  else if off < 0x180000 then some 1
  else if off < 0x1A0000 then some 3
  else if off < 0x1A0800 then some 8
  else if off < 0x1C0000 then some 3
  else none

/-- What becomes of an access: it reaches the register, it is turned away without an answer (the TAP acts as BYPASS, or
the device is off), or it waits on a stopped domain. -/
inductive AccKind | ok | closed | stopped
  deriving DecidableEq, Repr

/-- JTAG reads need scope 1 or 2, JTAG writes scope 2 (R533). (DEDUCED: log 80.) -/
def State.pathOpen (s : State) (p : Path) (write : Bool) : Bool :=
  s.powered && (match p with | .jtag => decide ((if write then 2 else 1) ≤ s.dbg.scope) | _ => true)

def State.accKind (s : State) (p : Path) (write : Bool) (off : Nat) : AccKind :=
  if !s.pathOpen p write then .closed
  else match regDomain off with
    | some d => if s.stopped d then .stopped else .ok
    | none => .ok

/-- The blocks that answer before stage 7 of the boot (R497). (DEDUCED: log 24.) -/
def State.blockUp (s : State) (off : Nat) : Bool :=
  decide (7 ≤ s.boot.stage) && !s.boot.failed || decide (off < 0x20000) || (decide (0x180000 ≤ off) && decide (off < 0x1A0000))
    || decide (0x1C0000 ≤ off)

/-- The error response of an access that waits on a stopped domain (R491): a PCI Express read ends with Completer Abort
and a posted write is discarded; JTAG ends with its status error, a read with data 0; a write through the window of the
safety core is discarded with RESULT 0xFFFE. -/
def State.stoppedError (s : State) (p : Path) (write : Bool) : State :=
  match p with
  | .pcie => if write then s else s.out (.error .pcie 2)
  | .jtag => let s1 := s.out (.error .jtag 2); if write then s1 else s1.out (.data .jtag 0)
  | .saf => if write then s.modSaf fun f => { f with mbx := { f.mbx with result := 0xFFFE } } else s

/-- An exception that the safety core takes at an access through its BAR0 window (R115, R513). (DEDUCED: log 25.)
(DESIGN CHOICE: log 43.) -/
def State.windowTrap (s : State) (off : Nat) : State :=
  if s.canIssue 9 then s.except 9 (s.core 9).cyc 2 (BitVec.ofNat 64 (0x41000000 + off)) else s

/-- An access of wrong size or alignment, or to no register (R513). (DEDUCED: log 25.) -/
def State.badAccess (s : State) (p : Path) (off : Nat) (wrongSize write : Bool) : State :=
  let s1 := s.modHost fun h =>
    if wrongSize then { h with badSize := satAdd 65535 h.badSize 1 } else { h with unmapped := satAdd 65535 h.unmapped 1 }
  match p with
  | .pcie => if write then s1 else s1.out (.error .pcie 1)
  | .jtag => let s2 := s1.out (.error .jtag 1); if write then s2 else s2.out (.data .jtag 0)
  | .saf => s1.windowTrap off

/-! ### Reads (R10, R12, R514) -/

/-- The low or only word of the register at an offset, with the free value of a read that draws one. -/
def State.drawn (s : State) (id : RegId) : State :=
  if id == .clkFreq || id == .pltPort then { s with free := s.free + 1 } else if id == .clkAonsid then s.crystal else s

/-- A block that has not started answers 0. -/
def State.regAtBase (s : State) (base : Nat) (r : RegAt) : Nat := if s.blockUp base then s.regFull base r else 0

/-- A 4-byte read of a register: the low word of a wide one copies its high word into the path's read latch, and the
high word returns the latch. -/
def State.read4 (s : State) (p : Path) (off : Nat) (r : RegAt) : Nat × State :=
  if r.high then ((s.pathOf p).readHigh.toNat, s)
  else
    let v := s.regAtBase off r
    let s1 := s.drawn r.id
    (v % 2 ^ 32, if r.wide then s1.modPath p fun l => { l with readHigh := BitVec.ofNat 32 (v / 2 ^ 32) } else s1)

/-- Whether an aligned access of 4 or 8 bytes reaches registers only. -/
def bar0Known (off size : Nat) : Bool := (regAt off).isSome && (size != 8 || (regAt (off + 4)).isSome)

/-- A read of 4 or 8 bytes. -/
def State.readBar0 (s : State) (p : Path) (off size : Nat) : Nat × State :=
  match regAt off with
  | none => (0, s)
  | some r =>
    let a := s.read4 p off r
    if size != 8 then a
    else match regAt (off + 4) with
      | none => a
      | some r2 => let b := a.2.read4 p (off + 4) r2; (a.1 + 2 ^ 32 * b.1, b.2)

/-! ### Writes (R9, R11–R13, R25, R36, R37, R512) -/

/-- The gate source of a write (R23, R347): 1 from the safety core, 6 from host software and JTAG. -/
def pathSource (p : Path) : Nat := match p with | .saf => 1 | _ => 6

/-- The bits of a word of a shadowed register that a write changes. -/
def shadowMask (r : RegAt) : Nat :=
  let m := rwMask r.id + woMask r.id
  let m := if r.id == .ctlShift && r.j == 3 then m % 2 ^ 15 else m
  m

/-- A write of a shadowed register is an input of the gate (R13, R36). -/
def State.shadowWrite (s : State) (p : Path) (off : Nat) (r : RegAt) (v : Nat) (t : DWord) : State :=
  let w := Nat.land v (shadowMask r)
  let s1 := (s.atTime t).gateIn t (pathSource p) (.shadow off (BitVec.ofNat 32 w))
  if r.wide then s1.gateIn t (pathSource p) (.shadow (off + 4) (BitVec.ofNat 32 (w / 2 ^ 32))) else s1

/-- A write of PREFIX_COMMIT (R36, R37): ones clear REJECT and MERGED, and GO is an input of the gate. -/
def State.commitWrite (s : State) (p : Path) (b : CBlock) (v : Nat) (t : DWord) : State :=
  let s1 := (s.atTime t).modCommit b fun c => { c with
    reject := c.reject && !bitOf v 3
    reason := if bitOf v 3 then 0 else c.reason
    merged := c.merged && !bitOf v 2 }
  if bitOf v 0 then s1.gateIn t (pathSource p) (.commit b) else s1

/-- The plain bits of an immediate register: they hold what is written. -/
def plainMask : RegId → Nat
  | .glbRingbase | .glbSqbase => 0xFFFFFFFFFFFFFFC0
  | .glbCqbase => 0xFFFFFFFFFFFFFFF0
  | .glbCqcons | .glbSqprod | .ephStrsize | .ephStrcons | .ephRplen | .safMbxArg => 0xFFFFFFFF
  | .glbFladdr => 0x7FFFFFF
  | .merCpmask => 0xFFFFFFFFFFFFFFFF
  | .capRdaddr | .ephRpbase => 0xFFFFFFFFFFFFFFF8
  | .capRdctrl => 0xFF
  | .ephStrbase => 0xFFFFFFFFFFFFF000
  | .ephRpctrl => 0x7FFFFFFFFFFFFFFF
  | .safMbxCmd => 0xFF
  | _ => 0

/-- Stores the plain bits of a register. -/
def State.setPlain (s : State) (base : Nat) (r : RegAt) (v : Nat) : State :=
  let m := plainMask r.id
  if m = 0 then s
  else
    let w := Nat.land v m
    let s1 := s.setReg base (BitVec.ofNat 32 w)
    if r.wide then s1.setReg (base + 4) (BitVec.ofNat 32 (w / 2 ^ 32)) else s1

/-- A configuration whose SIZELOG in [7:4] is written only while EN in [0] is 0. -/
def State.setQueueCfg (s : State) (base v : Nat) : State :=
  let old := s.regN base
  s.setReg base (BitVec.ofNat 32 ((if bitOf old 0 then fld old 7 4 else fld v 7 4) * 16 + v % 2))

/-- A word of the MSI-X table (R517): unmasking a vector sends it if it is pending. (PRESUMED: log 31.) -/
def State.writeMsix (s : State) (base i v : Nat) : State :=
  if i % 4 = 3 then
    let s1 := s.setReg base (BitVec.ofNat 32 (v % 2))
    if v % 2 = 0 && s.host.pba.getLsbD (i / 4) then
      (s1.modHost fun h => { h with pba := h.pba &&& ~~~(BitVec.ofNat 64 (2 ^ (i / 4))) }).out (.msix (i / 4))
    else s1
  else s.setReg base (BitVec.ofNat 32 v)

/-- A write of a GLB register (21). -/
def State.writeGlb (s : State) (base : Nat) (r : RegAt) (v : Nat) (t : DWord) : State :=
  let k := ix 4 (by decide) r.i
  match r.id with
  | .glbDmaerr => ranFrom s (execDmaResume (BitVec.ofNat 12 v) s)
  | .glbRingcfg => (s.setQueueCfg base v).modRing k fun q => { q with idxErr := q.idxErr && !bitOf v 8 }
  | .glbRingdb => ranFrom s (execRingDoorbell k (BitVec.ofNat 32 v) t s)
  | .glbCqcfg | .glbSqcfg => s.setQueueCfg base v
  | .glbFlash =>
    if v / 65536 = 0xF1A5 then
      let s1 := if bitOf v 3 then s.modHost fun h => { h with flRefused := false } else s
      match v % 4 with
      | 1 => s1.flashGo 0xF1A5 1 4096
      | 2 => s1.flashGo 0xF1A5 2 256
      | 3 => s1.flashGo 0xF1A5 3 65536
      | _ => s1
    else s
  | .glbMsix => s.writeMsix base r.i v
  | _ => s.setPlain base r v

/-- A write of a CLK register (19, 20). -/
def State.writeClk (s : State) (r : RegAt) (v : Nat) : State :=
  let key := BitVec.ofNat 16 (v / 65536)
  match r.id with
  | .clkXmerge => s.modClk fun c => { c with merged := c.merged &&& ~~~(BitVec.ofNat 6 v) }
  | .clkReset => if bitOf v 0 then ranFrom s (execWarmResetRequest key s) else s
  | .clkProfsel => if bitOf v 0 then ranFrom s (execProfileSwitch (ix 4 (by decide) (fld v 5 4)) key s) else s
  | .clkBoot => s.modBoot fun b => { b with swref := b.swref && !bitOf v 1 }
  | .clkPwr =>
    let s1 := s.modBoot fun b => { b with pwrRefused := b.pwrRefused && !bitOf v 4 }
    match v % 4 with
    | 1 => ranFrom s1 (execQuietRequest s1)
    | 2 => ranFrom s1 (execDawnRequest s1)
    | 3 => ranFrom s1 (execStandbyRequest s1)
    | _ => s1
  | _ => s

/-- A write of the status bits of the deterministic blocks that ones clear. (DEDUCED: log 27.) -/
def State.writeStatus (s : State) (r : RegAt) (v : Nat) : State :=
  match r.id with
  | .almStatus => { s with pushLate := s.pushLate && !bitOf v 2, cutFail := s.cutFail && !bitOf v 1 }
  | .plnStatus => s.modCore (ix 10 (by decide) r.i) fun k => { k with evqOvf := k.evqOvf && !bitOf v 7 }
  | .slvEcc => { s with solver := { s.solver with eccUncorr := s.solver.eccUncorr && !bitOf v 16 } }
  | .ctlStat => s.modCasc (axIdx r.i) fun c => { c with presetSat := c.presetSat && !bitOf v 6 }
  | .flnEcc => { s with lanesEccUn := s.lanesEccUn && !bitOf v 16 }
  | .flnStat => s.modLane (ix 32 (by decide) r.i) fun l => { l with
      inSat := l.inSat && !bitOf v 2, stSat := l.stSat && !bitOf v 3, accSat := l.accSat && !bitOf v 4
      ecc := l.ecc && !bitOf v 5, overrun := l.overrun && !bitOf v 6, flow := l.flow && !bitOf v 7 }
  | .capStatus => s.modCap fun c => { c with insat := c.insat && !bitOf v 8 }
  | _ => s

/-- A write of a MER register (16). -/
def State.writeMer (s : State) (base : Nat) (r : RegAt) (v : Nat) (t : DWord) : State :=
  match r.id with
  | .merCtrl => ((s.atTime t).retrain (BitVec.ofNat 4 (v / 16))).portdis (BitVec.ofNat 4 v)
  | .merCp => s.writeCp r.i (BitVec.ofNat 32 v)
  | .merCpstat => { s with mers := { s.mers with fired := s.mers.fired &&& ~~~(BitVec.ofNat 16 v) } }
  | _ => s.setPlain base r v

/-- A write of a capture readout or EPH register (17, 18). START of EPH_RPCTRL starts a replay as REPLAY_START does (R469);
which image lies in host memory, and what the device finds of REV, PROFDIG and the resources, is free. (DEDUCED: log 27.) -/
def State.writeEph (s : State) (base : Nat) (r : RegAt) (v : Nat) : State :=
  match r.id with
  | .capRdctrl =>
    let i := BitVec.ofNat 8 v
    let s1 := s.setPlain base r v
    let s2 := if bitOf v 9 then ranFrom s1 (execRecordRelease i s1) else s1
    if bitOf v 8 then ranFrom s2 (execReadoutGo i s2) else s2
  | .capRdstat => s.modCap fun c => { c with
      rdOvr := c.rdOvr && !bitOf v 3, rdNorec := c.rdNorec && !bitOf v 2, rdDone := c.rdDone && !bitOf v 0 }
  | .ephStatus => s.modEph fun e => { e with abandon := e.abandon && !bitOf v 3, gapSt := e.gapSt && !bitOf v 2 }
  | .ephPin => if bitOf v 3 then s.modEph Eph.release else s
  | .ephRpctrl =>
    let s1 := s.setPlain base r v
    if bitOf v 63 then
      let d := s1.draw
      let e := d.2.draw
      ranFrom e.2 (execReplayStart (d.1.toNat % (s.eph.copied.length + 1)) (e.1.getLsbD 0) (e.1.getLsbD 1) (e.1.getLsbD 2) e.2)
    else s1
  | .ephStrctrl => if bitOf v 0 then ranFrom s (execStreamEnable s) else s.setReg base 0
  | _ => s.setPlain base r v

/-- RESET of PLT_PORTp (R382, R488): the port loses its link and its 802.1AS lock, so its plant time is not valid. The
handshake of its crossings is CROSSING_RESYNC. (DEDUCED: log 27.) -/
def State.resetPort (s : State) (p v : Nat) (t : DWord) : State :=
  if bitOf v 3 then ranFrom s (execSafeTimeInvalid (ix 2 (by decide) p) t s) else s

/-- A write of a SAF register (R348): the mailbox, and no other. -/
def State.writeSaf (s : State) (base : Nat) (r : RegAt) (v : Nat) : State :=
  match r.id with
  | .safMbxDb => if bitOf v 0 then ranFrom s (execMailboxGo s) else s
  | .safMbxStat => s.modSaf fun f => { f with mbx := { f.mbx with ovr := f.mbx.ovr && !bitOf v 2 } }
  | _ => s.setPlain base r v

/-- A write of a DBG register (R532): a word of the unlock record, or GO, which submits it as DBG_UNLOCK_GO does; whether
the key and the signature hold is free. (DEDUCED: log 27.) -/
def State.writeDbg (s : State) (r : RegAt) (v : Nat) (t : DWord) : State :=
  match r.id with
  | .dbgUnlk => ranFrom s (execTapDbgunlock (ix 33 (by decide) r.i) (BitVec.ofNat 32 v) s)
  | .dbgUnlkgo =>
    if bitOf v 0 then
      let d := s.draw
      ranFrom d.2 (execDbgUnlockGo (d.1.getLsbD 0) (d.1.getLsbD 1) t d.2)
    else s
  | _ => s

/-- Whether a write is one to a deterministic block, which a replay discards (R470). -/
def inDetBlock (base : Nat) : Bool := (blockOf base).isSome && !(decide (0x140010 ≤ base) && decide (base < 0x140020))

/-- A whole write of a register at its base offset, 64 bits for a wide one: discarded where the register belongs to a
fused-off resource (R3), to a block that has not started (R497) or to a deterministic block in replay (R470).
(DEDUCED: log 27.) -/
def State.writeFull (s : State) (p : Path) (base : Nat) (r : RegAt) (v : Nat) (t : DWord) : State :=
  if s.fusedReg r || !s.blockUp base || (s.eph.replay && inDetBlock base) then s
  else if r.id == .commit then s.commitWrite p (commitBlockOf r.i) v t
  else if r.shad then s.shadowWrite p base r v t
  else if base < 0x10000 then s.writeGlb base r v t
  else if base < 0x20000 then s.writeClk r v
  else if base < 0x100000 then s.writeStatus r v
  else if base < 0x140000 then s.writeMer base r v t
  else if base = 0x140004 then s.writeStatus r v
  else if base < 0x180000 then s.writeEph base r v
  else if base < 0x1A0000 then s.writeSaf base r v
  else if 0x1C0000 ≤ base then s.writeDbg r v t
  else if r.id == .pltPort then s.resetPort r.i v t
  else s

/-- A 4-byte write of a register (R11): the low word of a wide one is staged without effect, and its high word commits
both. -/
def State.write4 (s : State) (p : Path) (off : Nat) (r : RegAt) (v : Word) (t : DWord) : State :=
  if r.high then s.writeFull p (off - 4) r ((s.pathOf p).stagedLow.toNat + 2 ^ 32 * v.toNat) t
  else if r.wide then s.modPath p fun l => { l with stagedLow := v }
  else s.writeFull p off r v.toNat t

/-- A write of 4 or 8 bytes. -/
def State.writeBar0 (s : State) (p : Path) (off size : Nat) (v : DWord) (t : DWord) : State :=
  match regAt off with
  | none => s
  | some r =>
    let s1 := s.write4 p off r (v.setWidth 32) t
    if size != 8 then s1
    else match regAt (off + 4) with
      | none => s1
      | some r2 => s1.write4 p (off + 4) r2 (v.extractLsb' 32 32) t

/-! ### The accesses as commands -/

/-- An access of 4 or 8 bytes that may be turned away: a wrong alignment, no register, a stopped domain, a closed path. -/
def State.guarded (s : State) (p : Path) (write : Bool) (off size : Nat) (f : State → State) : State :=
  if !s.pathOpen p write then s
  else if off % size != 0 then s.badAccess p off true write
  else if !bar0Known off size then s.badAccess p off false write
  else match s.accKind p write off with
    | .ok => f s
    | .closed => s
    | .stopped => if p == .saf && !write then s.windowTrap off else s.stoppedError p write

/-- REGISTER_WRITE (R7, R25, R512): a 4-byte write. -/
def execRegisterWrite (path : Path) (off : BitVec 25) (v : Word) (t : DWord) (s : State) : Res :=
  .next (s.guarded path true off.toNat 4 fun s => s.writeBar0 path off.toNat 4 (v.setWidth 64) t)

/-- SHADOW_WRITE (R13, R36): a 4-byte write of a shadowed register; of any other register it is no shadow write and has no
effect. (DESIGN CHOICE: log 26.) -/
def execShadowWrite (path : Path) (off : BitVec 25) (v : Word) (t : DWord) (s : State) : Res :=
  .next (match regAt off.toNat with
    | some r => if r.shad then s.guarded path true off.toNat 4 fun s => s.writeBar0 path off.toNat 4 (v.setWidth 64) t else s
    | none => s)

/-- COMMIT_GO (R36, R37): host software writes PREFIX_COMMIT of a block. -/
def execCommitGo (b : CBlock) (v : Word) (t : DWord) (s : State) : Res :=
  .next (s.guarded .pcie true (cbBase b + 0xFFC) 4 fun s =>
    if s.eph.replay || !s.blockUp (cbBase b) then s else s.commitWrite .pcie b v.toNat t)

/-- LOW_WORD_READ (R10, R12): a 4-byte read; that of the low word of a wide register fills the path's read latch. -/
def execLowWordRead (path : Path) (off : BitVec 25) (s : State) : Res :=
  .next (s.guarded path false off.toNat 4 fun s =>
    let a := s.readBar0 path off.toNat 4
    a.2.out (.data path (BitVec.ofNat 64 a.1)))

/-- LOW_WORD_WRITE (R11, R12): the low word of a wide register is staged; of any other register it is no such write.
(DESIGN CHOICE: log 26.) -/
def execLowWordWrite (path : Path) (off : BitVec 25) (v : Word) (s : State) : Res :=
  .next (match regAt off.toNat with
    | some r => if r.wide && !r.high then s.guarded path true off.toNat 4 fun s => s.modPath path fun l => { l with stagedLow := v } else s
    | none => s)

/-- HIGH_WORD_WRITE (R11, R12): both words are committed in one step. -/
def execHighWordWrite (path : Path) (off : BitVec 25) (v : Word) (t : DWord) (s : State) : Res :=
  .next (match regAt off.toNat with
    | some r => if r.high then s.guarded path true off.toNat 4 fun s => s.write4 path off.toNat r v t else s
    | none => s)

/-- QWORD_ACCESS (R514): an aligned 8-byte read or write; at an offset that is not a multiple of 8 its alignment is wrong
(R513). -/
def execQwordAccess (path : Path) (off : BitVec 25) (w : Option DWord) (t : DWord) (s : State) : Res :=
  .next (match w with
      | some v => (s.atTime t).guarded path true off.toNat 8 fun s => s.writeBar0 path off.toNat 8 v t
      | none => (s.atTime t).guarded path false off.toNat 8 fun s =>
        let a := s.readBar0 path off.toNat 8
        a.2.out (.data path (BitVec.ofNat 64 a.1)))

/-- UNMAPPED_ACCESS (R513): an access of wrong size or alignment counts in BADSIZE, one that reaches no register in
UNMAPPED; one that does reach a register is no such access. -/
def execUnmappedAccess (path : Path) (off : BitVec 25) (size : Nat) (isWrite : Bool) (s : State) : Res :=
  let good := (size == 4 || size == 8) && off.toNat % size == 0
  .next (if !s.pathOpen path isWrite then s
    else if !good then s.badAccess path off.toNat true isWrite
    else if bar0Known off.toNat size then s
    else s.badAccess path off.toNat false isWrite)

/-! ### BAR2 (R515, R516) -/

/-- BAR2_WRITE (R515, R516): planner data SRAM and the flash staging buffer are written, past the gate; writes to
read-only windows are discarded, and one to reserved space counts in UNMAPPED. -/
def execBar2Write (off : BitVec 28) (bytes : List Byte) (s : State) : Res :=
  let a := off.toNat
  .next (if !s.powered then s
    else if 0x1D01000 ≤ a then s.modHost fun h => { h with unmapped := satAdd 65535 h.unmapped 1 }
    else if 0x1D00000 ≤ a then s.modHost fun h => { h with staging := h.staging.writeN (a - 0x1D00000) (bytes.take (0x1D01000 - a)) }
    else if 0x800000 ≤ a && a < 0x1000000 then
      (if s.stopped 1 then s else { s with data := s.data.writeN (a - 0x800000) (bytes.take (0x1000000 - a)) })
    else s)

end Sys2Proof.Machine
end

