-- ==== Sys2Proof/Machine/CoreMem.lean ====
section
/-! DEFINITION. Loads, stores and atomic instructions (R74–R78, R108, R109, R114) and branches and jumps (R110). -/

namespace Sys2Proof.Machine

/-- Where an address of a core leads (R74, R75, R114): code memory, data SRAM at an offset with whether it is
the shared region, the Almanac view, the safety core's own data, its peripherals, or nowhere. -/
inductive Region | code (off : Nat) | data (off : Nat) (shared : Bool) | view (off : Nat) | sdata (off : Nat)
  | periph (off : Nat) | bar0 (off : Nat) | nowhere
  deriving DecidableEq, Repr

/-- The size P of a private partition and the start 9 × P of the shared region (R75). -/
def State.partSize (s : State) : Nat := s.prof.priv64k * 65536

def State.region (s : State) (c : Fin 10) (a : Nat) : Region :=
  if c.val = 9 then
    if a < 0x100000 then .code a
    else if 0x10000000 ≤ a ∧ a < 0x10200000 then .sdata (a - 0x10000000)
    else if 0x40000000 ≤ a ∧ a < 0x40060000 then .periph (a - 0x40000000)
    else if 0x41000000 ≤ a ∧ a < 0x43000000 then .bar0 (a - 0x41000000)
    else .nowhere
  else
    let p := s.partSize
    if a < 0x800000 then .code a
    else if 0x10000000 ≤ a ∧ a < 0x10000000 + p then .data (c.val * p + (a - 0x10000000)) false
    else if 0x20000000 ≤ a ∧ a < 0x20000000 + (0x800000 - 9 * p) then .data (9 * p + (a - 0x20000000)) true
    else if 0x30000000 ≤ a ∧ a < 0x30002000 then .view (a - 0x30000000)
    else .nowhere

/-- The slot of a core for a shared access that issues in cycle `cyc` (R76): the cycle, and whether it lies in
the next tick. -/
def State.slotOf (s : State) (c : Fin 10) (cyc : Nat) : Nat × Bool :=
  let slot := cyc + ((c.val + 9 - cyc % 9) % 9)
  if slot < s.runcyc then (slot, false) else (c.val, true)

/-- A shared access waits in the memory unit until its slot (R76): its result counts from the slot (R81).
(DESIGN CHOICE: log 99.) -/
def State.startShared (s : State) (c : Fin 10) (cyc : Nat) (op : SharedOp) (addr : DWord) (off : Nat) : State :=
  let sl := s.slotOf c cyc
  let slot := if sl.2 then s.runcyc else sl.1
  let pend (k : Core) : List (CReg × Nat) := match op with
    | .load d _ _ => if d == .g 0 then k.pend else (d, slot + 2) :: k.pend.filter (fun e => e.1 != d)
    | .amo d _ _ _ => if d = 0 then k.pend else (.g d, slot + 3) :: k.pend.filter (fun e => e.1 != .g d)
    | .store _ _ => k.pend
  s.modCore c fun k =>
    { k with
      shared := some ⟨op, addr, off, sl.1, sl.2, k.pc⟩
      pend := pend k
      memFree := slot + 1 }

/-- The register value of a load from bytes. -/
def loadValue (signed : Bool) (n : Nat) (bs : List Byte) : DWord :=
  BitVec.ofInt 64 (if signed then sextTo (8 * n) (leVal bs) else leVal bs)

/-- Marks the destination of a private access as pending until its latency has passed (R81). -/
def Core.pendMem (k : Core) (op : SharedOp) (cyc : Nat) : Core :=
  match op with
  | .load d _ _ => if d == .g 0 then k else { k with pend := (d, cyc + 2) :: k.pend.filter (fun e => e.1 != d) }
  | .amo d _ _ _ => if d = 0 then k else { k with pend := (.g d, cyc + 3) :: k.pend.filter (fun e => e.1 != .g d) }
  | .store _ _ => k

/-- The bytes of the Halo registers as the safety core reads them at 0x4000_0000 (R114, R346, 13 "Halo registers"); where no
register lies the spec gives no value: a free one. (DESIGN CHOICE: log 97.) -/
def State.haloWindow (s : State) (off n : Nat) : List Byte :=
  (List.range n).map fun i =>
    let o := 0x190000 + (off + i) / 4 * 4
    match regAt o with
    | some r => BitVec.ofNat 8 ((if r.high then s.regFull (o - 4) r / 2 ^ 32 else s.regFull o r) / 2 ^ (8 * ((off + i) % 4)))
    | none => (Config.periphRead s.free (off + i)).setWidth 8

/-- What a load from a safety peripheral returns (R346): the Halo registers at offset 0, and a free value in the regions whose
registers the spec does not lay out. -/
def State.periphValue (s : State) (off n : Nat) (signed : Bool) : DWord :=
  if off < 0x10000 then loadValue signed n (s.haloWindow off n) else Config.periphRead s.free off

/-- A load, store or atomic instruction: MISALIGN before ACCESS before MEM_ECC (R146); code memory and the
Almanac view can only be loaded from (R73, R74). A MEM_ECC of a shared access is taken, like every exception, in the cycle in
which the instruction issued (R95). A store of the safety core to a peripheral has no effect. (DEDUCED: log 36.)
(DESIGN CHOICE: log 43.) (DESIGN CHOICE: log 97.) (DESIGN CHOICE: log 99.) -/
def State.access (s : State) (c : Fin 10) (cyc : Nat) (a : DWord) (size : Nat) (op : SharedOp) (err : Ecc) : State :=
  let isLoad := match op with | .load _ _ _ => true | _ => false
  let isAmo := match op with | .amo _ _ _ _ => true | _ => false
  let fin (s1 : State) (r : Option (CReg × DWord)) : State :=
    s1.modCore c fun k => ((match r with | some (d, v) => k.wreg d v | none => k).pendMem op cyc).adv
  let mem (k : Fin 8) : Fin 8 := if c.val = 9 then 7 else k
  let ecc (k : Fin 8) : State :=
    if c.val = 9 then ((s.eccUp 7).raise 0x1806 3).except c cyc 4 a
    else ((s.eccUp k).raiseAt (s.coreTime cyc) 0x0401 2 true).except c cyc 4 a
  if a.toNat % size != 0 then s.except c cyc 3 a
  else match s.region c a.toNat with
    | .code off =>
      if !isLoad then s.except c cyc 2 a
      else if err == .uncorr then ecc 0
      else fin (s.eccNote (mem 0) err) (memEffect (if c.val = 9 then s.scode else s.code) off op).2
    | .data off true =>
      if err == .uncorr then ecc 1
      else ((s.eccNote 1 err).startShared c cyc op a off).modCore c Core.adv
    | .data off false =>
      if err == .uncorr then ecc 1
      else
        let r := memEffect s.data off op
        fin { s.eccNote 1 err with data := r.1 } r.2
    | .view off =>
      if !isLoad then s.except c cyc 2 a
      else match op with
        | .load d n signed => fin s (some (d, loadValue signed n (viewBytes s.view off n)))
        | _ => fin s none
    | .sdata off =>
      if isAmo then s.except c cyc 2 a
      else if err == .uncorr then ecc 7
      else
        let r := memEffect s.sdata off op
        fin { s.eccNote 7 err with sdata := r.1 } r.2
    | .periph off =>
      match op with
      | .load d n signed => fin { s with free := s.free + 1 } (some (d, s.periphValue off n signed))
      | .store _ _ => fin s none
      | .amo _ _ _ _ => s.except c cyc 2 a
    | .bar0 off =>
      if size < 4 then (s.modHost fun h => { h with badSize := satAdd 65535 h.badSize 1 }).except c cyc 2 a
      else if !bar0Known off size then (s.modHost fun h => { h with unmapped := satAdd 65535 h.unmapped 1 }).except c cyc 2 a
      else match op, s.accKind .saf (!isLoad) off == .stopped with
        | .load _ _ _, true => s.except c cyc 2 a
        | .load d n signed, false =>
          let r := s.readBar0 .saf off n
          fin r.2 (some (d, loadValue signed n (leBytes r.1 n)))
        | .store _ _, true => fin (s.stoppedError .saf true) none
        | .store n v, false => fin (s.writeBar0 .saf off n v s.now) none
        | .amo _ _ _ _, _ => s.except c cyc 2 a
    | .nowhere => s.except c cyc 2 a

/-- A load into a g register (R108). -/
def State.loadG (s : State) (c : Fin 10) (rd ra : Fin 32) (imm : BitVec 12) (size : Nat) (signed : Bool) (err : Ecc) : Res :=
  s.execWith c .load [.g ra] (dstG rd) fun s1 cyc =>
    s1.access c cyc ((s1.core c).ea ra imm) size (.load (.g rd) size signed) err

/-- A store from a g register (R108). -/
def State.storeG (s : State) (c : Fin 10) (rs ra : Fin 32) (imm : BitVec 12) (size : Nat) (err : Ecc) : Res :=
  s.execWith c .store [.g ra, .g rs] none fun s1 cyc =>
    s1.access c cyc ((s1.core c).ea ra imm) size (.store size ((s1.core c).rg rs)) err

/-- An atomic instruction (R109): a doubleword in the private partition or the shared region. AMOCAS reads gd
as its compare value. An atomic on code memory or the view raises ACCESS. -/
def State.amo (s : State) (c : Fin 9) (rd ra rb : Fin 32) (func : Nat) (err : Ecc) : Res :=
  s.execWith c.castSucc .atomic ([.g ra, .g rb] ++ (if func = 6 then [.g rd] else [])) (dstG rd) fun s1 cyc =>
    let k := s1.core c.castSucc
    s1.access c.castSucc cyc (k.rg ra) 8 (.amo rd func (k.rg rb) (k.rg rd)) err

/-- A conditional branch (R110): taken, it adds two idle cycles, one on the safety core (R81, R113). -/
def State.branch (s : State) (c : Fin 10) (ra rb : Fin 32) (imm : BitVec 12) (f : DWord → DWord → Bool) : Res :=
  s.execWith c .branch [.g ra, .g rb] none fun s1 _ =>
    s1.modCore c fun k =>
      if f (k.rg ra) (k.rg rb) then
        { k with pc := k.pc + 4 * sext12 imm }.idle (if c.val = 9 then 1 else 2)
      else k.adv

/-- LB (R108). -/
def execLb (c : Fin 10) (rd ra : Fin 32) (imm : BitVec 12) (err : Ecc) (s : State) : Res :=
  s.loadG c rd ra imm 1 true err
/-- LBU (R108). -/
def execLbu (c : Fin 10) (rd ra : Fin 32) (imm : BitVec 12) (err : Ecc) (s : State) : Res :=
  s.loadG c rd ra imm 1 false err
/-- LH (R108). -/
def execLh (c : Fin 10) (rd ra : Fin 32) (imm : BitVec 12) (err : Ecc) (s : State) : Res :=
  s.loadG c rd ra imm 2 true err
/-- LHU (R108). -/
def execLhu (c : Fin 10) (rd ra : Fin 32) (imm : BitVec 12) (err : Ecc) (s : State) : Res :=
  s.loadG c rd ra imm 2 false err
/-- LW (R108). -/
def execLw (c : Fin 10) (rd ra : Fin 32) (imm : BitVec 12) (err : Ecc) (s : State) : Res :=
  s.loadG c rd ra imm 4 true err
/-- LWU (R108). -/
def execLwu (c : Fin 10) (rd ra : Fin 32) (imm : BitVec 12) (err : Ecc) (s : State) : Res :=
  s.loadG c rd ra imm 4 false err
/-- LD (R108). -/
def execLd (c : Fin 10) (rd ra : Fin 32) (imm : BitVec 12) (err : Ecc) (s : State) : Res :=
  s.loadG c rd ra imm 8 false err
/-- FLD (R108): a doubleword into an f register. -/
def execFld (c : Fin 9) (fd ra : Fin 32) (imm : BitVec 12) (err : Ecc) (s : State) : Res :=
  s.execWith c.castSucc .load [.g ra] (some (.f fd)) fun s1 cyc =>
    s1.access c.castSucc cyc ((s1.core c.castSucc).ea ra imm) 8 (.load (.f fd) 8 false) err
/-- SB (R108). -/
def execSb (c : Fin 10) (rs ra : Fin 32) (imm : BitVec 12) (err : Ecc) (s : State) : Res := s.storeG c rs ra imm 1 err
/-- SH (R108). -/
def execSh (c : Fin 10) (rs ra : Fin 32) (imm : BitVec 12) (err : Ecc) (s : State) : Res := s.storeG c rs ra imm 2 err
/-- SW (R108). -/
def execSw (c : Fin 10) (rs ra : Fin 32) (imm : BitVec 12) (err : Ecc) (s : State) : Res := s.storeG c rs ra imm 4 err
/-- SD (R108): a whole doubleword, so no error of the old word matters (R78). -/
def execSd (c : Fin 10) (rs ra : Fin 32) (imm : BitVec 12) (s : State) : Res := s.storeG c rs ra imm 8 .clean
/-- FSD (R108). -/
def execFsd (c : Fin 9) (fs ra : Fin 32) (imm : BitVec 12) (s : State) : Res :=
  s.execWith c.castSucc .store [.g ra, .f fs] none fun s1 cyc =>
    s1.access c.castSucc cyc ((s1.core c.castSucc).ea ra imm) 8 (.store 8 ((s1.core c.castSucc).rf fs)) .clean
/-- AMOSWAP (R109, func 0x000). -/
def execAmoswap (c : Fin 9) (rd ra rb : Fin 32) (err : Ecc) (s : State) : Res := s.amo c rd ra rb 0 err
/-- AMOADD (R109, func 0x001). -/
def execAmoadd (c : Fin 9) (rd ra rb : Fin 32) (err : Ecc) (s : State) : Res := s.amo c rd ra rb 1 err
/-- AMOAND (R109, func 0x002). -/
def execAmoand (c : Fin 9) (rd ra rb : Fin 32) (err : Ecc) (s : State) : Res := s.amo c rd ra rb 2 err
/-- AMOOR (R109, func 0x003). -/
def execAmoor (c : Fin 9) (rd ra rb : Fin 32) (err : Ecc) (s : State) : Res := s.amo c rd ra rb 3 err
/-- AMOMAX (R109, func 0x004). -/
def execAmomax (c : Fin 9) (rd ra rb : Fin 32) (err : Ecc) (s : State) : Res := s.amo c rd ra rb 4 err
/-- AMOMIN (R109, func 0x005). -/
def execAmomin (c : Fin 9) (rd ra rb : Fin 32) (err : Ecc) (s : State) : Res := s.amo c rd ra rb 5 err
/-- AMOCAS (R109, func 0x006). -/
def execAmocas (c : Fin 9) (rd ra rb : Fin 32) (err : Ecc) (s : State) : Res := s.amo c rd ra rb 6 err
/-- BEQ (R110). -/
def execBeq (c : Fin 10) (ra rb : Fin 32) (imm : BitVec 12) (s : State) : Res := s.branch c ra rb imm fun a b => a == b
/-- BNE (R110). -/
def execBne (c : Fin 10) (ra rb : Fin 32) (imm : BitVec 12) (s : State) : Res := s.branch c ra rb imm fun a b => a != b
/-- BLT (R110). -/
def execBlt (c : Fin 10) (ra rb : Fin 32) (imm : BitVec 12) (s : State) : Res := s.branch c ra rb imm fun a b => decide (a.toInt < b.toInt)
/-- BGE (R110). -/
def execBge (c : Fin 10) (ra rb : Fin 32) (imm : BitVec 12) (s : State) : Res := s.branch c ra rb imm fun a b => decide (b.toInt ≤ a.toInt)
/-- BLTU (R110). -/
def execBltu (c : Fin 10) (ra rb : Fin 32) (imm : BitVec 12) (s : State) : Res := s.branch c ra rb imm fun a b => decide (a.toNat < b.toNat)
/-- BGEU (R110). -/
def execBgeu (c : Fin 10) (ra rb : Fin 32) (imm : BitVec 12) (s : State) : Res := s.branch c ra rb imm fun a b => decide (b.toNat ≤ a.toNat)
/-- JAL (R110): link PC + 4, jump to PC + 4 × sext(imm22); one idle cycle (R81). -/
def execJal (c : Fin 10) (rd : Fin 32) (imm : BitVec 22) (s : State) : Res :=
  s.execWith c .jal [] (dstG rd) fun s1 _ =>
    s1.modCore c fun k => { k.wg rd (k.pc + 4) with pc := k.pc + 4 * sext22 imm }.idle 1
/-- JALR (R110): a target with non-zero bits [1:0] raises MISALIGN and writes no link. -/
def execJalr (c : Fin 10) (rd ra : Fin 32) (imm : BitVec 12) (s : State) : Res :=
  s.execWith c .jalr [.g ra] (dstG rd) fun s1 cyc =>
    let target := (s1.core c).ea ra imm
    if target.toNat % 4 != 0 then s1.except c cyc 3 target
    else s1.modCore c fun k => { k.wg rd (k.pc + 4) with pc := target }.idle (if c.val = 9 then 1 else 2)

/-- SHARED_SLOT_ACCESS (R76, R77): the access that waits in the core's memory unit takes effect in its slot. A
core with none waiting is left alone. -/
def execSharedSlotAccess (c : Fin 9) (s : State) : Res :=
  .next (match (s.core c.castSucc).shared with
    | some a => if a.nextTick then s else s.doShared c.castSucc a
    | none => s)

end Sys2Proof.Machine
end

