-- ==== Sys2Proof/Machine/ProfileCheck.lean ====
section
/-! DEFINITION. The validation of a profile at load (R497), rule by rule: roles and limits (R14, R154, R175, R180, R181,
R191, R199), arm models (R209), lanes, ports and selectors (R274, R275, R289, R292, R441), Halo (R349, R351, R356), and
Meridian (R399, R429). Each rule is read on the state that the load would give. BOOT_STAGE_COMPLETE stands here too. -/

namespace Sys2Proof.Machine

/-! ### Exact comparison of binary64 numbers -/

/-- A finite binary64 number, exactly, in units of 2^-1074. -/
def fxInt (x : DWord) : Int := f64SMan x * (2 ^ (f64Unit x + 1074).toNat : Nat)
/-- One, in units of 2^-1074. -/
def fxOne : Int := (2 ^ 1074 : Nat)
/-- The sum of products of two rows, in units of 2^-2148. -/
def fxDot (a b : List Int) : Int := (List.zipWith (· * ·) a b).foldl (· + ·) 0

/-- A binary32 limit is finite and above zero (R154, R181). -/
def limitOk (w : Word) : Bool := f64Pos (f32ToF64 w)
/-- A binary32 number, exactly. -/
def limitInt (w : Word) : Int := fxInt (f32ToF64 w)

/-! ### Roles, joints and auxiliary axes -/

/-- The axis channels that the profile gives a role, one entry for each role given (R14). -/
def Profile.roles (p : Profile) : List (Fin 128) :=
  (p.arms.filterMap id).flatMap (fun a => a.joints) ++ p.aux.map fun a => a.ax

/-- A joint limit record that fails validation (R154). -/
def JointLim.bad (l : JointLim) : Bool :=
  !([l.vmax, l.amax, l.jmax, l.astop, l.jstop].all limitOk) || decide (l.qmax ≤ l.qmin)
    || decide (limitInt l.astop < limitInt l.amax) || decide (limitInt l.jstop < limitInt l.jmax)

/-- The limit records of an arm's joints. -/
def ArmProf.jointLims (p : ArmProf) : List JointLim := (List.range p.joints.length).map fun j => nth p.lims j {}

/-- Whether T_dusk covers a stop from VMAX and two ticks (R175, R199): VMAX / ASTOP + ASTOP / JSTOP + 2 t_tick, the second
term 0 where JSTOP is 0. -/
def duskCovers (tDuskMs tTick : Nat) (vmax astop jstop : Word) : Bool :=
  let room : Int := (tDuskMs : Int) * 1000000 - 2 * tTick
  let v := limitInt vmax
  let a := limitInt astop
  let j := limitInt jstop
  if j = 0 then decide (1000000000 * v ≤ room * a) else decide (1000000000 * (v * j + a * a) ≤ room * (a * j))

/-- An auxiliary axis record that fails validation (R181). -/
def AuxProf.bad (p : AuxProf) (cur : Nat) : Bool :=
  let jerk := !f64IsZero (f32ToF64 p.jmax)
  !([p.vmax, p.amax, p.astop, p.holdv].all limitOk)
    || (jerk && !(limitOk p.jmax && limitOk p.jstop))
    || !(f64IsZero (f32ToF64 p.jstop) || limitOk p.jstop)
    || decide (limitInt p.astop < limitInt p.amax)
    || (jerk && decide (limitInt p.jstop < limitInt p.jmax))
    || (!(p.qmin == 0 && p.qmax == 0) && decide (p.qmax ≤ p.qmin))
    || decide (fld cur 19 10 < fld cur 9 0) || decide (fld cur 29 20 < fld cur 19 10)

/-- The local step channels that the profile gives to axes, one entry for each axis (R180). -/
def Profile.stepChans (p : Profile) : List (Fin 16) :=
  p.aux.filterMap fun a => match a.out with | .step c => some c | _ => none

/-- R191: whether a batch of an axis can exceed what its channel can emit. -/
def State.batchTooLarge (s : State) (p : AuxProf) : Bool :=
  match p.out with
  | .step c => decide (s.nmaxOf (s.regN (0xD0100 + c.val * 0x20)) < ceilMul (f32ToF64 p.vmax) s.tTick 1000000000 + 1)
  | _ => false

/-- The rules on roles, joints and auxiliary axes. -/
def State.motionRulesFail (s : State) : Bool :=
  let p := s.prof
  let lims := (p.arms.filterMap id).flatMap ArmProf.jointLims
  !(p.roles.eraseDups.length == p.roles.length) || lims.any JointLim.bad
    || !(lims.all fun l => duskCovers p.tDuskMs s.tTick l.vmax l.astop l.jstop)
    || p.aux.any (fun a => a.bad (s.regN (0xD1000 + a.ax.val * 0x40)))
    || !(p.aux.all fun a => duskCovers p.tDuskMs s.tTick a.vmax a.astop a.jstop)
    || !(p.stepChans.eraseDups.length == p.stepChans.length) || p.aux.any s.batchTooLarge

/-! ### Arm models (R209) -/

/-- A rotation block is orthonormal to within 10^-9 per element: the elements of R Rᵀ − I. -/
def rotOk (t : List DWord) : Bool :=
  t.length == 12 && t.all f64IsFinite &&
    (List.range 3).all fun i => (List.range 3).all fun j =>
      let row (k : Nat) : List Int := (List.range 3).map fun c => fxInt (nth t (4 * k + c) 0)
      let e := fxDot (row i) (row j) - (if i = j then fxOne * fxOne else 0)
      decide (e.natAbs * 1000000000 ≤ (fxOne * fxOne).toNat)

/-- An axis is a unit vector to within 10^-9. -/
def unitOk (a : List DWord) : Bool :=
  let q := fxDot (a.map fxInt) (a.map fxInt) * 1000000000000000000
  let one := fxOne * fxOne
  a.length == 3 && a.all f64IsFinite && decide (one * (999999999 * 999999999) ≤ q) && decide (q ≤ one * (1000000001 * 1000000001))

def massOk (m : DWord) : Bool := f64IsFinite m && (!f64Neg m || f64IsZero m)

/-- An inertia tensor (Ixx, Iyy, Izz, Ixy, Ixz, Iyz) is positive semi-definite: every principal minor is at least 0. -/
def inertiaOk (i : List DWord) : Bool :=
  let v (k : Nat) : Int := fxInt (nth i k 0)
  let xx := v 0
  let yy := v 1
  let zz := v 2
  let xy := v 3
  let xz := v 4
  let yz := v 5
  i.length == 6 && i.all f64IsFinite && decide (0 ≤ xx) && decide (0 ≤ yy) && decide (0 ≤ zz)
    && decide (xy * xy ≤ xx * yy) && decide (xz * xz ≤ xx * zz) && decide (yz * yz ≤ yy * zz)
    && decide (0 ≤ xx * (yy * zz - yz * yz) - xy * (xy * zz - yz * xz) + xz * (xy * yz - yy * xz))

def JointModel.bad (m : JointModel) : Bool := !(rotOk m.link && unitOk m.axis && massOk m.mass && inertiaOk m.inertia)

/-- An arm model that fails validation (R209): NJ, the rotation blocks, the axes, the masses or the inertias. -/
def ArmProf.badModel (p : ArmProf) : Bool :=
  !(p.model.length == p.joints.length) || !(rotOk p.base && rotOk p.tool && massOk p.pmass) || p.model.any JointModel.bad

/-! ### Lanes, ports and selectors -/

/-- A selector of a lane input or a capture signal that names a fused-off axis (R274, R441). -/
def State.selFused (s : State) (v : Nat) : Bool :=
  let kind := fld v 11 8
  s.fusedAxis (fld v 6 0) && ((1 ≤ kind && kind ≤ 4) || kind == 6)

/-- The selector registers of the lanes and of the capture sets. -/
def selectorRegs : List Nat :=
  ((List.range 32).flatMap fun l => (List.range 4).map fun i => 0xB0800 + l * 0x10 + i * 4) ++
    ((List.range 4).flatMap fun c => (List.range 8).map fun g => 0x140400 + c * 0x80 + g * 0x10)

/-- A program word of the lane images with a reserved encoding (R275). -/
def laneWordBad (e : Nat × Nat × Nat × Nat) : Bool :=
  if h : e.1 < 32 then e.2.1 == 0 && (decodeLane ⟨e.1, h⟩ (BitVec.ofNat 32 e.2.2.2)).isNone else false

/-- The axes whose source is SSI port `q` (R289). -/
def State.portAxes (s : State) (q : Nat) : List Nat :=
  (List.range 128).filter fun a =>
    let w := s.regN (0xC1000 + a * 0x20)
    fld w 31 30 == 1 && fld w 27 24 == q

/-- R289, R292: a port with two axes, or with an axis and EN = 0; a frame that does not fit the tick. -/
def State.portBad (s : State) (q : Nat) : Bool :=
  let fmt := s.regN (0xC0100 + q * 0x40)
  let tim := s.regN (0xC0108 + q * 0x40)
  let axes := s.portAxes q
  decide (1 < axes.length) || (!axes.isEmpty && !bitOf fmt 31)
    || (bitOf fmt 31 && (decide (s.tTick < ssiF fmt tim + 1000 * fld tim 4 0) || decide (s.tTick < s.ssiAdv fmt tim + s.gatherNs)))

def State.sourceRulesFail (s : State) : Bool :=
  selectorRegs.any (fun o => s.selFused (s.regN o)) || s.prof.laneImage.any laneWordBad || (List.range 16).any s.portBad

/-! ### Halo (R349, R351, R356) -/

/-- A capsule of the site frame within ±32 000 m, with its radius. -/
def siteOk (p0 p1 : V3) (r : Int) : Bool :=
  [p0.x, p0.y, p0.z, p1.x, p1.y, p1.z].all fun x => decide (x.natAbs + r.natAbs ≤ 32000 * 65536)

/-- The length of a vector of binary64 metres, in units of 2^-64 m, rounded down. -/
def lengthOf (v : List DWord) : Nat :=
  isqrtFrom (fxDot (v.map fxInt) (v.map fxInt) / (2 ^ 2020 : Nat)).toNat 2112 0

/-- How far a capsule reaches from the origin of its frame, in units of 2^-64 m, rounded down. -/
def CapRec.extent (c : CapRec) : Nat :=
  let far (p : V3) : Nat := isqrtFrom ((p.x * p.x + p.y * p.y + p.z * p.z).toNat * 2 ^ 96) 96 0
  max (far c.p0) (far c.p1) + c.r.toNat * 2 ^ 48

/-- R351: more than 12 capsules, or links and capsules longer than 6 m. -/
def capsBad (p : ArmProf) (caps : List CapRec) : Bool :=
  decide (12 < caps.length) ||
    decide (6 * 2 ^ 64 < (p.model.map fun m => lengthOf [nth m.link 3 0, nth m.link 7 0, nth m.link 11 0]).foldl (· + ·) 0
      + (caps.map CapRec.extent).foldl max 0)

/-- The neighbour capsules that a cell could bring (R356, R374): 7 records for each part, less the status record of each
zone that it shares. -/
def SafProf.couldBring (f : SafProf) (n : NbrProf) : Nat :=
  7 * n.nparts - (f.zones.filter fun z => z.cells.getLsbD n.cell.val).length

def State.haloRulesFail (s : State) : Bool :=
  let f := s.prof.saf
  let origin := [nth f.cellSite 3 0, nth f.cellSite 7 0, nth f.cellSite 11 0]
  origin.any (fun x => !f64IsFinite x || decide (32000 * fxOne < (fxInt x).natAbs))
    || f.zones.any (fun z => !siteOk z.p0 z.p1 z.r)
    || f.conns.any (fun c => c.failvol.kind != 0 && !siteOk c.failvol.p0 c.failvol.p1 c.failvol.r)
    || (mapFrom (fun k (a : Option ArmProf) => match a with | some p => capsBad p (nth f.caps k []) | none => false) 0 s.prof.arms).any id
    || decide (96 < (f.nbrs.map f.couldBring).foldl (· + ·) 0)

/-! ### The matrix tables (R399, R429) -/

/-- Whether an entry has a window: KIND 0 or 1 (R427). -/
def MEntry.hasWindow (e : MEntry) : Bool := e.kind == 0 || e.kind == 1
def MEntry.stop (e : MEntry) : Nat := e.start + e.len
/-- Whether two windows overlap in some basic cycle (R428, R429). -/
def MEntry.overlaps (e g : MEntry) : Bool :=
  e.hasWindow && g.hasWindow && decide (e.start < g.stop) && decide (g.start < e.stop) &&
    (List.range 64).any fun bc => e.activeIn bc && g.activeIn bc
/-- Whether two entries have a frame ID in common. -/
def MEntry.shareFid (e g : MEntry) : Bool := decide (e.fid ≤ g.fid + g.nfr) && decide (g.fid ≤ e.fid + e.nfr)

/-- Whether a relation holds between an entry and a later one. -/
def anyPair {α : Type} (r : α → α → Bool) : List α → Bool
  | [] => false
  | x :: xs => xs.any (r x) || anyPair r xs

/-- The controller number that a profile is written for: the pinned one, or that of the block its nodes' addresses lie in
(R408). -/
def Profile.number (p : Profile) : Option Nat :=
  match p.mer.pin with
  | some k => some k.val
  | none => ((p.axNodes ++ p.toolNodes).map (fun m => m.node) ++ (p.ioIns ++ p.ioOuts).map (fun n => n.node)).head?.map (· / 64)

/-- The entries of the controller's own HALO frames, in the order of their first frame IDs in the profile. -/
def Profile.haloEntries (p : Profile) (l : List MEntry) : List MEntry :=
  p.mer.haloFids.filterMap fun fid => l.find? fun e => e.kind == 0 && e.fid == fid && e.sender % 64 == 0

/-- The entries of the controller's own SETPOINT frames. -/
def Profile.sptTable (p : Profile) (l : List MEntry) : List MEntry :=
  l.filter fun e => e.kind == 0 && some e.sender == p.number.map (64 * ·) && !p.mer.haloFids.contains e.fid

/-- The control and setpoint phases of R26 in which SETPOINT frames leave, in ns (R429). -/
def sptPhase : Rate → Nat × Nat
  | .k4 => (82000, 140000)
  | .k8 => (62000, 90000)
  | .k16 => (42000, 56000)

/-- The payload lengths of the SETPOINT frames in each entry of a basic cycle (R424), as SETPOINT_SEND fills them. -/
def State.sptLens (s : State) (ch : Channel) (l : List MEntry) : List (MEntry × List Nat) :=
  (l.foldl (fun (x : List (List SptRec) × List (MEntry × List Nat)) e =>
    (x.1.drop (e.nfr + 1), x.2 ++ [(e, (x.1.take (e.nfr + 1)).map fun r => 8 + 8 * r.length)]))
    (chunks 31 400 (s.setpointRecs ch), [])).2

/-- R429, rules 1 to 4 and 6 to 8, on one table. -/
def State.tableBad (s : State) (ch : Channel) : Bool :=
  let p := s.prof
  let l := s.table ch
  let halo := p.haloEntries l
  let spt := p.sptTable l
  let slots := l.filter fun e => e.kind == 2
  let win := sptPhase p.rate
  (l.any fun e => e.hasWindow && (decide (e.start < 19 + p.guard) || decide (p.arbStart < e.stop)))
    || anyPair MEntry.overlaps l
    || (l.any fun e => e.hasWindow && e.sender % 64 != 0 && decide (s.gatherNs < 8 * e.stop))
    || (spt.any fun e => decide (8 * e.start < win.1) || decide (win.2 < 8 * e.stop))
    || (halo.any fun e => decide (8 * e.len < windowNeed p.guard (List.replicate (e.nfr + 1) 240)))
    || ((List.range 64).any fun bc => (s.sptLens ch (spt.filter fun e => e.activeIn bc)).any fun x =>
        !x.2.isEmpty && decide (8 * x.1.len < windowNeed p.guard x.2))
    || (slots.any fun e => decide (p.arbEnd < p.arbStart + (e.start + 1) * p.msLen))
    || anyPair (fun e g => e.start == g.start || (decide (e.fid < g.fid) != decide (e.start < g.start))) slots
    || anyPair MEntry.shareFid l

/-- R429, rule 5: the HALO entries. -/
def Profile.haloTableBad (p : Profile) : Bool :=
  let a := p.haloEntries p.tabA
  let b := p.haloEntries p.tabB
  let same (e g : MEntry) : Bool := e.start == g.start && e.len == g.len && e.fid == g.fid && e.nfr == g.nfr
  !p.mer.haloFids.isEmpty &&
    ((a.length != 1 && a.length != 2) || a.length != p.mer.haloFids.length || a.length != b.length || !(a.all fun e => b.any (same e))
      || (a ++ b).any (fun e => e.replog != Nat.log2 p.haloDiv || e.base != 1)
      || anyPair (fun e g => g.fid != e.fid + e.nfr + 1) a
      || (a.map fun e => e.nfr + 1).foldl (· + ·) 0 != p.saf.npart)

def State.merRulesFail (s : State) : Bool :=
  let m := s.prof.mer
  (m.permit && (match m.pin with | some k => k != 0 | none => false))
    || s.tableBad .a || s.tableBad .b || s.prof.haloTableBad

/-! ### The outcome -/

/-- CAUSE 0x07: something required is absent on this part (R3, R501): a capability of CAPREQ, a declared arm or axis, the
tiles of a core's mask, or the tick rate. -/
def State.requiredAbsent (s : State) : Bool :=
  let p := s.prof
  ((List.range 32).any fun i => p.capReq.getLsbD i && s.capVersion i == 0)
    || (mapFrom (fun k (a : Option ArmProf) => a.isSome && !s.armPresent k) 0 p.arms).any id
    || p.roles.any (fun a => !s.axisPresent a.val)
    || ((List.range 9).any fun n => let x := s.regN (0x80100 + n * 4); x != 0 && Nat.land x s.tilesPresent.toNat == 0)
    || (p.rate == .k16 && s.capVersion 9 == 0)

/-- The instruction words of a safety code image that are outside the subset (R115). -/
def safeCodeBad (l : List (Nat × Byte)) : Bool :=
  let m := loadImage l
  (l.map fun e => e.1 / 4 * 4).eraseDups.any fun a => outsideMalaxS (BitVec.ofNat 32 (leVal (m.readN a 4)))

/-- The boot failure cause of the profile that stage 5 validates, 0 where every rule holds (R497): the lowest that applies.
(DESIGN CHOICE: log 75.) -/
def State.profileCause (s : State) : Nat :=
  let t := s.loadProfile
  if t.prof.magic != 0x4C445047 || t.prof.format != 1 then 2
  else if t.prof.family != 0x8128 then 3
  else if t.requiredAbsent then 7
  else if t.motionRulesFail || (t.prof.arms.filterMap id).any ArmProf.badModel || t.sourceRulesFail || t.haloRulesFail
      || t.merRulesFail then 8
  else if safeCodeBad t.prof.safeCode then 9
  else 0

/-- The cause of a stage: of the failures found, the lowest; 0 is success. -/
def lowerCause (a b : Nat) : Nat := if a = 0 then b else if b = 0 then a else min a b

/-- BOOT_STAGE_COMPLETE (R335, R342, R497, R500): the stage in progress ends; the start-up march and Halo tests of stage 3
are the completion that the background diagnostics count their periods from. `cause` 0 is success; in stage 3, 1 is DIAG_FAIL and any
other value SAFE_SRAM; from stage 4 on it is CLK_BOOT.CAUSE, with `det` for CLK_BOOTDET. `lockH` says whether PLL_H locked,
`corrupt` which journal entries fail their CRC. (DESIGN CHOICE: log 17.) (DESIGN CHOICE: log 75.) (DEDUCED: log 76.) -/
def execBootStageComplete (cause : Nat) (det : Word) (corrupt : List Nat) (lockH : Bool) (t : DWord) (s : State) : Res :=
  let s0 := s.atTime t
  let up := s0.modBoot fun b => { b with stage := b.stage + 1 }
  let failWith (x : Nat) := (s0.modBoot fun b => { b with failed := true, cause := x % 256, det := if x = 8 then det else 0 }).msix 8
  .next (if s.boot.failed || s.boot.halted || s.dbg.hold || !s.powered then s
    else if s.boot.stage = 1 then up.modClk fun c => { c with
      locks := if lockH then 15 else 7, pcieRef := lockH, fb := bitSet c.fb 2 (!lockH) }
    else if s.boot.stage = 2 then up
    else if s.boot.stage = 3 then
      if cause = 0 then up.modSaf fun f => { f with marchAt := t.toNat, chunkAt := t.toNat }
      else ((s0.modBoot fun b => { b with halted := true }).modSaf fun f => { f with
        diagFail := f.diagFail || cause == 1 }).raise (if cause = 1 then 0x1805 else 0x1806) 3
    else if s.boot.stage = 4 then if cause = 0 then up else failWith cause
    else if s.boot.stage = 5 then if lowerCause cause s.profileCause = 0 then up else failWith (lowerCause cause s.profileCause)
    else if s.boot.stage = 6 then
      if cause = 0 then
        let s1 := up.loadProfile
        (if s.boot.warmStart then s1.journalScan corrupt else s1).startMeridian t
      else failWith cause
    else s)

end Sys2Proof.Machine
end

