-- ==== Sys2Proof/Machine/Dispatch.lean ====
section
/-! DEFINITION. exec: one arm per command, each a direct call of its meaning. -/

namespace Sys2Proof.Machine

def exec (i : Instr) (s : State) : Host.Outcome State Fault Refusal :=
  match i with
  | .registerWrite path off v t => Sys2Proof.Machine.execRegisterWrite path off v t s
  | .shadowWrite path off v t => Sys2Proof.Machine.execShadowWrite path off v t s
  | .commitGo b v t => Sys2Proof.Machine.execCommitGo b v t s
  | .lowWordRead path off => Sys2Proof.Machine.execLowWordRead path off s
  | .lowWordWrite path off v => Sys2Proof.Machine.execLowWordWrite path off v s
  | .highWordWrite path off v t => Sys2Proof.Machine.execHighWordWrite path off v t s
  | .qwordAccess path off w t => Sys2Proof.Machine.execQwordAccess path off w t s
  | .unmappedAccess path off size isWrite => Sys2Proof.Machine.execUnmappedAccess path off size isWrite s
  | .bar2Write off bytes => Sys2Proof.Machine.execBar2Write off bytes s
  | .tickBoundary => Sys2Proof.Machine.execTickBoundary s
  | .planPeriodStart => Sys2Proof.Machine.execPlanPeriodStart s
  | .cutover => Sys2Proof.Machine.execCutover s
  | .segaApply => Sys2Proof.Machine.execSegaApply s
  | .rampStopApply => Sys2Proof.Machine.execRampStopApply s
  | .auxqApply => Sys2Proof.Machine.execAuxqApply s
  | .signalDeliver => Sys2Proof.Machine.execSignalDeliver s
  | .jobAdmit => Sys2Proof.Machine.execJobAdmit s
  | .jobStart => Sys2Proof.Machine.execJobStart s
  | .jobEnd handle eccErr => Sys2Proof.Machine.execJobEnd handle eccErr s
  | .jobDelivery => Sys2Proof.Machine.execJobDelivery s
  | .jobExpire handle => Sys2Proof.Machine.execJobExpire handle s
  | .jobCancelApply => Sys2Proof.Machine.execJobCancelApply s
  | .journalCommit => Sys2Proof.Machine.execJournalCommit s
  | .jdoneCommit => Sys2Proof.Machine.execJdoneCommit s
  | .coreFreeze c scrub => Sys2Proof.Machine.execCoreFreeze c s scrub
  | .sharedSlotAccess c => Sys2Proof.Machine.execSharedSlotAccess c s
  | .cyclePointFire c k => Sys2Proof.Machine.execCyclePointFire c k s
  | .budgetOverrun c => Sys2Proof.Machine.execBudgetOverrun c s
  | .waitWake c => Sys2Proof.Machine.execWaitWake c s
  | .waitlWake c => Sys2Proof.Machine.execWaitlWake c s
  | .jwaitWake c => Sys2Proof.Machine.execJwaitWake c s
  | .coreStart c => Sys2Proof.Machine.execCoreStart c s
  | .coreStop c => Sys2Proof.Machine.execCoreStop c s
  | .haltCleanup c => Sys2Proof.Machine.execHaltCleanup c s
  | .add c rd ra rb => Sys2Proof.Machine.execAdd c rd ra rb s
  | .sub c rd ra rb => Sys2Proof.Machine.execSub c rd ra rb s
  | .andR c rd ra rb => Sys2Proof.Machine.execAndR c rd ra rb s
  | .orR c rd ra rb => Sys2Proof.Machine.execOrR c rd ra rb s
  | .xorR c rd ra rb => Sys2Proof.Machine.execXorR c rd ra rb s
  | .sll c rd ra rb => Sys2Proof.Machine.execSll c rd ra rb s
  | .srl c rd ra rb => Sys2Proof.Machine.execSrl c rd ra rb s
  | .sra c rd ra rb => Sys2Proof.Machine.execSra c rd ra rb s
  | .slt c rd ra rb => Sys2Proof.Machine.execSlt c rd ra rb s
  | .sltu c rd ra rb => Sys2Proof.Machine.execSltu c rd ra rb s
  | .min c rd ra rb => Sys2Proof.Machine.execMin c rd ra rb s
  | .max c rd ra rb => Sys2Proof.Machine.execMax c rd ra rb s
  | .minu c rd ra rb => Sys2Proof.Machine.execMinu c rd ra rb s
  | .maxu c rd ra rb => Sys2Proof.Machine.execMaxu c rd ra rb s
  | .clz c rd ra => Sys2Proof.Machine.execClz c rd ra s
  | .popc c rd ra => Sys2Proof.Machine.execPopc c rd ra s
  | .mul c rd ra rb => Sys2Proof.Machine.execMul c rd ra rb s
  | .mulh c rd ra rb => Sys2Proof.Machine.execMulh c rd ra rb s
  | .mulhu c rd ra rb => Sys2Proof.Machine.execMulhu c rd ra rb s
  | .div c rd ra rb => Sys2Proof.Machine.execDiv c rd ra rb s
  | .divu c rd ra rb => Sys2Proof.Machine.execDivu c rd ra rb s
  | .rem c rd ra rb => Sys2Proof.Machine.execRem c rd ra rb s
  | .remu c rd ra rb => Sys2Proof.Machine.execRemu c rd ra rb s
  | .addi c rd ra imm => Sys2Proof.Machine.execAddi c rd ra imm s
  | .andi c rd ra imm => Sys2Proof.Machine.execAndi c rd ra imm s
  | .ori c rd ra imm => Sys2Proof.Machine.execOri c rd ra imm s
  | .xori c rd ra imm => Sys2Proof.Machine.execXori c rd ra imm s
  | .slli c rd ra imm => Sys2Proof.Machine.execSlli c rd ra imm s
  | .srli c rd ra imm => Sys2Proof.Machine.execSrli c rd ra imm s
  | .srai c rd ra imm => Sys2Proof.Machine.execSrai c rd ra imm s
  | .slti c rd ra imm => Sys2Proof.Machine.execSlti c rd ra imm s
  | .sltiu c rd ra imm => Sys2Proof.Machine.execSltiu c rd ra imm s
  | .liw c rd imm => Sys2Proof.Machine.execLiw c rd imm s
  | .lis c rd imm => Sys2Proof.Machine.execLis c rd imm s
  | .fadd c fd fa fb => Sys2Proof.Machine.execFadd c fd fa fb s
  | .fsub c fd fa fb => Sys2Proof.Machine.execFsub c fd fa fb s
  | .fmul c fd fa fb => Sys2Proof.Machine.execFmul c fd fa fb s
  | .fdiv c fd fa fb => Sys2Proof.Machine.execFdiv c fd fa fb s
  | .fsqrt c fd fa => Sys2Proof.Machine.execFsqrt c fd fa s
  | .fmin c fd fa fb => Sys2Proof.Machine.execFmin c fd fa fb s
  | .fmax c fd fa fb => Sys2Proof.Machine.execFmax c fd fa fb s
  | .fsgnj c fd fa fb => Sys2Proof.Machine.execFsgnj c fd fa fb s
  | .fsgnjn c fd fa fb => Sys2Proof.Machine.execFsgnjn c fd fa fb s
  | .fsgnjx c fd fa fb => Sys2Proof.Machine.execFsgnjx c fd fa fb s
  | .feq c rd fa fb => Sys2Proof.Machine.execFeq c rd fa fb s
  | .flt c rd fa fb => Sys2Proof.Machine.execFlt c rd fa fb s
  | .fle c rd fa fb => Sys2Proof.Machine.execFle c rd fa fb s
  | .fclass c rd fa => Sys2Proof.Machine.execFclass c rd fa s
  | .fcvtDL c fd ra => Sys2Proof.Machine.execFcvtDL c fd ra s
  | .fcvtLD c rd fa => Sys2Proof.Machine.execFcvtLD c rd fa s
  | .fcvtLDN c rd fa => Sys2Proof.Machine.execFcvtLDN c rd fa s
  | .fmvGF c rd fa => Sys2Proof.Machine.execFmvGF c rd fa s
  | .fmvFG c fd ra => Sys2Proof.Machine.execFmvFG c fd ra s
  | .fmadd c fd fa fb fc => Sys2Proof.Machine.execFmadd c fd fa fb fc s
  | .fmsub c fd fa fb fc => Sys2Proof.Machine.execFmsub c fd fa fb fc s
  | .fnmsub c fd fa fb fc => Sys2Proof.Machine.execFnmsub c fd fa fb fc s
  | .fnmadd c fd fa fb fc => Sys2Proof.Machine.execFnmadd c fd fa fb fc s
  | .lb c rd ra imm err => Sys2Proof.Machine.execLb c rd ra imm err s
  | .lbu c rd ra imm err => Sys2Proof.Machine.execLbu c rd ra imm err s
  | .lh c rd ra imm err => Sys2Proof.Machine.execLh c rd ra imm err s
  | .lhu c rd ra imm err => Sys2Proof.Machine.execLhu c rd ra imm err s
  | .lw c rd ra imm err => Sys2Proof.Machine.execLw c rd ra imm err s
  | .lwu c rd ra imm err => Sys2Proof.Machine.execLwu c rd ra imm err s
  | .ld c rd ra imm err => Sys2Proof.Machine.execLd c rd ra imm err s
  | .fld c fd ra imm err => Sys2Proof.Machine.execFld c fd ra imm err s
  | .sb c rs ra imm err => Sys2Proof.Machine.execSb c rs ra imm err s
  | .sh c rs ra imm err => Sys2Proof.Machine.execSh c rs ra imm err s
  | .sw c rs ra imm err => Sys2Proof.Machine.execSw c rs ra imm err s
  | .sd c rs ra imm => Sys2Proof.Machine.execSd c rs ra imm s
  | .fsd c fs ra imm => Sys2Proof.Machine.execFsd c fs ra imm s
  | .amoswap c rd ra rb err => Sys2Proof.Machine.execAmoswap c rd ra rb err s
  | .amoadd c rd ra rb err => Sys2Proof.Machine.execAmoadd c rd ra rb err s
  | .amoand c rd ra rb err => Sys2Proof.Machine.execAmoand c rd ra rb err s
  | .amoor c rd ra rb err => Sys2Proof.Machine.execAmoor c rd ra rb err s
  | .amomax c rd ra rb err => Sys2Proof.Machine.execAmomax c rd ra rb err s
  | .amomin c rd ra rb err => Sys2Proof.Machine.execAmomin c rd ra rb err s
  | .amocas c rd ra rb err => Sys2Proof.Machine.execAmocas c rd ra rb err s
  | .beq c ra rb imm => Sys2Proof.Machine.execBeq c ra rb imm s
  | .bne c ra rb imm => Sys2Proof.Machine.execBne c ra rb imm s
  | .blt c ra rb imm => Sys2Proof.Machine.execBlt c ra rb imm s
  | .bge c ra rb imm => Sys2Proof.Machine.execBge c ra rb imm s
  | .bltu c ra rb imm => Sys2Proof.Machine.execBltu c ra rb imm s
  | .bgeu c ra rb imm => Sys2Proof.Machine.execBgeu c ra rb imm s
  | .jal c rd imm => Sys2Proof.Machine.execJal c rd imm s
  | .jalr c rd ra imm => Sys2Proof.Machine.execJalr c rd ra imm s
  | .csrr c rd csr => Sys2Proof.Machine.execCsrr c rd csr s
  | .csrw c rd ra csr => Sys2Proof.Machine.execCsrw c rd ra csr s
  | .csrs c rd ra csr => Sys2Proof.Machine.execCsrs c rd ra csr s
  | .csrc c rd ra csr => Sys2Proof.Machine.execCsrc c rd ra csr s
  | .poll c rd => Sys2Proof.Machine.execPoll c rd s
  | .waitt c rd => Sys2Proof.Machine.execWaitt c rd s
  | .waitp c rd => Sys2Proof.Machine.execWaitp c rd s
  | .waite c rd => Sys2Proof.Machine.execWaite c rd s
  | .signal c ra imm => Sys2Proof.Machine.execSignal c ra imm s
  | .eret c => Sys2Proof.Machine.execEret c s
  | .trap c imm fetchErr => Sys2Proof.Machine.execTrap c imm fetchErr s
  | .flowsig c imm => Sys2Proof.Machine.execFlowsig c imm s
  | .segq c rd ra err => Sys2Proof.Machine.execSegq c rd ra err s
  | .sega c rd ra err => Sys2Proof.Machine.execSega c rd ra err s
  | .segclr c rd => Sys2Proof.Machine.execSegclr c rd s
  | .cut c rd => Sys2Proof.Machine.execCut c rd s
  | .segstat c rd => Sys2Proof.Machine.execSegstat c rd s
  | .stop c rd ra => Sys2Proof.Machine.execStop c rd ra s
  | .auxq c rd ra rb err => Sys2Proof.Machine.execAuxq c rd ra rb err s
  | .waitl c rd ra rb func => Sys2Proof.Machine.execWaitl c rd ra rb func s
  | .job c rd ra err => Sys2Proof.Machine.execJob c rd ra err s
  | .jwait c rd ra rb => Sys2Proof.Machine.execJwait c rd ra rb s
  | .jstat c rd ra => Sys2Proof.Machine.execJstat c rd ra s
  | .jcancel c rd ra => Sys2Proof.Machine.execJcancel c rd ra s
  | .hpub c rd ra rb func err => Sys2Proof.Machine.execHpub c rd ra rb func err s
  | .apub c rd ra rb func err => Sys2Proof.Machine.execApub c rd ra rb func err s
  | .rtake c rd ra rb => Sys2Proof.Machine.execRtake c rd ra rb s
  | .jrec c rd ra rb err => Sys2Proof.Machine.execJrec c rd ra rb err s
  | .jdone c rd ra rb => Sys2Proof.Machine.execJdone c rd ra rb s
  | .jnext c rd ra => Sys2Proof.Machine.execJnext c rd ra s
  | .profq c rd imm => Sys2Proof.Machine.execProfq c rd imm s
  | .capq c rd imm => Sys2Proof.Machine.execCapq c rd imm s
  | .lineEdge n a b sample => Sys2Proof.Machine.execLineEdge n a b sample s
  | .lineFault n => Sys2Proof.Machine.execLineFault n s
  | .lineIndex n z t => Sys2Proof.Machine.execLineIndex n z t s
  | .lineLatch n t => Sys2Proof.Machine.execLineLatch n t s
  | .lineIdleLatch => Sys2Proof.Machine.execLineIdleLatch s
  | .linClrFault n sample => Sys2Proof.Machine.execLinClrFault n sample s
  | .clrUncert n => Sys2Proof.Machine.execClrUncert n s
  | .clrQerr n => Sys2Proof.Machine.execClrQerr n s
  | .linSiderealRead path t => Sys2Proof.Machine.execLinSiderealRead path t s
  | .ssiFrameStart p ts high => Sys2Proof.Machine.execSsiFrameStart p ts high s
  | .ssiWord p bits td endLow => Sys2Proof.Machine.execSsiWord p bits td endLow s
  | .feedbackFrame ch f t => Sys2Proof.Machine.execFeedbackFrame ch f t s
  | .gatherEnd => Sys2Proof.Machine.execGatherEnd s
  | .extrapolatePhase => Sys2Proof.Machine.execExtrapolatePhase s
  | .standstillTimeout src => Sys2Proof.Machine.execStandstillTimeout src s
  | .fbkTimeout a => Sys2Proof.Machine.execFbkTimeout a s
  | .handoverEnd k => Sys2Proof.Machine.execHandoverEnd k s
  | .dwellExpire k => Sys2Proof.Machine.execDwellExpire k s
  | .rampStopRest k => Sys2Proof.Machine.execRampStopRest k s
  | .auxStall a => Sys2Proof.Machine.execAuxStall a s
  | .auxStopDone a => Sys2Proof.Machine.execAuxStopDone a s
  | .clrStall a => Sys2Proof.Machine.execClrStall a s
  | .stepBatch c => Sys2Proof.Machine.execStepBatch c s
  | .axisCascade a => Sys2Proof.Machine.execAxisCascade a s
  | .manualEnter a => Sys2Proof.Machine.execManualEnter a s
  | .bumplessTransfer a => Sys2Proof.Machine.execBumplessTransfer a s
  | .clrInt a => Sys2Proof.Machine.execClrInt a s
  | .ctlClrFault a => Sys2Proof.Machine.execCtlClrFault a s
  | .setpointSend ch => Sys2Proof.Machine.execSetpointSend ch s
  | .setpointApply recs => Sys2Proof.Machine.execSetpointApply recs s
  | .setpointLoss recs => Sys2Proof.Machine.execSetpointLoss recs s
  | .almanacPublish => Sys2Proof.Machine.execAlmanacPublish s
  | .almanacPush err => Sys2Proof.Machine.execAlmanacPush s err
  | .lanePass l eccErr => Sys2Proof.Machine.execLanePass l eccErr s
  | .laneOverrun l => Sys2Proof.Machine.execLaneOverrun l s
  | .laneStart l => Sys2Proof.Machine.execLaneStart l s
  | .laneStop l => Sys2Proof.Machine.execLaneStop l s
  | .lanePatch => Sys2Proof.Machine.execLanePatch s
  | .tmpy l ac t => Sys2Proof.Machine.execTmpy l ac t s
  | .tmac l ac t => Sys2Proof.Machine.execTmac l ac t s
  | .tmsu l ac t => Sys2Proof.Machine.execTmsu l ac t s
  | .lanePut l ac m sh => Sys2Proof.Machine.execLanePut l ac m sh s
  | .laneGet l ac m sh => Sys2Proof.Machine.execLaneGet l ac m sh s
  | .laneAdd l ac m sh => Sys2Proof.Machine.execLaneAdd l ac m sh s
  | .idx l ac a sh => Sys2Proof.Machine.execIdx l ac a sh s
  | .laneClr l ac => Sys2Proof.Machine.execLaneClr l ac s
  | .lds l m k => Sys2Proof.Machine.execLds l m k s
  | .seta l r v => Sys2Proof.Machine.execSeta l r v s
  | .setm l r v => Sys2Proof.Machine.execSetm l r v s
  | .setl l r v => Sys2Proof.Machine.execSetl l r v s
  | .sets l k v => Sys2Proof.Machine.execSets l k v s
  | .rpt l count len => Sys2Proof.Machine.execRpt l count len s
  | .laneBr l cond ac target => Sys2Proof.Machine.execLaneBr l cond ac target s
  | .laneEnd l => Sys2Proof.Machine.execLaneEnd l s
  | .faultReport n t => Sys2Proof.Machine.execFaultReport n t s
  | .faultDequeue => Sys2Proof.Machine.execFaultDequeue s
  | .stoEntry t => Sys2Proof.Machine.execStoEntry t s
  | .duskRest t => Sys2Proof.Machine.execDuskRest t s
  | .duskTimeout t => Sys2Proof.Machine.execDuskTimeout t s
  | .holdEnd t => Sys2Proof.Machine.execHoldEnd t s
  | .wdogService since t => Sys2Proof.Machine.execWdogService since t s
  | .wdogExpired t => Sys2Proof.Machine.execWdogExpired t s
  | .wdogStoDelay => Sys2Proof.Machine.execWdogStoDelay s
  | .stoReadback t => Sys2Proof.Machine.execStoReadback t s
  | .resetEdge released pressed t => Sys2Proof.Machine.execResetEdge released pressed t s
  | .resetStuck t => Sys2Proof.Machine.execResetStuck t s
  | .resetEdgeEvaluate t => Sys2Proof.Machine.execResetEdgeEvaluate t s
  | .safeInputChange n level => Sys2Proof.Machine.execSafeInputChange n level s
  | .sinDisc n t => Sys2Proof.Machine.execSinDisc n t s
  | .testPulse k lows estLow t => Sys2Proof.Machine.execTestPulse k lows estLow t s
  | .estopChange a b t => Sys2Proof.Machine.execEstopChange a b t s
  | .estopDisc t => Sys2Proof.Machine.execEstopDisc t s
  | .soutWrite v => Sys2Proof.Machine.execSoutWrite v s
  | .darkPulse k => Sys2Proof.Machine.execDarkPulse k s
  | .soutReadback k rb t => Sys2Proof.Machine.execSoutReadback k rb t s
  | .marchSegment fail t => Sys2Proof.Machine.execMarchSegment fail t s
  | .haloChunk fail t => Sys2Proof.Machine.execHaloChunk fail t s
  | .diagLate march t => Sys2Proof.Machine.execDiagLate march t s
  | .flowdlExpire t => Sys2Proof.Machine.execFlowdlExpire t s
  | .clkStop d t => Sys2Proof.Machine.execClkStop d t s
  | .clkFreq d t => Sys2Proof.Machine.execClkFreq d t s
  | .voltMon t => Sys2Proof.Machine.execVoltMon t s
  | .tempWarn t => Sys2Proof.Machine.execTempWarn t s
  | .tempMon t => Sys2Proof.Machine.execTempMon t s
  | .mailboxGo => Sys2Proof.Machine.execMailboxGo s
  | .mbxHostStop t => Sys2Proof.Machine.execMbxHostStop t s
  | .mbxHoldEnd t => Sys2Proof.Machine.execMbxHoldEnd t s
  | .mbxEcho => Sys2Proof.Machine.execMbxEcho s
  | .mbxProgram result r0 r1 r2 r3 => Sys2Proof.Machine.execMbxProgram result r0 r1 r2 r3 s
  | .mbxUnknown => Sys2Proof.Machine.execMbxUnknown s
  | .programFaultRaise n cls hold t => Sys2Proof.Machine.execProgramFaultRaise n cls hold t s
  | .faultQueuePop => Sys2Proof.Machine.execFaultQueuePop s
  | .haloPeriodStart => Sys2Proof.Machine.execHaloPeriodStart s
  | .encPlaus a t => Sys2Proof.Machine.execEncPlaus a t s
  | .haloTickWindow interval t => Sys2Proof.Machine.execHaloTickWindow interval t s
  | .haloCompute pairFail t => Sys2Proof.Machine.execHaloCompute pairFail t s
  | .hpubCheck c t => Sys2Proof.Machine.execHpubCheck c t s
  | .haloFrameSend t => Sys2Proof.Machine.execHaloFrameSend t s
  | .haloFrameReceive cell part copyA copyB t => Sys2Proof.Machine.execHaloFrameReceive cell part copyA copyB t s
  | .haloPeriodAccept cell t => Sys2Proof.Machine.execHaloPeriodAccept cell t s
  | .haloCopyMissing cell t => Sys2Proof.Machine.execHaloCopyMissing cell t s
  | .telegramReceive bytes srcIp srcPort port rx t => Sys2Proof.Machine.execTelegramReceive bytes srcIp srcPort port rx t s
  | .safeConnFail c t => Sys2Proof.Machine.execSafeConnFail c t s
  | .telegramSend k ts payload => Sys2Proof.Machine.execTelegramSend k ts payload s
  | .safeTimeInvalid port t => Sys2Proof.Machine.execSafeTimeInvalid port t s
  | .linkDown c p t => Sys2Proof.Machine.execLinkDown c p t s
  | .trainSend c p => Sys2Proof.Machine.execTrainSend c p s
  | .trainReceive c p => Sys2Proof.Machine.execTrainReceive c p s
  | .linkMeasure c p => Sys2Proof.Machine.execLinkMeasure c p s
  | .linkReady c p t => Sys2Proof.Machine.execLinkReady c p t s
  | .merRetrain mask t => Sys2Proof.Machine.execMerRetrain mask t s
  | .merPortdis mask t => Sys2Proof.Machine.execMerPortdis mask t s
  | .coldstartListenEnd t => Sys2Proof.Machine.execColdstartListenEnd t s
  | .coldstartReceive c p f t => Sys2Proof.Machine.execColdstartReceive c p f t s
  | .coldstartWindowEnd t asTime => Sys2Proof.Machine.execColdstartWindowEnd t asTime s
  | .lodestarBeacon t => Sys2Proof.Machine.execLodestarBeacon t s
  | .merNoLodestar t => Sys2Proof.Machine.execMerNoLodestar t s
  | .delayReqSend c p t1 => Sys2Proof.Machine.execDelayReqSend c p t1 s
  | .delayReqReceive c p f t2 t3 => Sys2Proof.Machine.execDelayReqReceive c p f t2 t3 s
  | .delayRespReceive c p f t4 => Sys2Proof.Machine.execDelayRespReceive c p f t4 s
  | .syncSend t asTime => Sys2Proof.Machine.execSyncSend t s asTime
  | .syncReceive c p f t => Sys2Proof.Machine.execSyncReceive c p f t s
  | .syncDegraded => Sys2Proof.Machine.execSyncDegraded s
  | .siderealHoldover => Sys2Proof.Machine.execSiderealHoldover s
  | .siderealLost => Sys2Proof.Machine.execSiderealLost s
  | .syncRelock => Sys2Proof.Machine.execSyncRelock s
  | .enumReceive c p f t => Sys2Proof.Machine.execEnumReceive c p f t s
  | .ctrlReportReceive c p f t => Sys2Proof.Machine.execCtrlReportReceive c p f t s
  | .controllerAssign t => Sys2Proof.Machine.execControllerAssign t s
  | .assignReceive c p f t => Sys2Proof.Machine.execAssignReceive c p f t s
  | .nodeAddrReceive uid f => Sys2Proof.Machine.execNodeAddrReceive uid f s
  | .addrAckReceive c p f t => Sys2Proof.Machine.execAddrAckReceive c p f t s
  | .eventFrame ch f t => Sys2Proof.Machine.execEventFrame ch f t s
  | .serviceFrameReceive ch f addr t => Sys2Proof.Machine.execServiceFrameReceive ch f addr t s
  | .schedloadSend node ch => Sys2Proof.Machine.execSchedloadSend node ch s
  | .schedloadReceive uid ch f => Sys2Proof.Machine.execSchedloadReceive uid ch f s
  | .schedackReceive ch f t => Sys2Proof.Machine.execSchedackReceive ch f t s
  | .merSchedLoad node ch => Sys2Proof.Machine.execMerSchedLoad node ch s
  | .arbitratingSend ch seen => Sys2Proof.Machine.execArbitratingSend ch seen s
  | .merArbLate ch fid => Sys2Proof.Machine.execMerArbLate ch fid s
  | .merCrc ch => Sys2Proof.Machine.execMerCrc ch s
  | .merCpWrite k v => Sys2Proof.Machine.execMerCpWrite k v s
  | .meridianCyclePoint k => Sys2Proof.Machine.execMeridianCyclePoint k s
  | .captureAssembly => Sys2Proof.Machine.execCaptureAssembly s
  | .recordClose n => Sys2Proof.Machine.execRecordClose n s
  | .capForce k => Sys2Proof.Machine.execCapForce k s
  | .readoutGo n => Sys2Proof.Machine.execReadoutGo n s
  | .readoutDone eccErr t => Sys2Proof.Machine.execReadoutDone eccErr t s
  | .recordRelease n => Sys2Proof.Machine.execRecordRelease n s
  | .streamCopy err => Sys2Proof.Machine.execStreamCopy s err
  | .streamEnable => Sys2Proof.Machine.execStreamEnable s
  | .keyframeCapture => Sys2Proof.Machine.execKeyframeCapture s
  | .keyframeComplete bytes => Sys2Proof.Machine.execKeyframeComplete bytes s
  | .ephKfAbandon t => Sys2Proof.Machine.execEphKfAbandon t s
  | .pinComplete => Sys2Proof.Machine.execPinComplete s
  | .pinRelease => Sys2Proof.Machine.execPinRelease s
  | .replayStart image revOk profOk resOk => Sys2Proof.Machine.execReplayStart image revOk profOk resOk s
  | .replayTick => Sys2Proof.Machine.execReplayTick s
  | .clockSourceSwitch d fallback => Sys2Proof.Machine.execClockSourceSwitch d fallback s
  | .crossingResync dropped => Sys2Proof.Machine.execCrossingResync dropped s
  | .powerOnReset psel standby powerLoss aonLost => Sys2Proof.Machine.execPowerOnReset psel standby powerLoss aonLost s
  | .warmReset pin dbg hold => Sys2Proof.Machine.execWarmReset pin dbg hold s
  | .warmResetRequest key => Sys2Proof.Machine.execWarmResetRequest key s
  | .bootStageComplete cause det corrupt lockH t => Sys2Proof.Machine.execBootStageComplete cause det corrupt lockH t s
  | .tickSequencerStart t => Sys2Proof.Machine.execTickSequencerStart t s
  | .profileSwitch slot key => Sys2Proof.Machine.execProfileSwitch slot key s
  | .quietRequest => Sys2Proof.Machine.execQuietRequest s
  | .dawnRequest => Sys2Proof.Machine.execDawnRequest s
  | .standbyRequest => Sys2Proof.Machine.execStandbyRequest s
  | .wake => Sys2Proof.Machine.execWake s
  | .vbatApply => Sys2Proof.Machine.execVbatApply s
  | .hostReset linkDown t => Sys2Proof.Machine.execHostReset linkDown t s
  | .ringDoorbell r p t => Sys2Proof.Machine.execRingDoorbell r p t s
  | .ringFetch r bytes t => Sys2Proof.Machine.execRingFetch r bytes t s
  | .plantCommandDatagram port dstPort srcIp bytes t => Sys2Proof.Machine.execPlantCommandDatagram port dstPort srcIp bytes t s
  | .completionPost => Sys2Proof.Machine.execCompletionPost s
  | .dmaSuspend e err t => Sys2Proof.Machine.execDmaSuspend e err t s
  | .dmaResume mask => Sys2Proof.Machine.execDmaResume mask s
  | .plantFrameReceive port bytes addr => Sys2Proof.Machine.execPlantFrameReceive port bytes addr s
  | .plantFrameTransmit port bytes addr => Sys2Proof.Machine.execPlantFrameTransmit port bytes addr s
  | .serviceTransmit ch payload addr => Sys2Proof.Machine.execServiceTransmit ch payload addr s
  | .flashRead key => Sys2Proof.Machine.execFlashRead key s
  | .flashProgram key => Sys2Proof.Machine.execFlashProgram key s
  | .flashErase key => Sys2Proof.Machine.execFlashErase key s
  | .flashDone data => Sys2Proof.Machine.execFlashDone data s
  | .dbgUnlockGo keyOk sigOk t => Sys2Proof.Machine.execDbgUnlockGo keyOk sigOk t s
  | .tapBypass => Sys2Proof.Machine.execTapBypass s
  | .tapIdcode => Sys2Proof.Machine.execTapIdcode s
  | .tapDbgchal k => Sys2Proof.Machine.execTapDbgchal k s
  | .tapDbgunlock k v => Sys2Proof.Machine.execTapDbgunlock k v s
  | .scanEntry => Sys2Proof.Machine.execScanEntry s
  | .coarseSiderealLoad t => Sys2Proof.Machine.execCoarseSiderealLoad t s
  | .plantTimeValid port => Sys2Proof.Machine.execPlantTimeValid port s
  | .frameRepeat c p f => Sys2Proof.Machine.execFrameRepeat c p f s

end Sys2Proof.Machine
end

