-- ==== Sys2Proof/Safety.lean ====
section
/-! DEFINITION. What the claims are stated in: when a core runs an instruction, what part of a core is issue
bookkeeping, and the invariants of a safe run. -/

namespace Sys2Proof.Machine

/-- The cycle the next instruction of core `c` issues in (R80, R81). -/
def State.issueCycle (s : State) (c : Fin 10) (cls : IssClass) (srcs : List CReg) (dst : Option CReg) : Nat :=
  (s.core c).issueAt c cls (srcs ++ dst.toList)

/-- When core `c` runs the instruction at its PC: it is in a position to issue (R79, R117), no shared access that is due
earlier waits in its memory unit (R77), a planner core is inside the run window (R79), the PC lies in code memory (R74,
R114), and the code word there is an instruction (R100). -/
def State.mayRun (s : State) (c : Fin 10) (cls : IssClass) (srcs : List CReg) (dst : Option CReg) : Bool :=
  s.canIssue c
    && (match (s.core c).shared with
        | none => true
        | some a => a.nextTick || decide (s.issueCycle c cls srcs dst ≤ a.slot))
    && (c.val == 9 || decide (s.issueCycle c cls srcs dst < s.runcyc))
    && decide ((s.core c).pc.toNat < codeLimit c) && s.legalAt c

/-- Core `k` with the issue bookkeeping of `t`: the cycle, the older instruction of a pair, the ready cycles of registers
and units, and the cycles counted against the budget (R80–R83). Every architectural register is `k`'s. -/
def Core.retimed (k t : Core) : Core :=
  { k with cyc := t.cyc, pair := t.pair, pend := t.pend, memFree := t.memFree, divFree := t.divFree,
           fdivFree := t.fdivFree, budget := t.budget }

/-- An outcome that changes core `c` by `f`, and besides only the issue bookkeeping of that core. -/
def Retires (s : State) (c : Fin 10) (o : Res) (f : Core → Core) : Prop :=
  ∃ t : Core, o = .next (s.setCore c ((f (s.core c)).retimed t))

/-- An outcome that does `g` once core `c` has issued: only the issue bookkeeping of that core changed before. -/
def RunsAs (s : State) (c : Fin 10) (o : Res) (g : State → State) : Prop :=
  ∃ t : Core, o = .next (g (s.setCore c ((s.core c).retimed t)))

/-- Whether an exception of core `k` halts it: it is inside a handler, or TVEC is 0 (R97). -/
def Core.doubleTrap (k : Core) : Bool := k.intrap || k.tvec == 0

/-- A core that has taken a trap (R95), with the issue bookkeeping of `t`: CAUSE, TVAL and EPC written, IE moved to PIE and
cleared, INTRAP set, the PC at TVEC; every other register as it was. `halts`: the core halts instead of running on (R97). -/
def Core.trapped (k t : Core) (cause tval epc : DWord) (halts : Bool) : Core :=
  { k.retimed t with
    cause := cause, tval := tval, epc := epc, pie := k.ie, ie := false, intrap := true, pc := k.tvec,
    causeCopy := cause, wait := none, mode := if halts then .halted else .running,
    cleanup := if halts then true else k.cleanup }

/-- The instruction at the PC of core `c` raises the exception `cause` with TVAL `tval` and has no other effect: the core has
trapped with its PC in EPC, and the faults that R97 and R115 name are on their way. Nothing else changes. -/
def Traps (s : State) (c : Fin 10) (o : Res) (cause tval : DWord) : Prop :=
  ∃ (t : Core) (rs : List FaultRep) (n : Nat),
    o = .next { s.setCore c ((s.core c).trapped t cause tval (s.core c).pc (s.core c).doubleTrap) with
                reports := s.reports ++ rs, free := n }
    ∧ rs.map (fun r => (r.code, r.cls, r.hold)) =
        (if c.val = 9 then [(0x1801, 3, false)] else if (s.core c).doubleTrap then [(0x0402, 2, true)] else [])

end Sys2Proof.Machine
end

