-- ==== Sys2Proof/Certificates/Slice0/Obligations.lean ====
section
/-! DEFINITION. The statements for the provers, one per definition `Obligations.<Name>`; each docstring says what is
stated and which rules of spec/ it formalises or rests on. The definitions before them in `Sys2Proof.Machine` are the
words the statements are written in. -/

open Sys2Proof Sys2Proof.Machine

namespace Sys2Proof.Machine

/-- A two-operand integer instruction `mk` of class `cls`: when its core may run it, it writes `f ga gb` to gd (g0 discards
the write), the PC moves on by 4, and nothing else changes but the issue bookkeeping of the core. -/
def RegRegResult (mk : Fin 10 → Fin 32 → Fin 32 → Fin 32 → Instr) (cls : IssClass) (f : DWord → DWord → DWord) : Prop :=
  ∀ (s : State) (c : Fin 10) (rd ra rb : Fin 32), s.mayRun c cls [.g ra, .g rb] (dstG rd) = true →
    Retires s c (exec (mk c rd ra rb) s) fun k => (k.wg rd (f (k.rg ra) (k.rg rb))).adv

/-- A one-operand integer instruction. -/
def RegResult (mk : Fin 10 → Fin 32 → Fin 32 → Instr) (f : DWord → DWord) : Prop :=
  ∀ (s : State) (c : Fin 10) (rd ra : Fin 32), s.mayRun c .alu [.g ra] (dstG rd) = true →
    Retires s c (exec (mk c rd ra) s) fun k => (k.wg rd (f (k.rg ra))).adv

/-- An instruction with a 12-bit immediate; `ok` says which immediates the encoding admits. -/
def RegImmResult (mk : Fin 10 → Fin 32 → Fin 32 → BitVec 12 → Instr) (ok : BitVec 12 → Prop)
    (f : DWord → BitVec 12 → DWord) : Prop :=
  ∀ (s : State) (c : Fin 10) (rd ra : Fin 32) (imm : BitVec 12), ok imm → s.mayRun c .alu [.g ra] (dstG rd) = true →
    Retires s c (exec (mk c rd ra imm) s) fun k => (k.wg rd (f (k.rg ra) imm)).adv

/-- A division: gd takes `v ga gb`, IFLAGS gains the bits `fl ga gb`. -/
def DivResult (mk : Fin 10 → Fin 32 → Fin 32 → Fin 32 → Instr) (v : DWord → DWord → DWord) (fl : DWord → DWord → BitVec 2) :
    Prop :=
  ∀ (s : State) (c : Fin 10) (rd ra rb : Fin 32), s.mayRun c .div [.g ra, .g rb] (dstG rd) = true →
    Retires s c (exec (mk c rd ra rb) s) fun k =>
      ((k.wg rd (v (k.rg ra) (k.rg rb))).orIF (fl (k.rg ra) (k.rg rb))).adv

/-- An instruction with operands `mk` of two f registers: fd takes `v fa fb` and FFLAGS gains `fl fa fb`. -/
def FpResult (mk : Fin 9 → Fin 32 → Fin 32 → Fin 32 → Instr) (cls : IssClass) (v : DWord → DWord → DWord)
    (fl : DWord → DWord → FFlags) : Prop :=
  ∀ (s : State) (c : Fin 9) (fd fa fb : Fin 32), s.mayRun c.castSucc cls [.f fa, .f fb] (some (.f fd)) = true →
    Retires s c.castSucc (exec (mk c fd fa fb) s) fun k =>
      ((k.wf fd (v (k.rf fa) (k.rf fb))).orFF (fl (k.rf fa) (k.rf fb))).adv

/-- A compare: gd takes 1 or 0. -/
def FpCompare (mk : Fin 9 → Fin 32 → Fin 32 → Fin 32 → Instr) (p : DWord → DWord → Bool) (fl : DWord → DWord → FFlags) : Prop :=
  ∀ (s : State) (c : Fin 9) (rd fa fb : Fin 32), s.mayRun c.castSucc .fpShort [.f fa, .f fb] (dstG rd) = true →
    Retires s c.castSucc (exec (mk c rd fa fb) s) fun k =>
      ((k.wg rd (if p (k.rf fa) (k.rf fb) then 1 else 0)).orFF (fl (k.rf fa) (k.rf fb))).adv

/-- A fused multiply-add: `np` negates the product, `na` the addend; one rounding. -/
def FmaResult (mk : Fin 9 → Fin 32 → Fin 32 → Fin 32 → Fin 32 → Instr) (np na : Bool) : Prop :=
  ∀ (s : State) (c : Fin 9) (fd fa fb fc : Fin 32), s.mayRun c.castSucc .fp [.f fa, .f fb, .f fc] (some (.f fd)) = true →
    Retires s c.castSucc (exec (mk c fd fa fb fc) s) fun k =>
      ((k.wf fd (f64Fma np na (k.rf fa) (k.rf fb) (k.rf fc)).1).orFF (f64Fma np na (k.rf fa) (k.rf fb) (k.rf fc)).2).adv

/-- A conversion or move out of an f register into a g register. -/
def FpToG (mk : Fin 9 → Fin 32 → Fin 32 → Instr) (cls : IssClass) (v : DWord → DWord) (fl : DWord → FFlags) : Prop :=
  ∀ (s : State) (c : Fin 9) (rd fa : Fin 32), s.mayRun c.castSucc cls [.f fa] (dstG rd) = true →
    Retires s c.castSucc (exec (mk c rd fa) s) fun k => ((k.wg rd (v (k.rf fa))).orFF (fl (k.rf fa))).adv

/-- The smaller (or larger) of two binary64 values as R105 gives it. -/
def minMaxR105 (isMax : Bool) (a b : DWord) : DWord :=
  if f64IsNaN a && f64IsNaN b then 0x7FF8000000000000
  else if f64IsNaN a then b
  else if f64IsNaN b then a
  else
    let aLess := f64Lt a b || (f64IsZero a && f64IsZero b && a.getLsbD 63)
    if aLess != isMax then a else b

/-- NV exactly for a signalling NaN operand. -/
def nvSignalling (a b : DWord) : FFlags := if f64IsSNaN a || f64IsSNaN b then 16 else 0

/-- What a load of `n` bytes into register `d` does for each place its address leads to (R74–R78, R108, R114, R146); a
corrected error is counted and changes nothing else. -/
def LoadsAs (s : State) (c : Fin 10) (o : Res) (a : DWord) (n : Nat) (signed : Bool) (err : Ecc) (d : CReg) : Prop :=
  let put (s : State) (bs : List Byte) : Prop := Retires s c o fun k => (k.wreg d (loadValue signed n bs)).adv
  if a.toNat % n ≠ 0 then Traps s c o 3 a
  else match s.region c a.toNat with
    | .code off => err ≠ .uncorr → put (s.eccNote (if c.val = 9 then 7 else 0) err) ((if c.val = 9 then s.scode else s.code).readN off n)
    | .data off false => err ≠ .uncorr → put (s.eccNote 1 err) (s.data.readN off n)
    | .sdata off => err ≠ .uncorr → put (s.eccNote 7 err) (s.sdata.readN off n)
    | .view off => put s (viewBytes s.view off n)
    | .periph off => ∃ t u : Core, o = .next { s.setCore c
        (((s.core c).wreg d ((s.setCore c ((s.core c).retimed u)).periphValue off n signed)).adv.retimed t) with free := s.free + 1 }
    | .data off true => err ≠ .uncorr → ∃ (t : Core) (slot : Nat) (next : Bool), o = .next ((s.eccNote 1 err).setCore c
        ({ s.core c with shared := some ⟨.load d n signed, a, off, slot, next, (s.core c).pc⟩ }.adv.retimed t))
    | .bar0 _ => True
    | .nowhere => Traps s c o 2 a

/-- What a store of the `n` low bytes of `v` does for each place its address leads to. -/
def StoresAs (s : State) (c : Fin 10) (o : Res) (a : DWord) (n : Nat) (v : DWord) (err : Ecc) : Prop :=
  if a.toNat % n ≠ 0 then Traps s c o 3 a
  else match s.region c a.toNat with
    | .code _ => Traps s c o 2 a
    | .view _ => Traps s c o 2 a
    | .data off false => err ≠ .uncorr →
        ∃ t : Core, o = .next { (s.eccNote 1 err).setCore c ((s.core c).adv.retimed t) with data := s.data.writeN off (leBytes v.toNat n) }
    | .sdata off => err ≠ .uncorr →
        ∃ t : Core, o = .next { (s.eccNote 7 err).setCore c ((s.core c).adv.retimed t) with sdata := s.sdata.writeN off (leBytes v.toNat n) }
    | .periph _ => Retires s c o Core.adv
    | .data off true => err ≠ .uncorr → ∃ (t : Core) (slot : Nat) (next : Bool), o = .next ((s.eccNote 1 err).setCore c
        ({ s.core c with shared := some ⟨.store n v, a, off, slot, next, (s.core c).pc⟩ }.adv.retimed t))
    | .bar0 _ => True
    | .nowhere => Traps s c o 2 a

def LoadResult (mk : Fin 10 → Fin 32 → Fin 32 → BitVec 12 → Ecc → Instr) (n : Nat) (signed : Bool) : Prop :=
  ∀ (s : State) (c : Fin 10) (rd ra : Fin 32) (imm : BitVec 12) (err : Ecc), s.mayRun c .load [.g ra] (dstG rd) = true →
    LoadsAs s c (exec (mk c rd ra imm err) s) ((s.core c).rg ra + imm.signExtend 64) n signed err (.g rd)

def StoreResult (mk : Fin 10 → Fin 32 → Fin 32 → BitVec 12 → Ecc → Instr) (n : Nat) : Prop :=
  ∀ (s : State) (c : Fin 10) (rs ra : Fin 32) (imm : BitVec 12) (err : Ecc), s.mayRun c .store [.g ra, .g rs] none = true →
    StoresAs s c (exec (mk c rs ra imm err) s) ((s.core c).rg ra + imm.signExtend 64) n ((s.core c).rg rs) err

/-- An atomic instruction on a doubleword: the new memory value is `f old gb gd`; gd takes the old value. -/
def AtomicResult (mk : Fin 9 → Fin 32 → Fin 32 → Fin 32 → Ecc → Instr) (func : Nat) (f : DWord → DWord → DWord → DWord) : Prop :=
  ∀ (s : State) (c : Fin 9) (rd ra rb : Fin 32) (err : Ecc),
    s.mayRun c.castSucc .atomic ([.g ra, .g rb] ++ if func = 6 then [.g rd] else []) (dstG rd) = true →
    let k := s.core c.castSucc
    let a := k.rg ra
    let o := exec (mk c rd ra rb err) s
    if a.toNat % 8 ≠ 0 then Traps s c.castSucc o 3 a
    else match s.region c.castSucc a.toNat with
      | .data off false => err ≠ .uncorr →
          let old := loadValue false 8 (s.data.readN off 8)
          ∃ t : Core, o = .next { (s.eccNote 1 err).setCore c.castSucc ((k.wg rd old).adv.retimed t) with
            data := s.data.writeN off (leBytes (f old (k.rg rb) (k.rg rd)).toNat 8) }
      | .data off true => err ≠ .uncorr → ∃ (t : Core) (slot : Nat) (next : Bool), o = .next ((s.eccNote 1 err).setCore c.castSucc
          ({ k with shared := some ⟨.amo rd func (k.rg rb) (k.rg rd), a, off, slot, next, k.pc⟩ }.adv.retimed t))
      | _ => Traps s c.castSucc o 2 a

/-- A core that continues at another address. -/
def Core.goto (k : Core) (a : DWord) : Core := { k with pc := a }

/-- A conditional branch taken exactly when `p ga gb`. -/
def BranchResult (mk : Fin 10 → Fin 32 → Fin 32 → BitVec 12 → Instr) (p : DWord → DWord → Bool) : Prop :=
  ∀ (s : State) (c : Fin 10) (ra rb : Fin 32) (imm : BitVec 12), s.mayRun c .branch [.g ra, .g rb] none = true →
    Retires s c (exec (mk c ra rb imm) s) fun k =>
      if p (k.rg ra) (k.rg rb) then k.goto (k.pc + 4 * imm.signExtend 64) else k.adv

/-- What CSRW, CSRS or CSRC `mk` does: it is ILLEGAL on an undefined CSR, on a read-only one with ga not g0, and where it
would leave an illegal cycle point; otherwise gd takes the old value, and a form that writes leaves `upd old ga`, after
which a pending cycle point is taken if IE is 1 (R91, R92, R98). -/
def CsrResult (mk : Fin 10 → Fin 32 → Fin 32 → BitVec 12 → Instr) (opx : Nat) (writes : Fin 32 → Bool)
    (upd : DWord → DWord → DWord) : Prop :=
  ∀ (s : State) (c : Fin 10) (rd ra : Fin 32) (csr : BitVec 12), s.mayRun c .sys [.g ra] (dstG rd) = true →
    let n := csr.toNat
    let cyc := s.issueCycle c .sys [.g ra] (dstG rd)
    let o := exec (mk c rd ra csr) s
    let word := wordI 0x0E rd.val ra.val opx n
    if csrDefined c n = false ∨ (csrReadOnly n = true ∧ ra ≠ 0) then Traps s c o 1 word
    else if writes ra = true ∧ csrReadOnly n = false then
      if 0x040 ≤ n ∧ n ≤ 0x043 ∧ s.cptLegal (upd (s.csrValue c n cyc) ((s.core c).rg ra) &&& cptMask) = false then Traps s c o 1 word
      else RunsAs s c o fun s1 =>
        (s1.modCore c fun k => ((k.csrWrite n (upd (s1.csrValue c n cyc) (k.rg ra))).wg rd (s1.csrValue c n cyc)).adv).takePending c cyc
    else RunsAs s c o fun s1 => s1.modCore c fun k => (k.wg rd (s1.csrValue c n cyc)).adv

/-- A cell instruction completes (R119–R123): gd takes `v`, the PC moves on by 4, the rest is `s'`, but for the issue
bookkeeping of the core. -/
def CellDone (c : Fin 9) (rd : Fin 32) (o : Res) (v : DWord) (s' : State) : Prop :=
  ∃ t : Core, o = .next (s'.setCore c.castSucc (((s'.core c.castSucc).wg rd v).adv.retimed t))

/-- A refusal word (R120): bit 63, a 32-bit detail, a status code. -/
def refusalWord (detail : BitVec 32) (code : BitVec 8) : DWord := (1 : BitVec 24) <<< 23 ++ detail ++ code

/-- The keyframes that a state holds: in the keyframe slots, waiting to be copied, and copied. -/
def State.keyframes (s : State) : List Keyframe :=
  (s.eph.slots.toList.filterMap fun k => match k with
    | .empty => none
    | .capturing f => some f
    | .complete f => some f
    | .pinned f => some f)
  ++ (s.eph.queue ++ s.eph.copied).filterMap fun i => match i with
    | .key f => some f
    | .block _ => none

/-- Every memory is in canonical form: code, data, the safety core's two, the flash staging buffer, and the data SRAM of
every keyframe. -/
def State.MemoriesCanonical (s : State) : Prop :=
  s.code.wf = true ∧ s.data.wf = true ∧ s.scode.wf = true ∧ s.sdata.wf = true ∧ s.host.staging.wf = true
  ∧ ∀ f ∈ s.keyframes, f.state.data.wf = true

/-- Every event queue holds at most 64 records (R87), those of the keyframes included. -/
def State.QueuesBounded (s : State) : Prop :=
  (∀ c : Fin 10, (s.core c).evq.length ≤ 64) ∧ ∀ f ∈ s.keyframes, ∀ c : Fin 10, (f.state.cores[c]).evq.length ≤ 64

/-- An access of `size` bytes reaches its register: the path is open, the alignment right, a register is there and its clock
domain runs (R491, R512, R513, R533). -/
def State.Reaches (s : State) (p : Path) (write : Bool) (off size : Nat) : Prop :=
  s.pathOpen p write = true ∧ off % size = 0 ∧ bar0Known off size = true ∧ s.accKind p write off = .ok

/-- A write of a register takes effect: its resource is not fused off (R3), its block has started (R497) and no replay runs
a deterministic block (R470). -/
def State.Writable (s : State) (base : Nat) (r : RegAt) : Prop :=
  s.fusedReg r = false ∧ s.blockUp base = true ∧ (s.eph.replay = false ∨ inDetBlock base = false)

/-- The state with an input in the gate that crossed at `t` (R22). -/
def State.gated (s : State) (t : DWord) (src : Nat) (items : List GateItem) : State :=
  { s with now := t, gate := s.gate ++ items.map fun i => ⟨s.stampAt t, src, i⟩ }

/-- The source of a write by its path (R23). -/
def srcOf (p : Path) : Nat := match p with
  | .saf => 1
  | _ => 6
/-- The registers whose bits simply hold what is written: where their group lies, and the bits that they have (16 to 21). -/
def heldRegisters : List (RegId × Nat × Nat × Nat) :=
  [(.glbSqprod, 0, 0x10000, 0xFFFFFFFF), (.glbCqcons, 0, 0x10000, 0xFFFFFFFF), (.glbFladdr, 0, 0x10000, 0x7FFFFFF),
   (.glbRingbase, 0, 0x10000, 0xFFFFFFFFFFFFFFC0), (.glbSqbase, 0, 0x10000, 0xFFFFFFFFFFFFFFC0),
   (.glbCqbase, 0, 0x10000, 0xFFFFFFFFFFFFFFF0), (.merCpmask, 0x100000, 0x140000, 0xFFFFFFFFFFFFFFFF),
   (.capRdaddr, 0x140008, 0x180000, 0xFFFFFFFFFFFFFFF8), (.ephRpbase, 0x140008, 0x180000, 0xFFFFFFFFFFFFFFF8),
   (.ephStrbase, 0x140008, 0x180000, 0xFFFFFFFFFFFFF000), (.ephStrsize, 0x140008, 0x180000, 0xFFFFFFFF),
   (.ephStrcons, 0x140008, 0x180000, 0xFFFFFFFF), (.ephRplen, 0x140008, 0x180000, 0xFFFFFFFF),
   (.safMbxArg, 0x180000, 0x1A0000, 0xFFFFFFFF), (.safMbxCmd, 0x180000, 0x1A0000, 0xFF)]

/-- Between s and t, exactly the cores with a due request of the kind were told of event e, to be seen one boundary later. -/
def State.Told (s t : State) (p : Req → Bool) (e : EvRec) : Prop :=
  ∃ l : List (Nat × Fin 9 × EvRec), t.cellEvs = s.cellEvs ++ l ∧ (∀ x ∈ l, x.1 = s.epoch + 1 ∧ x.2.2 = e)
    ∧ ∀ c : Fin 9, (∃ x ∈ l, x.2.1 = c) ↔ ∃ x ∈ s.dueReqs p, x.core = c

/-- Between s and t, no register, core, memory or auxiliary axis changed, and no Almanac. -/
def State.SameBesideArms (s t : State) : Prop :=
  t.regs = s.regs ∧ t.cores = s.cores ∧ t.data = s.data ∧ t.aux = s.aux ∧ t.epoch = s.epoch ∧ t.view = s.view
  ∧ t.published = s.published ∧ t.coreSafety = s.coreSafety

/-- The next filtered pair in the counting-up order 00, 10, 11, 01 of channels A and B (R57). -/
def upOf (ab : BitVec 2) : BitVec 2 := if ab = 0 then 2 else if ab = 2 then 3 else if ab = 3 then 1 else 0

/-- The common part of both modes of the cascade (R260): the position error, and the proportional and derivative sum. -/
def CascIn.ep (i : CascIn) : Int := sat32 (i.cmd - i.act)
def CascIn.pp (i : CascIn) (c : Cascade) : Int :=
  sat32 (rnd (i.k 0 * i.ep) (i.sh 0) + rnd (i.k 2 * sat32 (i.ep - c.epPrev)) (i.sh 2))
def CascIn.vff (i : CascIn) : Int := if i.vffen then rnd (i.k 7 * i.vcmd) (i.sh 7) else 0

/-- What a lane instruction that falls through does while the pass of lane l is in progress: its effect `f`, one cycle, and
the next PC, which goes round an RPT body at its end; past 0x7FF the pass stops with LANE_FLOW (R277, R278). -/
def LaneRetires (s : State) (l : Fin 32) (o : Res) (f : Lane → Lane) : Prop :=
  s.lanes[l].active = true → s.lanes[l].cycle ≤ s.passcyc → s.stopped 2 = false →
  let n := rptNext s.lanes[l].reps s.lanes[l].pc
  (n.2 < 2048 → o = .next { s with
    lanes := s.lanes.set l { f s.lanes[l] with cycle := s.lanes[l].cycle + 1, reps := n.1, pc := n.2 } })
  ∧ (2048 ≤ n.2 → ∃ t : State, o = .next t ∧ t.lanes[l].active = false ∧ t.lanes[l].flow = true ∧ t.lanes[l].done = false
    ∧ (∃ r ∈ t.reports, r.code = 0x0B03) ∧ (∀ m : Fin 32, m ≠ l → t.lanes[m] = s.lanes[m]) ∧ t.regs = s.regs ∧ t.data = s.data)

/-- The product of a tap: the words read from X at ax or from the scalar k, and from Y at ay or from the scalar k (R287). -/
def Lane.product (k : Lane) (t : TapOp) : Int :=
  (if t.src.val = 2 then k.sc[t.k] else lmRead k.x (k.a[t.ax]).toNat).toInt
    * (if t.src.val = 1 then k.sc[t.k] else lmRead k.y (k.a[t.ay]).toNat).toInt

/-- Between s and t exactly one fault joined those on their way to the fault queue, stamped with t's time. -/
def State.Raised (s t : State) (code cls : Nat) (hold : Bool) : Prop :=
  ∃ d : Word, t.reports = s.reports ++ [⟨code, cls, hold, t.now, d⟩]

/-- Between s and t no register, core, memory, arm, auxiliary axis or cascade changed. -/
def State.SameCore (s t : State) : Prop :=
  t.regs = s.regs ∧ t.cores = s.cores ∧ t.data = s.data ∧ t.arms = s.arms ∧ t.aux = s.aux ∧ t.cascs = s.cascs
  ∧ t.coreSafety = s.coreSafety ∧ t.epoch = s.epoch

/-- A command whose whole effect is one fault, raised at the time it carries. -/
def OnlyRaises (s : State) (o : Res) (time : DWord) (code cls : Nat) (hold : Bool) : Prop :=
  o = .next (({ s with now := time } : State).raise code cls hold)

/-- What a telegram with an error of `cause` leaves of a connection (R384, R385): the cause and its counts, and from OK the failure
with the ERRMAX-th error in a row. -/
def Conn.afterError (k : Conn) (p : ConnProf) (cause : Nat) : Conn :=
  let e := k.error cause
  if k.st = .ok ∧ p.errmax ≤ e.errRun then
    { e with st := .failed, recov := 0, fails := min 255 (e.fails + 1), buf := if p.signal then p.failpay else e.buf }
  else e

/-- What every device reset leaves (R494): registers, memories, cores, plans, the tick and the safety state as after reset,
the AON domain one boot further, and what belongs to the part as it was. -/
def State.WasReset (s t : State) (bootCount : Nat) : Prop :=
  t.regs = [] ∧ t.shadow = [] ∧ t.data = [] ∧ t.code = [] ∧ t.gate = [] ∧ t.running = false ∧ t.epoch = 0 ∧ t.published = none
  ∧ t.coreSafety = .sto ∧ t.saf.state = .sto ∧ t.saf.queue = [] ∧ t.saf.log = [] ∧ t.saf.forced = 0xFF ∧ t.saf.stoDyn = false
  ∧ (∀ c : Fin 10, (t.core c).mode = .stopped ∧ (t.core c).evq = []) ∧ (∀ k : Fin 8, t.arms[k].staged = [] ∧ t.arms[k].active = [])
  ∧ t.boot.stage = 1 ∧ t.boot.ready = false ∧ t.boot.failed = false ∧ t.boot.power = .run ∧ t.dbg.scope = 0
  ∧ t.aon.boot = bootCount ∧ t.uid = s.uid ∧ t.variant = s.variant ∧ t.slots = s.slots

/-- Between s and u a frame reached receive queue q: written to the buffer and described where the queue is ready for it,
else counted as a discard (R529). -/
def State.TookFrame (s u : State) (q : Fin 4) (port : Nat) (bytes : List Byte) (addr : DWord) : Prop :=
  (s.sqReady q = true → u.reg (sqOff q + 16) = s.reg (sqOff q + 16) + 1 ∧ u.host.discards = s.host.discards
    ∧ ∃ l : List Out, u.outbox = s.outbox ++ .host addr (bytes.take 2048)
        :: .host (BitVec.ofNat 64 (s.sqDesc q + 8)) (leBytes (min 2048 bytes.length) 2 ++ [BitVec.ofNat 8 port, if 2048 < bytes.length then 3 else 1]) :: l)
  ∧ (s.sqReady q = false → u.outbox = s.outbox ∧ u.regs = s.regs ∧ u.host.discards[q] = min 65535 (s.host.discards[q] + 1))
  ∧ u.cores = s.cores ∧ u.data = s.data ∧ u.gate = s.gate ∧ u.mer = s.mer ∧ u.reports = s.reports

end Sys2Proof.Machine

/-- The register files and the CSRs of a core: what a read gives and what a write does. The words the instruction
statements are written in. For every core register file: g0 reads 0; a write to g0 leaves the core as it is; a write
to another integer or floating register is read back there and leaves every other register and every other field as it
is; moving past an instruction adds 4 to the PC and changes nothing else; the sticky flag updates change only FFLAGS
or IFLAGS and clear no bit. For every state and core: COREID reads the core's number, RUNCYC the run window, CYCLE the
issue cycle, EPOCH the epoch, STATUS the three bits IE, PIE and INTRAP, and CAUSE, EPC, TVAL, TVEC, SCRATCH, FFLAGS,
IFLAGS, the cycle points, CPTPEND and CPTMISS the registers of those names, EVCNT the number of queued events, FLOWSIG
(safety core) the flow signature. A write of STATUS, EPC, TVEC (low two bits dropped), SCRATCH, FFLAGS, IFLAGS,
CPTPEND or CPTMISS changes that register alone; read-only CSRs are COREID, RUNCYC, CYCLE, EPOCH, CAUSE, TVAL, EVCNT,
BUDGET and FLOWSIG; the safety core has no FFLAGS, RUNCYC, EPOCH, cycle points, EVCNT or BUDGET. (R72,
03_malax_core_isa.md, R79, R83, R91, R98, R113) -/
def Obligations.CoreRegisterFilesAndCsrs : Prop :=
  (∀ (k : Core) (i j : Fin 32) (v : DWord) (ff : BitVec 5) (fi : BitVec 2),
    k.rg 0 = 0 ∧ k.wg 0 v = k
    ∧ (i ≠ 0 → (k.wg i v).rg i = v) ∧ (i ≠ j → (k.wg i v).rg j = k.rg j) ∧ (k.wf i v).rf i = v
    ∧ (i ≠ j → (k.wf i v).rf j = k.rf j) ∧ (∃ g, k.wg i v = { k with g := g }) ∧ (∃ f, k.wf i v = { k with f := f })
    ∧ k.adv = { k with pc := k.pc + 4 }
    ∧ k.orFF ff = { k with fflags := k.fflags ||| ff } ∧ k.orIF fi = { k with iflags := k.iflags ||| fi })
  ∧ (∀ (s : State) (c : Fin 10) (cyc : Nat) (v : DWord),
    let k := s.core c
    let rd (n : Nat) : DWord := s.csrValue c n cyc
    rd 0x000 = BitVec.ofNat 64 c.val ∧ rd 0x002 = BitVec.ofNat 64 s.runcyc ∧ rd 0x010 = BitVec.ofNat 64 cyc
    ∧ rd 0x011 = BitVec.ofNat 64 s.epoch
    ∧ rd 0x020 = (BitVec.ofBool k.intrap ++ BitVec.ofBool k.pie ++ BitVec.ofBool k.ie).setWidth 64
    ∧ rd 0x021 = k.cause ∧ rd 0x022 = k.epc ∧ rd 0x023 = k.tval ∧ rd 0x024 = k.tvec ∧ rd 0x025 = k.scratch
    ∧ rd 0x030 = k.fflags.setWidth 64 ∧ rd 0x031 = k.iflags.setWidth 64
    ∧ rd 0x040 = k.cpt[0] ∧ rd 0x041 = k.cpt[1] ∧ rd 0x042 = k.cpt[2] ∧ rd 0x043 = k.cpt[3]
    ∧ rd 0x044 = k.cptPend.setWidth 64 ∧ rd 0x045 = k.cptMiss.setWidth 64
    ∧ rd 0x050 = BitVec.ofNat 64 k.evq.length ∧ rd 0x070 = s.saf.flowSig.setWidth 64
    ∧ k.csrWrite 0x020 v = { k with ie := v.getLsbD 0, pie := v.getLsbD 1, intrap := v.getLsbD 2 }
    ∧ k.csrWrite 0x022 v = { k with epc := v } ∧ k.csrWrite 0x024 v = { k with tvec := v &&& ~~~3 }
    ∧ k.csrWrite 0x025 v = { k with scratch := v } ∧ k.csrWrite 0x030 v = { k with fflags := v.setWidth 5 }
    ∧ k.csrWrite 0x031 v = { k with iflags := v.setWidth 2 } ∧ k.csrWrite 0x044 v = { k with cptPend := v.setWidth 4 }
    ∧ k.csrWrite 0x045 v = { k with cptMiss := v.setWidth 4 }
    ∧ (∀ n, csrReadOnly n = true ↔ n ∈ [0x000, 0x002, 0x010, 0x011, 0x021, 0x023, 0x050, 0x060, 0x070])
    ∧ (∀ n ∈ [0x002, 0x011, 0x030, 0x040, 0x041, 0x042, 0x043, 0x044, 0x045, 0x050, 0x060], csrDefined 9 n = false
        ∧ ∀ d : Fin 9, csrDefined d.castSucc n = true)
    ∧ csrDefined 9 0x070 = true ∧ ∀ d : Fin 9, csrDefined d.castSucc 0x070 = false)

/-- Integer register instructions write the result of R101 to gd and nothing else. For every core that may run it (in a
position to issue, inside its run window, PC in code memory, no earlier shared access due), each of ADD, SUB, AND, OR,
XOR, SLL, SRL, SRA, SLT, SLTU, MIN, MAX, MINU, MAXU, CLZ, POPC, MUL, MULH and MULHU answers a next state in which gd
holds the result on the 64-bit operands (register shifts by gb[5:0]; a write to g0 is discarded), the PC is 4 further,
and every other register, flag, CSR, byte of memory and piece of state is as before, but for the issue bookkeeping of
that core. CLZ and POPC are stated by what they count. (R72, R80, R101, 03_malax_core_isa.md) -/
def Obligations.IntegerRegisterResults : Prop :=
  RegRegResult .add .alu (fun a b => a + b) ∧ RegRegResult .sub .alu (fun a b => a - b)
  ∧ RegRegResult .andR .alu (fun a b => a &&& b) ∧ RegRegResult .orR .alu (fun a b => a ||| b)
  ∧ RegRegResult .xorR .alu (fun a b => a ^^^ b)
  ∧ RegRegResult .sll .alu (fun a b => a <<< (b.setWidth 6).toNat) ∧ RegRegResult .srl .alu (fun a b => a >>> (b.setWidth 6).toNat)
  ∧ RegRegResult .sra .alu (fun a b => a.sshiftRight (b.setWidth 6).toNat)
  ∧ RegRegResult .slt .alu (fun a b => if a.slt b then 1 else 0) ∧ RegRegResult .sltu .alu (fun a b => if a.ult b then 1 else 0)
  ∧ RegRegResult .min .alu (fun a b => if a.sle b then a else b) ∧ RegRegResult .max .alu (fun a b => if a.sle b then b else a)
  ∧ RegRegResult .minu .alu (fun a b => if a.ule b then a else b) ∧ RegRegResult .maxu .alu (fun a b => if a.ule b then b else a)
  ∧ RegRegResult .mul .mul (fun a b => a * b)
  ∧ RegRegResult .mulh .mul (fun a b => BitVec.ofInt 64 (a.toInt * b.toInt / 2 ^ 64))
  ∧ RegRegResult .mulhu .mul (fun a b => BitVec.ofNat 64 (a.toNat * b.toNat / 2 ^ 64))
  ∧ (∃ clz : DWord → DWord, RegResult .clz clz ∧ ∀ a, (clz a).toNat ≤ 64
      ∧ (∀ i : Nat, i < (clz a).toNat → a.getMsbD i = false) ∧ ((clz a).toNat < 64 → a.getMsbD (clz a).toNat = true))
  ∧ (∃ popc : DWord → DWord, RegResult .popc popc ∧
      ∀ a, (popc a).toNat = ((List.range 64).filter fun i => a.getLsbD i).length)

/-- DIV, DIVU, REM and REMU: results, the two defined cases, and IFLAGS. For every core that may run it, DIV, DIVU, REM
and REMU answer a next state. A divisor of 0 gives a quotient with all bits set or the dividend as the remainder and
sets IFLAGS[0]; DIV of -2^63 by -1 gives -2^63 and sets IFLAGS[1], REM of the same gives 0 and sets no flag; otherwise
the quotient is truncated toward zero and no flag changes. gd takes the result (g0 discards it), IFLAGS is sticky, the
PC moves on by 4, and nothing else changes but the issue bookkeeping. (R102) -/
def Obligations.DivisionResultsAndFlags : Prop :=
  DivResult .div (fun a b => if b = 0 then BitVec.allOnes 64 else a.sdiv b)
    (fun a b => if b = 0 then 1 else if a = BitVec.intMin 64 ∧ b = BitVec.allOnes 64 then 2 else 0)
  ∧ DivResult .divu (fun a b => if b = 0 then BitVec.allOnes 64 else a / b) (fun _ b => if b = 0 then 1 else 0)
  ∧ DivResult .rem (fun a b => if b = 0 then a else a.srem b) (fun _ b => if b = 0 then 1 else 0)
  ∧ DivResult .remu (fun a b => if b = 0 then a else a % b) (fun _ b => if b = 0 then 1 else 0)

/-- Instructions with an immediate: results, and the illegal shift amounts. For every core that may run it: ADDI, ANDI,
ORI, XORI, SLTI and SLTIU compute with sext(imm12); SLLI, SRLI and SRAI shift by imm12[5:0] where imm12[11:6] is 0;
LIW writes sext(imm22) and LIS (gd << 22) or imm22; the result goes to gd, the PC moves on by 4 and nothing else
changes but the issue bookkeeping. A shift immediate with imm12[11:6] not 0 raises ILLEGAL with the instruction word
as TVAL and has no other effect. (R100, R101, R103, R95, R97) -/
def Obligations.ImmediateResults : Prop :=
  RegImmResult .addi (fun _ => True) (fun a i => a + i.signExtend 64) ∧ RegImmResult .andi (fun _ => True) (fun a i => a &&& i.signExtend 64)
  ∧ RegImmResult .ori (fun _ => True) (fun a i => a ||| i.signExtend 64)
  ∧ RegImmResult .xori (fun _ => True) (fun a i => a ^^^ i.signExtend 64)
  ∧ RegImmResult .slti (fun _ => True) (fun a i => if a.slt (i.signExtend 64) then 1 else 0)
  ∧ RegImmResult .sltiu (fun _ => True) (fun a i => if a.ult (i.signExtend 64) then 1 else 0)
  ∧ RegImmResult .slli (fun i => i.toNat < 64) (fun a i => a <<< i.toNat) ∧ RegImmResult .srli (fun i => i.toNat < 64) (fun a i => a >>> i.toNat)
  ∧ RegImmResult .srai (fun i => i.toNat < 64) (fun a i => a.sshiftRight i.toNat)
  ∧ (∀ (s : State) (c : Fin 10) (rd : Fin 32) (imm : BitVec 22), s.mayRun c .alu [] (dstG rd) = true →
      Retires s c (exec (.liw c rd imm) s) fun k => (k.wg rd (imm.signExtend 64)).adv)
  ∧ (∀ (s : State) (c : Fin 10) (rd : Fin 32) (imm : BitVec 22), s.mayRun c .alu [.g rd] (dstG rd) = true →
      Retires s c (exec (.lis c rd imm) s) fun k => (k.wg rd ((k.rg rd <<< 22) ||| imm.setWidth 64)).adv)
  ∧ (∀ (s : State) (c : Fin 10) (rd ra : Fin 32) (imm : BitVec 12), 64 ≤ imm.toNat → s.mayRun c .alu [.g ra] (dstG rd) = true →
      Traps s c (exec (.slli c rd ra imm) s) 1 (wordI 1 rd.val ra.val 4 imm.toNat)
      ∧ Traps s c (exec (.srli c rd ra imm) s) 1 (wordI 1 rd.val ra.val 5 imm.toNat)
      ∧ Traps s c (exec (.srai c rd ra imm) s) 1 (wordI 1 rd.val ra.val 6 imm.toNat))

/-- Binary64 arithmetic, minimum, maximum, sign and fused instructions: result, sticky flags, frame. For every planner
core that may run it: FADD, FSUB, FMUL, FDIV, FSQRT, FMADD, FMSUB, FNMSUB and FNMADD write the once-rounded binary64
result of the model's exact arithmetic to fd and add its exception bits to FFLAGS; FMIN and FMAX follow R105 (-0 below
+0, the other operand for one NaN, the canonical NaN for two, NV only for a signalling NaN); FSGNJ, FSGNJN and FSGNJX
join the magnitude of fa with the sign R104 names and set no flag. The PC moves on by 4 and nothing else changes but
the issue bookkeeping. (R6, R72, R104, R105, R107) -/
def Obligations.FloatingArithmeticResults : Prop :=
  FpResult .fadd .fp (fun a b => (f64Add a b).1) (fun a b => (f64Add a b).2)
  ∧ FpResult .fsub .fp (fun a b => (f64Sub a b).1) (fun a b => (f64Sub a b).2)
  ∧ FpResult .fmul .fp (fun a b => (f64Mul a b).1) (fun a b => (f64Mul a b).2)
  ∧ FpResult .fdiv .fdiv (fun a b => (f64Div a b).1) (fun a b => (f64Div a b).2)
  ∧ FpResult .fmin .fp (minMaxR105 false) nvSignalling ∧ FpResult .fmax .fp (minMaxR105 true) nvSignalling
  ∧ FpResult .fsgnj .fpShort (fun a b => BitVec.ofBool (b.getLsbD 63) ++ a.setWidth 63) (fun _ _ => 0)
  ∧ FpResult .fsgnjn .fpShort (fun a b => BitVec.ofBool (!b.getLsbD 63) ++ a.setWidth 63) (fun _ _ => 0)
  ∧ FpResult .fsgnjx .fpShort (fun a b => BitVec.ofBool (a.getLsbD 63 != b.getLsbD 63) ++ a.setWidth 63) (fun _ _ => 0)
  ∧ (∀ (s : State) (c : Fin 9) (fd fa : Fin 32), s.mayRun c.castSucc .fsqrt [.f fa] (some (.f fd)) = true →
      Retires s c.castSucc (exec (.fsqrt c fd fa) s) fun k =>
        ((k.wf fd (f64Sqrt (k.rf fa)).1).orFF (f64Sqrt (k.rf fa)).2).adv)
  ∧ FmaResult .fmadd false false ∧ FmaResult .fmsub false true ∧ FmaResult .fnmsub true false ∧ FmaResult .fnmadd true true

/-- Binary64 compares, class, conversions and moves: result, sticky flags, frame. For every planner core that may run it:
FEQ, FLT and FLE write 1 or 0 to gd, 0 for a NaN operand, with NV for a signalling NaN (FEQ) or any NaN (FLT, FLE);
FCLASS writes a word with exactly one of bits [9:0] set, bit 9 or 8 exactly for a quiet or signalling NaN; FCVT.L.D
and FCVT.L.D.N write 0 with NV for a NaN, the saturated bound with NV out of range, and otherwise the integer that is
the truncated (or nearest) value, with NX when inexact; FCVT.D.L writes the rounded integer; the two moves copy bits.
Nothing else changes but the PC, by 4, and the issue bookkeeping. (R104, R105, R106) -/
def Obligations.FloatingCompareAndConvertResults : Prop :=
  FpCompare .feq (fun a b => !f64IsNaN a && !f64IsNaN b && f64Cmp a b == .eq) nvSignalling
  ∧ FpCompare .flt (fun a b => !f64IsNaN a && !f64IsNaN b && f64Cmp a b == .lt) (fun a b => if f64IsNaN a || f64IsNaN b then 16 else 0)
  ∧ FpCompare .fle (fun a b => !f64IsNaN a && !f64IsNaN b && f64Cmp a b != .gt) (fun a b => if f64IsNaN a || f64IsNaN b then 16 else 0)
  ∧ (∃ cls : DWord → DWord, (∀ (s : State) (c : Fin 9) (rd fa : Fin 32), s.mayRun c.castSucc .fpShort [.f fa] (dstG rd) = true →
        Retires s c.castSucc (exec (.fclass c rd fa) s) fun k => (k.wg rd (cls (k.rf fa))).adv)
      ∧ ∀ a, (∃ i < 10, cls a = 1#64 <<< i) ∧ ((cls a).getLsbD 9 = (f64IsNaN a && !f64IsSNaN a)) ∧ ((cls a).getLsbD 8 = f64IsSNaN a)
        ∧ (cls a).getLsbD 0 = (a == 0xFFF0000000000000) ∧ (cls a).getLsbD 7 = (a == 0x7FF0000000000000)
        ∧ (cls a).getLsbD 3 = (a == 0x8000000000000000) ∧ (cls a).getLsbD 4 = (a == 0))
  ∧ (∀ near : Bool, ∃ (v : DWord → DWord) (fl : DWord → FFlags),
      (if near then FpToG .fcvtLDN .fp v fl else FpToG .fcvtLD .fp v fl)
      ∧ ∀ a, (f64IsNaN a = true → v a = 0 ∧ fl a = 16)
        ∧ (f64IsInf a = true → v a = (if a.getLsbD 63 then BitVec.intMin 64 else BitVec.intMax 64) ∧ fl a = 16)
        ∧ (f64IsFinite a = true →
            let r := f64ToIntExact near a
            (r.1 > 2 ^ 63 - 1 → v a = BitVec.intMax 64 ∧ fl a = 16) ∧ (r.1 < -(2 ^ 63) → v a = BitVec.intMin 64 ∧ fl a = 16)
            ∧ (-(2 ^ 63) ≤ r.1 → r.1 ≤ 2 ^ 63 - 1 → (v a).toInt = r.1 ∧ fl a = (if r.2 then 1 else 0))))
  ∧ (∀ (s : State) (c : Fin 9) (fd ra : Fin 32), s.mayRun c.castSucc .fp [.g ra] (some (.f fd)) = true →
      Retires s c.castSucc (exec (.fcvtDL c fd ra) s) fun k =>
        ((k.wf fd (f64OfInt (k.rg ra).toInt).1).orFF (f64OfInt (k.rg ra).toInt).2).adv)
  ∧ (∀ (s : State) (c : Fin 9) (rd fa : Fin 32), s.mayRun c.castSucc .fpShort [.f fa] (dstG rd) = true →
      Retires s c.castSucc (exec (.fmvGF c rd fa) s) fun k => (k.wg rd (k.rf fa)).adv)
  ∧ (∀ (s : State) (c : Fin 9) (fd ra : Fin 32), s.mayRun c.castSucc .fpShort [.g ra] (some (.f fd)) = true →
      Retires s c.castSucc (exec (.fmvFG c fd ra) s) fun k => (k.wf fd (k.rg ra)).adv)

/-- Shared operations: floating-point results are canonical, and memory reads back what was written. Over all operands:
whenever addition, subtraction, multiplication, division, square root or a fused multiply-add returns a NaN, it is
0x7FF8000000000000; and whenever one of them (or the conversion of an integer) sets UF, it sets NX too, so that an
exact tiny result sets no flag. (Two of the fixed choices of R104.) For every memory in canonical form (addresses
strictly rising, no entry that an unlisted address reads as), every address and list of bytes: after the bytes are
written from the address on, each of those addresses reads its byte and every other address reads as before, and the
memory stays in canonical form. (What an unlisted byte reads as, 0, is the model's choice: log entry 3.) (R104, R108,
03_malax_core_isa.md) -/
def Obligations.FloatingAndMemoryOperations : Prop :=
  (∀ (x y z : DWord) (p q : Bool) (i : Int),
    (∀ r ∈ [f64Add x y, f64Sub x y, f64Mul x y, f64Div x y, f64Sqrt x, f64Fma p q x y z],
      f64IsNaN r.1 = true → r.1 = 0x7FF8000000000000)
    ∧ ∀ r ∈ [f64Add x y, f64Sub x y, f64Mul x y, f64Div x y, f64Sqrt x, f64Fma p q x y z, f64OfInt i],
      r.2.getLsbD 1 = true → r.2.getLsbD 0 = true)
  ∧ (∀ (m : Memory) (a : Nat) (bs : List Byte), m.wf = true →
    (m.writeN a bs).wf = true
    ∧ (∀ i, (h : i < bs.length) → (m.writeN a bs).read (a + i) = bs[i])
    ∧ (∀ x, x < a ∨ a + bs.length ≤ x → (m.writeN a bs).read x = m.read x))

/-- The memory map of the cores, and the memory operands of the cell instructions. For every state, core and address: a
planner core reaches code memory below 0x0080_0000, its own partition of size P (P = 64 KiB times the profile's
partition count) from 0x1000_0000, the shared region behind the nine partitions from 0x2000_0000 and the Almanac view
from 0x3000_0000; the safety core its code below 0x0010_0000, its data from 0x1000_0000, its peripherals from
0x4000_0000 and the BAR0 window from 0x4100_0000; every other address leads nowhere. Private partitions of two planner
cores never overlap, nor does one overlap the shared region. For every core, address and length: an operand not
aligned to 8 bytes raises MISALIGN with the address as TVAL; one whose first byte is outside the core's partition
raises ACCESS with the address; one that starts inside and runs past the end raises ACCESS with the first address past
the partition; one with an uncorrectable error raises MEM_ECC; otherwise it is the data SRAM at the core's partition
plus the offset. (R74, R75, R114, R119) -/
def Obligations.MemoryMapAndCellOperands : Prop :=
  (∀ (s : State) (c : Fin 10) (a : Nat),
    let p := s.prof.priv64k * 65536
    (c.val ≠ 9 → (a < 0x800000 → s.region c a = .code a)
      ∧ (a < p → p < 0x10000000 → s.region c (0x10000000 + a) = .data (c.val * p + a) false)
      ∧ (a < 0x800000 - 9 * p → p < 0x10000000 → s.region c (0x20000000 + a) = .data (9 * p + a) true)
      ∧ (a < 0x2000 → p < 0x10000000 → s.region c (0x30000000 + a) = .view a)
      ∧ (0x30002000 ≤ a → p < 0x10000000 → s.region c a = .nowhere))
    ∧ (c.val = 9 → (a < 0x100000 → s.region c a = .code a) ∧ (a < 0x200000 → s.region c (0x10000000 + a) = .sdata a)
      ∧ (a < 0x60000 → s.region c (0x40000000 + a) = .periph a) ∧ (a < 0x2000000 → s.region c (0x41000000 + a) = .bar0 a)
      ∧ (0x43000000 ≤ a → s.region c a = .nowhere) ∧ (0x100000 ≤ a → a < 0x10000000 → s.region c a = .nowhere))
    ∧ (∀ (d : Fin 10) (b o1 o2 : Nat) (sh : Bool), c ≠ d → c.val ≠ 9 → d.val ≠ 9 →
        s.region c a = .data o1 false → s.region d b = .data o2 sh → o1 ≠ o2))
  ∧ (∀ (s : State) (c : Fin 9) (a len : Nat) (err : Ecc),
    let p := s.prof.priv64k * 65536
    (a % 8 ≠ 0 → s.operand c a len err = .inl (3, BitVec.ofNat 64 a))
    ∧ (a % 8 = 0 → (a < 0x10000000 ∨ 0x10000000 + p ≤ a) → s.operand c a len err = .inl (2, BitVec.ofNat 64 a))
    ∧ (a % 8 = 0 → 0x10000000 ≤ a → a < 0x10000000 + p → 0x10000000 + p < a + len →
        s.operand c a len err = .inl (2, BitVec.ofNat 64 (0x10000000 + p)))
    ∧ (a % 8 = 0 → 0x10000000 ≤ a → a < 0x10000000 + p → a + len ≤ 0x10000000 + p →
        s.operand c a len .uncorr = .inl (4, BitVec.ofNat 64 a)
        ∧ (err ≠ .uncorr → s.operand c a len err = .inr (c.val * p + (a - 0x10000000)))))

/-- Loads and stores: little-endian values, sign and zero extension, and what each does for every place its address leads
to. The address is ga + sext(imm12). The register value that a load forms from bytes b0, b1, ... (lowest address
first) is the sign or zero extension of ... b1 b0, and the bytes that a store writes are the low bytes of its
register, lowest first. For every core that may run it, each of LB, LBU, LH, LHU, LW, LWU, LD, FLD, SB, SH, SW, SD and
FSD: raises MISALIGN on a misaligned address; reads or writes exactly its bytes of code memory (loads), its data
partition, the safety data memory, the view (loads) or a peripheral; starts a shared access that waits for its slot;
raises ACCESS elsewhere (stores to code and view among it). Besides the bytes stored, only the destination register,
the PC and the issue bookkeeping change. A corrected error is counted besides. (Accesses through the safety core's
BAR0 window are stated with the registers; a word with an uncorrectable error by UncorrectableErrorsTrap.) (R108) -/
def Obligations.LittleEndianLoadValues : Prop :=
  (∀ b0 b1 b2 b3 b4 b5 b6 b7 : Byte,
    loadValue true 1 [b0] = b0.signExtend 64 ∧ loadValue false 1 [b0] = b0.setWidth 64
    ∧ loadValue true 2 [b0, b1] = (b1 ++ b0).signExtend 64 ∧ loadValue false 2 [b0, b1] = (b1 ++ b0).setWidth 64
    ∧ loadValue true 4 [b0, b1, b2, b3] = (b3 ++ b2 ++ b1 ++ b0).signExtend 64
    ∧ loadValue false 4 [b0, b1, b2, b3] = (b3 ++ b2 ++ b1 ++ b0).setWidth 64
    ∧ loadValue false 8 [b0, b1, b2, b3, b4, b5, b6, b7] = b7 ++ b6 ++ b5 ++ b4 ++ b3 ++ b2 ++ b1 ++ b0
    ∧ leBytes (b7 ++ b6 ++ b5 ++ b4 ++ b3 ++ b2 ++ b1 ++ b0).toNat 8 = [b0, b1, b2, b3, b4, b5, b6, b7]
    ∧ leBytes (b7 ++ b6 ++ b5 ++ b4 ++ b3 ++ b2 ++ b1 ++ b0).toNat 4 = [b0, b1, b2, b3]
    ∧ leBytes (b7 ++ b6 ++ b5 ++ b4 ++ b3 ++ b2 ++ b1 ++ b0).toNat 2 = [b0, b1]
    ∧ leBytes (b7 ++ b6 ++ b5 ++ b4 ++ b3 ++ b2 ++ b1 ++ b0).toNat 1 = [b0])
  ∧ LoadResult .lb 1 true ∧ LoadResult .lbu 1 false ∧ LoadResult .lh 2 true ∧ LoadResult .lhu 2 false
  ∧ LoadResult .lw 4 true ∧ LoadResult .lwu 4 false ∧ LoadResult .ld 8 false
  ∧ (∀ (s : State) (c : Fin 9) (fd ra : Fin 32) (imm : BitVec 12) (err : Ecc), s.mayRun c.castSucc .load [.g ra] (some (.f fd)) = true →
      LoadsAs s c.castSucc (exec (.fld c fd ra imm err) s) ((s.core c.castSucc).rg ra + imm.signExtend 64) 8 false err (.f fd))
  ∧ StoreResult .sb 1 ∧ StoreResult .sh 2 ∧ StoreResult .sw 4
  ∧ (∀ (s : State) (c : Fin 10) (rs ra : Fin 32) (imm : BitVec 12), s.mayRun c .store [.g ra, .g rs] none = true →
      StoresAs s c (exec (.sd c rs ra imm) s) ((s.core c).rg ra + imm.signExtend 64) 8 ((s.core c).rg rs) .clean)
  ∧ (∀ (s : State) (c : Fin 9) (fs ra : Fin 32) (imm : BitVec 12), s.mayRun c.castSucc .store [.g ra, .f fs] none = true →
      StoresAs s c.castSucc (exec (.fsd c fs ra imm) s) ((s.core c.castSucc).rg ra + imm.signExtend 64) 8 ((s.core c.castSucc).rf fs) .clean)

/-- Atomic instructions: old value to gd, new value to memory, and the shared slot that performs a waiting access. For
every planner core that may run it, AMOSWAP, AMOADD, AMOAND, AMOOR, AMOMAX, AMOMIN and AMOCAS on an aligned doubleword
of its own partition write the new value of R109 to exactly those eight bytes and the old value to gd (AMOCAS compares
with gd before it writes gd); in the shared region they wait in the memory unit for the core's slot; a misaligned
address raises MISALIGN and any other region ACCESS. In the slot of a waiting access, SHARED_SLOT_ACCESS performs the
load, store or atomic on data SRAM at its offset, writes the load's or atomic's register and empties the memory unit;
nothing else changes. (R76, R77, R81, R109, R146) -/
def Obligations.AtomicResults : Prop :=
  AtomicResult .amoswap 0 (fun _ v _ => v) ∧ AtomicResult .amoadd 1 (fun o v _ => o + v)
  ∧ AtomicResult .amoand 2 (fun o v _ => o &&& v) ∧ AtomicResult .amoor 3 (fun o v _ => o ||| v)
  ∧ AtomicResult .amomax 4 (fun o v _ => if o.slt v then v else o) ∧ AtomicResult .amomin 5 (fun o v _ => if v.slt o then v else o)
  ∧ AtomicResult .amocas 6 (fun o v g => if o = g then v else o)
  ∧ (∀ (s : State) (c : Fin 9) (a : SharedAcc), (s.core c.castSucc).shared = some a → a.nextTick = false →
      let c10 := c.castSucc
      let k := { s.core c10 with shared := none }
      exec (.sharedSlotAccess c) s = .next (match a.op with
        | .load d n signed => s.setCore c10 (k.wreg d (loadValue signed n (s.data.readN a.off n)))
        | .store n v => { s.setCore c10 k with data := s.data.writeN a.off (leBytes v.toNat n) }
        | .amo d func v cmp =>
          let old := loadValue false 8 (s.data.readN a.off 8)
          { s.setCore c10 (k.wg d old) with data := s.data.writeN a.off (leBytes (amoNew func old v cmp).toNat 8) }))

/-- A load, store or atomic that meets an uncorrectable memory error traps with MEM_ECC, is counted and is reported. For
every core that may run it, a load of a word (LW), a partial store (SB) or an atomic (AMOADD) whose aligned address
leads to data SRAM (its partition or the shared region) or to the safety core's data, with an uncorrectable error on
the word, writes no register and no memory: it counts one error of that memory, reports PLANNER_ECC (0x0401, F2 that
may hold) or the safety memory fault (0x1806, F3), and raises MEM_ECC with the address as TVAL, in its issue cycle, so
that an access to the shared region never waits (that choice of the cycle is the model's: log entry 99). A load from
code memory counts in the code memory's counter instead. (R78, R95, R96, R97, R114, R115, R345, R109) -/
def Obligations.UncorrectableErrorsTrap : Prop :=
  ∀ (s : State) (c : Fin 10) (rd ra : Fin 32) (imm : BitVec 12),
    let a := (s.core c).rg ra + imm.signExtend 64
    let e (c : Fin 10) (k : Fin 8) (t : DWord) : State :=
      if c.val = 9 then (s.eccUp 7).raise 0x1806 3 else (s.eccUp k).raiseAt t 0x0401 2 true
    let held : Prop := ∃ off sh, s.region c a.toNat = .data off sh ∨ s.region c a.toNat = .sdata off
    (s.mayRun c .load [.g ra] (dstG rd) = true → a.toNat % 4 = 0 → held →
      ∃ t, Traps (e c 1 t) c (exec (.lw c rd ra imm .uncorr) s) 4 a)
    ∧ (s.mayRun c .load [.g ra] (dstG rd) = true → a.toNat % 4 = 0 → (∃ off, s.region c a.toNat = .code off) →
      ∃ t, Traps (e c 0 t) c (exec (.lw c rd ra imm .uncorr) s) 4 a)
    ∧ (s.mayRun c .store [.g ra, .g rd] none = true → held →
      ∃ t, Traps (e c 1 t) c (exec (.sb c rd ra imm .uncorr) s) 4 a)
    ∧ (∀ (d : Fin 9) (rb : Fin 32), s.mayRun d.castSucc .atomic [.g ra, .g rb] (dstG rd) = true →
      ((s.core d.castSucc).rg ra).toNat % 8 = 0 → (∃ off sh, s.region d.castSucc ((s.core d.castSucc).rg ra).toNat = .data off sh) →
      ∃ t, Traps (e d.castSucc 1 t) d.castSucc (exec (.amoadd d rd ra rb .uncorr) s) 4 ((s.core d.castSucc).rg ra))

/-- Branches and jumps: targets, links, and the misaligned target of JALR. For every core that may run it: BEQ, BNE, BLT,
BGE, BLTU and BGEU continue at PC + 4 x sext(imm12) when their condition holds and at PC + 4 otherwise; JAL writes PC
+ 4 to gd and continues at PC + 4 x sext(imm22); JALR writes PC + 4 to gd (its target formed first, from the old ga)
and continues at ga + sext(imm12), or, where bits [1:0] of that target are not 0, raises MISALIGN with the target as
TVAL and writes no link. Nothing else changes but the issue bookkeeping. (R81, R110, R113, R146) -/
def Obligations.BranchAndJumpResults : Prop :=
  BranchResult .beq (fun a b => a == b) ∧ BranchResult .bne (fun a b => a != b)
  ∧ BranchResult .blt (fun a b => a.slt b) ∧ BranchResult .bge (fun a b => !a.slt b)
  ∧ BranchResult .bltu (fun a b => a.ult b) ∧ BranchResult .bgeu (fun a b => !a.ult b)
  ∧ (∀ (s : State) (c : Fin 10) (rd : Fin 32) (imm : BitVec 22), s.mayRun c .jal [] (dstG rd) = true →
      Retires s c (exec (.jal c rd imm) s) fun k => (k.wg rd (k.pc + 4)).goto (k.pc + 4 * imm.signExtend 64))
  ∧ (∀ (s : State) (c : Fin 10) (rd ra : Fin 32) (imm : BitVec 12), s.mayRun c .jalr [.g ra] (dstG rd) = true →
      let target := (s.core c).rg ra + imm.signExtend 64
      if target.getLsbD 0 = false ∧ target.getLsbD 1 = false then
        Retires s c (exec (.jalr c rd ra imm) s) fun k => (k.wg rd (k.pc + 4)).goto target
      else Traps s c (exec (.jalr c rd ra imm) s) 3 target)

/-- CSRR, CSRW, CSRS and CSRC: values read, values written, ILLEGAL forms, and the cycle point taken after a write. For
every core that may run it: CSRR writes the value of a defined CSR to gd, and is ILLEGAL on another; CSRW, CSRS and
CSRC write the old value to gd and leave ga, old OR ga, or old AND NOT ga in a writable CSR (CSRS and CSRC with g0
only read), are ILLEGAL on an undefined CSR, on a read-only one with ga not g0, and where they would leave a reserved
EVERY or an OFFSET at or past RUNCYC in an enabled cycle point; after a write the lowest pending cycle point is taken
if IE is 1. Which CSRs a core has, and what each holds, is stated by CsrValuesAndWrites. (R91, R92, R95, R98, R111,
R113) -/
def Obligations.CsrInstructionResults : Prop :=
  (∀ (s : State) (c : Fin 10) (rd : Fin 32) (csr : BitVec 12), s.mayRun c .sys [] (dstG rd) = true →
    if csrDefined c csr.toNat = true then
      RunsAs s c (exec (.csrr c rd csr) s) fun s1 =>
        s1.modCore c fun k => (k.wg rd (s1.csrValue c csr.toNat (s.issueCycle c .sys [] (dstG rd)))).adv
    else Traps s c (exec (.csrr c rd csr) s) 1 (wordI 0x0E rd.val 0 0 csr.toNat))
  ∧ CsrResult .csrw 1 (fun _ => true) (fun _ a => a) ∧ CsrResult .csrs 2 (fun ra => ra != 0) (fun o a => o ||| a)
  ∧ CsrResult .csrc 3 (fun ra => ra != 0) (fun o a => o &&& ~~~a)

/-- WAITT, WAITP, WAITE, POLL, SIGNAL, ERET and TRAP. For every core that may run it: WAITT sleeps until the next
boundary; WAITP sleeps until the next plan period, or with a late wake pending clears it and returns bit 63 with the
event count at once; WAITE returns the event count at once if an event is visible and sleeps otherwise (a sleeping
core's PC has already moved on); POLL removes the oldest record and writes its 64 bits to gd, or writes 0; SIGNAL to
core 0 to 8 requests delivery of the low 32 bits of ga at the next boundary, to 9 to 15 does nothing, and with imm12
of 16 or more is ILLEGAL; ERET inside a handler restores IE from PIE, clears INTRAP, continues at EPC and then takes
the lowest pending cycle point if IE is 1, and outside one is ILLEGAL; TRAP raises the exception TRAP with imm12 as
TVAL (a corrected error on its fetch is counted besides); an uncorrectable error on the fetch is counted, halts a
planner core, and in the safety core raises 0x1806 (F3) and MEM_ECC with the PC as TVAL. (R84, R88, R89, R90, R95,
R97, R111, R112, R113, R114, R78) -/
def Obligations.WaitEventAndTrapResults : Prop :=
  ∀ (s : State) (c : Fin 9) (d : Fin 10) (rd ra : Fin 32) (imm : BitVec 12),
    let c10 := c.castSucc
    (s.mayRun c10 .sys [] (dstG rd) = true →
      Retires s c10 (exec (.waitt c rd) s) (fun k => { k.adv with mode := .waiting, wait := some (.tick rd), waitFrom := s.epoch }))
    ∧ (s.mayRun d .sys [] (dstG rd) = true → (s.core d).late = false →
      Retires s d (exec (.waitp d rd) s) fun k => { k.adv with mode := .waiting, wait := some (.plan rd)
                                                               waitFrom := if d.val = 9 then s.halo.period.toNat else s.epoch })
    ∧ (s.mayRun d .sys [] (dstG rd) = true → (s.core d).late = true →
      Retires s d (exec (.waitp d rd) s) fun k =>
        ({ k with late := false }.wg rd (BitVec.ofNat 64 (2 ^ 63 + k.evq.length))).adv)
    ∧ (s.mayRun c10 .sys [] (dstG rd) = true → (s.core c10).evq = [] →
      Retires s c10 (exec (.waite c rd) s) fun k => { k.adv with mode := .waiting, wait := some (.event rd), waitFrom := s.epoch })
    ∧ (s.mayRun c10 .sys [] (dstG rd) = true → (s.core c10).evq ≠ [] →
      Retires s c10 (exec (.waite c rd) s) fun k => (k.wg rd (BitVec.ofNat 64 k.evq.length)).adv)
    ∧ (∀ e q, s.mayRun c10 .sys [] (dstG rd) = true → (s.core c10).evq = e :: q →
      Retires s c10 (exec (.poll c rd) s) fun k =>
        ({ k with evq := q }.wg rd (e.cls ++ e.count ++ e.source ++ e.data)).adv)
    ∧ (s.mayRun c10 .sys [] (dstG rd) = true → (s.core c10).evq = [] →
      Retires s c10 (exec (.poll c rd) s) fun k => (k.wg rd 0).adv)
    ∧ (∀ h : imm.toNat < 9, s.mayRun c10 .sys [.g ra] none = true →
      ∃ t : Core, exec (.signal c ra imm) s = .next { s.setCore c10 ((s.core c10).adv.retimed t) with
        reqs := s.reqs ++ [⟨c, s.epoch, .signal ⟨imm.toNat, h⟩ (((s.core c10).rg ra).setWidth 32)⟩] })
    ∧ (9 ≤ imm.toNat → imm.toNat < 16 → s.mayRun c10 .sys [.g ra] none = true →
      Retires s c10 (exec (.signal c ra imm) s) Core.adv)
    ∧ (16 ≤ imm.toNat → s.mayRun c10 .sys [.g ra] none = true →
      Traps s c10 (exec (.signal c ra imm) s) 1 (wordI 0x0E 0 ra.val 8 imm.toNat))
    ∧ (s.mayRun d .sys [] none = true → (s.core d).intrap = true →
      ∃ t : Core, exec (.eret d) s = .next ((s.setCore d (({ s.core d with
        ie := (s.core d).pie, intrap := false, pc := (s.core d).epc }).retimed t)).takePending d (s.issueCycle d .sys [] none)))
    ∧ (s.mayRun d .sys [] none = true → (s.core d).intrap = false → Traps s d (exec (.eret d) s) 1 (wordI 0x0E 0 0 9 0))
    ∧ (∀ e : Ecc, e ≠ .uncorr → s.mayRun d .sys [] none = true →
        Traps (s.eccNote (if d.val = 9 then 7 else 0) e) d (exec (.trap d imm e) s) 6 (imm.setWidth 64))
    ∧ (s.canIssue c10 = true → ∃ t, exec (.trap c10 imm .uncorr) s = .next t ∧ (t.core c10).mode = .halted
        ∧ (t.core c10).pc = (s.core c10).pc ∧ t.saf.ecc = (s.eccUp 0).saf.ecc)
    ∧ (s.canIssue 9 = true → ∃ n, Traps { s.eccUp 7 with
          reports := s.reports ++ [⟨0x1806, 3, false, s.now, Config.faultDetail 0x1806 s.free⟩], free := n } 9
        (exec (.trap 9 imm .uncorr) s) 4 (s.core 9).pc)

/-- CYCLE_POINT_FIRE on a running core, and pending points taken lowest index first. For a running, unfrozen planner core
and an enabled point that its EVERY selects: with IE = 0 the firing sets the point's bit in CPTPEND, and its bit in
CPTMISS too if the pending bit was already set, and changes nothing else; with IE = 1 the interrupt is taken, CAUSE
being 2^63 plus the point's index and EPC the PC. When IE is 1 and points are pending, taking a pending one takes the
lowest index, clears exactly its bit and interrupts with its index; with IE = 0 or none pending nothing happens. (TVAL
of an interrupt is a free value, log entry 6.) (R92) -/
def Obligations.CyclePointsFireAndPend : Prop :=
  (∀ (s : State) (c : Fin 9) (i : Fin 4),
    let c10 := c.castSucc
    let k := s.core c10
    s.running = true → s.corePresent c.val = true → k.mode = .running → k.frozen = false → k.cpt[i].getLsbD 63 = true →
    (k.cpt[i].getLsbD 60 = false ∨ s.epoch % s.prof.planDiv = 0) →
    (k.ie = false → exec (.cyclePointFire c i) s = .next (s.setCore c10 { k with
        cptPend := k.cptPend ||| BitVec.ofNat 4 (2 ^ i.val)
        cptMiss := if k.cptPend.getLsbD i.val then k.cptMiss ||| BitVec.ofNat 4 (2 ^ i.val) else k.cptMiss }))
    ∧ (k.ie = true → ∃ t, exec (.cyclePointFire c i) s = .next t ∧ (t.core c10).cause = BitVec.ofNat 64 (2 ^ 63 + i.val)
        ∧ (t.core c10).epc = k.pc ∧ (t.core c10).pc = k.tvec ∧ (t.core c10).ie = false ∧ (t.core c10).pie = true
        ∧ (t.core c10).intrap = true ∧ (t.core c10).g = k.g ∧ (t.core c10).cptPend = k.cptPend ∧ t.data = s.data))
  ∧ (∀ (s : State) (c : Fin 10) (cyc : Nat),
    let k := s.core c
    (k.ie = false ∨ k.cptPend = 0 → s.takePending c cyc = s)
    ∧ (∀ i : Fin 4, k.ie = true → k.cptPend.getLsbD i.val = true → (∀ j < i.val, k.cptPend.getLsbD j = false) →
        let u := (s.takePending c cyc).core c
        u.cause = BitVec.ofNat 64 (2 ^ 63 + i.val) ∧ u.epc = k.pc ∧ u.pc = k.tvec ∧ u.ie = false ∧ u.pie = true ∧ u.intrap = true
        ∧ u.g = k.g ∧ u.f = k.f ∧ u.cptPend.getLsbD i.val = false
        ∧ ∀ j < 4, j ≠ i.val → u.cptPend.getLsbD j = k.cptPend.getLsbD j))

/-- CYCLE_POINT_FIRE on a sleeping core: a WAKE point wakes it, another is missed. For a sleeping, unfrozen planner core
and an enabled point that its EVERY selects: with WAKE = 0 the point's bit in CPTMISS is set and nothing else changes;
with WAKE = 1, IE = 0 and a WAITT, WAITP or WAITE the core runs again, the wait's register takes bit 62 with the
number of visible events and the point pends; with WAKE = 1, IE = 0 and a WAITL or JWAIT the wait is abandoned, no
register is written, the PC still names the wait and the point pends. (R91, R93) -/
def Obligations.SleepingCoreCyclePoints : Prop :=
  ∀ (s : State) (c : Fin 9) (i : Fin 4) (w : Wait),
    let c10 := c.castSucc
    let k := s.core c10
    s.running = true → s.corePresent c.val = true → k.mode = .waiting → k.wait = some w → k.frozen = false →
    k.cpt[i].getLsbD 63 = true → (k.cpt[i].getLsbD 60 = false ∨ s.epoch % s.prof.planDiv = 0) →
    (k.cpt[i].getLsbD 62 = false → exec (.cyclePointFire c i) s =
      .next (s.setCore c10 { k with cptMiss := k.cptMiss ||| BitVec.ofNat 4 (2 ^ i.val) }))
    ∧ (∀ rd, k.cpt[i].getLsbD 62 = true → k.ie = false → (w = .tick rd ∨ w = .plan rd ∨ w = .event rd) →
      ∃ t, exec (.cyclePointFire c i) s = .next (s.setCore c10 t) ∧ t.mode = .running ∧ t.wait = none ∧ t.pc = k.pc
        ∧ t.rg rd = (if rd = 0 then 0 else BitVec.ofNat 64 (2 ^ 62 + k.evq.length))
        ∧ (∀ r, r ≠ rd → t.rg r = k.rg r) ∧ t.cptPend = k.cptPend ||| BitVec.ofNat 4 (2 ^ i.val))
    ∧ (k.cpt[i].getLsbD 62 = true → k.ie = false → (∀ rd, w ≠ .tick rd ∧ w ≠ .plan rd ∧ w ≠ .event rd) →
      ∃ t, exec (.cyclePointFire c i) s = .next (s.setCore c10 t) ∧ t.mode = .running ∧ t.wait = none ∧ t.pc = k.pc
        ∧ t.g = k.g ∧ t.f = k.f ∧ t.cptPend = k.cptPend ||| BitVec.ofNat 4 (2 ^ i.val))

/-- WAIT_WAKE, WAITL_WAKE, JWAIT_WAKE, PLAN_PERIOD_START and SIGNAL_DELIVER. WAIT_WAKE: a core that has slept in WAITT
since an earlier tick runs again in cycle 0, its register holding the number of visible events; so does a WAITE with
an event visible, and a WAITP at an epoch that is a multiple of PLANDIV (on the safety core: once a Halo-period start
marker has come since it slept); a WAITE without an event and a WAITP at another epoch sleep on. WAITL_WAKE and
JWAIT_WAKE write the outcome of their evaluation, move the PC past the wait and run the core, or leave it asleep when
the evaluation has none. PLAN_PERIOD_START, at a multiple of PLANDIV, restarts every present planner core's budget,
clears its overrun flag, marks a late wake on each that runs or sleeps in another wait and was neither woken from
WAITP nor started at this boundary, and wakes a core asleep in WAITP. SIGNAL_DELIVER delivers a signal of an earlier
tick as one class 0x04 event with the sender as source and removes the request. (R84, R85, R88, R90, R113, R130, R134) -/
def Obligations.WaitsEndAtTheirBoundary : Prop :=
  (∀ (s : State) (c : Fin 10) (rd : Fin 32) (w : Wait),
    let k := s.core c
    let woken : Core := { k.wg rd (BitVec.ofNat 64 k.evq.length) with mode := .running, wait := none, cyc := 0 }
    k.mode = .waiting → k.wait = some w →
    (c ≠ 9 → k.waitFrom < s.epoch →
      (w = .tick rd → exec (.waitWake c) s = .next (s.setCore c woken))
      ∧ (w = .event rd → exec (.waitWake c) s = .next (if k.evq.isEmpty then s else s.setCore c woken))
      ∧ (w = .plan rd → exec (.waitWake c) s =
          .next (if s.epoch % s.prof.planDiv = 0 then s.setCore c { woken with wokeAt := some s.epoch } else s)))
    ∧ (c = 9 → w = .plan rd → exec (.waitWake c) s =
        .next (if k.waitFrom ≠ s.halo.period.toNat then s.setCore c { woken with wokeAt := some s.epoch } else s)))
  ∧ (∀ (s : State) (c : Fin 9) (rd : Fin 32) (n : Fin 8) (le : Bool) (target dl : DWord),
    let k := s.core c.castSucc
    k.mode = .waiting → k.waitFrom < s.epoch → k.wait = some (.line rd n le target dl) →
    exec (.waitlWake c) s = .next (match s.evalLine c n.val le target dl false with
      | some v => s.setCore c.castSucc { k.wg rd v with mode := .running, wait := none, cyc := 0, pc := k.pc + 4 }
      | none => s))
  ∧ (∀ (s : State) (c : Fin 9) (rd : Fin 32) (h dl : DWord),
    let k := s.core c.castSucc
    k.mode = .waiting → k.waitFrom < s.epoch → k.wait = some (.job rd h dl) →
    exec (.jwaitWake c) s = .next (match s.evalJob c h dl false with
      | some (v, t) => t.setCore c.castSucc { k.wg rd v with mode := .running, wait := none, cyc := 0, pc := k.pc + 4 }
      | none => s))
  ∧ (∀ (s : State) (c : Fin 9), s.running = true → s.epoch % s.prof.planDiv = 0 → s.corePresent c.val = true →
    let k := s.core c.castSucc
    (∀ rd, k.wait ≠ some (.plan rd)) →
    ∃ t, exec .planPeriodStart s = .next t ∧ (t.core c.castSucc).budget = 0 ∧ (t.core c.castSucc).overrun = false
      ∧ (t.core c.castSucc).g = k.g ∧ (t.core c.castSucc).pc = k.pc ∧ (t.core c.castSucc).mode = k.mode
      ∧ (t.core c.castSucc).late = (k.late || ((k.mode == .running || k.mode == .waiting) && k.wokeAt != some s.epoch && k.startedAt != some s.epoch))
      ∧ t.data = s.data ∧ t.epoch = s.epoch)
  ∧ (∀ (s : State) (c : Fin 9) (rd : Fin 32), s.running = true → s.epoch % s.prof.planDiv = 0 → s.corePresent c.val = true →
    let k := s.core c.castSucc
    k.wait = some (.plan rd) → k.mode = .waiting → k.waitFrom < s.epoch →
    ∃ t, exec .planPeriodStart s = .next t ∧ (t.core c.castSucc).mode = .running ∧ (t.core c.castSucc).wait = none
      ∧ (t.core c.castSucc).rg rd = (if rd = 0 then 0 else BitVec.ofNat 64 k.evq.length)
      ∧ (∀ r, r ≠ rd → (t.core c.castSucc).rg r = k.rg r) ∧ (t.core c.castSucc).late = k.late ∧ (t.core c.castSucc).pc = k.pc)
  ∧ (∀ (s : State) (c d : Fin 9) (e : Nat) (v : Word), s.reqs = [⟨c, e, .signal d v⟩] → e < s.epoch →
    s.coreLive d.castSucc = true → (s.core d.castSucc).evq = [] → s.cellEvs = [] →
    exec (.signalDeliver) s = .next { s.setCore d.castSucc { s.core d.castSucc with
      evq := [{ cls := 4, count := 1, source := BitVec.ofNat 16 c.val, data := v, tick := s.epoch, rank := 1 }] } with reqs := [] })

/-- CORE_FREEZE, BUDGET_OVERRUN, CORE_START, CORE_STOP and HALT_CLEANUP. CORE_FREEZE on a live core of a running sequencer
freezes it at RUNCYC, copies its PC to PLN_PCn and changes no register; an error that the scrub of the frozen cycles
finds is counted for its memory, and an uncorrectable one raises 0x0401 or 0x0801 (F2). BUDGET_OVERRUN on a core that
can issue, with a budget set and not yet overrun this period, sets its overrun flag, reports 0x0403 (F1) and traps
with BUDGET as TVAL. A commit that carried RUN = 1 starts a stopped or halted core that has no replayable entries: its
registers, CSRs and flags take their reset values, its PC is PLN_ENTRYn and events of this boundary stay. One that
carried RUN = 0 stops the core, empties its event queue, drops its jobs and its SEGA, AUXQ, JOB and JCANCEL requests.
HALT_CLEANUP drops the same jobs and requests of a halted core whose clean-up is due. Data memory, arms and other
cores stay as they are. (R79, R83, R117, R118, R142, R145, R148, R340) -/
def Obligations.BudgetFreezeStartAndStop : Prop :=
  ∀ (s : State) (c : Fin 9),
    let c10 := c.castSucc
    let k := s.core c10
    let run := 0x40100 + 0x40 * c.val
    let budget := s.regN (0x40108 + 0x40 * c.val)
    (s.running = true → s.coreLive c10 = true → k.frozen = false → exec (.coreFreeze c none) s = .next (s.setCore c10 { k with
        frozen := true, pair := none, pcCopy := k.pc.setWidth 32, cyc := s.runcyc,
        budget := if k.mode = .running then k.budget + s.runcyc - k.cyc else k.budget }))
    ∧ (∀ (m : Fin 3) (e : Ecc), s.running = true → ∃ t u, exec (.coreFreeze c (some (m, e))) s = .next t
        ∧ exec (.coreFreeze c none) s = .next u ∧ t.cores = u.cores ∧ t.data = u.data ∧ t.arms = u.arms
        ∧ t.saf.ecc = (s.eccNote ⟨m.val, by omega⟩ e).saf.ecc
        ∧ (e ≠ .uncorr → t.reports = s.reports)
        ∧ (e = .uncorr → ∃ r, t.reports = s.reports ++ [r] ∧ r.code = (if m = 2 then 0x0801 else 0x0401) ∧ r.cls = 2))
    ∧ (s.canIssue c10 = true → budget ≠ 0 → k.overrun = false → ∃ t, exec (.budgetOverrun c) s = .next t
        ∧ (t.core c10).overrun = true ∧ (t.core c10).cause = 5 ∧ (t.core c10).tval = BitVec.ofNat 64 budget
        ∧ (t.core c10).epc = k.pc ∧ (t.core c10).g = k.g ∧ (∃ r ∈ t.reports, r.code = 0x0403 ∧ r.cls = 1) ∧ t.data = s.data
        ∧ t.arms = s.arms ∧ ∀ d, d ≠ c10 → t.core d = s.core d)
    ∧ (s.runWritten c = some true → s.corePresent c.val = true → (k.mode = .stopped ∨ k.mode = .halted) → s.jrn.replay[c] = [] →
        let fresh : Core := {}
        exec (.coreStart c) s = .next { s.setCore c10 { fresh with
          mode := .running, pc := (s.reg (0x40104 + 0x40 * c.val)).setWidth 64, startedAt := some s.epoch
          evq := k.evq.filter (fun e => e.tick == s.epoch), evqOvf := k.evqOvf, safetyEv := k.safetyEv
          budget := k.budget, overrun := k.overrun, lateCnt := k.lateCnt, cleanup := k.cleanup
          area := k.area, areaNow := k.areaNow, areaNext := k.areaNext, jobCount := k.jobCount
          pcCopy := k.pcCopy, causeCopy := k.causeCopy } with due := assocDel s.due run })
    ∧ (∀ (cmd : Instr), (cmd = .coreStop c ∧ s.runWritten c = some false) ∨ (cmd = .haltCleanup c ∧ k.mode = .halted ∧ k.cleanup = true) →
        ∃ t, exec cmd s = .next t ∧ (t.core c10).cleanup = false ∧ (cmd = .coreStop c → (t.core c10).mode = .stopped ∧ (t.core c10).evq = [])
        ∧ (t.core c10).g = k.g ∧ (∀ j ∈ t.solver.queue ++ t.solver.running ++ t.solver.ended, j.core ≠ c)
        ∧ (∀ e ∈ t.reqs, e.core = c → ∀ d j a m h, e.req ≠ .sega d ∧ e.req ≠ .job j ∧ e.req ≠ .auxq a m ∧ e.req ≠ .jcancel h)
        ∧ t.data = s.data ∧ t.arms = s.arms ∧ ∀ d, d ≠ c10 → t.core d = s.core d)

/-- SEGQ, SEGA, SEGCLR, CUT, SEGSTAT and STOP: effects, results, refusals and roles. For an arm core that may run it, with
its memory operand in its partition: SEGQ appends the descriptor to the staged queue and returns the new count, is
refused FULL at 64 and INVALID with the offset of the first failing field; SEGA, in safety state run, requests the
append for the next boundary and returns the active count, with the same refusals, and DUSK outside run; SEGCLR
empties the staged queue; CUT in run requests a cut-over and is refused DUSK otherwise; SEGSTAT reports both counts
and the active segment ID and changes nothing; STOP with operand 0 (an arm core) or a mask of present arms (cell core
8) requests the ramp stop in run and changes nothing otherwise. SEGQ, SEGA, SEGCLR and SEGSTAT on core 8 raise ROLE; a
bad memory operand raises its exception; an ACTTGT that names a fused-off axis raises RESOURCE; an uncorrectable error
on the operand is counted, reported as 0x0401 and raises MEM_ECC, and a corrected one is counted. Nothing else
changes. (R3, R43, R78, R119, R120, R122, R123, R124, R125, R127, R128, R146) -/
def Obligations.SegmentInstructionResults : Prop :=
  (∀ (s : State) (c : Fin 9) (k : Fin 8) (rd ra : Fin 32) (off : Nat),
    c.val = k.val → s.mayRun c.castSucc (.cell 1) [.g ra] (dstG rd) = true →
    s.operand c ((s.core c.castSucc).rg ra).toNat 128 .clean = .inr off →
    let d := segOfBytes (s.data.readN off 128)
    let staged := s.arms[k].staged
    let n := s.activeCount c k
    let fused : Prop := d.action = 1 ∧ s.is8064 = true ∧ 64 ≤ d.actTgt.toNat ∧ d.actTgt.toNat < 128
    (fused → ∀ e, Traps s c.castSucc (exec (.segq c rd ra e) s) 7 (wordR 0x10 rd.val ra.val 0 0)
        ∧ Traps s c.castSucc (exec (.sega c rd ra e) s) 7 (wordR 0x10 rd.val ra.val 0 1))
    ∧ (¬ fused → ∃ t, Traps ((s.eccUp 1).raiseAt t 0x0401 2 true) c.castSucc (exec (.segq c rd ra .uncorr) s) 4 ((s.core c.castSucc).rg ra)
        ∧ Traps ((s.eccUp 1).raiseAt t 0x0401 2 true) c.castSucc (exec (.sega c rd ra .uncorr) s) 4 ((s.core c.castSucc).rg ra))
    ∧ (∀ e : Ecc, ¬ fused → e ≠ .uncorr →
      let segq (v : DWord) (t : State) : Prop := CellDone c rd (exec (.segq c rd ra e) s) v (t.eccNote 1 e)
      let sega (v : DWord) (t : State) : Prop := CellDone c rd (exec (.sega c rd ra e) s) v (t.eccNote 1 e)
      (64 ≤ staged.length → segq (refusalWord 64 1) s)
      ∧ (∀ f, staged.length < 64 → s.segCheck k d = some f → segq (refusalWord (BitVec.ofNat 32 f) 3) s)
      ∧ (staged.length < 64 → s.segCheck k d = none → segq (BitVec.ofNat 64 (staged.length + 1))
            { s with arms := s.arms.set k { s.arms[k] with staged := staged ++ [d] } })
      ∧ (s.coreSafety ≠ .run → sega (refusalWord (BitVec.ofNat 32 s.coreSafety.num) 2) s)
      ∧ (s.coreSafety = .run → 64 ≤ n → sega (refusalWord 64 1) s)
      ∧ (∀ f, s.coreSafety = .run → n < 64 → s.segCheck k d = some f → sega (refusalWord (BitVec.ofNat 32 f) 3) s)
      ∧ (s.coreSafety = .run → n < 64 → s.segCheck k d = none →
          sega (BitVec.ofNat 64 (n + 1)) { s with reqs := s.reqs ++ [⟨c, s.epoch, .sega d⟩] })))
  ∧ (∀ (s : State) (c : Fin 9) (k : Fin 8) (rd : Fin 32), c.val = k.val → s.mayRun c.castSucc (.cell 1) [] (dstG rd) = true →
    CellDone c rd (exec (.segclr c rd) s) 0 { s with arms := s.arms.set k { s.arms[k] with staged := [] } }
    ∧ CellDone c rd (exec (.segstat c rd) s) (BitVec.ofNat 64 (s.arms[k].staged.length % 256
        + 256 * (s.activeCount c k % 256) + 65536 * s.arms[k].segIdNow.toNat)) s)
  ∧ (∀ (s : State) (c : Fin 9) (rd : Fin 32), s.mayRun c.castSucc (.cell 1) [] (dstG rd) = true →
    (s.coreSafety = .run → CellDone c rd (exec (.cut c rd) s) 0 { s with reqs := s.reqs ++ [⟨c, s.epoch, .cut⟩] })
    ∧ (s.coreSafety ≠ .run → CellDone c rd (exec (.cut c rd) s) (refusalWord (BitVec.ofNat 32 s.coreSafety.num) 2) s)
    ∧ (c = 8 → Traps s c.castSucc (exec (.segclr c rd) s) 8 (wordR 0x10 rd.val 0 0 2)
        ∧ Traps s c.castSucc (exec (.segstat c rd) s) 8 (wordR 0x10 rd.val 0 0 4)))
  ∧ (∀ (s : State) (c : Fin 9) (rd ra : Fin 32), s.mayRun c.castSucc (.cell 1) [.g ra] (dstG rd) = true →
    let v := (s.core c.castSucc).rg ra
    let mask : BitVec 8 := if c = 8 then v.setWidth 8 else BitVec.ofNat 8 (2 ^ c.val)
    let ok : Prop := if c = 8 then v.toNat < 256 ∧ ∀ k < 8, v.getLsbD k = true → s.armPresent k = true else v = 0
    (ok → s.coreSafety = .run → CellDone c rd (exec (.stop c rd ra) s) 0 { s with reqs := s.reqs ++ [⟨c, s.epoch, .stop mask⟩] })
    ∧ (ok → s.coreSafety ≠ .run → CellDone c rd (exec (.stop c rd ra) s) 0 s)
    ∧ (c ≠ 8 → v ≠ 0 → Traps s c.castSucc (exec (.stop c rd ra) s) 9 (wordR 0x10 rd.val ra.val 0 5))
    ∧ (∀ err, c = 8 → Traps s c.castSucc (exec (.segq c rd ra err) s) 8 (wordR 0x10 rd.val ra.val 0 0)
        ∧ Traps s c.castSucc (exec (.sega c rd ra err) s) 8 (wordR 0x10 rd.val ra.val 0 1))
    ∧ (∀ err e, c ≠ 8 → s.operand c v.toNat 128 .clean = .inl e →
        Traps s c.castSucc (exec (.segq c rd ra err) s) (BitVec.ofNat 64 e.1) e.2
        ∧ Traps s c.castSucc (exec (.sega c rd ra err) s) (BitVec.ofNat 64 e.1) e.2))

/-- AUXQ and WAITL: effects, refusals, the end of a line wait at issue, and sleep. AUXQ on the cell core, for a present
axis number below 128 and a descriptor in its partition: a valid move to an auxiliary axis in safety state run is
requested for the next boundary and returns the count of queued moves, itself included (a STOP is no queued move); a
non-STOP move outside run is refused DUSK, a STOP succeeds there without effect; onto a queue of 8 FULL, a non-
auxiliary axis or a failing field INVALID with its offset; on another core it raises ROLE. WAITL of an enabled line on
any planner core, with the line's fault bit clear: returns the line's uncertainty at once if the count of the Almanac
view has reached the target in the chosen direction, is refused TIMEOUT if a deadline has passed, and otherwise sleeps
with its PC still at the WAITL; with the fault bit set it is refused LINE_FAULT. Nothing else changes. (R120, R129,
R130, R131, R183, R199) -/
def Obligations.AuxiliaryAndLineWaitResults : Prop :=
  (∀ (s : State) (rd ra rb : Fin 32) (off : Nat) (ax : Fin 128),
    let c : Fin 9 := 8
    let k := s.core c.castSucc
    s.mayRun c.castSucc (.cell 1) [.g ra, .g rb] (dstG rd) = true → k.rg rb = BitVec.ofNat 64 ax.val → s.axisPresent ax.val = true →
    s.operand c (k.rg ra).toNat 32 .clean = .inr off →
    let m := auxOfBytes (s.data.readN off 32)
    let queued := s.aux[ax].queue.length + s.ownReqs c fun r => match r with | .auxq a x => a == ax && !x.isStop | _ => false
    let o := exec (.auxq c rd ra rb .clean) s
    (s.coreSafety = .run → (s.auxProf ax.val).isSome = true → m.check = none → (m.isStop = true ∨ queued < 8) →
      CellDone c rd o (BitVec.ofNat 64 (if m.isStop then queued else queued + 1)) { s with reqs := s.reqs ++ [⟨c, s.epoch, .auxq ax m⟩] })
    ∧ (s.coreSafety ≠ .run → (s.auxProf ax.val).isSome = true → m.check = none → m.isStop = true →
      CellDone c rd o (BitVec.ofNat 64 queued) s)
    ∧ (s.coreSafety ≠ .run → m.isStop = false → CellDone c rd o (refusalWord (BitVec.ofNat 32 s.coreSafety.num) 2) s)
    ∧ (s.coreSafety = .run → (s.auxProf ax.val).isSome = true → m.isStop = false → 8 ≤ queued → CellDone c rd o (refusalWord 8 1) s)
    ∧ (s.coreSafety = .run → (s.auxProf ax.val).isSome = false → CellDone c rd o (refusalWord 0 3) s)
    ∧ (∀ f, s.coreSafety = .run → (s.auxProf ax.val).isSome = true → (m.isStop = true ∨ queued < 8) → m.check = some f →
        CellDone c rd o (refusalWord (BitVec.ofNat 32 f) 3) s))
  ∧ (∀ (s : State) (c : Fin 9) (rd ra rb : Fin 32) (err : Ecc), c ≠ 8 → s.mayRun c.castSucc (.cell 1) [.g ra, .g rb] (dstG rd) = true →
      Traps s c.castSucc (exec (.auxq c rd ra rb err) s) 8 (wordR 0x10 rd.val ra.val rb.val 8))
  ∧ (∀ (s : State) (c : Fin 9) (rd ra rb : Fin 32) (func : BitVec 12) (n : Fin 8) (le : Bool),
    let k := s.core c.castSucc
    let r := s.viewLine n.val
    s.mayRun c.castSucc (.cell 1) [.g ra, .g rb] (dstG rd) = true → func.toNat = n.val + (if le then 8 else 0) →
    (s.prof.lines.getD n.val {}).en = true →
    let hit := if le then r.count.sle (k.rg ra) else (k.rg ra).sle r.count
    let late : Prop := k.rg rb ≠ 0 ∧ (k.rg rb).toNat ≤ s.epoch
    let o := exec (.waitl c rd ra rb func) s
    (r.status.getLsbD 2 = true → CellDone c rd o (refusalWord (BitVec.ofNat 32 n.val) 5) s)
    ∧ (r.status.getLsbD 2 = false → hit = true → CellDone c rd o (r.uncert.setWidth 64) s)
    ∧ (r.status.getLsbD 2 = false → hit = false → late → CellDone c rd o (refusalWord (BitVec.ofNat 32 s.epoch) 4) s)
    ∧ (r.status.getLsbD 2 = false → hit = false → ¬ late →
        Retires s c.castSucc o fun k => { k with mode := .waiting, wait := some (.line rd n le (k.rg ra) (k.rg rb)), waitFrom := s.epoch }))

/-- JOB, JWAIT, JSTAT and JCANCEL: handles, collection, refusals and sleep. For a planner core that may run it: JOB with
its descriptor in its partition, naming only present tiles and arms, returns a fresh handle (the core's number in
[31:28], its count below), advances the count and submits the job; with 8 jobs held it is refused FULL, with a failing
field INVALID. JSTAT and JWAIT collect the result of a delivered job: the completion code goes to gd and the handle is
gone; JSTAT of a job not yet delivered is refused PENDING, JWAIT sleeps (or is refused TIMEOUT past a deadline); a
handle the core does not hold is refused UNKNOWN. JCANCEL of an undelivered job requests the cancel, and of another
handle is refused UNKNOWN. Nothing else changes. (R119, R120, R132, R134, R135, R215, R216) -/
def Obligations.SolverInstructionResults : Prop :=
  (∀ (s : State) (c : Fin 9) (rd ra : Fin 32) (off : Nat),
    let k := s.core c.castSucc
    let a := (k.rg ra).toNat
    s.mayRun c.castSucc (.cell 1) [.g ra] (dstG rd) = true → s.operand c a 128 .clean = .inr off →
    let d := jobOfBytes (s.data.readN off 128)
    let handle : Word := BitVec.ofNat 32 (c.val * 2 ^ 28 + k.jobCount.toNat)
    let o := exec (.job c rd ra .clean) s
    (∀ i < 4, d.tmask.getLsbD i = true → s.tilesPresent.getLsbD i = true) → (∀ i < 8, d.armMask.getLsbD i = true → s.armPresent i = true) →
    (8 ≤ s.heldJobs c → CellDone c rd o (refusalWord 8 1) s)
    ∧ (∀ f, s.heldJobs c < 8 → s.jobCheck c a d = some f → CellDone c rd o (refusalWord (BitVec.ofNat 32 f) 3) s)
    ∧ (s.heldJobs c < 8 → s.jobCheck c a d = none → CellDone c rd o (handle.setWidth 64)
        { s.setCore c.castSucc { k with jobCount := k.jobCount + 1 } with
          reqs := s.reqs ++ [⟨c, s.epoch, .job { handle := handle, core := c, d := d, allowed := s.jobTiles c d }⟩] }))
  ∧ (∀ (s : State) (c : Fin 9) (rd ra : Fin 32), s.mayRun c.castSucc (.cell 1) [.g ra] (dstG rd) = true →
    let h : Word := ((s.core c.castSucc).rg ra).setWidth 32
    (∀ r, s.collect c h = some r → CellDone c rd (exec (.jstat c rd ra) s) (r.1.setWidth 64) r.2)
    ∧ (s.collect c h = none → s.jobOpen c h = true → CellDone c rd (exec (.jstat c rd ra) s) (refusalWord h 0xB) s)
    ∧ (s.collect c h = none → s.jobOpen c h = false → CellDone c rd (exec (.jstat c rd ra) s) (refusalWord h 7) s)
    ∧ (s.jobOpen c h = true → CellDone c rd (exec (.jcancel c rd ra) s) 0 { s with reqs := s.reqs ++ [⟨c, s.epoch, .jcancel h⟩] })
    ∧ (s.jobOpen c h = false → CellDone c rd (exec (.jcancel c rd ra) s) (refusalWord h 7) s))
  ∧ (∀ (s : State) (c : Fin 9) (rd ra rb : Fin 32), s.mayRun c.castSucc (.cell 1) [.g ra, .g rb] (dstG rd) = true →
    let k := s.core c.castSucc
    let h : Word := (k.rg ra).setWidth 32
    let late : Prop := k.rg rb ≠ 0 ∧ (k.rg rb).toNat ≤ s.epoch
    let o := exec (.jwait c rd ra rb) s
    (∀ r, s.collect c h = some r → CellDone c rd o (r.1.setWidth 64) r.2)
    ∧ (s.collect c h = none → s.jobOpen c h = false → CellDone c rd o (refusalWord h 7) s)
    ∧ (s.collect c h = none → s.jobOpen c h = true → late → CellDone c rd o (refusalWord (BitVec.ofNat 32 s.epoch) 4) s)
    ∧ (s.collect c h = none → s.jobOpen c h = true → ¬ late →
        Retires s c.castSucc o fun k => { k with mode := .waiting, wait := some (.job rd (k.rg ra) (k.rg rb)), waitFrom := s.epoch }))
  ∧ (∀ (s : State) (c : Fin 9) (h : Word) (code : BitVec 16) (pre post : List (Word × BitVec 16)),
    h.toNat / 2 ^ 28 = c.val → s.solver.delivered = pre ++ (h, code) :: post → (∀ e ∈ pre, e.1 ≠ h) →
    s.collect c h = some (code, { s with solver := { s.solver with delivered := pre ++ post } }))

/-- HPUB, APUB, RTAKE, JREC, JDONE, JNEXT, PROFQ and CAPQ. For a planner core that may run it: HPUB requests the
publication of up to 8 records of 32 bytes; APUB puts 8 to 256 bytes into the program area of this tick's Almanac
before PUBCYC and of the next tick's from then on; RTAKE of a ring routed to the core writes the oldest released entry
to memory, advances CONS and returns it (a take from PUBCYC on is counted apart for the Almanac), or is refused EMPTY,
or REPLAY while the core has journal entries to replay; JREC assigns the next sequence number and requests the entry,
or is refused FULL at 2 048; JDONE of an outstanding number requests completion and otherwise is refused UNKNOWN;
JNEXT writes the next replay entry's command to memory and returns its number with the idempotent bit, or is refused
EMPTY; PROFQ returns a defined item and CAPQ a version byte, and both are ILLEGAL otherwise. Nothing else changes.
(R86, R119, R120, R136, R137, R138, R139, R140, R142, R143, R501) -/
def Obligations.PublicationAndJournalInstructionResults : Prop :=
  (∀ (s : State) (c : Fin 9) (rd ra rb : Fin 32) (func : BitVec 12) (off n : Nat),
    let k := s.core c.castSucc
    s.mayRun c.castSucc (.cell 1) [.g ra, .g rb] (dstG rd) = true → k.rg rb = BitVec.ofNat 64 n →
    (func.toNat < 2 → (func = 0 → c ≠ 8) → 1 ≤ n → n ≤ 8 → s.operand c (k.rg ra).toNat (32 * n) .clean = .inr off →
      CellDone c rd (exec (.hpub c rd ra rb func .clean) s) 0 { s with reqs := s.reqs ++ [⟨c, s.epoch,
        .hpub func.toNat ((List.range n).map fun i => bytesAt (s.data.readN off (32 * n)) (32 * i) 32)⟩] })
    ∧ (func.toNat < 2 → (func = 0 → c ≠ 8) → n = 0 →
      CellDone c rd (exec (.hpub c rd ra rb func .clean) s) 0 { s with reqs := s.reqs ++ [⟨c, s.epoch, .hpub func.toNat []⟩] })
    ∧ (n % 8 = 0 → 8 ≤ n → n ≤ 256 → s.operand c (k.rg ra).toNat n .clean = .inr off →
      CellDone c rd (exec (.apub c rd ra rb 0 .clean) s) 0 (s.setCore c.castSucc
        (if s.issueCycle c.castSucc (.cell 1) [.g ra, .g rb] (dstG rd) < s.pubcyc then { k with areaNow := some (s.data.readN off n) }
         else { k with areaNext := some (s.data.readN off n) }))))
  ∧ (∀ (s : State) (c : Fin 9) (rd ra rb : Fin 32) (r : Fin 4) (off : Nat),
    let k := s.core c.castSucc
    let q := s.host.rings[r]
    let o := exec (.rtake c rd ra rb) s
    s.mayRun c.castSucc (.cell 1) [.g ra, .g rb] (dstG rd) = true → k.rg rb = BitVec.ofNat 64 r.val → s.route 1 r.val = c →
    s.operand c (k.rg ra).toNat 64 .clean = .inr off →
    let cyc := s.issueCycle c.castSucc (.cell 1) [.g ra, .g rb] (dstG rd)
    (s.jrn.replay[c] ≠ [] → CellDone c rd o (refusalWord (BitVec.ofNat 32 (s.jrn.replay[c]).length) 0xC) s)
    ∧ (s.jrn.replay[c] = [] → q.released = [] → CellDone c rd o (refusalWord 0 8) s)
    ∧ (∀ idx bytes rest, s.jrn.replay[c] = [] → q.released = (idx, bytes) :: rest →
      CellDone c rd o ((q.cons + 1).setWidth 64) { s.setCore c.castSucc { k with lastTake := some (BitVec.ofNat 8 r.val, idx) } with
        data := s.data.writeN off (bytesAt bytes 0 64)
        host := { s.host with rings := s.host.rings.set r { q with
          released := rest, cons := q.cons + 1, late := if cyc < s.pubcyc then q.late else q.late + 1 } } }))
  ∧ (∀ (s : State) (c : Fin 9) (rd ra rb : Fin 32) (idem : Bool) (off : Nat),
    let k := s.core c.castSucc
    let waiting := s.ownReqs c fun r => match r with | .jrec _ _ _ _ _ => true | _ => false
    let take := k.lastTake.getD (0xFF, 0)
    let seq : Word := k.rg ra |>.setWidth 32
    s.mayRun c.castSucc (.cell 1) [.g ra, .g rb] (dstG rd) = true →
    (k.rg rb = (if idem then 1 else 0) → s.operand c (k.rg ra).toNat 64 .clean = .inr off →
      (2048 ≤ s.jrn.entries.length + waiting → CellDone c rd (exec (.jrec c rd ra rb .clean) s) (refusalWord 2048 1) s)
      ∧ (s.jrn.entries.length + waiting < 2048 → CellDone c rd (exec (.jrec c rd ra rb .clean) s) (s.jrn.next.setWidth 64)
          { s with jrn := { s.jrn with next := s.jrn.next + 1 },
                   reqs := s.reqs ++ [⟨c, s.epoch, .jrec s.jrn.next idem take.1 take.2 (s.data.readN off 64)⟩] }))
    ∧ (s.outstanding c seq = true →
        CellDone c rd (exec (.jdone c rd ra rb) s) 0 { s with reqs := s.reqs ++ [⟨c, s.epoch, .jdone seq ((k.rg rb).setWidth 16)⟩] })
    ∧ (s.outstanding c seq = false → CellDone c rd (exec (.jdone c rd ra rb) s) (refusalWord seq 7) s))
  ∧ (∀ (s : State) (c : Fin 9) (rd ra : Fin 32) (off : Nat),
    let o := exec (.jnext c rd ra) s
    s.mayRun c.castSucc (.cell 1) [.g ra] (dstG rd) = true → s.operand c ((s.core c.castSucc).rg ra).toNat 64 .clean = .inr off →
    (s.jrn.replay[c] = [] → CellDone c rd o (refusalWord 0 8) s)
    ∧ (∀ seq rest, s.jrn.replay[c] = seq :: rest →
        let cmd := ((s.jrn.entries.find? fun e => e.2.seq == seq).map fun e => e.2.cmd).getD []
        CellDone c rd o (BitVec.ofNat 64 (seq.toNat + 2 ^ 32)) { s with
          data := s.data.writeN off (bytesAt cmd 0 64), jrn := { s.jrn with replay := s.jrn.replay.set c rest } }))
  ∧ (∀ (s : State) (c : Fin 9) (rd : Fin 32) (imm : BitVec 12), s.mayRun c.castSucc (.cell 1) [] (dstG rd) = true →
    (∀ v, s.profItem c imm.toNat = some v → CellDone c rd (exec (.profq c rd imm) s) (BitVec.ofNat 64 v) s)
    ∧ (s.profItem c imm.toNat = none → Traps s c.castSucc (exec (.profq c rd imm) s) 1 (wordI 0x16 rd.val 0 0 imm.toNat))
    ∧ (imm.toNat < 256 → CellDone c rd (exec (.capq c rd imm) s)
        (if 1 ≤ imm.toNat ∧ imm.toNat ≤ (if s.variant = .s8064 then 8 else 9) then 1 else 0) s)
    ∧ (256 ≤ imm.toNat → Traps s c.castSucc (exec (.capq c rd imm) s) 1 (wordI 0x16 rd.val 0 1 imm.toNat)))

/-- A step runs the command at the front of the queue on the state with the rest of the queue. For every command c and
state s whose queue is c followed by a rest, step s is exec c on s with that rest as its queue; on an empty queue the
block idles: step s is s itself. (The queue, and idling on an empty one, are the form of the model: log entry 1.)
(00_scope.md) -/
def Obligations.StepRunsTheFrontCommand : Prop :=
  (∀ (c : Instr) (rest : List Instr) (s : State), step { s with pending := c :: rest } = exec c { s with pending := rest })
  ∧ ∀ s : State, s.pending = [] → step s = .next s

/-- Every command answers a next state, and the fused identity of the part never changes. For every command and every
state, exec answers a next state, never a fault and never a refusal; and that state has the queue of waiting commands
it was given, so that a step removes exactly the front command. For every command and every state: the variant of the
part (A8128, S8128 or S8064) and the unit's 48-bit identifier, both fused, are the same after the command as before
it, resets, profile switches and replays included. (95_what_each_step_holds.md, R2, R3) -/
def Obligations.EveryCommandRunsAndKeepsTheFuses : Prop :=
  (∀ (c : Instr) (s : State), ∃ t : State, exec c s = .next t ∧ t.pending = s.pending)
  ∧ (∀ (c : Instr) (s t : State), exec c s = .next t → t.variant = s.variant ∧ t.uid = s.uid)

/-- Right after a power-on reset the block is as the spec says, and both invariants hold. In State.reset: the safety state
is STO, the tick sequencer is stopped and the epoch is 0, every core is stopped with an empty event queue, every arm
has an empty staged queue and an empty plan, every lane and every port is down, no Almanac is published, no commit is
pending, every memory is empty and canonical, every event queue is bounded, nothing is on the way to the fault queue
and no command waits. (R117, R316, R333, R494, R497, R512) -/
def Obligations.ResetLeavesTheStatedValues : Prop :=
  State.reset.coreSafety = .sto ∧ State.reset.saf.state = .sto ∧ State.reset.running = false ∧ State.reset.epoch = 0
  ∧ (∀ c : Fin 10, (State.reset.core c).mode = .stopped ∧ (State.reset.core c).evq = [])
  ∧ (∀ k : Fin 8, State.reset.arms[k].staged = [] ∧ State.reset.arms[k].active = [])
  ∧ State.reset.published = none ∧ State.reset.view = none ∧ State.reset.gate = [] ∧ State.reset.shadow = []
  ∧ State.reset.data = [] ∧ State.reset.code = [] ∧ State.reset.reports = [] ∧ State.reset.pending = []
  ∧ State.reset.MemoriesCanonical ∧ State.reset.QueuesBounded

/-- Every step keeps every memory of the block in canonical form. For every state in which code memory, data SRAM, the
safety core's code and data, the flash staging buffer and the data SRAM of every stored keyframe are in canonical form
(addresses strictly rising, no entry that an unlisted address reads as), whatever command is at the front of the
queue, they are in canonical form after the step: so that two equal memories are always the same data. (R74, R114,
R466, R515) -/
def Obligations.MemoriesStayCanonical : Prop :=
  ∀ s t : State, s.MemoriesCanonical → step s = .next t → t.MemoriesCanonical

/-- Every step keeps every event queue within its 64 records. For every state in which each core's event queue (and that
of every core in every stored keyframe) holds at most 64 records, whatever command is at the front of the queue, each
holds at most 64 after the step. (R85, R87) -/
def Obligations.EventQueuesStayBounded : Prop :=
  ∀ s t : State, s.QueuesBounded → step s = .next t → t.QueuesBounded

/-- Shared operations: how an event joins a queue, and the order in which the gate releases its inputs. For every core
with at most 64 records and every event: a mergeable event (class 1, 2 or 3) that finds a record of its class and
source leaves the number of records and takes no new one; a class 0x05 event is never discarded: a queue with fewer
than 64 records gains one, a full one that holds a class 0x05 record merges into the newest; any other event takes a
record only while fewer than 60 records are taken by other events (the four kept for class 0x05 aside; that its first
four records count as the kept ones is the model's choice, log entry 98) and is otherwise discarded with EVQ_OVF set;
and never do more than 64 records result. For every list of gate inputs: the release order is a permutation of it, the
sources rise along it, and the inputs of any one source other than the ring entries keep their arrival order, while
ring entries rise by ring and keep their arrival order within a ring. (R85, R87, R22, R23) -/
def Obligations.EventsMergeAndGateReleasesInOrder : Prop :=
  (∀ (k : Core) (e : EvRec), k.evq.length ≤ 64 →
    let r := k.enqueue e
    let merges := (e.cls = 1 ∨ e.cls = 2 ∨ e.cls = 3) ∧ ∃ x ∈ k.evq, x.cls = e.cls ∧ x.source = e.source
    let fives := (k.evq.filter fun x => x.cls == 5).length
    r.1.evq.length ≤ 64
    ∧ (merges → r.2 = true ∧ r.1.evq.length = k.evq.length ∧ ∃ x ∈ r.1.evq, x.cls = e.cls ∧ x.source = e.source ∧ x.data = e.data)
    ∧ (e.cls = 5 → k.evq.length < 64 → r.2 = true ∧ e ∈ r.1.evq ∧ r.1.evq.length = k.evq.length + 1)
    ∧ (e.cls = 5 → k.evq.length = 64 → (∃ x ∈ k.evq, x.cls = 5) →
        r.2 = true ∧ r.1.evq.length = 64 ∧ ∃ x ∈ r.1.evq, x.cls = 5 ∧ x.data = e.data)
    ∧ (e.cls ≠ 5 → ¬ merges → k.evq.length - min fives 4 < 60 → k.evq.length < 64 → r.2 = true ∧ e ∈ r.1.evq ∧ r.1.evqOvf = k.evqOvf)
    ∧ (e.cls ≠ 5 → ¬ merges → (60 ≤ k.evq.length - min fives 4 ∨ k.evq.length = 64) →
        r.2 = false ∧ r.1.evq = k.evq ∧ r.1.evqOvf = true)
    ∧ r.1.g = k.g ∧ r.1.pc = k.pc ∧ r.1.mode = k.mode)
  ∧ (∀ l : List GateIn,
    (releaseOrder l).Perm l
    ∧ (releaseOrder l).Pairwise (fun a b => a.src ≤ b.src)
    ∧ ∀ k : Nat × Nat, (releaseOrder l).filter (fun g => g.key == k) = l.filter (fun g => g.key == k))

/-- The stamp of an input is the next boundary, or the one after it within the last microsecond; a replay takes no input.
For every state and time: an input whose crossing completes more than 1 microsecond before the start of the next tick
is stamped with it, a later one with the tick after it; the gate then holds the input last with that stamp and its
source and nothing else changes; in replay, and from a source whose clock domain is stopped, the gate takes nothing.
(R22) -/
def Obligations.StampsNameTheNextBoundary : Prop :=
  ∀ (s : State) (t : DWord) (src : Nat) (i : GateItem),
    (s.eph.replay = false → s.stopped (gateDomain src) = false → t.toNat + 1000 < (s.epoch + 1) * s.tTick →
      s.gateIn t src i = { s with gate := s.gate ++ [⟨s.epoch + 1, src, i⟩] })
    ∧ (s.eph.replay = false → s.stopped (gateDomain src) = false → (s.epoch + 1) * s.tTick ≤ t.toNat + 1000 →
      s.gateIn t src i = { s with gate := s.gate ++ [⟨s.epoch + 2, src, i⟩] })
    ∧ (s.eph.replay = true ∨ s.stopped (gateDomain src) = true → s.gateIn t src i = s)

/-- Reads of registers: the value answered, the read latch of the path, and what stays as it is. For an access that
reaches its register: a 4-byte read of a one-word register answers its value; that of the low word of a 64-bit
register answers the low word and copies the high word into the read latch of that path alone; that of a high word
answers the latch of the path and changes nothing; an aligned 8-byte read of a 64-bit register answers both words of
the value in one step. Beside the answer and the latch only the free-value counter can change (for the two registers
with a bit the spec leaves open), and, at a read of CLK_AONSID, the coarse count, which is brought up to date. (R10,
R12, R512, R514) -/
def Obligations.RegisterReadsAndLatches : Prop :=
  (∀ (s : State) (p : Path) (off : BitVec 25) (r : RegAt), s.Reaches p false off.toNat 4 → regAt off.toNat = some r →
    let v := s.regAtBase off.toNat r
    let s1 : State := s.drawn r.id
    let answer (s : State) (x : Nat) : State := { s with outbox := s.outbox ++ [.data p (BitVec.ofNat 64 x)] }
    (r.high = false → r.wide = false → exec (.lowWordRead p off) s = .next (answer s1 (v % 2 ^ 32)))
    ∧ (r.high = false → r.wide = true → exec (.lowWordRead p off) s = .next (answer { s1 with
        paths := s.paths.set (pathIdx p) { s.paths[pathIdx p] with readHigh := BitVec.ofNat 32 (v / 2 ^ 32) } } (v % 2 ^ 32)))
    ∧ (r.high = true → exec (.lowWordRead p off) s = .next (answer s (s.paths[pathIdx p]).readHigh.toNat)))
  ∧ (∀ (s : State) (id : RegId), (id ≠ .clkAonsid → s.drawn id = { s with free := (s.drawn id).free })
      ∧ ∃ ph, s.drawn .clkAonsid = { s with aonSid := s.coarseNow, aon := { s.aon with phase := ph }, free := s.free + 1 })
  ∧ (∀ (s : State) (p : Path) (off : BitVec 25) (r r2 : RegAt) (t : DWord), s.Reaches p false off.toNat 8 →
    regAt off.toNat = some r → regAt (off.toNat + 4) = some r2 → r.high = false → r.wide = true → r2.high = true →
    let s0 : State := { s with now := t }
    let v := s0.regAtBase off.toNat r % 2 ^ 64
    ∃ u, exec (.qwordAccess p off none t) s = .next u ∧ u.outbox = s.outbox ++ [.data p (BitVec.ofNat 64 v)]
      ∧ u.regs = s.regs ∧ u.shadow = s.shadow ∧ u.gate = s.gate ∧ u.now = t ∧ u.cores = s.cores ∧ u.data = s.data)
  ∧ (∀ (s t : State) (p q : Path) (off : BitVec 25) (v : Word), p ≠ q →
    (exec (.lowWordRead p off) s = .next t ∨ exec (.lowWordWrite p off v) s = .next t) → t.paths[pathIdx q] = s.paths[pathIdx q])

/-- Writes of registers: staging, the commit of both words, immediate effect, and the writes that are discarded. For an
access that reaches its register: the write of the low word of a 64-bit register changes the staging register of its
path and nothing else; that of the high word writes the whole register with the staged low word, exactly as an aligned
8-byte write of both words does; the write of a one-word register writes it at once. A register whose bits simply hold
what is written (the bases and indexes of the queues and rings, the flash address, MER_CPMASK, the addresses and
lengths of readout, replay and streaming, the mailbox argument and command) then holds the written bits of the mask
listed for it, and nothing else changes. A write to a register of a fused-off resource, of a block that has not
started, or of a deterministic block in replay changes nothing. (R3, R11, R12, R25, R470, R497, R512, R514) -/
def Obligations.RegisterWritesCommitBothWords : Prop :=
  (∀ (s : State) (p : Path) (off : BitVec 25) (r : RegAt) (v : Word) (t : DWord), s.Reaches p true off.toNat 4 → regAt off.toNat = some r →
    (r.high = false → r.wide = true → exec (.lowWordWrite p off v) s = .next { s with
        paths := s.paths.set (pathIdx p) { s.paths[pathIdx p] with stagedLow := v } })
    ∧ (r.high = true → exec (.highWordWrite p off v t) s =
        .next (s.writeFull p (off.toNat - 4) r ((s.paths[pathIdx p]).stagedLow.toNat + 2 ^ 32 * v.toNat) t))
    ∧ (r.high = false → r.wide = false → exec (.registerWrite p off v t) s = .next (s.writeFull p off.toNat r v.toNat t)))
  ∧ (∀ (s : State) (p : Path) (off : BitVec 25) (r r2 : RegAt) (w t : DWord), s.Reaches p true off.toNat 8 →
    regAt off.toNat = some r → regAt (off.toNat + 4) = some r2 → r.high = false → r.wide = true → r2.high = true →
    let s1 : State := { s with now := t, paths := s.paths.set (pathIdx p) { s.paths[pathIdx p] with stagedLow := w.setWidth 32 } }
    exec (.qwordAccess p off (some w) t) s = .next (s1.writeFull p off.toNat r2 w.toNat t))
  ∧ (∀ (s : State) (p : Path) (base : Nat) (r : RegAt) (v : Nat) (t : DWord),
    (¬ s.Writable base r → s.writeFull p base r v t = s)
    ∧ (∀ lo hi mask : Nat, (r.id, lo, hi, mask) ∈ heldRegisters → lo ≤ base → base < hi → s.Writable base r → r.shad = false →
        let w := Nat.land v mask
        let low := assocSet s.regs base (BitVec.ofNat 32 w)
        s.writeFull p base r v t =
          { s with regs := if r.wide then assocSet low (base + 4) (BitVec.ofNat 32 (w / 2 ^ 32)) else low }))

/-- SHADOW_WRITE puts the value into the gate and changes no register in force. For a writable, shadowed, one-word
register that an access reaches, from a source whose clock domain runs: SHADOW_WRITE adds one input to the gate,
stamped by R22, of source 6 from host software and JTAG and of source 1 from the safety core, that carries the written
bits of the register's writable fields; nothing else changes, so every register in force and every shadow copy reads
as before. Released by the gate, it changes the shadow copy of that register alone. (R13, R22, R23, R36) -/
def Obligations.ShadowWritesChangeNothingInForce : Prop :=
  (∀ (s : State) (p : Path) (off : BitVec 25) (r : RegAt) (v : Word) (t : DWord), s.Reaches p true off.toNat 4 →
    regAt off.toNat = some r → r.shad = true → r.high = false → r.wide = false → s.Writable off.toNat r →
    s.eph.replay = false → s.stopped (gateDomain (srcOf p)) = false →
    exec (.shadowWrite p off v t) s =
      .next (s.gated t (srcOf p) [.shadow off.toNat (BitVec.ofNat 32 (Nat.land v.toNat (shadowMask r)))]))
  ∧ (∀ (x : Release) (stamp src off : Nat) (v : Word) (b : CBlock) (rest : List GateIn), blockOf off = some b →
    (∀ e ∈ x.snaps, e.1 ≠ b) →
    (x.one ⟨stamp, src, .shadow off v⟩ rest).st = { x.st with shadow := assocSet x.st.shadow off v })

/-- COMMIT_GO enters the gate; a commit applies whole, or fails validation and changes only REJECT and REASON. COMMIT_GO
with GO = 1 for a block whose commit register it reaches (no replay, block started, HOST clock running) adds one
commit input of source 6 to the gate, stamped by R22, and changes nothing else. When the boundary makes the commit: if
validation fails with a reason, only REJECT and REASON of that block change, and every register in force and every
shadow copy stays as it was; if validation succeeds, every register word that the commit carries holds the written
bits of its fields, every other word in force is unchanged, REJECT and REASON stay, and the shadow entries it took in
are gone. (R36, R37, R38) -/
def Obligations.CommitsApplyWholeOrNotAtAll : Prop :=
  (∀ (s : State) (b : CBlock) (t : DWord), s.Reaches .pcie true (cbBase b + 0xFFC) 4 → s.eph.replay = false →
    s.stopped 7 = false → s.blockUp (cbBase b) = true → exec (.commitGo b 1 t) s = .next (s.gated t 6 [.commit b]))
  ∧ (∀ (s : State) (b : CBlock) (snap : Bank),
    (∀ reason, s.validate snap = some reason → s.commitBlock b snap = { s with
        commits := s.commits.set (cbIdx b) { s.commits[cbIdx b] with reason := BitVec.ofNat 8 reason, reject := true } })
    ∧ (s.validate snap = none →
        ((snap.map Prod.fst).Nodup → ∀ e ∈ snap, ∀ r, regAt e.1 = some r →
          (s.commitBlock b snap).reg e.1 = BitVec.ofNat 32 (Nat.land e.2.toNat (heldMask r)))
        ∧ (∀ off : Nat, off ∉ snap.map Prod.fst → (s.commitBlock b snap).reg off = s.reg off)
        ∧ (s.commitBlock b snap).commits = s.commits ∧ (s.commitBlock b snap).comApplied = true
        ∧ (s.commitBlock b snap).shadow = s.shadow.filter (fun e => !snap.contains e)
        ∧ (s.commitBlock b snap).data = s.data ∧ (s.commitBlock b snap).cores = s.cores ∧ (s.commitBlock b snap).arms = s.arms))

/-- UNMAPPED_ACCESS and BAR2_WRITE: counters, error completions, the windows of BAR2, and closed paths. On an open path,
an access of wrong size or alignment adds 1 to BADSIZE and an aligned one that reaches no register adds 1 to UNMAPPED
(both saturate); over PCI Express a write does nothing more and a read completes with Unsupported Request. A JTAG
access without the scope it needs changes nothing. A BAR2 write into the planner data window of a powered device with
a running CORE domain stores exactly its bytes in data SRAM, one into the staging window in the flash staging buffer;
one into a read-only window changes nothing, and one past the windows adds 1 to UNMAPPED. (R491, R513, R515, R516,
R533) -/
def Obligations.BadAccessesAreCounted : Prop :=
  ∀ (s : State) (off : BitVec 25) (a : BitVec 28) (size : Nat) (w : Bool) (bs : List Byte),
    let good := (size = 4 ∨ size = 8) ∧ off.toNat % size = 0
    let err (s : State) : State := if w then s else { s with outbox := s.outbox ++ [.error .pcie 1] }
    (s.pathOpen .pcie w = true → ¬ good → exec (.unmappedAccess .pcie off size w) s =
      .next (err { s with host := { s.host with badSize := min 65535 (s.host.badSize + 1) } }))
    ∧ (s.pathOpen .pcie w = true → good → bar0Known off.toNat size = false → exec (.unmappedAccess .pcie off size w) s =
      .next (err { s with host := { s.host with unmapped := min 65535 (s.host.unmapped + 1) } }))
    ∧ (s.pathOpen .jtag w = false → exec (.unmappedAccess .jtag off size w) s = .next s)
    ∧ (s.powered = true → s.stopped 1 = false → 0x800000 ≤ a.toNat → a.toNat + bs.length ≤ 0x1000000 →
        exec (.bar2Write a bs) s = .next { s with data := s.data.writeN (a.toNat - 0x800000) bs })
    ∧ (s.powered = true → 0x1D00000 ≤ a.toNat → a.toNat + bs.length ≤ 0x1D01000 → a.toNat < 0x1D01000 →
        exec (.bar2Write a bs) s = .next { s with host := { s.host with staging := s.host.staging.writeN (a.toNat - 0x1D00000) bs } })
    ∧ (s.powered = true → (a.toNat < 0x800000 ∨ (0x1000000 ≤ a.toNat ∧ a.toNat < 0x1D00000)) → exec (.bar2Write a bs) s = .next s)
    ∧ (s.powered = true → 0x1D01000 ≤ a.toNat → exec (.bar2Write a bs) s =
        .next { s with host := { s.host with unmapped := min 65535 (s.host.unmapped + 1) } })

/-- Loads and stores of the safety core through its BAR0 window. For a safety core that may run it, with an aligned word
address in the window 0x4100_0000 and a register there in a running domain: LW writes the sign-extended word of the
read to gd, with the read's effect on the latch of the SAF path; SW writes the register as a write on the SAF path
does, at the model's current time (log entry 43). A load or store of a byte or halfword counts in BADSIZE, an LW or SW
that reaches no register in UNMAPPED, and each raises ACCESS with the address as TVAL. An SW to a register whose clock
domain is stopped is dropped and leaves 0xFFFE as the mailbox result. (R114, R347, R491, R513, R12) -/
def Obligations.SafetyCoreWindowAccesses : Prop :=
  ∀ (s : State) (rd ra : Fin 32) (imm : BitVec 12) (off : Nat) (e : Ecc),
    let k := s.core 9
    let a := k.rg ra + imm.signExtend 64
    off < 0x2000000 → a.toNat = 0x41000000 + off →
    (s.mayRun 9 .load [.g ra] (dstG rd) = true → off % 4 = 0 → bar0Known off 4 = true → s.accKind .saf false off = .ok →
      ∃ t u : Core, let s1 := s.setCore 9 (k.retimed t)
        exec (.lw 9 rd ra imm e) s = .next ((s1.readBar0 .saf off 4).2.modCore 9 fun k =>
          (k.wg rd ((BitVec.ofNat 32 (s1.readBar0 .saf off 4).1).signExtend 64)).adv.retimed u))
    ∧ (s.mayRun 9 .load [.g ra] (dstG rd) = true → off % 4 = 0 → bar0Known off 4 = false →
      Traps { s with host := { s.host with unmapped := min 65535 (s.host.unmapped + 1) } } 9 (exec (.lw 9 rd ra imm e) s) 2 a)
    ∧ (s.mayRun 9 .load [.g ra] (dstG rd) = true →
      let counted : State := { s with host := { s.host with badSize := min 65535 (s.host.badSize + 1) } }
      Traps counted 9 (exec (.lb 9 rd ra imm e) s) 2 a ∧ Traps counted 9 (exec (.lbu 9 rd ra imm e) s) 2 a
      ∧ (off % 2 = 0 → Traps counted 9 (exec (.lh 9 rd ra imm e) s) 2 a ∧ Traps counted 9 (exec (.lhu 9 rd ra imm e) s) 2 a))
    ∧ (s.mayRun 9 .store [.g ra, .g rd] none = true →
      let counted : State := { s with host := { s.host with badSize := min 65535 (s.host.badSize + 1) } }
      Traps counted 9 (exec (.sb 9 rd ra imm e) s) 2 a ∧ (off % 2 = 0 → Traps counted 9 (exec (.sh 9 rd ra imm e) s) 2 a)
      ∧ (off % 4 = 0 → bar0Known off 4 = false →
        Traps { s with host := { s.host with unmapped := min 65535 (s.host.unmapped + 1) } } 9 (exec (.sw 9 rd ra imm e) s) 2 a))
    ∧ (s.mayRun 9 .store [.g ra, .g rd] none = true → off % 4 = 0 → bar0Known off 4 = true → s.accKind .saf true off = .ok →
      ∃ t u : Core, let s1 := s.setCore 9 (k.retimed t)
        exec (.sw 9 rd ra imm e) s = .next ((s1.writeBar0 .saf off 4 (k.rg rd) s1.now).modCore 9 fun k => k.adv.retimed u))
    ∧ (s.mayRun 9 .store [.g ra, .g rd] none = true → off % 4 = 0 → bar0Known off 4 = true → s.accKind .saf true off = .stopped →
      ∃ t : Core, exec (.sw 9 rd ra imm e) s = .next { s.setCore 9 (k.adv.retimed t) with
        saf := { s.saf with mbx := { s.saf.mbx with result := 0xFFFE } } })

/-- A tick boundary starts the next tick on the Almanac of the last one; publication and push of the Almanac.
TICK_BOUNDARY, while the tick sequencer runs, the CORE domain too, and the block is neither in Quiet nor in a stopped
replay: the epoch rises by one, now is the start of that tick, the view of the new tick is the Almanac last published,
no gate input with a stamp up to the new epoch waits any more, and every planner core is at TCYCLE 0. In Quiet it
stops the sequencer instead and changes nothing else; with the CORE domain stopped nothing happens. ALMANAC_PUBLISH
while the sequencer runs: the Almanac of this tick is published (epoch, start time, plan generation, 128 axes, 8 arms,
8 lines), program areas included, LATE_PUSH is set where the previous push still ran, and a push of the new one, to
slot epoch mod 2^SLOTS_LOG2 at ALM_PUSH_BASE + slot x 0x2000, begins exactly where pushes are enabled. ALMANAC_PUSH
ends a push: its slot is written in ascending order, the header EPOCH first and the trailer EPOCH last, and vector 2
is raised after slot 0; an error that the read meets is counted. (R18, R22, R26, R30, R32, R34, R46, R492) -/
def Obligations.TickBoundaryAndAlmanac : Prop :=
  (∀ s : State, s.running = true → s.stopped 1 = false → s.boot.power ≠ .quiet → (s.eph.replay = true → s.eph.rpRun = true) →
    ∃ t : State, exec .tickBoundary s = .next t ∧ t.epoch = s.epoch + 1 ∧ t.now = BitVec.ofNat 64 ((s.epoch + 1) * s.tTick)
      ∧ t.view = s.published ∧ t.running = true ∧ (∀ c : Fin 9, (t.core c.castSucc).cyc = 0)
      ∧ t.published = s.published ∧ t.gate = s.gate.filter (fun g => !decide (g.stamp ≤ s.epoch + 1)))
  ∧ (∀ s : State, s.running = true → s.stopped 1 = false → s.boot.power = .quiet → exec .tickBoundary s = .next { s with running := false })
  ∧ (∀ s : State, s.stopped 1 = true → exec .tickBoundary s = .next s)
  ∧ (∀ s : State, s.running = true →
    ∃ (t : State) (a : Almanac), exec .almanacPublish s = .next t ∧ t.published = some a
      ∧ a.epoch = BitVec.ofNat 64 s.epoch ∧ a.t0 = BitVec.ofNat 64 (s.epoch * s.tTick) ∧ a.planGen = s.planGen
      ∧ a.axes.length = 128 ∧ a.arms.length = 8 ∧ a.lines.length = 8
      ∧ (∀ c : Fin 9, nth a.areas c.val [] = bytesAt (match (s.core c.castSucc).areaNow with | some b => b | none => (s.core c.castSucc).area) 0 256)
      ∧ t.pushLate = (s.pushLate || s.push.isSome)
      ∧ t.push = (if (s.reg 0x20010).getLsbD 0 = true ∧ s.host.pushOff = false ∧ s.host.susp.getLsbD 0 = false then
          let slot := s.epoch % 2 ^ 64 % 2 ^ ((s.reg 0x20010).extractLsb' 4 4).toNat
          some ⟨slot, (s.reg 0x2001C ++ s.reg 0x20018) + BitVec.ofNat 64 (slot * 0x2000), a⟩
        else none)
      ∧ t.epoch = s.epoch ∧ t.regs = s.regs ∧ t.data = s.data ∧ t.arms = s.arms ∧ t.view = s.view)
  ∧ ∀ (s : State) (p : PushDma) (e : Ecc), s.push = some p →
    let s1 : State := { s with push := none, outbox := s.outbox ++ [
      .host p.addr (leBytes p.alm.epoch.toNat 8), .host (p.addr + 8) ((List.range 0x1FF0).map fun i => p.alm.byte (8 + i)),
      .host (p.addr + 0x1FF8) (leBytes p.alm.epoch.toNat 8)] }
    exec (.almanacPush e) s = .next ((if p.slot = 0 then s1.msix 2 else s1).eccNote 6 e)

/-- The cut-over puts every staged plan in force at once or none, and an accepted append joins its active plan. CUTOVER
with a request of an earlier tick waiting. In run, with the checks of R169 passed on every arm that has a staged plan:
PLAN_GEN rises by one, each of those arms runs its staged segments from segment 1 with an empty staged queue and its
own generation one higher, every other arm is as before, and each asking core is told OK one boundary later. Where an
arm fails a check, the first failing arm decides: no arm and no PLAN_GEN changes, CUT_FAIL is set and each asking core
is told INVALID with the arm and the cause. Outside run nothing changes and each is told DUSK. Without a request
nothing happens. SEGA_APPLY with one append of core k waiting: in run, a segment that passes the checks is added
behind the active segments of arm k, or starts a plan where none is active; one that fails, or meets a plan of 64
segments (FULL, the model's choice of log entry 94), or one outside run, changes no arm and tells core k. No register,
core, memory, auxiliary axis or Almanac changes in any case. (R42, R43, R44, R45, R125, R126, R144, R169, R170, R171) -/
def Obligations.CutoverAndAppendResults : Prop :=
  (∀ s : State, s.dueReqs Req.isCut = [] → exec .cutover s = .next s)
  ∧ (∀ s : State, s.dueReqs Req.isCut ≠ [] → s.coreSafety = .run → (∀ x ∈ s.stagedArms, s.cutCause x.1 x.2 = none) →
    ∃ t : State, exec .cutover s = .next t ∧ t.planGen = s.planGen + 1 ∧ t.cutApplied = true ∧ s.SameBesideArms t
      ∧ t.reqs = (s.dropDue Req.isCut).reqs ∧ s.Told t Req.isCut (mkEv 0x10 0xFF 0)
      ∧ (∀ x ∈ s.stagedArms, t.arms[x.1].staged = [] ∧ t.arms[x.1].gen = s.arms[x.1].gen + 1
          ∧ t.arms[x.1].active = s.arms[x.1].staged.map (fun d => ({ d := d } : ActSeg))
          ∧ t.arms[x.1].stopping = .no ∧ t.arms[x.1].stopped = false ∧ t.arms[x.1].s = 0 ∧ t.arms[x.1].handK = 0)
      ∧ ∀ k : Fin 8, (∀ x ∈ s.stagedArms, x.1 ≠ k) → t.arms[k] = s.arms[k])
  ∧ (∀ (s : State) (pre post : List (Fin 8 × ArmProf)) (k : Fin 8) (p : ArmProf) (cause : Nat),
    s.dueReqs Req.isCut ≠ [] → s.coreSafety = .run → s.stagedArms = pre ++ (k, p) :: post →
    (∀ x ∈ pre, s.cutCause x.1 x.2 = none) → s.cutCause k p = some cause →
    ∃ t : State, exec .cutover s = .next t ∧ t.arms = s.arms ∧ t.planGen = s.planGen ∧ t.cutFail = true ∧ s.SameBesideArms t
      ∧ s.Told t Req.isCut (mkEv 0x10 k.val (0x09 + cause * 256)))
  ∧ (∀ s : State, s.dueReqs Req.isCut ≠ [] → s.coreSafety ≠ .run →
    ∃ t : State, exec .cutover s = .next t ∧ t.arms = s.arms ∧ t.planGen = s.planGen ∧ t.cutFail = s.cutFail ∧ s.SameBesideArms t
      ∧ s.Told t Req.isCut (mkEv 0x10 0xFF 0x02))
  ∧ ∀ (s : State) (k : Fin 8) (e : Nat) (d : SegDesc) (p : ArmProf), s.dueReqs Req.isSega = [⟨k.castSucc, e, .sega d⟩] →
    s.armProf k.val = some p →
    let s1 := s.dropDue Req.isSega
    let tell (data : Nat) : State := s1.cellEvent k.castSucc 0x13 k.val data
    exec .segaApply s = .next (
      if s.coreSafety ≠ .run then tell 0x02
      else if 64 ≤ s.arms[k].active.length then tell 0x01
      else match s.appendCause k p d with
        | some cause => tell (0x09 + cause * 256)
        | none =>
          if s.arms[k].active = [] then s1.startPlan k p [d]
          else s1.modArm k fun a => { a with active := a.active ++ [{ d := d }] })

/-- Ramp stops: where they start and end; the ends of the handover term and of a timed dwell. RAMP_STOP_APPLY: every arm
of the profile that a waiting STOP of an earlier tick names, or whose MISSSTOP is due, has its staged queue emptied,
its unfired actions withheld and its ramp stop begun (an arm already stopped stays so), with its active segments, path
parameter and commands as they were; every other arm is as before. RAMP_STOP_REST: an arm in a ramp stop whose speed
is 0 and whose handover term has ended drops its segments, keeps the SEGID of the one it rests in, and is stopped.
HANDOVER_END: the handover term ends once 64 ticks have been counted, and not before. DWELL_EXPIRE: a timed dwell
whose time has not passed is left alone, and in STO every one is. (R128, R162, R164, R165, R170, R172) -/
def Obligations.StopAndSegmentEndResults : Prop :=
  (∀ s : State, ∃ t : State, exec .rampStopApply s = .next t ∧ t.reqs = (s.dropDue Req.isStop).reqs ∧ s.SameBesideArms t
      ∧ t.planGen = s.planGen
      ∧ ∀ k : Fin 8,
        let hit := (s.armProf k.val).isSome = true
          ∧ (s.arms[k].missStop = true ∨ ∃ x ∈ s.dueReqs Req.isStop, ∃ m : BitVec 8, x.req = .stop m ∧ m.getLsbD k.val = true)
        (¬ hit → t.arms[k] = s.arms[k])
        ∧ (hit → t.arms[k] = { s.arms[k] with
            staged := [], missStop := false, late := [], active := s.arms[k].active.map (fun x => { x with actDone := true })
            stopping := if s.arms[k].stopped then s.arms[k].stopping else .stop }))
  ∧ (∀ (s : State) (k : Fin 8) (x : ActSeg) (rest : List ActSeg), s.arms[k].stopping = .stop → s.arms[k].active = x :: rest →
    f64IsZero s.arms[k].sigma = true → s.arms[k].handE = [] →
    exec (.rampStopRest k) s = .next { s with arms := s.arms.set k { s.arms[k] with
      lastSegId := x.d.segId, active := [], run := none, s := 0, sigma := 0, acc := 0, base := s.arms[k].cmd
      stopping := .no, stopped := true } })
  ∧ (∀ (s : State) (k : Fin 8), s.arms[k].stopping ≠ .stop → exec (.rampStopRest k) s = .next s)
  ∧ (∀ (s : State) (k : Fin 8), exec (.handoverEnd k) s = .next (if 64 ≤ s.arms[k].handK then
      { s with arms := s.arms.set k { s.arms[k] with handE := [], handK := 0 } } else s))
  ∧ (∀ (s : State) (k : Fin 8) (x : ActSeg) (rest : List ActSeg) (run : RunSeg), s.arms[k].active = x :: rest →
    s.arms[k].run = some run →
    (x.d.timed = true → x.d.dwellNs.toNat ≤ (s.epoch + 1 - run.nStart) * s.tTick → s.coreSafety ≠ .sto →
      exec (.dwellExpire k) s = .next (State.settleArm k 65 s))
    ∧ ((s.epoch + 1 - run.nStart) * s.tTick < x.d.dwellNs.toNat ∨ x.d.timed = false ∨ s.coreSafety = .sto →
      exec (.dwellExpire k) s = .next s))
  ∧ ∀ (s : State) (k : Fin 8) (x : ActSeg) (run : RunSeg), s.arms[k].active = [x] → s.arms[k].run = some run →
    ∃ t : State, exec (.dwellExpire k) s = .next t
      ∧ (x.d.timed = true → x.d.dwellNs.toNat ≤ (s.epoch + 1 - run.nStart) * s.tTick → s.coreSafety ≠ .sto →
        t.arms[k].active = [] ∧ t.arms[k].base = x.d.endPoint run.q0)

/-- Auxiliary axes: the append of moves, STOP descriptors, the end of a stop, the stall lock, and step batches. AUXQ_APPLY
with one descriptor waiting. A move in run that passes R184 is put behind the queue of its axis; one that fails tells
the cell core INVALID with the cause; outside run a move or a STOP is told DUSK, and no axis changes. A STOP in run
empties the queue: an axis in motion begins its ramp stop and keeps the STOP waiting with the number of moves it
discarded, an axis at rest is told OK with that number at once. AUX_STOP_DONE: once speed and acceleration are 0 each
waiting STOP is told OK, and the axis is free, or in its Dusk stop in Dusk. AUX_STALL: the sentinel raises 0x0D02,
takes the stall lock, empties the queue and starts a ramp stop; CLR_STALL with a committed clear releases the lock.
STEP_BATCH: outside STO a channel emits the difference of its last two commands, each step high for PW, takes the
current code on IREF, and turns DIR where the sign changed; in STO it emits nothing and IREF is 0. (R184, R185, R190,
R191, R192, R195, R197, R198, R199, R200) -/
def Obligations.AuxiliaryMoveResults : Prop :=
  (∀ (s : State) (c : Fin 9) (e : Nat) (a : Fin 128) (m : AuxMove) (p : AuxProf), s.dueReqs Req.isAuxq = [⟨c, e, .auxq a m⟩] →
    s.auxProf a.val = some p →
    let s1 := s.dropDue Req.isAuxq
    let g := s.aux[a]
    if m.isStop = true then
      if s.coreSafety ≠ .run then exec .auxqApply s = .next (s1.auxEvent a.val m.moveId 0x02 0)
      else ∃ t : State, exec .auxqApply s = .next t ∧ t.aux[a].queue = [] ∧ t.aux[a].start = none ∧ t.aux[a].v = g.v
        ∧ (∀ b : Fin 128, b ≠ a → t.aux[b] = s.aux[b]) ∧ t.arms = s.arms ∧ t.regs = s.regs ∧ t.data = s.data
        ∧ (f64IsZero g.v = true ∧ f64IsZero g.aprev = true →
          (s.epoch + 1, 8, mkEv 0x15 a.val (g.queue.length * 256 + m.moveId.toNat % 65536 * 65536)) ∈ t.cellEvs)
        ∧ (¬ (f64IsZero g.v = true ∧ f64IsZero g.aprev = true) →
          t.aux[a].stopping = .stop ∧ t.aux[a].stops = g.stops ++ [(m.moveId, g.queue.length)])
    else exec .auxqApply s = .next (
      if s.coreSafety ≠ .run then s1.auxEvent a.val m.moveId 0x02 0
      else match auxCause p g m with
        | some x => s1.auxEvent a.val m.moveId 0x09 x
        | none => s1.modAux a fun g => { g with queue := g.queue ++ [m] }))
  ∧ (∀ (s : State) (a : Fin 128), s.aux[a].stopping = .stop → f64IsZero s.aux[a].v = true → f64IsZero s.aux[a].aprev = true →
    ∃ t : State, exec (.auxStopDone a) s = .next t
      ∧ t.aux = s.aux.set a { s.aux[a] with stops := [], stopping := if s.coreSafety == .dusk then .dusk else .no }
      ∧ t.cellEvs = s.cellEvs ++ s.aux[a].stops.map
          (fun x => (s.epoch + 1, 8, mkEv 0x15 a.val (x.2 * 256 + x.1.toNat % 65536 * 65536)))
      ∧ t.arms = s.arms ∧ t.regs = s.regs ∧ t.data = s.data ∧ t.cores = s.cores)
  ∧ (∀ (s : State) (a : Fin 128), s.aux[a].stallDue = true →
    ∃ t : State, exec (.auxStall a) s = .next t ∧ t.aux[a].stallLock = true ∧ t.aux[a].stallDue = false ∧ t.aux[a].queue = []
      ∧ t.aux[a].start = none ∧ t.aux[a].stopping ≠ .no ∧ (∃ r ∈ t.reports, r.code = 0x0D02 ∧ r.cls = 1)
      ∧ (∀ b : Fin 128, b ≠ a → t.aux[b] = s.aux[b]) ∧ t.arms = s.arms ∧ t.regs = s.regs ∧ t.data = s.data)
  ∧ (∀ (s : State) (a : Fin 128), assocHas s.due (0xD100C + a.val * 0x40) = true →
    exec (.clrStall a) s = .next { s with
      aux := s.aux.set a { s.aux[a] with stallLock := false }, due := assocDel s.due (0xD100C + a.val * 0x40) })
  ∧ ∀ (s : State) (c : Fin 16) (p : AuxProf), s.chanAxis c.val = some p →
    ∃ t : State, exec (.stepBatch c) s = .next t ∧ t.aux = s.aux ∧ t.arms = s.arms ∧ t.regs = s.regs
      ∧ (∀ d : Fin 16, d ≠ c → t.chans[d] = s.chans[d])
      ∧ (s.coreSafety = .sto → t.chans[c].iref = 0 ∧ t.chans[c].last = 0 ∧ t.chans[c].dir = s.chans[c].dir ∧ t.outbox = s.outbox)
      ∧ (s.coreSafety ≠ .sto →
        let n := s.aux[p.ax].cmd0 - s.aux[p.ax].cmd1
        t.chans[c].last = n ∧ t.chans[c].iref = s.aux[p.ax].icur
        ∧ (n = 0 → t.outbox = s.outbox ∧ t.chans[c].dir = s.chans[c].dir ∧ t.chans[c].lastNeg = s.chans[c].lastNeg)
        ∧ (n ≠ 0 → t.chans[c].dir = (s.chans[c].dir != (decide (n < 0) != s.chans[c].lastNeg)) ∧ t.chans[c].lastNeg = decide (n < 0)
          ∧ ∃ r : List Nat, r.length = n.natAbs ∧ t.outbox = s.outbox ++ [.steps c n
              (t.chans[c].dir != (s.reg (0xD0100 + c.val * 0x20)).getLsbD 24) r (4 * ((s.reg (0xD0100 + c.val * 0x20)).setWidth 8).toNat)
              ((s.reg (0xD0100 + c.val * 0x20)).getLsbD 25)]))

/-- A solver job from admission to delivery: admitted, started, ended, delivered, expired and cancelled. JOB_ADMIT with
one job waiting: it enters the queue (ahead of every job without priority if it has priority) with the epoch and the
axis and arm records of the Almanac view of this tick. JOB_START: a job that is first in the queue and finds enough of
its allowed tiles free starts on the lowest of them at this cycle, its input read now; none starts at or after RUNCYC
or while the sequencer is stopped. JOB_END: in the tick and cycle in which its cycle count ends, the running job frees
its tiles and waits for delivery (a corrected error that it read is counted); at an uncorrectable error it ends at
once with outcome 5 and raises 0x0801. JOB_EXPIRE: TICKMAX ticks after admission a waiting or running job ends with
outcome 4, not earlier. JOB_CANCEL_APPLY: a cancelled waiting job ends with outcome 3 at cycle 0. JOB_DELIVERY: with
one job ended in an earlier tick, its output (unless it ended without one) and then its status word stand in data
memory at the addresses the job gave, its handle and outcome are listed as delivered, its outcome is counted, and its
core gets event 0x11. (R133, R135, R206, R207, R210, R218, R222, R223, R225, R226) -/
def Obligations.SolverJobCommandResults : Prop :=
  (∀ (s : State) (c : Fin 9) (e : Nat) (j : Job), s.dueReqs Req.isJob = [⟨c, e, .job j⟩] →
    exec .jobAdmit s = .next { s.dropDue Req.isJob with solver := { s.solver with
      queue := queueInsert { j with
        admitAt := s.epoch
        axes := (s.jobArms j.d.armMask).flatMap fun p => p.joints.map fun a =>
          match s.view with | some v => nth v.axes a.val {} | none => {}
        arms := (List.range 8).filterMap fun k =>
          if j.d.armMask.getLsbD k then some (match s.view with | some v => nth v.arms k {} | none => {}) else none } s.solver.queue } })
  ∧ (∀ (s : State) (j : Job), s.running = true → s.solver.clock < s.runcyc → s.solver.queue = [j] →
    j.d.nt.toNat ≤ popcount4 (j.allowed &&& ~~~ s.solver.busy) →
    ∃ j' : Job, exec .jobStart s = .next { s with solver := { s.solver with queue := [], running := s.solver.running ++ [j'] } }
      ∧ j'.handle = j.handle ∧ j'.started = some (s.epoch, s.solver.clock) ∧ popcount4 j'.tiles = j.d.nt.toNat
      ∧ j'.tiles &&& s.solver.busy = 0 ∧ j'.tiles &&& ~~~ j.allowed = 0)
  ∧ (∀ s : State, (s.running = false ∨ s.runcyc ≤ s.solver.clock) → exec .jobStart s = .next s)
  ∧ (∀ (s : State) (j : Job) (b s0 : Nat), s.solver.running = [j] → j.started = some (b, s0) →
    let last := s0 + j.result.cycles - 1
    b + last / s.runcyc = s.epoch →
    ∀ err : Ecc, err ≠ .uncorr → ∃ t : State, exec (.jobEnd j.handle err) s = .next t ∧ t.solver.running = []
      ∧ t.solver.eccCorr = min 65535 (s.solver.eccCorr + if err = .corrected then 1 else 0) ∧ t.solver.clock = last % s.runcyc + 1
      ∧ t.solver.ended = s.solver.ended ++ [{ j with ended := some (s.epoch, last % s.runcyc) }]
      ∧ (∀ k : Fin 4, t.solver.tileBusy[k] = s.solver.tileBusy[k] + (if j.tiles.getLsbD k.val then j.result.cycles else 0))
      ∧ t.data = s.data ∧ t.cores = s.cores ∧ t.solver.queue = s.solver.queue)
  ∧ (∀ (s : State) (j : Job), s.solver.queue = [] → s.solver.running = [j] →
    ∃ (t : State) (x : Job), exec (.jobEnd j.handle .uncorr) s = .next t ∧ t.solver.running = [] ∧ t.solver.ended = s.solver.ended ++ [x]
      ∧ x.handle = j.handle ∧ x.result.code = 5 ∧ t.solver.eccUncorr = true ∧ (∃ r ∈ t.reports, r.code = 0x0801 ∧ r.cls = 2)
      ∧ t.data = s.data ∧ t.cores = s.cores)
  ∧ (∀ (s : State) (j : Job), s.solver.queue = [j] → s.solver.running = [] → j.d.tickMax ≠ 0 →
    exec (.jobExpire j.handle) s = .next (if j.admitAt + j.d.tickMax.toNat ≤ s.epoch + 1 then
      { s with solver := { s.solver with
          queue := [], ended := s.solver.ended ++ [{ j with ended := some (s.epoch, s.runcyc), result := { code := 4 } }] } }
      else s))
  ∧ (∀ (s : State) (c : Fin 9) (e : Nat) (j : Job), s.dueReqs Req.isJcancel = [⟨c, e, .jcancel j.handle⟩] →
    s.dueReqs Req.isJob = [] → (∀ x ∈ s.reqs, x.req.isJob = false) → s.solver.queue = [j] → s.solver.running = [] →
    exec .jobCancelApply s = .next { s.dropDue Req.isJcancel with solver := { s.solver with
      queue := [], ended := s.solver.ended ++ [{ j with ended := some (s.epoch, 0), result := { code := 3 } }] } })
  ∧ ∀ (s : State) (j : Job) (e cyc : Nat), s.solver.ended = [j] → j.ended = some (e, cyc) → e < s.epoch →
    j.d.outLen.toNat ≤ 100000 →
    let base := j.core.val * (s.prof.priv64k * 65536)
    let output := s.data.writeN (base + (j.d.outAddr.toNat - 0x10000000)) (j.result.output.take j.d.outLen.toNat)
    let before : Memory := if j.result.writes then output else s.data
    let o := j.result.code.toNat % 256
    exec .jobDelivery s = .next (({ s with
      data := before.writeN (base + (j.d.stAddr.toNat - 0x10000000)) (s.statusWord j)
      solver := { s.solver with
        ended := [], delivered := s.solver.delivered ++ [(j.handle, j.result.code)]
        done := Vector.ofFn fun i => if i.val = o then min (2 ^ 32 - 1) (s.solver.done[i] + 1) else s.solver.done[i] } } : State).deliver
          j.core (mkEv 0x11 0 j.handle.toNat) 3)

/-- The journal: a JREC of the last tick takes the lowest free entry, and a JDONE frees its entry and posts its
completion. JOURNAL_COMMIT with one JREC waiting and an entry free: the lowest free entry takes the sequence number,
core, ring, ring index, epoch and the 64 command bytes, it becomes the last committed sequence number, and outside a
replay the AON domain keeps it too. JDONE_COMMIT with one JDONE waiting whose sequence number the journal holds: that
entry is freed and a completion record with its ring, index and tag and the given result joins the records to be
written. Nothing else changes, but the request. (R139, R473, R474, R524) -/
def Obligations.JournalCommitResults : Prop :=
  (∀ (s : State) (c : Fin 9) (e i : Nat) (seq ridx : Word) (idem : Bool) (ring : Byte) (b : List Byte),
    s.dueReqs Req.isJrec = [⟨c, e, .jrec seq idem ring ridx b⟩] → s.jrn.freeIdx = some i →
    exec .journalCommit s = .next { s.dropDue Req.isJrec with
      jrn := { s.jrn with entries := assocSet s.jrn.entries i ⟨seq, idem, c, ring, ridx, s.epoch, bytesAt b 0 64⟩, last := seq }
      aon := if s.eph.replay then s.aon else { s.aon with jseq := seq } })
  ∧ ∀ (s : State) (c : Fin 9) (e i : Nat) (x : JEntry) (seq : Word) (result : BitVec 16),
    s.dueReqs Req.isJdone = [⟨c, e, .jdone seq result⟩] → s.jrn.entries.find? (fun y => y.2.seq == seq) = some (i, x) →
    s.host.backlog.length < 4096 →
    exec .jdoneCommit s = .next { s.dropDue Req.isJdone with
      jrn := { s.jrn with entries := assocDel s.jrn.entries i }
      host := { s.host with backlog := s.host.backlog ++
        [⟨x.seq, result, x.ring, false, x.ridx, BitVec.ofNat 32 (valAt x.cmd 0 4)⟩] } }

/-- The quadrature decoder of a line and its index events. LINE_EDGE: each channel is the level that two of its last three
samples agree on; a pair that has not changed changes nothing, one step forward in the order 00, 10, 11, 01 counts +1
(or -1 with DIR = 1), one step back the opposite, and a change of both channels is a QERR, which counts nothing, adds
2 to the uncertainty and 1 to the QERR count (each saturating at 65535), and makes the fault due at the 8th QERR in
1024 samples. LINE_INDEX: a condition (the filtered index, qualified by the pair where the line says so) that was
false on the sample before latches the extended count and the time; against the index before it, in the same direction
with no reversal between, a distance within the tolerance of the period clears the uncertainty, one outside raises it
to at least the difference and raises 0x0E02. No other line, register, arm or memory changes. (R56, R57, R59, R60,
R63, R64) -/
def Obligations.LineDecoderResults : Prop :=
  (∀ (s : State) (n : Fin 8) (a b : BitVec 3) (sample : Nat),
    let l := s.lines[n]
    let new := abOf (majority a) (majority b)
    let one : Int := if (s.lineProf n.val).dir then -1 else 1
    ∃ l' : Line, exec (.lineEdge n a b sample) s = .next (s.modLine n fun _ => l')
      ∧ l'.ab = new ∧ l'.ext = l.ext ∧ l'.hwLatch = l.hwLatch ∧ l'.latch = l.latch ∧ l'.idxCnt = l.idxCnt ∧ l'.fault = l.fault
      ∧ (new = l.ab → l'.hw = l.hw)
      ∧ (new = upOf l.ab → l'.hw = l.hw + BitVec.ofInt 32 one)
      ∧ (l.ab = upOf new → l'.hw = l.hw - BitVec.ofInt 32 one)
      ∧ (new = l.ab ∨ new = upOf l.ab ∨ l.ab = upOf new → l'.uncert = l.uncert ∧ l'.qerr = l.qerr ∧ l'.faultDue = l.faultDue)
      ∧ (new ^^^ l.ab = 3 → l'.hw = l.hw ∧ l'.uncert = min 65535 (l.uncert + 2) ∧ l'.qerr = min 65535 (l.qerr + 1)
          ∧ sample ∈ l'.window ∧ (∀ x, x ∈ l'.window → x = sample ∨ x ∈ l.window)
          ∧ l'.faultDue = (l.faultDue || decide (8 ≤ (l'.window.filter fun x => decide (x ≤ sample) && decide (sample < x + 1024)).length))))
  ∧ ∀ (s : State) (n : Fin 8) (z : BitVec 3) (t : DWord),
    let l := s.lines[n]
    let p := s.lineProf n.val
    let cond := majority z && (p.idxMode == 1 || (p.idxMode == 2 && l.ab == p.zqual))
    ∃ u : State, exec (.lineIndex n z t) s = .next u ∧ u.now = t ∧ u.lines[n].zCond = cond ∧ u.lines[n].hw = l.hw
      ∧ (∀ m : Fin 8, m ≠ n → u.lines[m] = s.lines[m]) ∧ u.regs = s.regs ∧ u.arms = s.arms ∧ u.data = s.data
      ∧ (cond = false ∨ l.zCond = true → u.lines[n] = { l with zCond := cond } ∧ u.reports = s.reports)
      ∧ (cond = true → l.zCond = false →
        let c := l.ext + (l.hw - l.hwLatch).toInt
        u.lines[n].idxSeen = true ∧ u.lines[n].idxCnt = c ∧ u.lines[n].idxTime = t
        ∧ ∀ (c0 : Int) (rev : Bool), l.idxRef = some (c0, l.dirLast, rev) →
          let off := (((c - c0).natAbs : Int) - p.period).natAbs
          (p.period = 0 ∨ rev = true ∨ l.dirLast = 0 → u.lines[n].uncert = l.uncert ∧ u.reports = s.reports)
          ∧ (p.period ≠ 0 → rev = false → l.dirLast ≠ 0 → off ≤ p.tol → u.lines[n].uncert = 0 ∧ u.reports = s.reports)
          ∧ (p.period ≠ 0 → rev = false → l.dirLast ≠ 0 → p.tol < off →
              u.lines[n].uncert = min 65535 (max l.uncert off) ∧ ∃ r ∈ u.reports, r.code = 0x0E02 ∧ r.cls = 1 ∧ r.stamp = t))

/-- The latch of a line in every tick, its fault, and the committed clears. LINE_LATCH while the sequencer runs: the
extended count takes in what the hardware count moved since the last latch, and the latch holds it with the time,
uncertainty, QERR count, fault and index data; the fault is set where it was due, or where the window still holds 8
QERRs at a clear; a disabled line latches zeros; in a replay the edge only keeps the extended count current, as
LINE_IDLE_LATCH does while the sequencer is stopped. LINE_FAULT: once the latch shows the fault it is raised once,
with the latch's time, as F2 that permits the hold where a segment names the line and F1 otherwise. LIN_CLR_FAULT,
CLR_UNCERT and CLR_QERR with their committed bit waiting take the bit away and, outside a replay, clear the fault with
its waiting condition, the uncertainty or the QERR count; without it they do nothing. LIN_SIDEREAL_READ answers the
low word of the Sidereal time and latches the high word for that path. (R52, R60, R61, R62, R65, R66, R69, R70) -/
def Obligations.LineLatchAndClearResults : Prop :=
  (∀ (s : State) (n : Fin 8) (t : DWord), s.running = true → s.eph.replay = false →
    let l := s.lines[n]
    let again := match l.clrSample with | some x => decide (8 ≤ windowCount l.window x) | none => false
    let ext := l.ext + (l.hw - l.hwLatch).toInt
    let fault := l.fault || l.faultDue || again
    ∃ l' : Line, exec (.lineLatch n t) s = .next (({ s with now := t } : State).modLine n fun _ => l')
      ∧ l'.ext = ext ∧ l'.hw = l.hw ∧ l'.hwLatch = l.hw ∧ l'.fault = fault ∧ l'.faultDue = false ∧ l'.clrSample = none
      ∧ l'.latch = (if (s.lineProf n.val).en then ⟨ext, t, l.uncert, l.qerr, fault, l.idxCnt, l.idxTime, l.idxSeen⟩ else {}))
  ∧ (∀ (s : State) (n : Fin 8) (t : DWord), s.running = false → exec (.lineLatch n t) s = .next s)
  ∧ (∀ (s : State) (n : Fin 8) (t : DWord), s.running = true → s.eph.replay = true → exec (.lineLatch n t) s = .next { s with
      lines := s.lines.set n { s.lines[n] with
        ext := s.lines[n].ext + (s.lines[n].hw - s.lines[n].hwLatch).toInt, hwLatch := s.lines[n].hw } })
  ∧ (∀ s : State, s.running = false → ∃ t : State, exec .lineIdleLatch s = .next t ∧ t.regs = s.regs ∧ t.data = s.data
      ∧ ∀ n : Fin 8, t.lines[n] = { s.lines[n] with
          ext := s.lines[n].ext + (s.lines[n].hw - s.lines[n].hwLatch).toInt, hwLatch := s.lines[n].hw })
  ∧ (∀ s : State, s.running = true → exec .lineIdleLatch s = .next s)
  ∧ (∀ (s : State) (n : Fin 8), s.lines[n].fault = true → s.lines[n].latch.fault = true → s.lines[n].raised = false →
    let named := s.lineNamed n.val
    exec (.lineFault n) s = .next { s with
      lines := s.lines.set n { s.lines[n] with raised := true }, free := s.free + 1
      reports := s.reports ++ [⟨0x0E01, if named then 2 else 1, named, s.lines[n].latch.time, Config.faultDetail 0x0E01 s.free⟩] })
  ∧ (∀ (s : State) (n : Fin 8), s.lines[n].raised = true → exec (.lineFault n) s = .next s)
  ∧ (∀ (s : State) (n : Fin 8) (sample : Nat),
    let t := s.takeDue (linCtrlOff n.val) 0
    exec (.linClrFault n sample) s = .next (if bitOf (assoc 0 s.due (linCtrlOff n.val)).toNat 0 = true then
      (if s.eph.replay then t.2 else { t.2 with lines := s.lines.set n { s.lines[n] with
        fault := false, raised := false, faultDue := false, clrSample := some sample } }) else s))
  ∧ (∀ (s : State) (n : Fin 8),
    let t := s.takeDue (linCtrlOff n.val) 1
    exec (.clrUncert n) s = .next (if bitOf (assoc 0 s.due (linCtrlOff n.val)).toNat 1 = true then
      (if s.eph.replay then t.2 else { t.2 with lines := s.lines.set n { s.lines[n] with uncert := 0 } }) else s))
  ∧ (∀ (s : State) (n : Fin 8),
    let t := s.takeDue (linCtrlOff n.val) 2
    exec (.clrQerr n) s = .next (if bitOf (assoc 0 s.due (linCtrlOff n.val)).toNat 2 = true then
      (if s.eph.replay then t.2 else { t.2 with lines := s.lines.set n { s.lines[n] with qerr := 0 } }) else s))
  ∧ ∀ (s : State) (p : Path) (t : DWord), ∃ u : State, exec (.linSiderealRead p t) s = .next u ∧ u.now = t
      ∧ u.outbox = s.outbox ++ [.data p ((t.setWidth 32).setWidth 64)] ∧ (u.pathOf p).readHigh = t.extractLsb' 32 32
      ∧ (u.pathOf p).stagedLow = (s.pathOf p).stagedLow ∧ u.lines = s.lines ∧ u.regs = s.regs ∧ u.data = s.data

/-- SSI frames and the frames of drives: what is latched for an axis, and what an invalid word leaves. SSI_FRAME_START on
an enabled port at ADV before a tick's start starts its frame at that edge; on a disabled port, or at another time, it
does nothing. SSI_WORD on a port with a started frame ends the frame (a replay discards the word) and keeps the raw
bits and the first failing check of R295, then JUMP, as the cause: with cause 0 the port is valid and its axis takes
the position and the stamp, rounded down to 10 ns; with any other cause the error count rises, the axis has an invalid
latch with that cause and keeps its last position; an alarm raises 0x0C02 and another error 0x0C01, each once per run.
Without a started frame nothing happens. FEEDBACK_FRAME outside a replay: a frame that the schedule does not keep
changes no axis; a kept frame of class 1 whose lengths do not add up is counted and changes none; one with no axis
records, bursts or image changes none either and keeps the node's SPLOST bit. (R289, R291, R292, R293, R295, R296,
R297, R307, R420, R422) -/
def Obligations.PositionWordResults : Prop :=
  (∀ (s : State) (p : Fin 16) (ts : DWord) (high : Bool),
    exec (.ssiFrameStart p ts high) s = .next (if bitOf (s.regN (0xC0100 + p.val * 0x40)) 31 = true
        ∧ (ts.toNat + s.ssiAdv (s.regN (0xC0100 + p.val * 0x40)) (s.regN (0xC0108 + p.val * 0x40))) % s.tTick = 0 then
      { s with now := ts, ssi := s.ssi.set p { s.ssi[p] with started := some ((ts.toNat : Int), high) } } else s))
  ∧ (∀ (s : State) (p : Fin 16) (bits : List Bool) (td : Option Nat) (low : Bool), s.ssi[p].started = none →
    exec (.ssiWord p bits td low) s = .next s)
  ∧ (∀ (s : State) (p : Fin 16) (bits : List Bool) (td : Option Nat) (low : Bool) (ts : Int) (high : Bool),
    s.ssi[p].started = some (ts, high) → s.eph.replay = true →
    exec (.ssiWord p bits td low) s = .next { s with ssi := s.ssi.set p { s.ssi[p] with started := none } })
  ∧ (∀ (s : State) (p : Fin 16) (bits : List Bool) (td : Option Nat) (low : Bool) (ts : Int) (high : Bool) (a : Fin 128),
    s.ssi[p].started = some (ts, high) → s.portAxis p.val = some a → s.eph.replay = false →
    let d := s.ssiDecode p.val high bits td low
    let pos := s.fbk[a].position (s.regN (0xC0100 + p.val * 0x40)) (fld (s.regN (0xC0100 + p.val * 0x40)) 27 22) d.word
    let stamp := (ts + 5 * d.td + fld (s.regN (0xC010C + p.val * 0x40)) 31 16) / 10 * 10
    let jump := s.fbk[a].jumps (fld (s.regN (0xC010C + p.val * 0x40)) 15 0) pos stamp
    ∃ t : State, exec (.ssiWord p bits td low) s = .next t ∧ t.ssi[p].started = none ∧ t.ssi[p].raw = bits
      ∧ (∀ q : Fin 16, q ≠ p → t.ssi[q] = s.ssi[q]) ∧ (∀ b : Fin 128, b ≠ a → t.fbk[b] = s.fbk[b])
      ∧ t.regs = s.regs ∧ t.arms = s.arms ∧ t.data = s.data ∧ t.cores = s.cores
      ∧ (d.cause = 0 → jump = false → t.ssi[p].cause = 0 ∧ t.ssi[p].valid = true ∧ t.ssi[p].errCnt = s.ssi[p].errCnt
          ∧ t.fbk[a].latch = .valid pos stamp ∧ t.fbk[a].pos = pos ∧ t.fbk[a].time = stamp ∧ t.fbk[a].posPrev = s.fbk[a].pos
          ∧ t.fbk[a].have1 = true ∧ t.reports = s.reports)
      ∧ (d.cause ≠ 0 ∨ jump = true →
          let cause := if d.cause ≠ 0 then d.cause else 5
          t.ssi[p].cause = cause ∧ t.ssi[p].valid = false ∧ t.ssi[p].errCnt = min 65535 (s.ssi[p].errCnt + 1)
          ∧ t.fbk[a].latch = .invalid cause ∧ t.fbk[a].pos = s.fbk[a].pos ∧ t.fbk[a].time = s.fbk[a].time
          ∧ (cause = 4 → s.ssi[p].alarmArmed = true → ∃ r ∈ t.reports, r.code = 0x0C02 ∧ r.cls = 2)
          ∧ (cause ≠ 4 → s.ssi[p].wordArmed = true → ∃ r ∈ t.reports, r.code = 0x0C01 ∧ r.cls = 1)
          ∧ (cause = 4 ∧ s.ssi[p].alarmArmed = false ∨ cause ≠ 4 ∧ s.ssi[p].wordArmed = false → t.reports = s.reports)))
  ∧ ∀ (s : State) (ch : Channel) (f : SchedFrame) (t : DWord), s.eph.replay = false →
    let kept := ({ s with now := t } : State).frameDiscard ch f
    let b := f.payload
    (kept ≠ .none ∨ f.cls ≠ 1 → exec (.feedbackFrame ch f t) s = .next (({ s with now := t } : State).countDiscard ch f kept))
    ∧ (kept = .none → f.cls = 1 → b.length ≠ 8 + 16 * valAt b 2 1 + 20 * valAt b 3 1 + valAt b 4 2 →
        exec (.feedbackFrame ch f t) s = .next (({ s with now := t } : State).countDiscard ch f .format))
    ∧ (kept = .none → f.cls = 1 → b.length = 8 → valAt b 2 1 = 0 → valAt b 3 1 = 0 → valAt b 4 2 = 0 →
        s.prof.ioIns.find? (fun n => n.node == f.src.toNat) = none →
        ∃ u : State, exec (.feedbackFrame ch f t) s = .next u ∧ u.now = t ∧ u.fbk = s.fbk ∧ u.gate = s.gate ∧ u.regs = s.regs
          ∧ ((f.src.toNat ∈ u.mers.splost) ↔ bitOf (valAt b 0 2) 0 = true)
          ∧ (bitOf (valAt b 0 2) 0 = true → f.src.toNat ∉ s.mers.splost →
              ∃ r ∈ u.reports, r.code = 0x1013 ∧ r.cls = 2 ∧ r.detail = BitVec.ofNat 32 f.src.toNat)
          ∧ (∀ x : Nat, x ≠ f.src.toNat → (x ∈ u.mers.splost ↔ x ∈ s.mers.splost)))
    ∧ (kept = .none → f.cls = 1 → b.length = 24 → valAt b 2 1 = 1 → valAt b 3 1 = 0 → valAt b 4 2 = 0 → bitOf (valAt b 0 2) 0 = false →
        s.prof.ioIns.find? (fun n => n.node == f.src.toNat) = none →
        ∀ a : Fin 128, s.nodeAxis f.src.toNat (valAt b 8 1) = some a → s.fbkSrc a.val = 2 →
        ∃ u : State, exec (.feedbackFrame ch f t) s = .next u ∧ (∀ x : Fin 128, x ≠ a → u.fbk[x] = s.fbk[x]) ∧ u.regs = s.regs
          ∧ (t.toNat ≤ s.cycleOf f.start * s.tTick + s.gatherNs →
              let lofs := sextTo 16 (valAt b 10 2)
              (bitOf (valAt b 9 1) 0 = true → lofs.natAbs ≤ 1000 →
                u.fbk[a].latch = .valid (extend32 s.fbk[a].lastWord s.fbk[a].pos (sextTo 32 (valAt b 12 4)))
                  ((s.cycleOf f.start * s.tTick : Nat) + lofs))
              ∧ (bitOf (valAt b 9 1) 0 = false → u.fbk[a].latch = .invalid 7 ∧ u.fbk[a].pos = s.fbk[a].pos)
              ∧ (bitOf (valAt b 9 1) 0 = true → 1000 < lofs.natAbs → u.fbk[a].latch = .invalid 8 ∧ u.fbk[a].pos = s.fbk[a].pos))
          ∧ (s.cycleOf f.start * s.tTick + s.gatherNs < t.toNat → u.fbk = s.fbk))

/-- The end of the gather window, the estimators, the extrapolation to the control instant, and the feedback timeout.
GATHER_END outside a replay: every axis of the part with a source is STALE exactly where it has no valid latch, and a
drive axis without a frame takes the invalid cause NOFRAME (6) and raises 0x0C03 once; an axis without a source keeps
its feedback. EXTRAPOLATE_PHASE while the sequencer runs changes no register and no lane; with a stopped sequencer it
changes nothing. For one axis with a valid latch of this tick that is not too old the position is brought to the
control instant with the estimated speed, rounded to nearest, and the timeout ends; an axis without a latch newer than
a tick and 2 us keeps its last position with speed 0 in the timeout. STANDSTILL_TIMEOUT: a latch that repeats the
position for the standstill time makes that source stand still at speed 0. FBK_TIMEOUT: an outage that follows a valid
latch is raised once as 0x0C04, F3 for an axis that runs a cascade and F1 otherwise. (R28, R298, R300, R301, R302,
R303, R304, R307) -/
def Obligations.GatherAndExtrapolateResults : Prop :=
  (∀ s : State, s.eph.rpNow = none → ∃ t : State, exec .gatherEnd s = .next t ∧ t.regs = s.regs ∧ t.arms = s.arms ∧ t.data = s.data
    ∧ t.lines = s.lines
    ∧ ∀ a : Fin 128,
      let src := s.fbkSrc a.val
      let f := s.fbk[a]
      (s.axisPresent a.val = false ∨ src = 0 → t.fbk[a] = f)
      ∧ (s.axisPresent a.val = true → src ≠ 0 → t.fbk[a].pos = f.pos ∧ t.fbk[a].time = f.time
          ∧ (t.fbk[a].stale = false ↔ ∃ p q : Int, f.latch = .valid p q) ∧ t.fbk[a].valid = !t.fbk[a].stale
          ∧ (src = 2 → f.latch = .none → t.fbk[a].latch = .invalid 6 ∧ t.fbk[a].cause = 6
              ∧ (f.drvArmed = true → ∃ r ∈ t.reports, r.code = 0x0C03 ∧ r.cls = 1))
          ∧ (src ≠ 2 ∨ f.latch ≠ .none → t.fbk[a].latch = f.latch ∧ t.fbk[a].cause = f.cause)))
  ∧ (∀ s : State, s.running = false → exec .extrapolatePhase s = .next s)
  ∧ (∀ s : State, s.running = true → ∃ t : State, exec .extrapolatePhase s = .next t ∧ t.regs = s.regs ∧ t.lanes = s.lanes
      ∧ t.data = s.data ∧ t.epoch = s.epoch ∧ t.cascs = s.cascs
      ∧ ∀ a : Fin 128, (s.axisPresent a.val = false ∨ s.fbkSrc a.val = 0 → t.fbk[a] = s.fbk[a])
        ∧ (s.axisPresent a.val = true → s.fbkSrc a.val ≠ 0 →
          t.fbk[a].pos = s.fbk[a].pos ∧ t.fbk[a].time = s.fbk[a].time ∧ t.fbk[a].stale = s.fbk[a].stale
          ∧ (s.fbk[a].have1 = true → (s.epoch * s.tTick : Nat) - s.fbk[a].time ≤ (s.tTick : Int) + 2000 →
              t.fbk[a].timeout = false ∧ t.fbk[a].speed = t.fbk[a].est.v
              ∧ t.fbk[a].act = s.fbk[a].pos + rndDiv (t.fbk[a].est.v * ((s.epoch * s.tTick : Nat) - s.fbk[a].time)) (10 ^ 9))
          ∧ (s.fbk[a].have1 = false ∨ (s.tTick : Int) + 2000 < (s.epoch * s.tTick : Nat) - s.fbk[a].time →
              t.fbk[a].timeout = true ∧ t.fbk[a].speed = 0 ∧ t.fbk[a].act = (if s.fbk[a].have1 then s.fbk[a].pos else 0)
              ∧ t.fbk[a].outage = s.fbk[a].have1)))
  ∧ (∀ (s : State) (a : Fin 128) (p t : Int), s.fbk[a].latch = .valid p t → s.fbk[a].est.ran = false → s.fbk[a].est.first = false →
    s.fbk[a].est.still = false → p = s.fbk[a].est.pPrev → s.axStill a.val ≤ t - s.fbk[a].est.tChg →
    exec (.standstillTimeout (.axis a)) s = .next { s with fbk := s.fbk.set a { s.fbk[a] with est :=
      { s.fbk[a].est with ran := true, starting := false, reversed := false, still := true, v := 0, dir := 0, hist := [(p, t)]
                          pPrev := p, tPrev := t } } })
  ∧ (∀ (s : State) (n : Fin 8), (s.lineProf n.val).en = true → s.lines[n].est.ran = false → s.lines[n].est.first = false →
    s.lines[n].est.still = false → s.lines[n].latch.count = s.lines[n].est.pPrev →
    s.lineStill n.val ≤ s.lines[n].latch.time.toNat - s.lines[n].est.tChg →
    ∃ l' : Line, exec (.standstillTimeout (.line n)) s = .next (s.modLine n fun _ => l')
      ∧ l'.est.still = true ∧ l'.est.v = 0 ∧ l'.latch = s.lines[n].latch ∧ l'.hw = s.lines[n].hw)
  ∧ ∀ (s : State) (a : Fin 128), s.fbkSrc a.val ≠ 0 → s.fbk[a].timeout = true → s.fbk[a].outage = true →
    exec (.fbkTimeout a) s = .next (if s.fbk[a].toRaised then s else { s with
      fbk := s.fbk.set a { s.fbk[a] with toRaised := true }, free := s.free + 1
      reports := s.reports ++ [⟨0x0C04, if s.runsCascade a.val then 3 else 1, false, s.now, Config.faultDetail 0x0C04 s.free⟩] })

/-- The axis cascade in speed and torque mode, manual mode and its bumpless transfer, and setpoint records. AXIS_CASCADE
outside STO and manual mode, biquads off: the error, the proportional and derivative sum, the clamped output, and the
integrators with their anti-windup terms are those of R260, speed mode and torque mode; the error outside FELIM
latches the fault. In STO every state and the output are 0 and the checks are suspended; with the CTL domain stopped
nothing runs. In manual mode the output is the clamped manual setpoint and both integrators hold. MANUAL_ENTER takes
effect in run with MAN = 1 on a cascade axis only. BUMPLESS_TRANSFER: after MAN = 0, speed mode, biquads off, the
first output equals the last manual setpoint wherever the preset does not saturate. CLR_INT and CTL_CLR_FAULT act on
their waiting bit only. SETPOINT_SEND sends up to 31 records in a frame of its one entry that fits; while the schedule
may not send, it sends nothing. SETPOINT_APPLY puts a record's value in force at its node and SETPOINT_LOSS, at the
second miss in a row, zeroes a torque, speed or feed value, holds a position, takes the hold current, and marks the
node lost. (R252, R259, R260, R264, R266, R267, R269, R271, R272, R424, R425, R432) -/
def Obligations.ControlAndSetpointResults : Prop :=
  (∀ (s : State) (a : Fin 128), s.axisPresent a.val = true → s.runsCascade a.val = true → s.stopped 2 = false → s.coreSafety ≠ .sto →
    s.mans[a] = false →
    let i := s.cascIn a (s.axisCmd a).1
    let c := s.cascs[a]
    i.bq1en = false → i.bq2en = false →
    ∃ t : State, exec (.axisCascade a) s = .next t ∧ t.regs = s.regs ∧ t.arms = s.arms ∧ t.aux = s.aux ∧ t.lanes = s.lanes
      ∧ (∀ b : Fin 128, b ≠ a → t.cascs[b] = s.cascs[b]) ∧ t.cascs[a].ep = i.ep ∧ t.cascs[a].epPrev = i.ep
      ∧ t.cascs[a].fault = (c.fault || decide (fld (s.regN (ctlBase a.val + 0x18)) 30 0 < i.ep.natAbs))
      ∧ (i.torque = false →
        let y := sat32 (sat32 (i.pp c + rnd c.ip (i.sh 19)) + i.vff)
        let u := clampInt (-i.vlim) i.vlim y
        t.cascs[a].u = u ∧ t.cascs[a].iv = c.iv
        ∧ t.cascs[a].ip = sat32 (c.ip + rnd (i.k 1 * i.ep) (i.sh 1) + rnd (i.k 3 * (u - y)) (i.sh 3)))
      ∧ (i.torque = true →
        let vr := sat32 (i.pp c + rnd c.ip (i.sh 19) + i.vff)
        let vref := clampInt (-i.vlim) i.vlim vr
        let ev := sat32 (vref - i.vfb)
        let y := sat32 (sat32 (rnd (i.k 4 * ev) (i.sh 4) + rnd c.iv (i.sh 20)) + i.tff + i.dob)
        let u := clampInt (-i.tlim) i.tlim y
        t.cascs[a].u = u ∧ t.cascs[a].ip = sat32 (c.ip + rnd (i.k 1 * i.ep) (i.sh 1) + rnd (i.k 3 * (vref - vr)) (i.sh 3))
        ∧ t.cascs[a].iv = sat32 (c.iv + rnd (i.k 5 * ev) (i.sh 5) + rnd (i.k 6 * (u - y)) (i.sh 6))))
  ∧ (∀ (s : State) (a : Fin 128), s.axisPresent a.val = true → s.runsCascade a.val = true → s.stopped 2 = false → s.coreSafety = .sto →
    ∃ d, (∀ k : Fin 8, d[k] = { s.dyns[k] with valid := d[k].valid }) ∧
    exec (.axisCascade a) s = .next { s with dyns := d, cascs := s.cascs.set a { s.cascs[a] with
      ip := 0, iv := 0, epPrev := 0, bq1 := ⟨0, 0, 0, 0⟩, bq2 := ⟨0, 0, 0, 0⟩, u := 0, ep := 0, sat := false, dyn := false
      feWarn := false, warned := false, atLim := false, excursion := s.cascs[a].excursion && s.outOfTravel a } })
  ∧ (∀ (s : State) (a : Fin 128), s.stopped 2 = true → exec (.axisCascade a) s = .next s ∧ exec (.bumplessTransfer a) s = .next s)
  ∧ (∀ (s : State) (a : Fin 128), s.axisPresent a.val = true → s.runsCascade a.val = true → s.stopped 2 = false → s.coreSafety ≠ .sto →
    s.mans[a] = true → s.manReg a.val = true →
    let lim : Int := if bitOf (s.ctlCfg a.val) 0 then fld (s.regN (ctlBase a.val + 0x10)) 30 0 else fld (s.regN (ctlBase a.val + 0xC)) 30 0
    ∃ t : State, exec (.axisCascade a) s = .next t ∧ t.cascs[a].u = clampInt (-lim) lim (s.reg (ctlBase a.val + 8)).toInt
      ∧ t.cascs[a].um = t.cascs[a].u ∧ t.cascs[a].ip = s.cascs[a].ip ∧ t.cascs[a].iv = s.cascs[a].iv ∧ t.regs = s.regs
      ∧ (∀ b : Fin 128, b ≠ a → t.cascs[b] = s.cascs[b]) ∧ t.lanes = s.lanes ∧ t.fbk = s.fbk)
  ∧ (∀ (s : State) (a : Fin 128), exec (.manualEnter a) s = .next (
      if s.manReg a.val = true ∧ s.runsCascade a.val = true ∧ s.coreSafety = .run then { s with mans := s.mans.set a true } else s))
  ∧ (∀ (s : State) (a : Fin 128), s.mans[a] = true → s.manReg a.val = false → s.coreSafety ≠ .sto → s.stopped 2 = false →
    let i := s.cascIn a (s.axisCmd a).1
    let c := s.cascs[a]
    let x := (c.um - i.pp c - i.vff) * 2 ^ i.sh 19
    i.bq1en = false → i.bq2en = false → i.torque = false → -(2 ^ 31) ≤ x → x < 2 ^ 31 → c.um.natAbs ≤ i.vlim →
    -(2 ^ 31) ≤ c.um - i.vff → c.um - i.vff < 2 ^ 31 →
    ∃ t : State, exec (.bumplessTransfer a) s = .next t ∧ t.cascs[a].u = c.um ∧ t.cascs[a].ip = x ∧ t.mans = s.mans.set a false
      ∧ (∀ b : Fin 128, b ≠ a → t.cascs[b] = s.cascs[b]) ∧ t.regs = s.regs ∧ t.arms = s.arms ∧ t.aux = s.aux)
  ∧ (∀ (s : State) (a : Fin 128), exec (.clrInt a) s = .next (if bitOf (assoc 0 s.due (ctlBase a.val + 4)).toNat 2 = true then
      { (s.takeDue (ctlBase a.val + 4) 2).2 with cascs := s.cascs.set a { s.cascs[a] with ip := 0, iv := 0 } } else s))
  ∧ (∀ (s : State) (a : Fin 128), exec (.ctlClrFault a) s = .next (if bitOf (assoc 0 s.due (ctlBase a.val + 4)).toNat 1 = true then
      { (s.takeDue (ctlBase a.val + 4) 1).2 with cascs := s.cascs.set a { s.cascs[a] with fault := false } } else s))
  ∧ (∀ (s : State) (ch : Channel), s.running = false ∨ s.maySend = false → exec (.setpointSend ch) s = .next s)
  ∧ (∀ (s : State) (ch : Channel) (e : MEntry), s.running = true → s.maySend = true → s.sptEntries ch (s.epoch % 64) = [e] →
    let recs := s.setpointRecs ch
    recs ≠ [] → recs.length ≤ 31 → windowNeed s.prof.guard [8 + 8 * recs.length] ≤ 8 * e.len →
    exec (.setpointSend ch) s = .next (s.out (.sched ch (s.mkFrame 2 (BitVec.ofNat 12 e.fid)
      (BitVec.ofNat 64 (s.epoch * s.tTick + 8 * e.start))
      ([BitVec.ofNat 8 recs.length] ++ [0, 0, 0, 0, 0, 0, 0] ++ recs.flatMap SptRec.bytes)))))
  ∧ (∀ (s : State) (r : SptRec), ∃ t : State, exec (.setpointApply [r]) s = .next t ∧ t.regs = s.regs ∧ t.arms = s.arms
      ∧ t.mer.vals = s.mer.vals.filter (fun x => !(x.dest == r.dest && x.kind == r.kind && x.index == r.index))
          ++ [⟨r.dest, r.kind, r.index, r.value, 0, false⟩])
  ∧ ∀ (s : State) (r : SptRec) (v : NodeVal), s.mer.vals = [v] → v.dest = r.dest → v.kind = r.kind → v.index = r.index →
    ∃ t : State, exec (.setpointLoss [r]) s = .next t ∧ t.regs = s.regs ∧ t.arms = s.arms
      ∧ (v.miss = 0 → t.mer.vals = [{ v with miss := 1 }] ∧ t.mer.lostNodes = s.mer.lostNodes)
      ∧ (1 ≤ v.miss → r.dest ∈ t.mer.lostNodes
        ∧ t.mer.vals = [{ v with
            miss := v.miss + 1, value := if v.kind = 0 ∨ v.kind = 1 ∨ v.kind = 3 then 0 else v.value
            holdCur := v.holdCur || v.kind == 4 }])

/-- Every lane instruction: its result, its cycle, its next PC and what it leaves alone. In a pass in progress within its
cycles: TMPY, TMAC and TMSU leave the product, the accumulator plus it, or minus it, saturated to 40 bits, and post-
modify the address registers they read through; PUT stores the accumulator, rounded by its shift and saturated to 16
bits; GET and ADD load or add a shifted word; IDX, CLR, LDS, SETA, SETM, SETL and SETS write their one register; each
takes one cycle and continues behind it or at the start of the repeat body that ends there, a PC past 0x7FF stopping
the pass with LANE_FLOW. RPT opens a repeat; a third level, or a body past 0x7FF, stops the pass with LANE_FLOW. BR
with a condition that holds continues at its target two cycles on, else behind. END ends the pass with its 16 output
words kept. Outside a pass in progress, with the CTL domain stopped, or with an operand that the encodings reserve,
none of them does anything. No register in force, data memory or other lane changes. (R277, R278, R283, R284, R285,
R287) -/
def Obligations.LaneInstructionResults : Prop :=
  (∀ (s : State) (l : Fin 32) (ac : Fin 2) (t : TapOp), t.ok = true →
    LaneRetires s l (exec (.tmpy l ac t) s) (fun k => (k.tap t).2.setAcc ac (k.product t))
    ∧ LaneRetires s l (exec (.tmac l ac t) s) (fun k => (k.tap t).2.setAcc ac ((k.acc[ac]).toInt + k.product t))
    ∧ LaneRetires s l (exec (.tmsu l ac t) s) (fun k => (k.tap t).2.setAcc ac ((k.acc[ac]).toInt - k.product t)))
  ∧ (∀ (s : State) (l : Fin 32) (ac : Fin 2) (m : MemOp) (sh : Fin 32),
    LaneRetires s l (exec (.lanePut l ac m sh) s) fun k => (k.store m (rndShift (k.acc[ac]).toInt sh.val)).bump m.a m.m m.n)
  ∧ (∀ (s : State) (l : Fin 32) (ac : Fin 2) (m : MemOp) (sh : Fin 24),
    LaneRetires s l (exec (.laneGet l ac m sh) s) (fun k => (k.setAcc ac ((k.readOp m).toInt * 2 ^ sh.val)).bump m.a m.m m.n)
    ∧ LaneRetires s l (exec (.laneAdd l ac m sh) s)
        (fun k => (k.setAcc ac ((k.acc[ac]).toInt + (k.readOp m).toInt * 2 ^ sh.val)).bump m.a m.m m.n))
  ∧ (∀ (s : State) (l : Fin 32) (ac : Fin 2) (a : Fin 8) (sh : Fin 32), LaneRetires s l (exec (.idx l ac a sh) s) fun k =>
      let v := (k.acc[ac]).toInt / 2 ^ sh.val
      let len : Int := (k.l[a]).toNat
      { k with a := k.a.set a (BitVec.ofInt 11 (if len = 0 then v % 2048 else ((k.b[a]).toNat + v % len) % 2048)) })
  ∧ (∀ (s : State) (l : Fin 32) (ac : Fin 2), LaneRetires s l (exec (.laneClr l ac) s) fun k => { k with acc := k.acc.set ac 0 })
  ∧ (∀ (s : State) (l : Fin 32) (m : MemOp) (i : Fin 4), LaneRetires s l (exec (.lds l m i) s) fun k =>
      Lane.bump { k with sc := k.sc.set i (k.readOp m) } m.a m.m m.n)
  ∧ (∀ (s : State) (l : Fin 32) (r : Fin 8) (v : BitVec 11), LaneRetires s l (exec (.seta l r v) s) fun k =>
      { k with a := k.a.set r v, b := k.b.set r v })
  ∧ (∀ (s : State) (l : Fin 32) (r : Fin 8) (v : BitVec 12),
    LaneRetires s l (exec (.setm l r v) s) (fun k => { k with m := k.m.set r v })
    ∧ (v.toNat ≤ 2048 → LaneRetires s l (exec (.setl l r v) s) (fun k => { k with l := k.l.set r v })))
  ∧ (∀ (s : State) (l : Fin 32) (ac : Fin 2) (t : TapOp) (r : Fin 8) (v : BitVec 12) (x : BitVec 11),
    (t.ok = false → exec (.tmpy l ac t) s = .next s ∧ exec (.tmac l ac t) s = .next s ∧ exec (.tmsu l ac t) s = .next s)
    ∧ (2048 < v.toNat → exec (.setl l r v) s = .next s) ∧ exec (.rpt l 0 x) s = .next s ∧ exec (.rpt l x 0) s = .next s)
  ∧ (∀ (s : State) (l : Fin 32) (i : Fin 4) (v : BitVec 16), LaneRetires s l (exec (.sets l i v) s) fun k =>
      { k with sc := k.sc.set i v })
  ∧ (∀ (s : State) (l : Fin 32) (count len : BitVec 11), s.lanes[l].active = true → s.lanes[l].cycle ≤ s.passcyc →
      s.stopped 2 = false → count ≠ 0 → len ≠ 0 →
      let k := s.lanes[l]
      (k.reps.length < 2 → k.pc < 2047 → exec (.rpt l count len) s = .next { s with lanes := s.lanes.set l { k with
        cycle := k.cycle + 1, pc := k.pc + 1, reps := (k.pc + 1, k.pc + len.toNat, count.toNat) :: k.reps } })
      ∧ (2 ≤ k.reps.length ∨ 2047 ≤ k.pc → ∃ t : State, exec (.rpt l count len) s = .next t ∧ t.lanes[l].active = false ∧ t.lanes[l].flow = true
        ∧ (∃ r ∈ t.reports, r.code = 0x0B03) ∧ (∀ m : Fin 32, m ≠ l → t.lanes[m] = s.lanes[m]) ∧ t.regs = s.regs ∧ t.data = s.data))
  ∧ (∀ (s : State) (l : Fin 32) (cond : Fin 5) (ac : Fin 2) (target : BitVec 11),
      let k := s.lanes[l]
      let v := (k.acc[ac]).toInt
      let take := cond = 0 ∨ (cond = 1 ∧ v = 0) ∨ (cond = 2 ∧ v ≠ 0) ∨ (cond = 3 ∧ v < 0) ∨ (cond = 4 ∧ 0 ≤ v)
      (¬ take → LaneRetires s l (exec (.laneBr l cond ac target) s) fun k => k)
      ∧ (take → k.active = true → k.cycle ≤ s.passcyc → s.stopped 2 = false → exec (.laneBr l cond ac target) s = .next { s with
          lanes := s.lanes.set l { k with
            cycle := k.cycle + 2, pc := target.toNat
            reps := k.reps.filter fun r => decide (r.1 ≤ target.toNat) && decide (target.toNat ≤ r.2.1) } }))
  ∧ (∀ (s : State) (l : Fin 32), s.lanes[l].active = true → s.lanes[l].cycle ≤ s.passcyc → s.stopped 2 = false →
      let k := s.lanes[l]
      exec (.laneEnd l) s = .next { s with lanes := s.lanes.set l { k with
        cycle := k.cycle + 1, active := false, done := true, lastCyc := k.cycle + 1, reps := []
        outEnd := (List.range 16).map fun i => lmRead k.y (0x7F0 + i) } })
  ∧ ∀ (s : State) (l : Fin 32), (s.lanes[l].active = false ∨ s.passcyc < s.lanes[l].cycle ∨ s.stopped 2 = true) →
      ∀ (ac : Fin 2) (t : TapOp) (m : MemOp) (sp : Fin 32) (sg : Fin 24) (a : Fin 8) (k : Fin 4) (v : BitVec 11) (w : BitVec 12)
        (x : BitVec 16) (count : BitVec 11) (cond : Fin 5) (i : Instr),
      i ∈ [.tmpy l ac t, .tmac l ac t, .tmsu l ac t, .lanePut l ac m sp, .laneGet l ac m sg, .laneAdd l ac m sg, .idx l ac a sp,
        .laneClr l ac, .lds l m k, .seta l a v, .setm l a w, .setl l a w, .sets l k x, .rpt l count v, .laneBr l cond ac v, .laneEnd l] →
      exec i s = .next s

/-- A lane starts, runs its pass, overruns, stops and is patched. LANE_START with RUN = 1 in force starts a lane that does
not run, with every register of it 0 and its memories as they were; LANE_STOP with RUN = 0 in force stops one, and its
output words read 0. LANE_PASS on a running lane begins the pass at PC 0 and cycle 0 with its input words written into
X words 0x7F0 to 0x7F3 (rounded and saturated where an input has a value), 0 in 0x7F4 to 0x7FF where no input is an
axis burst, and no memory word below changed; with an uncorrectable error it stops the pass in progress instead and
raises 0x0B01 as F2, and a corrected error is counted. LANE_OVERRUN stops a pass whose cycles have passed PASSCYC and
raises 0x0B02 as F2 where a cascade axis names the lane, else F1; a pass within its cycles goes on. LANE_PATCH with
one patch entry committed writes its word into the X or Y memory of its lane, and nothing else; an entry without WR
only is taken away. (R275, R276, R277, R278, R280, R281, R282, R288) -/
def Obligations.LaneControlResults : Prop :=
  (∀ (s : State) (l : Fin 32), bitOf (s.regN (0xB0100 + l.val * 0x20)) 0 = true →
    exec (.laneStart l) s = .next (if s.lanes[l].running then s else { s with lanes := s.lanes.set l { s.lanes[l] with
      running := true, a := Vector.replicate 8 0, b := Vector.replicate 8 0, m := Vector.replicate 8 0
      l := Vector.replicate 8 0, sc := Vector.replicate 4 0, acc := Vector.replicate 2 0 } })
    ∧ exec (.laneStop l) s = .next s)
  ∧ (∀ (s : State) (l : Fin 32), bitOf (s.regN (0xB0100 + l.val * 0x20)) 0 = false →
    exec (.laneStop l) s = .next (if s.lanes[l].running then { s with lanes := s.lanes.set l { s.lanes[l] with
      running := false, active := false, outEnd := [], outHist := [], out0Start := 0 } } else s)
    ∧ exec (.laneStart l) s = .next s)
  ∧ (∀ (s : State) (l : Fin 32), s.lanes[l].running = true → s.stopped 2 = false →
    ∃ t : State, exec (.lanePass l .clean) s = .next t ∧ t.lanes[l].active = true ∧ t.lanes[l].pc = 0 ∧ t.lanes[l].cycle = 0
      ∧ t.lanes[l].reps = [] ∧ t.lanes[l].prog = s.lanes[l].prog ∧ t.lanes[l].y = s.lanes[l].y ∧ t.lanes[l].acc = s.lanes[l].acc
      ∧ (∀ i : Nat, i < 0x7F0 → lmRead t.lanes[l].x i = lmRead s.lanes[l].x i)
      ∧ (∀ i : Nat, i < 4 → ∀ v : Int, s.laneInput (s.regN (0xB0800 + l.val * 0x10 + 4 * i)) = some v →
          lmRead t.lanes[l].x (0x7F0 + i) = BitVec.ofInt 16 (sat16 (rnd v (fld (s.regN (0xB0800 + l.val * 0x10 + 4 * i)) 20 16))))
      ∧ ((∀ i : Nat, i < 4 → fld (s.regN (0xB0800 + l.val * 0x10 + 4 * i)) 11 8 ≠ 6) →
          ∀ i : Nat, i < 12 → lmRead t.lanes[l].x (0x7F4 + i) = 0)
      ∧ (∀ m : Fin 32, m ≠ l → t.lanes[m] = s.lanes[m]) ∧ t.regs = s.regs ∧ t.data = s.data ∧ t.reports = s.reports)
  ∧ (∀ (s : State) (l : Fin 32), s.lanes[l].active = true →
    exec (.lanePass l .corrected) s = .next { s with lanesEccC := min 65535 (s.lanesEccC + 1) } ∧
    ∃ t : State, exec (.lanePass l .uncorr) s = .next t ∧ t.lanesEccUn = true ∧ t.lanes[l].active = false ∧ t.lanes[l].ecc = true ∧ t.lanes[l].done = false
      ∧ (∃ r ∈ t.reports, r.code = 0x0B01 ∧ r.cls = 2) ∧ (∀ m : Fin 32, m ≠ l → t.lanes[m] = s.lanes[m]) ∧ t.regs = s.regs)
  ∧ (∀ (s : State) (l : Fin 32), s.lanes[l].active = true →
    (s.lanes[l].cycle ≤ s.passcyc → exec (.laneOverrun l) s = .next s)
    ∧ (s.passcyc < s.lanes[l].cycle → ∃ t : State, exec (.laneOverrun l) s = .next t ∧ t.lanes[l].active = false
        ∧ t.lanes[l].overrun = true ∧ t.lanes[l].done = false ∧ (∀ m : Fin 32, m ≠ l → t.lanes[m] = s.lanes[m]) ∧ t.regs = s.regs
        ∧ ∃ r ∈ t.reports, r.code = 0x0B02
          ∧ ((∃ a : Nat, a < 128 ∧ s.runsCascade a = true ∧ namesLane (s.ctlCfg a) l.val = true) → r.cls = 2)
          ∧ ((∀ a : Nat, a < 128 → s.runsCascade a = true → namesLane (s.ctlCfg a) l.val = false) → r.cls = 1)))
  ∧ ∀ (s : State) (i : Fin 16),
    let off := 0xB0040 + 8 * i.val
    let hi := s.regN (off + 4)
    s.due.map Prod.fst = [off, off + 4] →
    ∃ t : State, exec .lanePatch s = .next t ∧ t.due = [] ∧ t.regs = s.regs ∧ t.data = s.data
      ∧ (bitOf hi 31 = false → t.lanes = s.lanes)
      ∧ (bitOf hi 31 = true → ∀ l : Fin 32,
        (l.val ≠ fld hi 28 24 → t.lanes[l] = s.lanes[l])
        ∧ (l.val = fld hi 28 24 →
            (∀ a : Nat, lmRead t.lanes[l].y a =
              if bitOf hi 30 = true ∧ a = fld hi 10 0 then BitVec.ofNat 16 (s.regN off) else lmRead s.lanes[l].y a)
            ∧ (∀ a : Nat, lmRead t.lanes[l].x a =
              if bitOf hi 30 = false ∧ a = fld hi 10 0 then BitVec.ofNat 16 (s.regN off) else lmRead s.lanes[l].x a)))

/-- How a reported fault is logged, taken, queued or pre-empts, and how the queue drains. FAULT_REPORT of the one report
that waits, escalated where R324 says so. With no reaction in progress and the queue empty it takes the next log entry
(code, detail, stamp) and the next sequence number and becomes the reaction; F1 and below leave the safety state; an
F2 outside STO sends Dusk through the gate and forbids the hold unless it permits it and comes from run; an F3 brings
STO on the SAFE side at once (STO_DYN static low, all safe outputs forced off) and sends it through the gate. With a
reaction in progress, a fault of a higher class pre-empts it and another one joins the queue behind those waiting,
while the queue has room and holds none of its code and class. FAULT_DEQUEUE: a reaction that is over ends and the
queue empties; one that is not stays. FAULT_QUEUE_POP drops the head of the queue. PROGRAM_FAULT_RAISE raises 0x1880 +
n with its class, the hold permitted for F2 only. (R316, R317, R320, R321, R322, R324, R325, R328, R344, R346) -/
def Obligations.FaultIntakeResults : Prop :=
  (∀ (s : State) (t : DWord) (r0 : FaultRep), s.saf.react = none → s.saf.queue = [] → s.reports = [r0] → r0.cls ≤ 3 →
    let r := s.asTaken r0
    let q : QFault := ⟨r, logIndex s.saf.taken, s.saf.seq + 1⟩
    ∃ u : State, exec (.faultReport 1 t) s = .next u ∧ u.saf.react = some q ∧ u.saf.queue = [] ∧ u.saf.taken = s.saf.taken + 1
      ∧ u.saf.seq = s.saf.seq + 1 ∧ s.SameCore u
      ∧ (∃ e, (logIndex s.saf.taken, e) ∈ u.saf.log ∧ e.code = BitVec.ofNat 16 (r.code + 0x4000 * r.cls) ∧ e.detail = r.detail
          ∧ e.stamp = r.stamp ∧ e.seq = s.saf.seq + 1)
      ∧ (r.cls < 2 → u.saf.state = s.saf.state ∧ u.saf.forced = s.saf.forced ∧ u.saf.stoDyn = s.saf.stoDyn ∧ u.gate = s.gate)
      ∧ (r.cls = 2 → s.saf.inSto = false → u.saf.noHold = !(r.hold && s.saf.state == .run) ∧ u.saf.stoDyn = s.saf.stoDyn
          ∧ (s.eph.replay = false → s.stopped 3 = false → u.gate = s.gate ++ [⟨s.stampAt t, 1, .safety .dusk⟩]))
      ∧ (r.cls = 2 → s.saf.inSto = true → u.gate = s.gate ∧ u.saf.state = s.saf.state)
      ∧ (r.cls = 3 → u.saf.state = .sto ∧ u.saf.stoDyn = false ∧ u.saf.forced = 0xFF
          ∧ (s.saf.state ≠ .sto → s.eph.replay = false → s.stopped 3 = false → u.gate = s.gate ++ [⟨s.stampAt t, 1, .safety .sto⟩])))
  ∧ (∀ (s : State) (t : DWord) (r0 : FaultRep) (q0 : QFault), s.saf.react = some q0 → s.saf.reactOver = false → s.reports = [r0] →
    let r := s.asTaken r0
    (∀ q ∈ s.saf.queue, ¬ (q.rep.code = r.code ∧ q.rep.cls = r.cls)) →
    let q : QFault := ⟨r, logIndex s.saf.taken, s.saf.seq + 1⟩
    ∃ u : State, exec (.faultReport 1 t) s = .next u ∧ s.SameCore u
      ∧ (q0.rep.cls < r.cls → u.saf.react = some q ∧ u.saf.queue = s.saf.queue)
      ∧ (r.cls ≤ q0.rep.cls → s.saf.queue.length < 16 → u.saf.react = some q0 ∧ u.saf.queue = s.saf.queue ++ [q]
          ∧ u.saf.state = s.saf.state))
  ∧ (∀ s : State, s.saf.queue.length ≤ 17 →
    (s.saf.reactOver = false → exec .faultDequeue s = .next s)
    ∧ (s.saf.reactOver = true → ∃ u : State, exec .faultDequeue s = .next u ∧ u.saf.react = none ∧ u.saf.queue = []
        ∧ u.saf.state = s.saf.state ∧ s.SameCore u))
  ∧ (∀ s : State, exec .faultQueuePop s = .next { s with saf := { s.saf with queue := s.saf.queue.tail } })
  ∧ ∀ (s : State) (n : Fin 128) (cls : Fin 4) (hold : Bool) (t : DWord),
    OnlyRaises s (exec (.programFaultRaise n cls hold t) s) t (0x1880 + n.val) cls.val (hold && decide (cls = 2))

/-- Rest, hold, STO, the watchdog, and the reset edge: every change of the safety state and its conditions. DUSK_REST: in
Dusk at rest with an empty queue, a permitted hold with THOLD > 0 begins, any other stop goes to STO; not at rest
nothing happens. DUSK_TIMEOUT raises 0x1808 as F3 unless the rest is reached; HOLD_END logs 0x181A and sends the final
ramp. STO_ENTRY in STO: every plan and auxiliary queue is emptied, staged queues stay, step channels emit nothing and
manual mode ends. A watchdog service 500 to 2000 us after the last one is good; any other, or an expiry, sets
WDOG_SAFE low and raises 0x1809 as F3; STO_READBACK sets both outputs low and raises 0x1815 as F3; the STO delay ends
WDOG_SAFE in STO. RESET_EDGE: a press shorter than TMIN raises 0x1817, one longer than TMAX is no edge, a good one
arms the edge after boot stage 8 (before it, 0x1819); RESET_STUCK raises 0x1816, once in a press. RESET_EDGE_EVALUATE:
outside STO an edge is ignored (0x1819); in STO a blocking condition refuses it (0x1818) and without one the queue
empties, the outputs start again and run goes through the gate. (R174, R200, R272, R313, R314, R327, R328, R329, R330,
R331, R332, R333) -/
def Obligations.SafetyStateResults : Prop :=
  (∀ (s : State) (t : DWord), s.coreSafety = .dusk → s.saf.state = .dusk → s.saf.stoDue = false → s.saf.queue = [] → s.eph.replay = false →
    s.stopped 3 = false →
    (s.atRest = false → exec (.duskRest t) s = .next s)
    ∧ (s.atRest = true →
      let hold := 0 < s.prof.tHoldS ∧ s.saf.noHold = false ∧ s.saf.finalRamp = false
      (hold → exec (.duskRest t) s = .next { s with
        now := t, saf := { s.saf with react := none, state := .hold }, gate := s.gate ++ [⟨s.stampAt t, 1, .safety .hold⟩] })
      ∧ (¬ hold → exec (.duskRest t) s = .next { s with
        now := t, saf := { s.saf with react := none, stoDue := true }, gate := s.gate ++ [⟨s.stampAt t, 1, .safety .sto⟩] })))
  ∧ (∀ (s : State) (t : DWord), s.coreSafety = .dusk → s.saf.state = .dusk → s.saf.stoDue = false →
    (s.atRest = false → OnlyRaises s (exec (.duskTimeout t) s) t 0x1808 3 false) ∧ (s.atRest = true → exec (.duskTimeout t) s = .next s))
  ∧ (∀ (s : State) (t : DWord), s.coreSafety = .hold → s.saf.state = .hold → s.eph.replay = false → s.stopped 3 = false →
    ∃ u : State, exec (.holdEnd t) s = .next u ∧ u.saf = { s.saf with finalRamp := true, state := .dusk } ∧ s.Raised u 0x181A 0 false
      ∧ u.gate = s.gate ++ [⟨s.stampAt t, 1, .finalRamp⟩] ∧ s.SameCore u)
  ∧ (∀ (s : State) (t : DWord), s.saf.state = .sto → s.coreSafety = .sto →
    ∃ u : State, exec (.stoEntry t) s = .next u ∧ u.saf.state = .sto ∧ u.saf.stoDyn = false ∧ u.saf.forced = 0xFF ∧ u.coreSafety = .sto
      ∧ (∀ k : Fin 8, u.arms[k].active = [] ∧ u.arms[k].staged = s.arms[k].staged ∧ u.arms[k].sigma = 0 ∧ u.arms[k].cmd = s.arms[k].cmd)
      ∧ (∀ a : Fin 128, u.aux[a].queue = [] ∧ u.aux[a].v = 0 ∧ u.aux[a].icur = 0 ∧ u.mans[a] = false) ∧ (∀ c : Fin 16, u.chans[c].last = 0 ∧ u.chans[c].iref = 0)
      ∧ u.cores = s.cores ∧ u.data = s.data)
  ∧ (∀ (s : State) (since : Nat) (t : DWord),
    (500 ≤ since → since ≤ 2000 → exec (.wdogService since t) s = .next { s with now := t })
    ∧ (since < 500 ∨ 2000 < since →
      exec (.wdogService since t) s = .next (({ s with now := t, saf := { s.saf with wdog := false } } : State).raise 0x1809 3))
    ∧ exec (.wdogExpired t) s = .next (({ s with now := t, saf := { s.saf with wdog := false } } : State).raise 0x1809 3))
  ∧ (∀ s : State, exec .wdogStoDelay s = .next (if s.saf.state = .sto then { s with saf := { s.saf with wdog := false } } else s))
  ∧ (∀ (s : State) (t : DWord), exec (.stoReadback t) s =
      .next (({ s with now := t, saf := { s.saf with stoDyn := false, wdog := false } } : State).raise 0x1815 3))
  ∧ (∀ (s : State) (released pressed : Nat) (t : DWord),
    let p := s.prof.saf
    ∃ u : State, exec (.resetEdge released pressed t) s = .next u ∧ u.saf.rstPin = true ∧ u.saf.stuck = false ∧ s.SameCore u
      ∧ (pressed < p.tminMs * 1000 → u.saf.edge = s.saf.edge ∧ s.Raised u 0x1817 0 false)
      ∧ (p.tminMs * 1000 ≤ pressed → (p.tmaxMs * 1000 < pressed ∨ s.saf.stuck = true ∨ released < p.tminMs * 1000) →
          u.saf.edge = s.saf.edge ∧ u.reports = s.reports)
      ∧ (p.tminMs * 1000 ≤ pressed → pressed ≤ p.tmaxMs * 1000 → s.saf.stuck = false → p.tminMs * 1000 ≤ released →
          (s.boot.ready = true → u.saf.edge = true ∧ u.reports = s.reports)
          ∧ (s.boot.ready = false → u.saf.edge = s.saf.edge ∧ s.Raised u 0x1819 0 false)))
  ∧ (∀ (s : State) (t : DWord), (s.saf.stuck = true → exec (.resetStuck t) s = .next s) ∧ (s.saf.stuck = false → exec (.resetStuck t) s =
      .next (({ s with now := t, saf := { s.saf with stuck := true, rstPin := false } } : State).raise 0x1816 1)))
  ∧ ∀ (s : State) (t : DWord),
    (s.saf.edge = false → exec (.resetEdgeEvaluate t) s = .next s)
    ∧ (s.saf.edge = true → ∃ u : State, exec (.resetEdgeEvaluate t) s = .next u ∧ u.saf.edge = false ∧ s.SameCore u
      ∧ (s.saf.state ≠ .sto → u.saf.state = s.saf.state ∧ s.Raised u 0x1819 0 false)
      ∧ (∀ d : Word, s.saf.state = .sto → s.blocking = some d →
          u.saf.state = .sto ∧ u.gate = s.gate ∧ u.reports = s.reports ++ [⟨0x1818, 0, false, t, d⟩])
      ∧ (s.saf.state = .sto → s.blocking = none → u.saf.state = .run ∧ u.saf.stoDyn = true ∧ u.saf.wdog = true ∧ u.saf.queue = []
          ∧ u.saf.react = none ∧ u.saf.noHold = false ∧ (s.eph.replay = false → s.stopped 3 = false → u.gate = s.gate ++ [⟨s.stampAt t, 1, .safety .run⟩])))

/-- Safe inputs, ESTOP, safe outputs, diagnostics, monitors, the flow signature and the mailbox. SAFE_INPUT_CHANGE sets
the filtered level and ends the discrepancy of a pair that agrees; SIN_DISC marks a pair that does not and raises
0x1813 as F2. TEST_PULSE sets the test result of each input tested with that pulse (0x1812, F2, where one stays high)
and, for TP0 and TP1, of its ESTOP contact (0x1811, F3, likewise). ESTOP_CHANGE to both contacts open raises 0x1810 as
F2; ESTOP_DISC with contacts that differ raises 0x1811. SOUT_WRITE requests the safe outputs, the forced ones staying
off; DARK_PULSE leaves an output that is on; SOUT_READBACK that disagrees raises 0x1814 as F3. MARCH_SEGMENT and
HALO_CHUNK advance, and raise 0x1806 (counting in SAF_ECC7) or 0x1805 as F3 where they fail; DIAG_LATE raises 0x1804
two Halo periods after the due time, not earlier. The clock, voltage and temperature monitors raise their codes.
FLOWDL_EXPIRE raises 0x1802 without a checkpoint; FLOWSIG folds its immediate on the safety core and is ILLEGAL on a
planner core. Each mailbox command answers only a request the safety core has seen. (R116, R319, R336, R337, R338,
R339, R340, R341, R342, R347, R490, R491) -/
def Obligations.SafetyInputsOutputsAndMailbox : Prop :=
  (∀ (s : State) (i : Fin 16) (v : Bool), ∃ u : State, exec (.safeInputChange i v) s = .next u ∧ u.saf.sin = bitSet s.saf.sin i.val v
      ∧ s.SameCore u ∧ u.reports = s.reports
      ∧ (s.pairOf i.val = none → u.saf = { s.saf with sin := bitSet s.saf.sin i.val v })
      ∧ (∀ p : Nat, s.pairOf i.val = some p → u.saf.sinDisc =
          if ({ s with saf := { s.saf with sin := bitSet s.saf.sin i.val v } } : State).pairAgrees p then
            bitSet (bitSet s.saf.sinDisc p false) (p + 1) false else s.saf.sinDisc))
  ∧ (∀ (s : State) (i : Fin 16) (t : DWord) (p : Nat), s.pairOf i.val = some p →
      (s.pairAgrees p = true → exec (.sinDisc i t) s = .next s)
      ∧ (s.pairAgrees p = false → exec (.sinDisc i t) s = .next (({ s with now := t, saf := { s.saf with
          sinDisc := bitSet (bitSet s.saf.sinDisc p true) (p + 1) true } } : State).raise 0x1813 2)))
  ∧ (∀ (s : State) (k : Fin 4) (lows : BitVec 16) (low : Bool) (t : DWord),
      let tested (i : Nat) : Prop := s.sinMode i = 2 ∧ fld (s.sinCfg i) 6 5 = k.val
      ∃ u : State, exec (.testPulse k lows low t) s = .next u ∧ s.SameCore u
        ∧ (∀ i : Nat, i < 16 → (tested i → u.saf.sinTest.getLsbD i = !lows.getLsbD i)
            ∧ (¬ tested i → u.saf.sinTest.getLsbD i = s.saf.sinTest.getLsbD i))
        ∧ ((∃ i : Nat, i < 16 ∧ tested i ∧ lows.getLsbD i = false) → ∃ r ∈ u.reports, r.code = 0x1812 ∧ r.cls = 2)
        ∧ (2 ≤ k.val → u.saf.estTest = s.saf.estTest)
        ∧ (k.val < 2 → u.saf.estTest = bitSet s.saf.estTest k.val (!low) ∧ (low = false → ∃ r ∈ u.reports, r.code = 0x1811 ∧ r.cls = 3)))
  ∧ (∀ (s : State) (a b : Bool) (t : DWord),
      let s1 : State := { s with now := t, saf := { s.saf with estA := a, estB := b } }
      exec (.estopChange a b t) s = .next (
        if a = false ∧ b = false ∧ (s.saf.estA = true ∨ s.saf.estB = true) then s1.raise 0x1810 2 else s1))
  ∧ (∀ (s : State) (t : DWord), s.saf.estA ≠ s.saf.estB → OnlyRaises s (exec (.estopDisc t) s) t 0x1811 3 false)
  ∧ (∀ (s : State) (v : Byte), ∃ u : State, exec (.soutWrite v) s = .next u ∧ u = { s with saf := { s.saf with soutReq := v } }
      ∧ ∀ k : Fin 8, u.saf.sout.getLsbD k.val = (v.getLsbD k.val && !s.saf.forced.getLsbD k.val))
  ∧ (∀ (s : State) (k : Fin 8), s.saf.sout.getLsbD k.val = true → exec (.darkPulse k) s = .next (s.out (.dark k)))
  ∧ (∀ (s : State) (k : Fin 8) (rb : Bool) (t : DWord),
      let bad := rb != s.saf.sout.getLsbD k.val
      let s1 : State := { s with now := t, saf := { s.saf with rb := bitSet s.saf.rb k.val rb, rbFail := bitSet s.saf.rbFail k.val bad } }
      exec (.soutReadback k rb t) s = .next (if bad then s1.raise 0x1814 3 else s1))
  ∧ (∀ (s : State) (fail : Bool) (t : DWord), ∃ u v : State,
      exec (.marchSegment fail t) s = .next u ∧ u.saf.marchIdx = (s.saf.marchIdx + 1) % 768 ∧ u.saf.marchAt = t.toNat ∧ s.SameCore u
      ∧ (if fail then s.Raised u 0x1806 3 false ∧ u.saf.ecc[7].2 = satAdd 65535 s.saf.ecc[7].2 1 else u.reports = s.reports ∧ u.saf.ecc = s.saf.ecc)
      ∧ exec (.haloChunk fail t) s = .next v ∧ v.saf.chunkIdx = (s.saf.chunkIdx + 1) % 64 ∧ v.saf.chunkAt = t.toNat ∧ s.SameCore v
      ∧ (if fail then s.Raised v 0x1805 3 false ∧ v.saf.diagFail = true else v.reports = s.reports ∧ v.saf.diagFail = s.saf.diagFail))
  ∧ (∀ (s : State) (march : Bool) (t : DWord),
      let due := (if march then s.saf.marchAt + 10000000 else s.saf.chunkAt + 16000000) + 2 * (s.prof.haloDiv * s.tTick)
      (t.toNat < due → exec (.diagLate march t) s = .next s)
      ∧ (due ≤ t.toNat → ∃ u : State, exec (.diagLate march t) s = .next u ∧ u.saf.diagLate = true ∧ s.Raised u 0x1804 2 false ∧ s.SameCore u))
  ∧ (∀ (s : State) (d : Fin 9) (t : DWord), s.monMasked d.val = false →
      (s.stopped d.val = false → ∃ u : State, exec (.clkStop d t) s = .next u ∧ u.saf.stoDyn = false ∧ s.SameCore u
        ∧ u.reports = s.reports ++ [⟨0x0101, 3, false, t, BitVec.ofNat 32 d.val⟩]
        ∧ (if d.val = 3 then u.saf.wdog = false else u.saf.forced = 0xFF))
      ∧ ∃ u : State, exec (.clkFreq d t) s = .next u ∧ s.Raised u 0x0102 3 false ∧ u.saf = s.saf ∧ s.SameCore u)
  ∧ (∀ (s : State) (t : DWord), OnlyRaises s (exec (.voltMon t) s) t 0x0103 3 false ∧ OnlyRaises s (exec (.tempWarn t) s) t 0x0104 1 false
      ∧ OnlyRaises s (exec (.tempMon t) s) t 0x0105 3 false)
  ∧ (∀ (s : State) (t : DWord), s.saf.flowDone = false → OnlyRaises s (exec (.flowdlExpire t) s) t 0x1802 3 false)
  ∧ (∀ (s : State) (c : Fin 10) (imm : BitVec 12), s.mayRun c .sys [] none = true →
      if c.val ≠ 9 then Traps s c (exec (.flowsig c imm) s) 1 (wordI 0x0E 0 0 13 imm.toNat)
      else RunsAs s c (exec (.flowsig c imm) s) fun s1 =>
        if imm = 0xFFF then (s1.modCore c Core.adv).flowCheck
        else { s1.modCore c Core.adv with saf := { s.saf with flowSig := crcFold s.saf.flowSig (leBytes imm.toNat 2) } })
  ∧ (∀ s : State, s.saf.mbx.busy = false → ∃ u : State, exec .mailboxGo s = .next u ∧ u.saf.mbx.busy = true ∧ u.saf.mbx.done = false
      ∧ u.saf.mbx.cmd = (s.reg 0x180200).setWidth 8 ∧ (∀ k : Nat, k < 4 → nth u.saf.mbx.args k 0 = s.reg (0x180204 + 4 * k)) ∧ s.SameCore u)
  ∧ (∀ s : State, s.saf.mbx.busy = true → exec .mailboxGo s = .next { s with saf := { s.saf with mbx := { s.saf.mbx with ovr := true } } })
  ∧ (∀ (s : State) (t : DWord) (res : BitVec 16) (r0 r1 r2 r3 : Word) (i : Instr), s.saf.mbx.busy = false ∨ s.saf.mbx.seen = false →
      i ∈ [.mbxHostStop t, .mbxHoldEnd t, .mbxEcho, .mbxProgram res r0 r1 r2 r3, .mbxUnknown] → exec i s = .next s)
  ∧ ∀ (s : State) (t : DWord) (res : BitVec 16) (r0 r1 r2 r3 : Word), s.saf.mbx.busy = true → s.saf.mbx.seen = true →
      let c := s.saf.mbx.cmd.toNat
      let done (o : Res) (p : State → Prop) : Prop := ∃ u : State, o = .next u ∧ u.saf.mbx.busy = false ∧ u.saf.mbx.done = true
        ∧ u.regs = s.regs ∧ u.cores = s.cores ∧ u.data = s.data ∧ u.arms = s.arms ∧ p u
      (c = 1 → done (exec (.mbxHostStop t) s) fun u => s.Raised u 0x1820 2 true)
      ∧ (c = 2 → s.coreSafety = .hold → s.saf.state = .hold → done (exec (.mbxHoldEnd t) s) fun u => s.Raised u 0x181A 0 false ∧ u.saf.finalRamp = true)
      ∧ (c = 3 → done (exec .mbxEcho s) fun u => u.saf.mbx.resp = s.saf.mbx.args)
      ∧ (0x80 ≤ c → done (exec (.mbxProgram res r0 r1 r2 r3) s) fun u => u.saf.mbx.result = res ∧ u.saf.mbx.resp = [r0, r1, r2, r3])
      ∧ (c = 0 ∨ (4 ≤ c ∧ c < 0x80) → done (exec .mbxUnknown s) fun u => u.saf.mbx.result = 0xFFFF)

/-- A Halo period: its start, its limits and checks, publication results, and the frames exchanged with neighbours.
HALO_PERIOD_START at a due tick: the period counts, the flow signature starts from its seed with no checkpoint, the F3
of the period becomes the one before, and a waiting mailbox request is seen. HALO_COMPUTE at a due tick sends one
limit set for the next boundary: 0 for an arm without profile, VMAXC for one without capsules, else at most the limit
of each of its capsules, which in the hold is at most SLS; a capsule past its envelope in two periods raises 0x1901; a
failed injected pair raises 0x1805. HPUB_CHECK accepts a core's set or raises 0x1905 with the cause, and tells the
core. ENC_PLAUS raises 0x0C05 at the count N; HALO_TICK_WINDOW raises 0x1803 outside 90 to 110 percent. Frames: a part
is sent with identical payload on both channels, in each channel's first HALO window of the cycle; two equal copies
are kept, differing ones are both dropped and raise 0x1081, a copy that alone came is kept and the missing one counted
by channel; a period with all parts is accepted, another is lost, raised once as 0x1083; more than MISSMAX misses
raise 0x1082 once on each channel. (R21, R306, R341, R354, R355, R361, R363, R369, R374, R375, R376, R378) -/
def Obligations.HaloResults : Prop :=
  (∀ s : State, s.running = true → s.epoch % s.prof.haloDiv = 0 →
    ∃ t : State, exec .haloPeriodStart s = .next t ∧ t.halo.period = s.halo.period + 1 ∧ t.saf.flowSig = s.prof.saf.flowSeed
      ∧ t.saf.flowDone = false ∧ t.saf.f3Prev = s.saf.f3Now ∧ t.saf.f3Now = none ∧ t.saf.mbx.seen = s.saf.mbx.busy
      ∧ t.saf.state = s.saf.state ∧ t.regs = s.regs ∧ t.data = s.data ∧ t.arms = s.arms)
  ∧ (∀ s : State, s.epoch % s.prof.haloDiv ≠ 0 → s.boot.power ≠ .quiet → exec .haloPeriodStart s = .next s)
  ∧ (∀ (s : State) (a : Fin 128) (t : DWord),
    let n := fld (s.regN (0xC2004 + 8 * a.val)) 7 0
    exec (.encPlaus a t) s = .next (if fld (s.regN (0xC2000 + 8 * a.val)) 31 16 ≠ 0 ∧ n ≠ 0 ∧ s.fbk[a].plCnt = n then
      ({ s with now := t, fbk := s.fbk.set a { s.fbk[a] with plaus := true } } : State).raise 0x0C05 3 else s))
  ∧ (∀ (s : State) (interval : Nat) (t : DWord), s.boot.power ≠ .quiet →
    let h := s.prof.haloDiv * s.tTick
    exec (.haloTickWindow interval t) s = .next (if 10 * interval < 9 * h ∨ 11 * h < 10 * interval then
      ({ s with now := t } : State).raise 0x1803 3 else s))
  ∧ (∀ (s : State) (bad : Bool) (t : DWord), s.haloTick = true →
    ∃ u : State, exec (.haloCompute bad t) s = .next u ∧ u.halo.lims.length = 8 ∧ u.halo.seps.length = 8 ∧ u.halo.first = false
      ∧ u.regs = s.regs ∧ u.data = s.data ∧ u.arms = s.arms ∧ u.saf.state = s.saf.state ∧ u.halo.period = s.halo.period
      ∧ (s.eph.replay = false → s.stopped 3 = false → u.gate = s.gate ++ [⟨s.epoch + 1, 1, .haloLimits u.halo.lims u.halo.seps⟩])
      ∧ (∀ k : Nat, k < 8 → s.armProf k = none → nth u.halo.lims k 0 = 0 ∧ nth u.halo.seps k 0 = 0)
      ∧ (∀ k : Nat, k < 8 → s.armProf k ≠ none → (∀ c ∈ u.halo.caps, c.arm ≠ k) → nth u.halo.lims k 0 = nth s.prof.saf.vmaxc k 0)
      ∧ (∀ c ∈ u.halo.caps, nth u.halo.lims c.arm 0 ≤ c.lim ∧ (s.saf.state = .hold → c.lim ≤ s.prof.slsMm)
          ∧ (s.halo.first = true → c.env = c.lim ∧ c.overs = 0) ∧ (s.saf.state = .sto → c.overs = 0))
      ∧ ((∃ c ∈ u.halo.caps, c.overs = 2) → ∃ r ∈ u.reports, r.code = 0x1901 ∧ r.cls = 3)
      ∧ (bad = true → u.saf.diagFail = true ∧ ∃ r ∈ u.reports, r.code = 0x1805 ∧ r.cls = 3))
  ∧ (∀ (s : State) (bad : Bool) (t : DWord), s.haloTick = false → exec (.haloCompute bad t) s = .next s)
  ∧ (∀ (s : State) (c : Fin 9) (kind : Nat) (recs : List (List Byte)) (t : DWord), s.haloTick = true → s.halo.pubs = [(c, kind, recs)] →
    let s0 : State := { s with now := t, halo := { s.halo with pubs := [] } }
    let code := if kind = 0 then s.toolCheck c.val recs else s.claimCheck c.val recs
    exec (.hpubCheck c t) s = .next (
      (if code = 0 then s0.acceptPub c.val kind recs else s0.raise 0x1905 0 false (some (BitVec.ofNat 32 code))).gatePush
        (s.epoch + 1) 1 (.event (some c) (mkEv 0x12 kind code))))
  ∧ (∀ (s : State) (t : DWord), s.maySend = false → exec (.haloFrameSend t) s = .next s)
  ∧ (∀ (s : State) (t : DWord) (ea eb : MEntry) (ra rb : List MEntry), s.maySend = true → s.running = true → s.prof.saf.npart = 1 →
    s.haloEntries .a = ea :: ra → s.haloEntries .b = eb :: rb →
    let at8 (e : MEntry) : DWord := BitVec.ofNat 64 (s.t0 s.epoch + 8 * e.start)
    ∃ (u : State) (fa fb : SchedFrame), exec (.haloFrameSend t) s = .next u ∧ u.outbox = s.outbox ++ [.sched .a fa, .sched .b fb]
      ∧ fa.cls = 3 ∧ fb.cls = 3 ∧ fa.fid = BitVec.ofNat 12 ea.fid ∧ fb.fid = BitVec.ofNat 12 eb.fid ∧ fa.start = at8 ea ∧ fb.start = at8 eb
      ∧ s.haloParts = [fa.payload] ∧ fb.payload = fa.payload ∧ fa.payload.take 1 = [BitVec.ofNat 8 s.prof.saf.cellNo.val]
      ∧ u.halo = s.halo ∧ s.SameCore u)
  ∧ (∀ (s : State) (t : DWord), s.haloEntries .a = [] → s.haloEntries .b = [] →
    ∃ u : State, exec (.haloFrameSend t) s = .next u ∧ u.outbox = s.outbox)
  ∧ (∀ (s : State) (cell part : Fin 16) (t : DWord), s.nbrCells.contains cell = true →
    exec (.haloFrameReceive cell part none none t) s = .next (({ s with now := t } : State).modNbr cell fun r => { r with
      parts := r.parts.filter (fun e => e.1 != part.val) ++ [(part.val, none)], missNow := r.missNow ||| 3
      missed := min 65535 (r.missed + 2) }))
  ∧ (∀ (s : State) (cell part : Fin 16) (ca cb : Option SchedFrame) (t : DWord) (x y : List Byte), s.nbrCells.contains cell = true →
    let a := ({ s with now := t } : State).haloCopy .a cell.val part.val ca
    let b := a.2.haloCopy .b cell.val part.val cb
    a.1 = some x → b.1 = some y →
    ∃ u : State, exec (.haloFrameReceive cell part ca cb t) s = .next u ∧ s.SameCore u
      ∧ (x = y → (part.val, some x) ∈ u.halo.nbrs[cell].parts ∧ u.halo.nbrs[cell].missNow = s.halo.nbrs[cell].missNow)
      ∧ (x ≠ y → (part.val, none) ∈ u.halo.nbrs[cell].parts ∧ (∃ r ∈ u.reports, r.code = 0x1081 ∧ r.cls = 2)))
  ∧ (∀ (s : State) (cell part : Fin 16) (f : SchedFrame) (t : DWord) (x : List Byte), s.nbrCells.contains cell = true →
    let s0 : State := { s with now := t }
    ((s0.haloCopy .a cell.val part.val (some f)).1 = some x →
      ∃ u : State, exec (.haloFrameReceive cell part (some f) none t) s = .next u ∧ s.SameCore u
        ∧ (part.val, some x) ∈ u.halo.nbrs[cell].parts ∧ u.halo.nbrs[cell].missNow = s.halo.nbrs[cell].missNow ||| 2)
    ∧ ((s0.haloCopy .b cell.val part.val (some f)).1 = some x →
      ∃ u : State, exec (.haloFrameReceive cell part none (some f) t) s = .next u ∧ s.SameCore u
        ∧ (part.val, some x) ∈ u.halo.nbrs[cell].parts ∧ u.halo.nbrs[cell].missNow = s.halo.nbrs[cell].missNow ||| 1))
  ∧ (∀ (s : State) (cell : Fin 16) (t : DWord) (n : NbrProf), s.prof.saf.nbrs.find? (fun x => x.cell == cell) = some n →
    let r := s.halo.nbrs[cell]
    let whole := ∀ i : Nat, i < n.nparts → ∃ b, (r.parts.find? fun e => e.1 == i) = some (i, some b)
    ∃ u : State, exec (.haloPeriodAccept cell t) s = .next u ∧ s.SameCore u ∧ u.halo.nbrs[cell].parts = []
      ∧ (∀ c : Fin 16, c ≠ cell → u.halo.nbrs[c] = s.halo.nbrs[c])
      ∧ (whole → u.halo.nbrs[cell].accepted = true ∧ u.halo.nbrs[cell].staged = true ∧ u.halo.nbrs[cell].lostRun = 0 ∧ u.reports = s.reports)
      ∧ (¬ whole → u.halo.nbrs[cell].accepted = false ∧ u.halo.nbrs[cell].staged = false ∧ u.halo.nbrs[cell].lostRun = r.lostRun + 1
          ∧ u.reports = s.reports ++ (if r.lostArmed then [⟨0x1083, 1, false, t, BitVec.ofNat 32 cell.val⟩] else [])))
  ∧ ∀ (s : State) (cell : Fin 16) (t : DWord),
    let r := s.halo.nbrs[cell]
    let m := s.prof.saf.missMax
    (r.missA ≤ m → r.missB ≤ m → exec (.haloCopyMissing cell t) s = .next s)
    ∧ ((m < r.missA ∧ r.raised.getLsbD 0 = false) ∨ (m < r.missB ∧ r.raised.getLsbD 1 = false) →
      ∃ u : State, exec (.haloCopyMissing cell t) s = .next u ∧ s.SameCore u
        ∧ (if (m < r.missA ∧ r.raised.getLsbD 0 = false) ∧ (m < r.missB ∧ r.raised.getLsbD 1 = false) then
            ∃ d1 d2 : Word, u.reports = s.reports ++ [⟨0x1082, 2, true, t, d1⟩, ⟨0x1082, 2, true, t, d2⟩]
          else s.Raised u 0x1082 2 true)
        ∧ (m < r.missA → u.halo.nbrs[cell].raised.getLsbD 0 = true) ∧ (m < r.missB → u.halo.nbrs[cell].raised.getLsbD 1 = true))

/-- Plant safety telegrams: the checks in their order, failure and recovery of a connection, and transmission.
TELEGRAM_RECEIVE of a telegram of the right length. An unknown identity is counted and raised as 0x1A02 at most once a
second. On a known connection the first failing check is the cause: the source (2), the check value (3), the age or an
invalid plant time (4); then on an OK connection the sequence number: one repeated is ignored with cause 6, one past
the window is an error (5), one inside it is accepted with cause 0 and a signal payload taken over. On a connection
that is not OK it counts towards recovery: from failed it starts at 1, from recovering it goes on within the window
and falls back to failed outside it, and RECOVN telegrams make the connection OK. A wrong length is a format error (1)
of the connection it names, if any. The ERRMAX-th error in a row makes an OK connection fail: the fail-safe payload,
and its fault. SAFE_CONN_FAIL makes an OK connection failed, puts the fail-safe payload in force and raises 0x1A01 or,
for volumes, 0x1902. TELEGRAM_SEND with a valid plant time sends with the next sequence number. SAFE_TIME_INVALID ends
the plant time and raises 0x1A03; PLANT_TIME_VALID starts it. (R365, R379, R380, R382, R384, R385, R386, R387) -/
def Obligations.SafeTelegramResults : Prop :=
  (∀ (s : State) (b : List Byte) (ip : Word) (sp : Nat) (port : Fin 2) (rx : Word) (t : DWord),
    let len := valAt b 6 1
    let go := exec (.telegramReceive b ip sp port rx t) s
    4 ≤ b.length →
    ((b.length ≠ 16 + len ∨ 64 < len ∨ valAt b 7 1 ≠ 0) →
      (s.connOf (valAt b 0 4) = none → go = .next { s with now := t })
      ∧ ∀ c : Fin 32, s.connOf (valAt b 0 4) = some c → ∃ u : State, go = .next u ∧ s.SameCore u
          ∧ u.scomm.conns = s.scomm.conns.set c (s.scomm.conns[c].afterError (s.connProf c) 1))
    ∧ (b.length = 16 + len → len ≤ 64 → valAt b 7 1 = 0 →
      (s.connOf (valAt b 0 4) = none → ∃ u : State, go = .next u ∧ u.scomm.conns = s.scomm.conns ∧ u.scomm.unk = min 65535 (s.scomm.unk + 1)
        ∧ s.SameCore u
        ∧ ((∃ x : Nat, s.scomm.unkAt = some x ∧ t.toNat < x + 1000000000) → u.reports = s.reports)
        ∧ (s.scomm.unkAt = none → u.reports = s.reports ++ [⟨0x1A02, 0, false, t, BitVec.ofNat 32 (valAt b 0 4)⟩]))
      ∧ ∀ c : Fin 32, s.connOf (valAt b 0 4) = some c →
        let p := s.connProf c
        let k := s.scomm.conns[c]
        let age := rx - BitVec.ofNat 32 (valAt b 8 4)
        let seq := BitVec.ofNat 16 (valAt b 4 2)
        let d := (seq - k.slast).toNat
        let from' := ip = p.srcIp ∧ sp = p.srcPort ∧ port = p.port
        let crc := (crc32c p.key (b.take (12 + len))).toNat = valAt b (12 + len) 4
        let fresh := s.scomm.valid.getLsbD port.val = true ∧ -1000 ≤ age.toInt ∧ age.toInt ≤ (p.texp * 1000 : Nat)
        ∃ u : State, go = .next u ∧ s.SameCore u ∧ (∀ x : Fin 32, x ≠ c → u.scomm.conns[x] = s.scomm.conns[x])
          ∧ (¬ from' → u.scomm.conns[c] = k.afterError p 2)
          ∧ (from' → ¬ crc → u.scomm.conns[c] = k.afterError p 3)
          ∧ (from' → crc → ¬ fresh → u.scomm.conns[c] = k.afterError p 4)
          ∧ (from' → crc → fresh → k.st = .ok →
              (d = 0 → u.scomm.conns[c] = { k with cause := 6 })
              ∧ (d ≠ 0 → p.seqwin < d → u.scomm.conns[c] = k.afterError p 5
                ∧ (p.errmax ≤ (k.error 5).errRun → ∃ r ∈ u.reports, r.code = (if p.signal then 0x1A01 else 0x1902) ∧ r.stamp = t))
              ∧ (d ≠ 0 → d ≤ p.seqwin → p.signal = true → u.scomm.conns[c] =
                  { k with slast := seq, cause := 0, errRun := 0, age := age, buf := bytesAt b 12 len }))
          ∧ (from' → crc → fresh → k.st = .failed → 1 < p.recovn → u.scomm.conns[c].st = .recovering
              ∧ u.scomm.conns[c].recov = 1 ∧ u.scomm.conns[c].slast = seq)
          ∧ (from' → crc → fresh → k.st = .recovering → d ≠ 0 → d ≤ p.seqwin →
              u.scomm.conns[c].slast = seq ∧ u.scomm.conns[c].st = (if p.recovn ≤ k.recov + 1 then .ok else .recovering))
          ∧ (from' → crc → fresh → k.st = .recovering → (d = 0 ∨ p.seqwin < d) →
              u.scomm.conns[c].st = .failed ∧ u.scomm.conns[c].recov = 0)))
  ∧ (∀ (k : Conn) (cause : Nat), (k.error cause).cause = cause ∧ (k.error cause).errRun = min 15 (k.errRun + 1)
      ∧ (k.error cause).buf = k.buf ∧ (k.error cause).slast = k.slast
      ∧ (k.st = .recovering → cause ≠ 7 → (k.error cause).st = .failed ∧ (k.error cause).recov = 0))
  ∧ (∀ (s : State) (c : Fin 32) (t : DWord), (s.connProf c).en = true → s.scomm.conns[c].st = .ok →
      let p := s.connProf c
      ∃ u : State, exec (.safeConnFail c t) s = .next u ∧ u.scomm.conns[c].st = .failed ∧ s.SameCore u
        ∧ u.scomm.conns[c].fails = min 255 (s.scomm.conns[c].fails + 1) ∧ (∀ x : Fin 32, x ≠ c → u.scomm.conns[x] = s.scomm.conns[x])
        ∧ (p.signal = true → u.scomm.conns[c].buf = p.failpay ∧ u.reports = s.reports ++ [⟨0x1A01, if p.f2 then 2 else 1, p.hold, t,
            BitVec.ofNat 32 (c.val + 256 * (if p.errmax ≤ s.scomm.conns[c].errRun then s.scomm.conns[c].cause else 0)
              + 65536 * bnat (p.f2 && p.hold))⟩])
        ∧ (p.signal = false → s.Raised u 0x1902 1 false ∧ ∀ i : Fin 32,
            u.halo.vols[i] = if i ∈ p.slots then { v := p.failvol, fail := true } else s.halo.vols[i]))
  ∧ (∀ (s : State) (c : Fin 32) (t : DWord), s.scomm.conns[c].st ≠ .ok → exec (.safeConnFail c t) s = .next s)
  ∧ (∀ (s : State) (k : Fin 8) (ts : Word) (pay : List Byte) (p : TxProf), s.prof.saf.txs[k.val]? = some p → pay.length ≤ 64 →
      (s.scomm.valid.getLsbD p.port.val = false → exec (.telegramSend k ts pay) s = .next s)
      ∧ (s.scomm.valid.getLsbD p.port.val = true →
        let body := leBytes p.connid.toNat 4 ++ leBytes s.scomm.txSeq[k].toNat 2 ++ leBytes pay.length 1 ++ [0] ++ leBytes ts.toNat 4 ++ pay
        exec (.telegramSend k ts pay) s = .next { s with
          scomm := { s.scomm with txSeq := s.scomm.txSeq.set k (s.scomm.txSeq[k] + 1) }
          outbox := s.outbox ++ [.telegram p.port (body ++ leBytes (crc32c p.key body).toNat 4)] }))
  ∧ (∀ (s : State) (port : Fin 2) (t : DWord), exec (.safeTimeInvalid port t) s = .next (
      if s.scomm.valid.getLsbD port.val = true then { s with
        now := t, scomm := { s.scomm with valid := bitSet s.scomm.valid port.val false }
        reports := s.reports ++ [⟨0x1A03, 1, false, t, BitVec.ofNat 32 port.val⟩] } else s))
  ∧ ∀ (s : State) (port : Fin 2), exec (.plantTimeValid port) s = .next { s with
      scomm := { s.scomm with valid := bitSet s.scomm.valid port.val true } }

/-- The capture engine: samples, triggers, records, readout and release. CAPTURE_ASSEMBLY runs once the sequencer runs
past tick 0 and touches no register, memory or core; with every set disarmed and filling nothing no record changes. A
sample of a set that fills joins its record. A forced sample 0 of an armed set begins a record with the next index
(forced, at its tick, with the pre-trigger samples at hand) where an index and pages can be claimed, and is otherwise
counted as a drop. CAP_FORCE notes the tick of the committed force. RECORD_CLOSE closes a record that has its samples,
with its measurements, and raises vector 4. READOUT_GO takes a closed record and the host address at GO, marks a
missing one, or an overrun while one is being read; READOUT_DONE writes the header and the words to the host buffer,
and an uncorrectable error marks the record and raises 0x1404. RECORD_RELEASE frees a closed record that is not being
read, and no other. (R445, R447, R448, R449, R450, R451, R454) -/
def Obligations.CaptureResults : Prop :=
  (∀ s : State, s.running = false ∨ s.epoch = 0 → exec .captureAssembly s = .next s)
  ∧ (∀ s : State, s.running = true → 0 < s.epoch → ∃ t : State, exec .captureAssembly s = .next t ∧ t.regs = s.regs ∧ t.data = s.data
      ∧ t.cores = s.cores ∧ t.arms = s.arms ∧ t.fbk = s.fbk ∧ t.epoch = s.epoch
      ∧ ((∀ k : Fin 4, s.cap.sets[k].armed = false ∧ s.cap.sets[k].fill = none) → t.cap.recs = s.cap.recs ∧ t.cap.next = s.cap.next
          ∧ t.reports = s.reports ∧ t.reqs = s.reqs))
  ∧ (∀ (s : State) (k : Fin 4) (forced : Bool) (x : CapSample) (i : Byte) (r : CapRecord), s.cap.sets[k].fill = some i →
      s.cap.find i = some r → 1 < r.left →
      s.capSample k forced x = { s with cap := s.cap.put { r with samples := r.samples ++ [x], left := r.left - 1 } })
  ∧ (∀ (s : State) (k : Fin 4) (x : CapSample), s.cap.sets[k].fill = none → s.cap.sets[k].armed = true → x.j = 0 →
      (∀ keep : List CapRecord, s.cap.claim ((s.capLen k.val * s.capNsig k.val * 2 + 4095) / 4096) = some keep →
        s.capPre k.val + 1 < s.capLen k.val →
        ∃ r : CapRecord, (s.capSample k true x).cap.recs = keep ++ [r] ∧ r.index = s.cap.next ∧ r.set = k ∧ r.forced = true
          ∧ r.tepoch = x.epoch ∧ r.closed = false ∧ (s.capSample k true x).cap.next = s.cap.next + 1
          ∧ (s.capSample k true x).cap.sets[k].fill = some s.cap.next ∧ (s.capSample k true x).cap.sets[k].armed = false
          ∧ r.samples = s.cap.sets[k].pre.drop (s.cap.sets[k].pre.length - s.capPre k.val) ++ [x])
      ∧ (s.cap.claim ((s.capLen k.val * s.capNsig k.val * 2 + 4095) / 4096) = none →
        (s.capSample k true x).cap.recs = s.cap.recs ∧ (s.capSample k true x).cap.drops = min 65535 (s.cap.drops + 1)
        ∧ (s.cap.dropArmed = true → ∃ r ∈ (s.capSample k true x).reports, r.code = 0x1403 ∧ r.cls = 0)))
  ∧ (∀ (s : State) (k : Fin 4), exec (.capForce k) s = .next (
      if bitOf (assoc 0 s.due (0x140100 + k.val * 0x40)).toNat 16 = true then
        { s with
          due := assocDel s.due (0x140100 + k.val * 0x40)
          cap := { s.cap with sets := s.cap.sets.set k { s.cap.sets[k] with force := some s.epoch } } }
      else s))
  ∧ (∀ (s : State) (i : Byte) (r : CapRecord), s.cap.find i = some r → r.closed = false → s.cap.sets[r.set].fill ≠ some i →
      ∃ (t : State) (r' : CapRecord), exec (.recordClose i) s = .next t ∧ t.cap.recs = s.cap.recs.map (fun x => if x.order == r.order then r' else x)
        ∧ t.outbox = (s.msix 4).outbox ∧ t.host = (s.msix 4).host ∧ r'.closed = true ∧ r'.len = r.samples.length ∧ r'.samples = r.samples ∧ r'.meas.length = 8 ∧ t.cap.lastIdx = i
        ∧ t.cap.sets = s.cap.sets ∧ t.regs = s.regs ∧ t.data = s.data)
  ∧ (∀ (s : State) (i : Byte) (r : CapRecord), s.cap.find i = some r → (r.closed = true ∨ s.cap.sets[r.set].fill = some i) →
      exec (.recordClose i) s = .next s)
  ∧ (∀ (s : State) (i : Byte),
      let c : Cap := if s.cap.reading ≠ none then { s.cap with rdOvr := true }
        else if (s.cap.find i).any CapRecord.closed then { s.cap with reading := some i, rdAddr := s.reg 0x140014 ++ s.reg 0x140010 }
        else { s.cap with rdNorec := true }
      exec (.readoutGo i) s = .next { s with cap := c })
  ∧ (∀ (s : State) (i : Byte) (r : CapRecord) (err : Ecc) (t : DWord), s.cap.reading = some i → s.cap.find i = some r →
      let r' := { r with ecc := r.ecc || err == .uncorr }
      ∃ u : State, exec (.readoutDone err t) s = .next u ∧ u.cap.reading = none ∧ u.cap.rdDone = true ∧ u.regs = s.regs ∧ u.data = s.data
        ∧ Out.host s.cap.rdAddr (CapRecord.header r' ++ CapRecord.words r') ∈ u.outbox
        ∧ (if err = .uncorr then s.Raised u 0x1404 1 false else u.reports = s.reports)
        ∧ u.saf.ecc = (s.eccNote 5 err).saf.ecc)
  ∧ ∀ (s : State) (i : Byte), exec (.recordRelease i) s = .next { s with cap := { s.cap with
      recs := s.cap.recs.filter fun r => !(r.index == i && r.closed && s.cap.reading != some i) } }

/-- The stream, keyframes, the pinned window, and a replay from its start to its end. STREAM_COPY with the stream enabled
copies the oldest item whole where it fits, moving PROD, and otherwise skips it and starts a gap (raised once as
0x1602); an uncorrectable error of its memory is counted, raises 0x1605 and marks the copy bad. STREAM_ENABLE of a
disabled stream that copied nothing yet sets PROD and CONS to 0 and EN to 1. KEYFRAME_CAPTURE at a due tick with no
capture in progress takes the deterministic state of this boundary into the free slot, never the pinned one;
KEYFRAME_COMPLETE of at most 8 MiB makes it the newest and queues it; EPH_KF_ABANDON empties the slot and raises
0x1603. PIN_COMPLETE ends the filling once the last tick is in the ring; a release of a full window ends the pin, one
while it fills does nothing. REPLAY_START is refused outside STO (cause 1), for a REV, PROFDIG or resources that do
not fit (2, 3, 4), or without a good keyframe (5); else the keyframe's state is in force and the replay runs.
REPLAY_TICK with a digest that differs ends it with DIVERGED at that epoch, one at the last epoch with DONE. (R463,
R464, R466, R467, R468, R469, R470, R472) -/
def Obligations.EphemerisAndReplayResults : Prop :=
  (∀ (s : State) (it : StreamItem) (rest : List StreamItem), s.strEn = true → bitOf s.host.susp.toNat 1 = false → s.eph.queue = it :: rest →
      ∃ t : State, exec (.streamCopy .clean) s = .next t ∧ t.eph.queue = rest ∧ t.regs = s.regs ∧ t.eph.ring = s.eph.ring ∧ t.eph.slots = s.eph.slots
        ∧ (it.size ≤ s.streamRoom → t.eph.copied.length = s.eph.copied.length + 1 ∧ t.reports = s.reports
            ∧ t.eph.prod = BitVec.ofNat 32 ((s.eph.prod.toNat + it.size) % s.regN 0x160048)
            ∧ (∀ k : Keyframe, it = .key k → t.eph.copied = s.eph.copied ++ [it] ∧ .stream true k.seq ∈ t.outbox)
            ∧ (∀ b : TickBlock, it = .block b → t.eph.copied = s.eph.copied ++ [.block { b with
                gap := s.eph.gapDue, pinned := s.eph.ring.any fun (x : TickBlock) => x.same b && x.pinned }]
                ∧ t.eph.gapDue = false ∧ t.outbox = s.outbox ++ [.stream false b.seq]))
        ∧ (s.streamRoom < it.size → t.eph.copied = s.eph.copied ∧ t.eph.prod = s.eph.prod ∧ t.eph.gapDue = true
            ∧ (s.eph.gapDue = false → ∃ r ∈ t.reports, r.code = 0x1602 ∧ r.cls = 1)))
  ∧ (∀ (s : State) (it : StreamItem) (rest : List StreamItem) (e : Ecc), s.strEn = true → bitOf s.host.susp.toNat 1 = false →
      s.eph.queue = it :: rest →
      let m : Fin 8 := match it with | .block _ => 3 | .key _ => 4
      ∃ t : State, exec (.streamCopy e) s = .next t ∧ t.eph.queue = rest ∧ t.saf.ecc = (s.eccNote m e).saf.ecc
        ∧ (e = .uncorr → (∃ r ∈ t.reports, r.code = 0x1605 ∧ r.cls = 1)
            ∧ (it.size ≤ s.streamRoom → (∀ b : TickBlock, it = .block b → ∃ b', t.eph.copied = s.eph.copied ++ [.block b'] ∧ b'.bad = true)
                ∧ ∀ k : Keyframe, it = .key k → t.eph.copied = s.eph.copied ++ [.key { k with bad := true }])))
  ∧ (∀ s : State, s.strEn = false → s.eph.copied = [] →
      ∃ t : State, exec .streamEnable s = .next t ∧ t.eph.prod = 0 ∧ t.strEn = true ∧ t.reg 0x160054 = 0 ∧ t.eph.queue = s.eph.queue
        ∧ t.data = s.data ∧ t.reports = s.reports)
  ∧ (∀ s : State, s.running = true → s.eph.replay = false → (s.epoch % s.kfint = 0 ∨ s.epoch = s.boot.sessionAt) →
      (∀ i : Fin 2, s.eph.slots[i].isCapturing = false) →
      let i := s.eph.captureSlot
      ∃ (t : State) (k : Keyframe), exec .keyframeCapture s = .next t ∧ t.eph.slots = s.eph.slots.set i (.capturing k)
        ∧ k.epoch = s.epoch ∧ k.seq = s.eph.seq ∧ k.state.data = s.data ∧ k.state.cores = s.cores ∧ k.state.arms = s.arms
        ∧ k.state.gate = s.gate ∧ t.regs = s.regs ∧ t.data = s.data ∧ t.cores = s.cores ∧ t.eph.ring = s.eph.ring)
  ∧ (∀ (s : State) (i : Fin 2) (k : Keyframe), s.eph.slots[i] = .pinned k → (∀ k', s.eph.slots[1 - i] ≠ .pinned k') → s.eph.captureSlot = 1 - i)
  ∧ (∀ (s : State) (i : Fin 2) (k : Keyframe) (n : Nat), s.eph.slots[i] = .capturing k → s.eph.slots[1 - i].isCapturing = false → n ≤ 8388608 →
      ∃ t : State, exec (.keyframeComplete n) s = .next t ∧ t.eph.slots = s.eph.slots.set i (.complete { k with bytes := n })
        ∧ t.eph.newest = some i ∧ t.regs = s.regs ∧ t.data = s.data
        ∧ (s.strEn = true → bitOf s.host.susp.toNat 1 = false → t.eph.queue = s.eph.queue ++ [.key { k with bytes := n }]))
  ∧ (∀ (s : State) (i : Fin 2) (k : Keyframe) (t : DWord), s.eph.slots[i] = .capturing k → s.eph.slots[1 - i].isCapturing = false →
      exec (.ephKfAbandon t) s = .next { s with
        now := t, eph := { s.eph with slots := s.eph.slots.set i .empty, abandon := true }
        reports := s.reports ++ [⟨0x1603, 1, false, t, BitVec.ofNat 32 k.epoch⟩] })
  ∧ (∀ s : State, s.eph.filling = true → exec .pinComplete s = .next (
      if s.eph.trunc || s.eph.ring.any (fun b => decide (s.eph.pinEnd ≤ b.epoch)) then { s with eph := { s.eph with filling := false } } else s)
      ∧ exec .pinRelease s = .next s)
  ∧ (∀ s : State, s.eph.pin = true → s.eph.filling = false → ∃ t : State, exec .pinRelease s = .next t ∧ t.eph.pin = false
      ∧ t.eph.ring.length = s.eph.ring.length ∧ (∀ b ∈ t.eph.ring, b.pinned = false)
      ∧ (∀ (i : Fin 2) (k : Keyframe), s.eph.slots[i] = .pinned k → t.eph.slots[i] = .complete k) ∧ t.regs = s.regs ∧ t.data = s.data)
  ∧ (∀ (s : State) (image : Nat) (rev prof res : Bool), s.eph.rpRun = false →
      let refused (c : Nat) : Prop := exec (.replayStart image rev prof res) s =
        .next { s with eph := { s.eph with rpRefused := true, rpCause := c } }
      (s.saf.state ≠ .sto → refused 1)
      ∧ (s.saf.state = .sto → rev = false → refused 2)
      ∧ (s.saf.state = .sto → rev = true → prof = false → refused 3)
      ∧ (s.saf.state = .sto → rev = true → prof = true → res = false → refused 4)
      ∧ (s.saf.state = .sto → rev = true → prof = true → res = true → (∀ k, s.eph.copied[image]? ≠ some (.key k)) → refused 5)
      ∧ (∀ k : Keyframe, s.saf.state = .sto → rev = true → prof = true → res = true → s.eph.copied[image]? = some (.key k) → k.bad = true →
        refused 5)
      ∧ ∀ k : Keyframe, s.saf.state = .sto → rev = true → prof = true → res = true → s.eph.copied[image]? = some (.key k) → k.bad = false →
        ∃ t : State, exec (.replayStart image rev prof res) s = .next t ∧ t.eph.replay = true ∧ t.epoch = k.epoch ∧ t.running = true
          ∧ t.data = k.state.data ∧ t.arms = k.state.arms ∧ t.published = k.state.published ∧ t.saf = s.saf
          ∧ (∀ c : Fin 9, t.core c.castSucc = k.state.cores[c.castSucc]) ∧ t.core 9 = s.core 9)
  ∧ ∀ (s : State) (b : TickBlock) (a : Almanac), s.eph.rpRun = true → s.eph.rpNow = some b → s.published = some a →
      let same := a.epoch = BitVec.ofNat 64 b.epoch ∧ a.crc = b.almcrc ∧ s.spDigest = b.spdig
      let last := (s.regN 0x160090 + 2 ^ 32 * s.regN 0x160094) % 2 ^ 63
      (¬ same → exec .replayTick s = .next { s with eph := { s.eph with rpRun := false, rpDiv := true, rpDivAt := b.epoch } })
      ∧ (same → last ≤ b.epoch → exec .replayTick s = .next { s with eph := { s.eph with rpRun := false, rpDone := true } })
      ∧ (same → b.epoch < last → ∀ (n : TickBlock) (rest : List TickBlock), s.eph.rpLeft = n :: rest → n.bad = false → n.gap = false →
          n.seq = b.seq + 1 → n.epoch = b.epoch + 1 →
          exec .replayTick s = .next { s with eph := { s.eph with rpNow := some n, rpLeft := rest }, gate := n.gate })

/-- Device resets, boot stages, the start of the tick, profile switches, power states, and clock sources. Every device
reset leaves registers, memories, cores, plans and the safety state as after reset and counts a boot. A power-on reset
also clears the journal and the ring and takes the slot of PSEL; a warm reset keeps the journal, the ring, the line
counts and the slot; WARM_RESET_REQUEST needs its key, SCAN_ENTRY full debug scope; neither warm reset touches a
powered-off device. BOOT_STAGE_COMPLETE: stages 1 to 3 go on (a failure in stage 3 halts with an F3), stages 4 and 5
go on or fail with their cause and vector 8 (stage 5 with the lowest cause that the profile's rules give), stage 6
loads the profile of the slot and starts Meridian and the safety core; a halted or failed boot stays.
TICK_SEQUENCER_START in stage 7 at LOCKED runs the sequencer from the next boundary. PROFILE_SWITCH needs its key and
standstill. Quiet needs STO, stopped cores and no replay; Dawn needs Quiet; Standby needs Quiet and an empty journal;
WAKE and VBAT release PWR_EN. The coarse count never goes back. (R480, R488, R494, R495, R497, R499, R502, R503, R506,
R508, R533, R543) -/
def Obligations.ResetAndBootResults : Prop :=
  (∀ (s : State) (psel : Fin 4) (standby powerLoss lost : Bool),
    ∃ t : State, exec (.powerOnReset psel standby powerLoss lost) s = .next t
      ∧ s.WasReset t (if lost then 1 else min (2 ^ 32 - 1) (s.aon.boot + 1)) ∧ t.boot.slot = psel ∧ t.boot.psel = psel
      ∧ t.jrn.entries = [] ∧ t.eph.ring = [] ∧ t.boot.rstCause =
        (if standby = false ∧ powerLoss = false then 1 else BitVec.ofNat 7 (2 * bnat standby + 4 * bnat powerLoss)))
  ∧ (∀ (s : State) (pin dbg hold : Bool), s.powered = true → ∃ t : State, exec (.warmReset pin dbg hold) s = .next t
      ∧ s.WasReset t (min (2 ^ 32 - 1) (s.aon.boot + 1)) ∧ t.boot.slot = s.boot.slot ∧ t.jrn.entries = s.jrn.entries
      ∧ t.eph.ring = s.eph.ring ∧ t.dbg.hold = hold ∧ t.boot.rstCause = BitVec.ofNat 7 (8 * bnat pin + 64 * bnat dbg)
      ∧ ∀ n : Fin 8, t.lines[n].hw = s.lines[n].hw ∧ t.lines[n].ext = s.lines[n].ext ∧ t.lines[n].uncert = s.lines[n].uncert)
  ∧ (∀ (s : State) (key : BitVec 16), s.powered = true →
      (key ≠ 0xD4A3 → exec (.warmResetRequest key) s = .next s)
      ∧ ∃ t : State, exec (.warmResetRequest 0xD4A3) s = .next t ∧ s.WasReset t (min (2 ^ 32 - 1) (s.aon.boot + 1))
        ∧ t.boot.rstCause = 16 ∧ t.jrn.entries = s.jrn.entries)
  ∧ (∀ (s : State) (pin dbg hold : Bool) (key : BitVec 16), s.powered = false →
      exec (.warmReset pin dbg hold) s = .next s ∧ exec (.warmResetRequest key) s = .next s)
  ∧ (∀ s : State, (s.dbg.scope ≠ 2 → exec .scanEntry s = .next s)
      ∧ (s.dbg.scope = 2 → ∃ t : State, exec .scanEntry s = .next t ∧ s.WasReset t (min (2 ^ 32 - 1) (s.aon.boot + 1)) ∧ t.dbg.hold = true))
  ∧ (∀ (s : State) (cause : Nat) (det : Word) (bad : List Nat) (lockH : Bool) (t : DWord),
      let go := exec (.bootStageComplete cause det bad lockH t) s
      (s.boot.failed = true ∨ s.boot.halted = true ∨ s.dbg.hold = true ∨ s.powered = false → go = .next s)
      ∧ (s.boot.failed = false → s.boot.halted = false → s.dbg.hold = false → s.powered = true →
        ∃ u : State, go = .next u
          ∧ (s.boot.stage = 1 → u.boot = { s.boot with stage := 2 } ∧ u.clk.locks = (if lockH then 15 else 7) ∧ u.regs = s.regs)
          ∧ (s.boot.stage = 2 → u = { s with now := t, boot := { s.boot with stage := 3 } })
          ∧ (s.boot.stage = 3 → cause = 0 → u = { s with
              now := t, boot := { s.boot with stage := 4 }, saf := { s.saf with marchAt := t.toNat, chunkAt := t.toNat } })
          ∧ (s.boot.stage = 3 → cause ≠ 0 → u.boot = { s.boot with halted := true } ∧ s.Raised u (if cause = 1 then 0x1805 else 0x1806) 3 false)
          ∧ (s.boot.stage = 4 ∨ (s.boot.stage = 5 ∧ s.profileCause = 0) → cause = 0 → u = { s with now := t, boot := { s.boot with stage := s.boot.stage + 1 } })
          ∧ (s.boot.stage = 4 ∨ s.boot.stage = 6 → cause ≠ 0 → u.boot.failed = true ∧ u.boot.stage = s.boot.stage
              ∧ u.boot.cause = cause % 256 ∧ u.boot.det = (if cause = 8 then det else 0) ∧ u.regs = s.regs
              ∧ u.outbox = (s.msix 8).outbox ∧ u.host = (s.msix 8).host)
          ∧ (s.boot.stage = 5 → cause ≠ 0 ∨ s.profileCause ≠ 0 → u.boot.failed = true ∧ u.boot.stage = 5 ∧ u.regs = s.regs
              ∧ u.outbox = (s.msix 8).outbox ∧ u.host = (s.msix 8).host
              ∧ u.boot.cause = (if cause = 0 then s.profileCause else if s.profileCause = 0 then cause else min cause s.profileCause) % 256)
          ∧ (s.boot.stage = 6 → cause = 0 → u.boot.stage = 7 ∧ u.prof = { s.slots[s.boot.slot] with
                slot := s.boot.slot.val, arms := s.slots[s.boot.slot].arms.map (Option.map ArmProf.parsed) }
              ∧ u.codeLocked = true ∧ (u.core 9).mode = .running ∧ (u.core 9).pc = 0 ∧ u.mer.stage7 = some t.toNat
              ∧ (s.boot.warmStart = false → u.jrn.entries = s.jrn.entries))))
  ∧ (∀ (s : State) (t : DWord), s.running = false → s.boot.stage = 7 → s.mer.sync = .locked → s.boot.failed = false →
      ∃ u : State, exec (.tickSequencerStart t) s = .next u ∧ u.running = true ∧ u.epoch = t.toNat / s.tTick ∧ u.boot.stage = 8
        ∧ u.boot.ready = true ∧ u.published = none ∧ u.data = s.data
        ∧ ∀ c : Fin 9, s.prof.autostart.getLsbD c.val = true → u.reg (0x40100 + 0x40 * c.val) = 1 ∧ assocHas u.due (0x40100 + 0x40 * c.val) = true)
  ∧ (∀ (s : State) (t : DWord), (s.running = true ∨ s.mer.sync ≠ .locked) → exec (.tickSequencerStart t) s = .next s)
  ∧ (∀ (s : State) (slot : Fin 4) (key : BitVec 16), s.powered = true →
      (key ≠ 0x5E1C → exec (.profileSwitch slot key) s = .next s)
      ∧ (s.boot.failed = false → s.switchable = false →
          exec (.profileSwitch slot 0x5E1C) s = .next { s with boot := { s.boot with swref := true } })
      ∧ (s.switchable = true → ∃ u : State, exec (.profileSwitch slot 0x5E1C) s = .next u
          ∧ s.WasReset u (min (2 ^ 32 - 1) (s.aon.boot + 1)) ∧ u.boot.slot = slot ∧ u.boot.rstCause = 32 ∧ u.jrn.entries = []))
  ∧ (∀ s : State, ∃ q d b : State, exec .quietRequest s = .next q ∧ exec .dawnRequest s = .next d ∧ exec .standbyRequest s = .next b
      ∧ q.regs = s.regs ∧ d.regs = s.regs ∧ b.regs = s.regs ∧ q.data = s.data ∧ d.data = s.data ∧ b.data = s.data
      ∧ (let ok := s.boot.power = .run ∧ s.boot.ready = true ∧ s.saf.state = .sto ∧ s.eph.replay = false
            ∧ ∀ c : Fin 9, (s.core c.castSucc).mode = .stopped ∨ (s.core c.castSucc).mode = .halted
         q.boot = if ok then { s.boot with power := .quiet } else { s.boot with pwrRefused := true })
      ∧ (s.boot.power = .quiet → d.boot = { s.boot with power := .dawn } ∧ d.aon.boot = min (2 ^ 32 - 1) (s.aon.boot + 1) ∧ d.eph.seq = 0)
      ∧ (s.boot.power ≠ .quiet → d.boot = { s.boot with pwrRefused := true } ∧ d.aon = s.aon)
      ∧ (s.boot.power = .quiet → s.jrn.entries = [] → b.boot = { s.boot with power := .standby, pwrEn := false }
          ∧ b.outbox = s.outbox ++ [.pwrEn false])
      ∧ (s.boot.power ≠ .quiet ∨ s.jrn.entries ≠ [] → b.boot = { s.boot with pwrRefused := true } ∧ b.outbox = s.outbox))
  ∧ (∀ s : State, exec .wake s = .next (if s.boot.power = .standby then
        { s with boot := { s.boot with pwrEn := true }, outbox := s.outbox ++ [.pwrEn true] } else s)
      ∧ exec .vbatApply s = .next { s with boot := { s.boot with pwrEn := true }, outbox := s.outbox ++ [.pwrEn true] })
  ∧ (∀ (s : State) (t : DWord), let c := s.crystal
      exec (.coarseSiderealLoad t) s = .next (
        if s.mer.sync = .locked ∧ s.eph.replay = false ∧ c.aonSid.toNat ≤ t.toNat then { c with aonSid := t } else c)
      ∧ c.regs = s.regs ∧ c.boot = s.boot ∧ c.mer = s.mer ∧ c.aon.boot = s.aon.boot)
  ∧ (∀ (s : State) (f : Bool), exec (.clockSourceSwitch 2 f) s = .next { s with clk := { s.clk with
      fb := bitSet s.clk.fb 2 f, locks := bitSet s.clk.locks 3 (!f), pcieRef := s.clk.pcieRef || !f } })
  ∧ (∀ (s : State) (d : Fin 2) (f : Bool), exec (.clockSourceSwitch (d.castSucc) f) s = .next { s with clk := { s.clk with
      fb := bitSet s.clk.fb d.val (!s.recovered (if d = 0 then .a else .b)) } })
  ∧ ∀ (s : State) (n : Nat), exec (.crossingResync n) s = .next { s with clk := { s.clk with
      resync := min (2 ^ 32 - 1) (s.clk.resync + 1), xdrop := min (2 ^ 32 - 1) (s.clk.xdrop + n) } }

/-- Port states, repeated frames, the cold-start contest, and link delay samples. A port that loses its link, or that a
retrain names, falls to DOWN with 0x1001 and its number, unless it is DOWN or BLOCKED. TRAIN is sent in DOWN only;
TRAIN received brings a DOWN port to TRAIN from boot stage 7 on; TRAIN seen from the peer allows MEASURE; 16 samples
make a port READY at basic cycle 0. PORTDIS blocks the ports it names and releases the others. FRAME_REPEAT between
two READY ports passes a frame on, marking a bad one as aborted (a port counts the ABORTs it receives), and drops
LOCAL frames and FLOOD frames seen among the last 8. Cold start: a permitted controller that heard nothing contends
for 50 us; against another COLDSTART in its contest a lower key makes it a follower, an equal one raises 0x1002, a
higher one makes a listener contend and leaves a contender; a window held to its end makes it lodestar with address 0
and loads Sidereal time. MER_NO_LODESTAR is raised once, 1 s into stage 7. A delay request is kept and answered, and
its response gives one sample. (R48, R392, R393, R398, R400, R401, R402, R403, R409) -/
def Obligations.LinkAndColdStartResults : Prop :=
  (∀ (s : State) (c : Channel) (p : LPort) (t : DWord),
    let q := s.port c p
    exec (.linkDown c p t) s = .next (if q.state = .down ∨ q.state = .blocked then { s with now := t }
      else { ({ s with now := t } : State).modPort c p (fun x => { x with
          state := .down, downs := min 255 (x.downs + 1), peerTrain := false, samples := [], req := none }) with
        reports := s.reports ++ [⟨0x1001, 1, false, t, BitVec.ofNat 32 ((chanIdx c).val * 256 + portNo p)⟩] }))
  ∧ (∀ (s : State) (c : Channel) (p : LPort),
    exec (.trainSend c p) s = .next (if (s.port c p).state = .down then s.out (.train c p) else s)
    ∧ ((s.port c p).state = .down → exec (.trainReceive c p) s = .next (if s.boot.stage < 7 then s else
        s.modPort c p fun x => { x with state := .train, peerTrain := true, retrains := min 255 (x.retrains + 1) }))
    ∧ ((s.port c p).state = .train → exec (.trainReceive c p) s = .next (s.modPort c p fun x => { x with peerTrain := true }))
    ∧ exec (.linkMeasure c p) s = .next (if (s.port c p).state = .train ∧ (s.port c p).peerTrain = true then
        s.modPort c p fun x => { x with state := .measure, samples := [], req := none } else s))
  ∧ (∀ (s : State) (c : Channel) (p : LPort) (t : DWord),
    let due := (s.port c p).state = .measure ∧ (s.port c p).samples.length = 16 ∧ t.toNat / s.tTick % 64 = 0
    (¬ due → exec (.linkReady c p t) s = .next { s with now := t })
    ∧ (due → s.mer.addr = none → s.isLodestar = false → exec (.linkReady c p t) s =
        .next (({ s with now := t } : State).modPort c p fun x => { x with state := .ready }))
    ∧ (due → ∃ u : State, exec (.linkReady c p t) s = .next u ∧ s.SameCore u ∧ (u.port c p).state = .ready))
  ∧ (∀ (s : State) (mask : BitVec 4) (t : DWord), ∃ u v : State, exec (.merRetrain mask t) s = .next u ∧ exec (.merPortdis mask t) s = .next v
      ∧ s.SameCore u ∧ v.data = s.data ∧ v.cores = s.cores ∧ v.reg 0x100030 = BitVec.ofNat 32 mask.toNat
      ∧ ∀ i : Fin 4,
        (mask.getLsbD i.val = false → u.mer.ports[i] = s.mer.ports[i])
        ∧ (mask.getLsbD i.val = true → s.mer.ports[i].state ≠ .blocked → u.mer.ports[i].state = .down)
        ∧ (mask.getLsbD i.val = true → v.mer.ports[i].state = .blocked)
        ∧ (mask.getLsbD i.val = false → v.mer.ports[i].state =
            if s.mer.ports[i].state = .blocked then .down else s.mer.ports[i].state))
  ∧ (∀ (s : State) (c : Channel) (p : LPort),
    let q := otherPort p
    ((s.port c p).state ≠ .ready ∨ (s.port c q).state ≠ .ready →
      (∀ g : LinkFrame, exec (.frameRepeat c p (.link g)) s = .next s)
      ∧ ∀ g : SchedFrame, exec (.frameRepeat c p (.sched g)) s = .next (if g.abort then
          s.modPort c p fun x => { x with aborts := min 65535 (x.aborts + 1) } else s))
    ∧ ((s.port c p).state = .ready → (s.port c q).state = .ready →
      (∀ g : SchedFrame, ∃ u : State, exec (.frameRepeat c p (.sched g)) s = .next u ∧ s.SameCore u
        ∧ u.outbox = s.outbox ++ [.repeated c q (.sched g) 92 (g.abort || !SchedFrame.crcOk g)]
        ∧ (u.port c p).aborts = (if g.abort then min 65535 ((s.port c p).aborts + 1) else (s.port c p).aborts))
      ∧ ∀ g : LinkFrame,
        (g.scope ≠ 1 ∨ (g.type, g.uid, g.seq) ∈ s.mer.flood → exec (.frameRepeat c p (.link g)) s = .next s)
        ∧ (g.scope = 1 → (g.type, g.uid, g.seq) ∉ s.mer.flood → ∃ u : State, exec (.frameRepeat c p (.link g)) s = .next u ∧ s.SameCore u
          ∧ u.outbox = s.outbox ++ [.repeated c q (.link g) 92 (g.crc != crc32c 0xFFFFFFFF (LinkFrame.body g))]
          ∧ u.mer.flood = ((g.type, g.uid, g.seq) :: s.mer.flood).take 8)))
  ∧ (∀ (s : State) (stop : Nat) (t : DWord), s.mer.cold = .listen stop →
    (t.toNat < stop → exec (.coldstartListenEnd t) s = .next s)
    ∧ (stop ≤ t.toNat → ∃ u : State, exec (.coldstartListenEnd t) s = .next u ∧ u.mer.cold = .contend (t.toNat + 50000)
        ∧ u.outbox.length = s.outbox.length + 4 ∧ s.SameCore u))
  ∧ (∀ (s : State) (c : Channel) (p : LPort) (f : LinkFrame) (t : DWord) (stop : Nat), LinkFrame.ok f = true → f.type = 1 →
    (s.port c p).state ≠ .blocked → s.isBeacon t = false →
    let key := valAt f.payload 0 8 % 2 ^ 52
    ∃ u : State, exec (.coldstartReceive c p f t) s = .next u ∧ s.SameCore u ∧ u.mer.ports = s.mer.ports
      ∧ (s.mer.cold = .listen stop ∨ s.mer.cold = .contend stop →
          u.mer.contests = min 255 (s.mer.contests + 1)
          ∧ (key < s.ownKey → u.mer.cold = .follower ∧ (s.mer.result = 0 → u.mer.result = 2))
          ∧ (key = s.ownKey → u.mer.cold = .clash ∧ u.mer.result = 4 ∧ s.Raised u 0x1002 1 false)
          ∧ (s.ownKey < key → u.mer.cold = (if s.mer.cold = .listen stop then .contend (t.toNat + 50000) else s.mer.cold))))
  ∧ (∀ (s : State) (t : DWord) (stop : Nat), s.mer.cold = .contend stop →
    (t.toNat < stop → exec (.coldstartWindowEnd t none) s = .next s)
    ∧ (stop ≤ t.toNat → ∃ u : State, exec (.coldstartWindowEnd t none) s = .next u ∧ u.mer.cold = .lodestar ∧ u.mer.addr = some 0
        ∧ u.mer.number = some 0 ∧ u.mer.sync = .locked ∧ u.mer.joining = false ∧ u.mer.result = 1
        ∧ u.now = BitVec.ofNat 64 ((s.coarseNow.toNat + 3999999999) / 2000000000 * 2000000000) ∧ s.SameCore u))
  ∧ (∀ (s : State) (t : DWord), s.isLodestar = true → t.toNat / s.tTick % 64 = 0 →
    ∃ u : State, exec (.lodestarBeacon t) s = .next u ∧ u.outbox.length = s.outbox.length + 4 ∧ s.SameCore u)
  ∧ (∀ (s : State) (t : DWord) (b : Nat), s.mer.stage7 = some b → s.prof.mer.permit = false → s.mer.syncCycle = none →
    (s.mer.noLode = true ∨ t.toNat < b + 1000000000 → exec (.merNoLodestar t) s = .next s)
    ∧ (s.mer.noLode = false → b + 1000000000 ≤ t.toNat → ∃ u : State, exec (.merNoLodestar t) s = .next u ∧ u.mer.noLode = true
        ∧ s.Raised u 0x1009 1 false ∧ s.SameCore u))
  ∧ (∀ (s : State) (c : Channel) (p : LPort) (t1 : DWord),
    ((s.port c p).linked = false → exec (.delayReqSend c p t1) s = .next s)
    ∧ ((s.port c p).linked = true → ∃ (u : State) (f : LinkFrame), exec (.delayReqSend c p t1) s = .next u ∧ s.SameCore u
        ∧ u.outbox = s.outbox ++ [.link c p f] ∧ f.type = 2 ∧ f.uid = s.uid ∧ LinkFrame.ok f = true ∧ (u.port c p).req = some (f.seq, t1)))
  ∧ (∀ (s : State) (c : Channel) (p : LPort) (f : LinkFrame) (t2 t3 : DWord), LinkFrame.ok f = true → f.type = 2 → (s.port c p).linked = true →
    ∃ (u : State) (g : LinkFrame), exec (.delayReqReceive c p f t2 t3) s = .next u ∧ s.SameCore u ∧ u.outbox = s.outbox ++ [.link c p g]
      ∧ g.type = 3 ∧ valAt g.payload 0 8 = t2.toNat ∧ valAt g.payload 8 8 = t3.toNat ∧ valAt g.payload 16 2 = 1472
      ∧ valAt g.payload 18 1 = f.seq.toNat)
  ∧ ∀ (s : State) (c : Channel) (p : LPort) (f : LinkFrame) (t4 t1 : DWord) (seq : Byte), (s.port c p).req = some (seq, t1) →
    (s.port c p).linked = true → (s.port c p).samples.length < 16 →
    LinkFrame.ok f = true → f.type = 3 → valAt f.payload 18 1 = seq.toNat →
    let x : Int := 8 * (((t4.toNat : Int) - t1.toNat) - ((valAt f.payload 8 8 : Int) - valAt f.payload 0 8))
      - nth s.prof.mer.asym (portIdx c p).val 0
    exec (.delayRespReceive c p f t4) s = .next (({ s with now := t4 } : State).modPort c p fun q => { q with
      samples := q.samples ++ [x], req := none, rptlat := valAt f.payload 16 2 })

/-- Sync frames, the synchronisation states, enumeration and addresses. SYNC_SEND: only a lodestar sends, the same frame
on both channels, with the time of its basic cycle. SYNC_RECEIVE: a bad check value or format is counted and changes
nothing else; a sync window of the same cycle on both ports blocks the second one and raises 0x1007; a window that
counts (one of channel A, or of B while none of A was used in its cycle) on a joined node corrects its clock by the
offset, and an offset within 20 ns locks an unsynchronised node. LOCKED becomes DEGRADED at 8 bad cycles (0x0E10),
LOCKED or DEGRADED become HOLDOVER at 4 missing ones (0x0E11), HOLDOVER becomes LOST after 64 (0x0E12, F2 that permits
the hold), and 64 good cycles, or a window within 1 us, lock again; none before. ENUM takes hops and path delay and
reports upstream; too long a path raises 0x1006. The lodestar records a report, numbers a pinned controller when due,
and a controller takes the number assigned to it. A node of a pinned segment takes its address or raises 0x1005; its
first confirmation starts a schedule load on both channels. (R50, R51, R404, R405, R407, R408, R410, R420, R421, R430,
R431) -/
def Obligations.SyncAndNumberingResults : Prop :=
  (∀ (s : State) (t : DWord) (plant : Option DWord), (s.isLodestar = false → exec (.syncSend t plant) s = .next s)
    ∧ (s.isLodestar = true → s.eph.replay = false → ∃ (u : State) (f : SchedFrame), exec (.syncSend t plant) s = .next u ∧ s.SameCore u
      ∧ u.outbox = s.outbox ++ [.sched .a f, .sched .b f] ∧ f.cls = 0 ∧ f.fid = 0 ∧ f.payload.length = 24
      ∧ f.payload.take 8 = leBytes (t.toNat / s.tTick * s.tTick) 8 ∧ SchedFrame.crcOk f = true
      ∧ (s.prof.mer.asSteer = false ∨ plant = none → u.mer.rate = s.mer.rate)
      ∧ (s.mer.rate.natAbs ≤ 13107200 → (u.mer.rate - s.mer.rate).natAbs * 1000000000 ≤ 65536 * s.tTick ∧ u.mer.rate.natAbs ≤ 13107200)))
  ∧ (∀ (s : State) (c : Channel) (p : LPort) (f : SchedFrame) (t : DWord),
    let s0 : State := { s with now := t }
    let bad := f.abort || !SchedFrame.crcOk f
    let form := f.cls = 0 ∧ f.fid = 0 ∧ f.payload.length = 24 ∧ f.rsv = 0
    let n := valAt f.payload 0 8 / s.tTick
    (bad = true → exec (.syncReceive c p f t) s = .next (s0.countDiscard c f .crc))
    ∧ (bad = false → ¬ form → exec (.syncReceive c p f t) s = .next (s0.countDiscard c f .format))
    ∧ (bad = false → form → (s.port c p).state = .blocked → exec (.syncReceive c p f t) s = .next s0)
    ∧ (bad = false → form → (s.port c p).state ≠ .blocked → (s.port c (otherPort p)).syncCycle = some n →
        ∃ u : State, exec (.syncReceive c p f t) s = .next u ∧ (u.port c p).state = .blocked ∧ s.Raised u 0x1007 1 false ∧ s.SameCore u
          ∧ u.mer.sync = s.mer.sync ∧ u.mer.rate = s.mer.rate)
    ∧ (bad = false → form → (s.port c p).state ≠ .blocked → (s.port c (otherPort p)).syncCycle ≠ some n → s.isLodestar = false →
        s.mer.cold = .follower → s.mer.joining = false → s.syncDiffers f.payload = false →
        (c = .a ∨ s.mer.syncCycle ≠ some n ∨ s.mer.syncFrom ≠ 1) →
        let off : Int := 16 * ((t.toNat : Int) - valAt f.payload 0 8) - s.mer.path[chanIdx c].getD 0
        ∃ u : State, exec (.syncReceive c p f t) s = .next u ∧ s.SameCore u ∧ u.mer.offset16 = off ∧ u.mer.syncCycle = some n ∧ u.mer.measured = some n
          ∧ (off.natAbs ≤ 320 → u.mer.good = (if s.mer.measured = some n then s.mer.good0 else if s.mer.measured = some (n - 1) then s.mer.good else 0) + 1)
          ∧ (3200 < off.natAbs → u.mer.bad = (if s.mer.measured = some n then s.mer.bad0 else s.mer.bad) + 1)
          ∧ (320 < off.natAbs → u.mer.good = 0) ∧ (off.natAbs ≤ 3200 → u.mer.bad = 0)
          ∧ u.mer.acc = clampInt (-32000000) 32000000 ((if s.mer.measured = some n then s.mer.acc0 else s.mer.acc) + off)
          ∧ u.mer.rate = clampInt (-13107200) 13107200 (s.mer.rate0 - off * 256 - u.mer.acc)
          ∧ (s.mer.sync = .unsync → off.natAbs ≤ 320 → u.mer.sync = .locked)
          ∧ (s.mer.sync ≠ .unsync ∨ 320 < off.natAbs → u.mer.sync = s.mer.sync)))
  ∧ (∀ s : State,
    (s.mer.sync = .locked → 8 ≤ s.mer.bad → ∃ u, exec .syncDegraded s = .next u ∧ u.mer.sync = .degraded ∧ s.Raised u 0x0E10 1 false ∧ s.SameCore u)
    ∧ (s.mer.sync ≠ .locked ∨ s.mer.bad < 8 → exec .syncDegraded s = .next s)
    ∧ (s.mer.sync = .locked ∨ s.mer.sync = .degraded → 4 ≤ s.missedCycles →
        ∃ u, exec .siderealHoldover s = .next u ∧ u.mer.sync = .holdover ∧ u.heldCycles = 0 ∧ s.Raised u 0x0E11 1 false ∧ s.SameCore u)
    ∧ (s.missedCycles < 4 → exec .siderealHoldover s = .next s)
    ∧ (s.mer.sync = .holdover → 64 ≤ s.heldCycles →
        ∃ u, exec .siderealLost s = .next u ∧ u.mer.sync = .lost ∧ s.Raised u 0x0E12 2 true ∧ s.SameCore u)
    ∧ (s.mer.sync ≠ .holdover ∨ s.heldCycles < 64 → exec .siderealLost s = .next s)
    ∧ ((s.mer.sync = .degraded ∧ 64 ≤ s.mer.good) ∨ (s.mer.sync = .holdover ∧ s.missedCycles = 0 ∧ s.mer.offset16.natAbs ≤ 16000) →
        ∃ u, exec .syncRelock s = .next u ∧ u.mer.sync = .locked ∧ u.mer.rate0 = s.mer.rate ∧ u.reports = s.reports ∧ s.SameCore u)
    ∧ (s.mer.sync = .degraded → s.mer.good < 64 → exec .syncRelock s = .next s))
  ∧ (∀ (s : State) (c : Channel) (p : LPort) (f : LinkFrame) (t : DWord), LinkFrame.ok f = true → f.type = 4 → s.isLodestar = false →
    (s.port c p).linked = true →
    let hops := valAt f.payload 0 1 + 1
    let path : Int := (valAt f.payload 4 4 : Nat) + (s.port c p).delay + (if hops = 1 then 0 else ((s.port c p).rptlat : Int))
    ∃ u : State, exec (.enumReceive c p f t) s = .next u ∧ s.SameCore u ∧ u.mer.hops = hops ∧ u.mer.path[chanIdx c] = some path
      ∧ (255 < hops ∨ 640000 < path → u.mer.addr = none ∧ s.Raised u 0x1006 1 false ∧ u.outbox = s.outbox)
      ∧ (hops ≤ 255 → path ≤ 640000 → u.mer.addr = s.mer.addr ∧ ∃ g : LinkFrame, Out.link c p g ∈ u.outbox ∧ g.type = 5))
  ∧ (∀ (s : State) (c : Channel) (p : LPort) (f : LinkFrame) (t : DWord), LinkFrame.ok f = true → f.type = 5 → s.isLodestar = true →
    (s.port c p).linked = true →
    ∃ (u : State) (r : CtrlRep), exec (.ctrlReportReceive c p f t) s = .next u ∧ s.SameCore u ∧ r.uid = f.uid ∧ r.hops = valAt f.payload 1 1
      ∧ u.mer.reports = s.mer.reports.filter (fun x => x.uid != f.uid) ++ [r])
  ∧ (∀ (s : State) (t : DWord) (r : CtrlRep) (k : Fin 16), s.isLodestar = true → s.mer.reports = [r] → r.number = none → r.pin = some k → k ≠ 0 →
    ∀ b : Nat, s.mer.lastRep = some b → b + 128 * s.tTick ≤ t.toNat →
    ∃ u : State, exec (.controllerAssign t) s = .next u ∧ u.mer.reports = [{ r with number := some k.val }] ∧ u.mer.numbered = true
      ∧ u.mer.lastRep = none ∧ u.mer.mask = s.mer.mask ||| (1#16 <<< k.val) ∧ u.reports = s.reports ∧ s.SameCore u)
  ∧ (∀ (s : State) (c : Channel) (p : LPort) (f : LinkFrame) (t : DWord), LinkFrame.ok f = true → f.type = 6 → s.isLodestar = false →
    (s.port c p).linked = true → valAt f.payload 6 1 < 16 →
    let k := valAt f.payload 6 1
    ∃ u : State, exec (.assignReceive c p f t) s = .next u ∧ s.SameCore u ∧ u.mer.mask = s.mer.mask ||| (1#16 <<< k)
      ∧ (BitVec.ofNat 48 (valAt f.payload 0 6) = s.uid → s.mer.number ≠ some k → u.mer.number = some k ∧ u.mer.addr = some (64 * k)
          ∧ ∀ a : Nat, s.mer.addr = some a → a ≠ 64 * k → ∃ x ∈ u.reports, x.code = 0x1008 ∧ x.cls = 1)
      ∧ (BitVec.ofNat 48 (valAt f.payload 0 6) ≠ s.uid → u.mer.number = s.mer.number ∧ u.mer.addr = s.mer.addr))
  ∧ (∀ (s : State) (uid : BitVec 48) (f : LinkFrame), LinkFrame.ok f = true → f.type = 7 → s.prof.mer.pinMode = true →
    ((s.prof.mer.nodeAddrs.any fun e => e.1 == uid) = false → ∃ u : State, exec (.nodeAddrReceive uid f) s = .next u ∧ s.Raised u 0x1005 1 false
      ∧ u.mer.nodes = s.mer.nodes ∧ s.SameCore u)
    ∧ ((s.prof.mer.nodeAddrs.any fun e => e.1 == uid) = true → BitVec.ofNat 48 (valAt f.payload 0 6) = uid →
      ∃ u : State, exec (.nodeAddrReceive uid f) s = .next u ∧ s.SameCore u
        ∧ ∃ n ∈ u.mer.nodes, n.uid = uid ∧ n.addr = some (valAt f.payload 6 2 % 1024)))
  ∧ ∀ (s : State) (c : Channel) (p : LPort) (f : LinkFrame) (t : DWord), LinkFrame.ok f = true → f.type = 8 → (s.port c p).linked = true →
    let a := valAt f.payload 0 2
    s.mer.number = some (a / 64) → a < 1024 → a % 64 ≠ 0 →
    (a ∈ s.mer.acks → exec (.addrAckReceive c p f t) s = .next { s with now := t })
    ∧ (a ∉ s.mer.acks → ∃ u : State, exec (.addrAckReceive c p f t) s = .next u ∧ s.SameCore u ∧ u.mer.acks = s.mer.acks ++ [a]
        ∧ u.mer.loads = s.mer.loads ++ [⟨a, false, s.mer.tags, 0, false, false⟩, ⟨a, true, s.mer.tags + 1, 0, false, false⟩])

/-- Event and service frames, schedule loads, the arbitrating window, and cycle points. A received frame that R420
discards is only counted. EVENT_FRAME: a kept event frame of four bytes is a class 0x02 event for the gate, source 2
or 3 by channel. SERVICE_FRAME_RECEIVE: a kept SERVICE frame for this controller with OP 1 to 15 goes to MRX: into the
next buffer, or counted as a discard where the queue is not ready. SCHEDLOAD_SEND queues a load with a node's tag, at
least 2 matrix cycles ahead, for the own slot, at most 3 times; a node takes a good load of its own address;
SCHEDACK_RECEIVE marks the load of its sender and tag; after 3 loads without one MER_SCHED_LOAD is raised once.
ARBITRATING_SEND with one ready frame and one own slot sends it at minislot m of the window where frame and guard fit,
and otherwise defers it, counting either. MER_ARB_LATE is raised at 64 deferrals, MER_CRC at 16 discards, once.
MER_CP_WRITE stores a point; an OFFSET within 3 us of the end of the tick leaves EN 0 and sets REJ. An enabled point
in its cycle sets FIRED and sends a class 0x03 event. (R85, R420, R426, R430, R433, R434, R437, R438, R439, R529) -/
def Obligations.ScheduleFramesAndCyclePointResults : Prop :=
  (∀ (s : State) (ch : Channel) (f : SchedFrame) (t : DWord),
    let s0 : State := { s with now := t }
    let d := s0.frameDiscard ch f
    (d ≠ .none → exec (.eventFrame ch f t) s = .next (s0.countDiscard ch f d))
    ∧ (d = .none → (f.cls ≠ 4 ∨ f.payload.length ≠ 4) → exec (.eventFrame ch f t) s = .next s0)
    ∧ (d = .none → f.cls = 4 → f.payload.length = 4 → s.eph.replay = false → s.stopped (if ch = .a then 5 else 6) = false →
        exec (.eventFrame ch f t) s = .next { s0 with gate := s.gate ++
          [⟨s.stampAt t, if ch = .a then 2 else 3, .event none (mkEv 2 f.src.toNat (valAt f.payload 0 4))⟩] })
    ∧ ∀ addr : DWord, s.eph.replay = false →
      (d ≠ .none → exec (.serviceFrameReceive ch f addr t) s = .next (s0.countDiscard ch f d))
      ∧ (d = .none → s.mer.addr = some (valAt f.payload 0 2 % 1024) → f.cls = 5 → 1 ≤ valAt f.payload 2 1 → valAt f.payload 2 1 ≤ 15 →
          ∃ u : State, exec (.serviceFrameReceive ch f addr t) s = .next u ∧ u.now = t
            ∧ s.TookFrame u 2 (chanIdx ch).val f.payload addr))
  ∧ (∀ (s : State) (node : BitVec 10) (ch : Channel) (l : SchedLoad) (slot : MEntry),
    s.mer.loads.find? (fun x => x.node == node.toNat && x.chB == (ch == .b)) = some l → s.ownSlot ch = some slot →
    (l.acked = true ∨ 3 ≤ l.tries → exec (.schedloadSend node ch) s = .next s)
    ∧ (l.acked = false → l.tries < 3 → s.epoch < 2 ^ 37 → ∃ (u : State) (x : ArbFrame), exec (.schedloadSend node ch) s = .next u ∧ s.SameCore u
        ∧ u.mer.arb[chanIdx ch] = s.mer.arb[chanIdx ch] ++ [x] ∧ x.cls = 5 ∧ x.fid = BitVec.ofNat 12 slot.fid ∧ x.waits = 0
        ∧ valAt x.payload 0 2 = node.toNat ∧ valAt x.payload 2 1 = 0x10 ∧ valAt x.payload 3 1 = l.tag.toNat
        ∧ s.epoch / 64 + 2 ≤ valAt x.payload 4 4
        ∧ u.mer.loads = s.mer.loads.map fun y => if y.node == l.node && y.chB == l.chB then { y with tries := y.tries + 1 } else y))
  ∧ (∀ (s : State) (uid : BitVec 48) (ch : Channel) (f : SchedFrame),
    let b := f.payload
    let bad := f.abort || !SchedFrame.crcOk f || f.cls != 5 || valAt b 2 1 != 0x10
    (bad = true → exec (.schedloadReceive uid ch f) s = .next s)
    ∧ (bad = false → ∀ n ∈ s.mer.nodes, n.uid = uid → n.addr = some (valAt b 0 2 % 1024) →
        ∃ (u : State) (m : FabNode) (ents : List MEntry), exec (.schedloadReceive uid ch f) s = .next u ∧ s.SameCore u ∧ m ∈ u.mer.nodes
          ∧ m.uid = uid ∧ (decide (ch = .b), valAt b 4 4, ents) ∈ m.loads ∧ ents.length = min 30 (valAt b 8 1)
          ∧ ∀ i : Nat, i < ents.length → nth (ents.map MEntry.bits) i 0 = valAt b (12 + 8 * i) 8))
  ∧ (∀ (s : State) (ch : Channel) (f : SchedFrame) (t : DWord) (l : SchedLoad),
    ({ s with now := t } : State).frameDiscard ch f = .none → f.cls = 5 → valAt f.payload 2 1 = 0x11 →
    s.mer.addr = some (valAt f.payload 0 2 % 1024) → s.mer.loads = [l] →
    exec (.schedackReceive ch f t) s = .next { s with now := t, mer := { s.mer with loads :=
      [if l.node = f.src.toNat ∧ l.tag.toNat = valAt f.payload 3 1 then { l with acked := true } else l] } })
  ∧ (∀ (s : State) (node : BitVec 10) (ch : Channel) (l : SchedLoad),
    s.mer.loads.find? (fun x => x.node == node.toNat && x.chB == (ch == .b)) = some l →
    (l.tries < 3 ∨ l.acked = true ∨ l.raised = true → exec (.merSchedLoad node ch) s = .next s)
    ∧ (3 ≤ l.tries → l.acked = false → l.raised = false → ∃ u : State, exec (.merSchedLoad node ch) s = .next u ∧ s.SameCore u
        ∧ u.reports = s.reports ++ [⟨0x1015, 1, false, s.now, BitVec.ofNat 32 node.toNat⟩] ∧ ∃ x ∈ u.mer.loads, x = { l with raised := true }))
  ∧ (∀ (s : State) (ch : Channel), s.maySend = false → ∀ seen : List (Nat × Nat), exec (.arbitratingSend ch seen) s = .next s)
  ∧ (∀ (s : State) (ch : Channel) (f : ArbFrame) (e : MEntry), s.maySend = true → s.mer.arb[chanIdx ch] = [f] → 0 < s.prof.msLen →
    (s.table ch).filter (fun x => x.kind == 2 && some x.sender == s.mer.addr) = [e] → e.fid = f.fid.toNat → e.start < 4096 →
    let ms := 8 * s.prof.msLen
    let at0 := 8 * s.prof.arbStart + e.start * ms
    let fits := at0 + ms ≤ 8 * s.prof.arbEnd ∧ at0 + airtime f.payload.length + 8 * s.prof.guard ≤ 8 * s.prof.arbEnd
    ∃ u : State, exec (.arbitratingSend ch []) s = .next u ∧ s.SameCore u
      ∧ (fits → u.outbox = s.outbox ++ [.sched ch (s.mkFrame f.cls f.fid (BitVec.ofNat 64 (s.t0 s.epoch + at0)) f.payload)]
          ∧ u.mer.arb[chanIdx ch] = [] ∧ u.mers.sent = min 65535 (s.mers.sent + 1) ∧ u.mers.deferred = min 65535 s.mers.deferred)
      ∧ (¬ fits → u.outbox = s.outbox ∧ u.mer.arb[chanIdx ch] = [{ f with waits := f.waits + 1 }]
          ∧ u.mers.sent = min 65535 s.mers.sent ∧ u.mers.deferred = min 65535 (s.mers.deferred + 1)))
  ∧ (∀ (s : State) (ch : Channel) (fid : BitVec 12),
    ((∃ f ∈ s.mer.arb[chanIdx ch], f.fid = fid ∧ f.waits = 64) →
      exec (.merArbLate ch fid) s = .next { s with reports := s.reports ++ [⟨0x1014, 1, false, s.now, BitVec.ofNat 32 fid.toNat⟩] })
    ∧ ((∀ f ∈ s.mer.arb[chanIdx ch], f.fid = fid → f.waits ≠ 64) → exec (.merArbLate ch fid) s = .next s)
    ∧ (s.mers.crcCnt[chanIdx ch] < 16 ∨ s.mers.crcRaised[chanIdx ch] = true → exec (.merCrc ch) s = .next s)
    ∧ (16 ≤ s.mers.crcCnt[chanIdx ch] → s.mers.crcRaised[chanIdx ch] = false → ∃ u : State, exec (.merCrc ch) s = .next u
        ∧ u.mers.crcRaised[chanIdx ch] = true ∧ s.Raised u 0x1012 1 false ∧ s.SameCore u))
  ∧ (∀ (s : State) (k : Fin 16) (v : Word),
    let late := v.getLsbD 31 = true ∧ s.tTick < (v.extractLsb 17 0).toNat + 3000
    ∃ (u : State) (w : Word), exec (.merCpWrite k v) s = .next u ∧ u.reg (cpOff k.val) = w
      ∧ (∀ off : Nat, off ≠ cpOff k.val → u.reg off = s.reg off) ∧ u.cores = s.cores ∧ u.data = s.data
      ∧ (late → w.getLsbD 31 = false ∧ w.getLsbD 28 = true) ∧ (¬ late → w.getLsbD 31 = v.getLsbD 31 ∧ w.getLsbD 28 = false)
      ∧ w.extractLsb 17 0 = v.extractLsb 17 0 ∧ w.extractLsb 23 18 = v.extractLsb 23 18 ∧ w.extractLsb 30 29 = v.extractLsb 30 29
      ∧ w.extractLsb 27 24 = 0)
  ∧ ∀ (s : State) (k : Fin 16),
    let x := s.reg (cpOff k.val)
    let bc := s.epoch % 64
    let mask := (s.reg (cpOff k.val + 12)) ++ (s.reg (cpOff k.val + 8))
    (s.running = false ∨ x.getLsbD 31 = false ∨ mask.getLsbD bc = false ∨ s.mer.sync = .unsync → exec (.meridianCyclePoint k) s = .next s)
    ∧ (s.running = true → x.getLsbD 31 = true → mask.getLsbD bc = true → s.mer.sync ≠ .unsync → s.eph.replay = false → s.stopped 5 = false →
        let t : DWord := BitVec.ofNat 64 (s.t0 s.epoch + (x.extractLsb 17 0).toNat)
        ∃ u : State, exec (.meridianCyclePoint k) s = .next u ∧ u.now = t ∧ u.mers.fired = s.mers.fired ||| (1#16 <<< k.val) ∧ s.SameCore u
          ∧ u.gate = s.gate ++ (if x.getLsbD 29 = true then [⟨s.stampAt t, 2, .event none (mkEv 3 k.val (s.epoch / 64))⟩] else [])
          ∧ (x.getLsbD 30 = false → u.outbox = s.outbox))

/-- Rings, completions, DMA errors, host reset, service queues, flash commands and the debug path. RING_DOORBELL takes an
index of an enabled ring that is not behind the fetched entries and not past its size, and otherwise sets the index
error. RING_FETCH moves one entry through the gate while one is due and fewer than 64 wait. A datagram that meets
every condition of R522 is the next entry, or counted as dropped when 64 wait. COMPLETION_POST writes the waiting
record, if there is room, to its slot. DMA_SUSPEND sets the engine's bit, once, and raises 0x0002; DMA_RESUME clears
bits. HOST_RESET clears the GLB registers, ring indices, discards and counts, ends push, stream and readout, keeps
released entries and raises 0x0001 at a link loss. A plant frame goes to PRX or is discarded; PTX and MTX send what
their descriptor names, MTX no OP 0x10 or 0x11. A flash command with the key is refused on the active slot, in boot
stages 4 to 6 or while one is in progress, and otherwise becomes the one in progress; FLASH_DONE ends it, a read
filling the staging buffer. An unlock that passes gives its scope and raises 0x1C01, one that fails counts and raises
0x1C02; each draws a new challenge; after three refusals nothing changes. TAP_IDCODE and TAP_DBGCHAL put a word out,
TAP_DBGUNLOCK stores one, TAP_BYPASS does nothing. (R511, R519, R521, R522, R523, R525, R527, R529, R530, R531, R532,
R533) -/
def Obligations.HostAndDebugResults : Prop :=
  (∀ (s : State) (r : Fin 4) (p : Word) (t : DWord), s.eph.replay = false → s.stopped 7 = false →
    let q := s.host.rings[r]
    let bad := s.ringSize r < (p - q.cons).toNat ∨ (p - q.fetch).toInt < 0
    ∃ u : State, exec (.ringDoorbell r p t) s = .next u ∧ s.SameCore u ∧ u.gate = s.gate ++ [⟨s.stampAt t, 6, .doorbell r p⟩]
      ∧ u.host.rings[r] = (if s.ringEn r = false then q else if bad then { q with idxErr := true } else { q with prod := p })
      ∧ ∀ k : Fin 4, k ≠ r → u.host.rings[k] = s.host.rings[k])
  ∧ (∀ (s : State) (r : Fin 4) (bytes : List Byte) (t : DWord), s.eph.replay = false → s.stopped 7 = false →
    let q := s.host.rings[r]
    let may := s.ringEn r = true ∧ s.host.susp.getLsbD (3 + r.val) = false ∧ 0 < (q.prod - q.fetch).toInt ∧ s.untaken r < 64
    (¬ may → exec (.ringFetch r bytes t) s = .next s)
    ∧ (may → bytes.length = 64 → ∃ u : State, exec (.ringFetch r bytes t) s = .next u ∧ s.SameCore u
        ∧ u.gate = s.gate ++ [⟨s.stampAt t, 5, .ringEntry r q.fetch.toNat bytes⟩] ∧ u.host.rings[r] = { q with fetch := q.fetch + 1 }))
  ∧ (∀ (s : State) (port : Fin 2) (dst : Nat) (ip : Word) (bytes : List Byte) (t : DWord) (r : Fin 4), s.prof.pring = some r →
    s.eph.replay = false → s.stopped 8 = false →
    let q := s.host.rings[r]
    let meets := port = s.prof.plantIf ∧ dst = s.prof.plantPort ∧ ip ∈ s.prof.plantFrom ∧ bytes.length = 64
    (¬ meets → exec (.plantCommandDatagram port dst ip bytes t) s = .next s)
    ∧ (meets → 64 ≤ s.untaken r → ∃ u : State, exec (.plantCommandDatagram port dst ip bytes t) s = .next u ∧ u.gate = s.gate ∧ s.SameCore u
        ∧ u.host.rings[r] = { q with drops := min 65535 (q.drops + 1) })
    ∧ (meets → s.untaken r < 64 → ∃ u : State, exec (.plantCommandDatagram port dst ip bytes t) s = .next u ∧ s.SameCore u
        ∧ u.gate = s.gate ++ [⟨s.stampAt t, 4, .ringEntry r q.fetch.toNat bytes⟩]
        ∧ u.host.rings[r] = { q with fetch := q.fetch + 1, prod := q.prod + 1 }))
  ∧ (∀ (s : State) (x : CqRec), s.host.backlog = [x] →
    let p := s.regN 0x20C
    (s.cqRoom = false → exec .completionPost s = .next s)
    ∧ (s.cqRoom = true → ∃ (u : State) (l : List Out), exec .completionPost s = .next u ∧ u.host.backlog = [] ∧ u.reg 0x20C = s.reg 0x20C + 1
        ∧ u.outbox = s.outbox ++ .host (BitVec.ofNat 64 (s.reg64 0x200 + 16 * (p % s.cqSize))) (x.bytes p s.cqSize) :: l
        ∧ u.cores = s.cores ∧ u.data = s.data))
  ∧ (∀ (s : State) (e : Fin 12) (err : Nat) (t : DWord),
    (s.host.susp.getLsbD e.val = true → exec (.dmaSuspend e err t) s = .next s)
    ∧ (s.host.susp.getLsbD e.val = false → e ≠ 1 → ∃ u : State, exec (.dmaSuspend e err t) s = .next u ∧ s.SameCore u
        ∧ u.host.susp = s.host.susp ||| BitVec.ofNat 12 (2 ^ e.val) ∧ u.host.lastErr = err % 256 ∧ (e = 0 → u.push = none)
        ∧ (e = 2 → u.cap.reading = none)
        ∧ u.reports = s.reports ++ [⟨0x0002, 1, false, t, BitVec.ofNat 32 (e.val + 256 * (err % 256))⟩])
    ∧ (s.host.susp.getLsbD e.val = false → e = 1 → ∃ u : State, exec (.dmaSuspend e err t) s = .next u ∧ s.SameCore u
        ∧ u.host.susp = s.host.susp ||| 2 ∧ u.eph.queue = [] ∧ (s.eph.queue ≠ [] → u.eph.gapDue = true)
        ∧ ⟨0x0002, 1, false, t, BitVec.ofNat 32 (1 + 256 * (err % 256))⟩ ∈ u.reports)
    ∧ ∀ mask : BitVec 12, exec (.dmaResume mask) s = .next { s with host := { s.host with susp := s.host.susp &&& ~~~ mask } })
  ∧ (∀ (s : State) (down : Bool) (t : DWord), ∃ u : State, exec (.hostReset down t) s = .next u
    ∧ (∀ off : Nat, off < 0x10000 → u.reg off = regReset off)
    ∧ (∀ r : Fin 4, u.host.rings[r].released = s.host.rings[r].released ∧ u.host.rings[r].prod = 0 ∧ u.host.rings[r].fetch = 0
        ∧ u.host.rings[r].cons = 0 ∧ u.host.rings[r].drops = 0 ∧ u.host.rings[r].idxErr = false)
    ∧ u.host.susp = 0 ∧ u.strEn = false ∧ u.push = none ∧ u.cap.reading = none ∧ u.host.pushOff = true ∧ (∀ q : Fin 4, u.host.discards[q] = 0) ∧ u.host.linkDown = down
    ∧ (down = true → s.host.linkDown = false → ∃ r ∈ u.reports, r.code = 0x0001 ∧ r.cls = 1 ∧ r.stamp = t)
    ∧ (s.strEn = true → u.eph.queue = [])
    ∧ (s.strEn = false ∨ s.eph.queue = [] → u.host.pba = 0
        ∧ (down = false ∨ s.host.linkDown = true → u.reports = s.reports) ∧ (down = true → s.host.linkDown = false → s.Raised u 0x0001 1 false))
    ∧ u.cores = s.cores ∧ u.data = s.data ∧ u.arms = s.arms ∧ u.gate = s.gate ∧ u.saf = s.saf ∧ u.epoch = s.epoch)
  ∧ (∀ (s : State) (port : Fin 2) (bytes : List Byte) (addr : DWord),
    (s.eph.replay = false → ∃ u : State, exec (.plantFrameReceive port bytes addr) s = .next u ∧ s.TookFrame u 0 port.val bytes addr)
    ∧ exec (.plantFrameTransmit port bytes addr) s = .next (if s.sqReady 1 = true then
        ({ s with outbox := s.outbox ++ [.plant port bytes, .host (BitVec.ofNat 64 (s.sqDesc 1 + 11)) [1]] } : State).setReg (sqOff 1 + 16)
          (s.reg (sqOff 1 + 16) + 1) else s))
  ∧ (∀ (s : State) (ch : Channel) (pay : List Byte) (addr : DWord),
    (s.sqReady 3 = false → exec (.serviceTransmit ch pay addr) s = .next s)
    ∧ (s.sqReady 3 = true → valAt pay 2 1 = 0x10 ∨ valAt pay 2 1 = 0x11 → ∃ u : State, exec (.serviceTransmit ch pay addr) s = .next u
        ∧ u.mer = s.mer ∧ u.outbox = s.outbox ++ [.host (BitVec.ofNat 64 (s.sqDesc 3 + 11)) [1]] ∧ u.reg (sqOff 3 + 16) = s.reg (sqOff 3 + 16) + 1)
    ∧ ∀ slot : MEntry, s.sqReady 3 = true → valAt pay 2 1 ≠ 0x10 → valAt pay 2 1 ≠ 0x11 → s.ownSlot ch = some slot →
        ∃ u : State, exec (.serviceTransmit ch pay addr) s = .next u ∧ s.cores = u.cores ∧ u.reg (sqOff 3 + 16) = s.reg (sqOff 3 + 16) + 1
          ∧ u.mer.arb[chanIdx ch] = s.mer.arb[chanIdx ch] ++ [⟨5, BitVec.ofNat 12 slot.fid, pay, 0⟩])
  ∧ (∀ (s : State) (key : BitVec 16) (c : Instr) (op size : Nat),
    (c, op, size) ∈ [(Instr.flashRead key, 1, 4096), (Instr.flashProgram key, 2, 256), (Instr.flashErase key, 3, 65536)] →
    let a := s.regN 0x404 % 2 ^ 27 / size * size
    let refused := (a / 2 ^ 25 = s.boot.slot.val ∧ s.boot.failed = false) ∨ (s.boot.failed = false ∧ 4 ≤ s.boot.stage ∧ s.boot.stage ≤ 6)
      ∨ s.host.flOp ≠ none
    (key ≠ 0xF1A5 → exec c s = .next s)
    ∧ (key = 0xF1A5 → refused → exec c s = .next { s with host := { s.host with flRefused := true } })
    ∧ (key = 0xF1A5 → ¬ refused → exec c s = .next { s with
        host := { s.host with flRefused := false, flOp := some (op, a) }
        outbox := s.outbox ++ [.flash op a (if op = 2 then s.host.staging.readN 0 256 else [])] }))
  ∧ (∀ (s : State) (bytes : List Byte), (s.host.flOp = none → exec (.flashDone bytes) s = .next s)
    ∧ ∀ op a : Nat, s.host.flOp = some (op, a) → ∃ u : State, exec (.flashDone bytes) s = .next u ∧ u.host.flOp = none ∧ s.SameCore u
      ∧ (op = 1 → u.slots = s.slots ∧ (s.host.staging.wf = true → ∀ i : Nat, i < 4096 → u.host.staging.read i = nth bytes i 0))
      ∧ (op ≠ 1 → u.host.staging = s.host.staging ∧ ∀ k : Fin 4, k.val ≠ a / 2 ^ 25 % 4 → u.slots[k] = s.slots[k]))
  ∧ (∀ (s : State) (keyOk sigOk : Bool) (t : DWord),
    let scope := (assoc (0 : Word) s.dbg.unlk 0).toNat
    let passes := keyOk = true ∧ sigOk = true ∧ (scope = 1 ∨ (scope = 2 ∧ s.saf.state = .sto))
    (3 ≤ s.dbg.tries → exec (.dbgUnlockGo keyOk sigOk t) s = .next s)
    ∧ (s.dbg.tries < 3 → ∃ u : State, exec (.dbgUnlockGo keyOk sigOk t) s = .next u ∧ s.SameCore u ∧ u.dbg.chal.length = 8
      ∧ (passes → u.dbg.scope = scope ∧ u.dbg.tries = s.dbg.tries ∧ u.reports = s.reports ++ [⟨0x1C01, 0, false, t, BitVec.ofNat 32 scope⟩])
      ∧ (¬ passes → u.dbg.scope = s.dbg.scope ∧ u.dbg.tries = s.dbg.tries + 1
          ∧ u.reports = s.reports ++ [⟨0x1C02, 1, false, t, BitVec.ofNat 32 (s.dbg.tries + 1)⟩])))
  ∧ ∀ s : State, exec .tapBypass s = .next s
    ∧ exec .tapIdcode s = .next { s with outbox := s.outbox ++ [.data .jtag (if s.variant = .s8064 then 0xB8064A5B else 0xB8128A5B)] }
    ∧ (∀ (k : Fin 8) (w : Word) (l : List Word), s.dbg.chal = l → l[k.val]? = some w →
        exec (.tapDbgchal k) s = .next { s with outbox := s.outbox ++ [.data .jtag (w.setWidth 64)] })
    ∧ ∀ (k : Fin 33) (v : Word), (3 ≤ s.dbg.tries → exec (.tapDbgunlock k v) s = .next s)
      ∧ (s.dbg.tries < 3 → ∃ u : State, exec (.tapDbgunlock k v) s = .next u ∧ u.dbg.unlk = assocSet s.dbg.unlk k.val v ∧ u.cores = s.cores
          ∧ u.data = s.data ∧ u.regs = s.regs)
end

