-- ==== Sys2Proof/Laws/Core.lean ====
section
/-! SUPPORT. Laws of a core: reading and replacing one core of the state, register writes beside the issue bookkeeping,
and what issuing an instruction does when it may run. -/

namespace Sys2Proof.Machine

@[simp] theorem core_setCore (s : State) (c : Fin 10) (k : Core) : (s.setCore c k).core c = k := by
  simp [State.core, State.setCore]

theorem core_setCore_ne (s : State) {c d : Fin 10} (h : c ≠ d) (k : Core) : (s.setCore c k).core d = s.core d := by
  have : c.val ≠ d.val := fun e => h (Fin.ext e)
  simp [State.core, State.setCore, Vector.getElem_set_ne, this]

@[simp] theorem setCore_setCore (s : State) (c : Fin 10) (k k' : Core) :
    (s.setCore c k).setCore c k' = s.setCore c k' := by
  simp [State.setCore]

@[simp] theorem setCore_core (s : State) (c : Fin 10) : s.setCore c (s.core c) = s := by
  simp [State.setCore, State.core]

@[simp] theorem modCore_setCore (s : State) (c : Fin 10) (k : Core) (f : Core → Core) :
    (s.setCore c k).modCore c f = s.setCore c (f k) := by
  simp [State.modCore]

/-! ### Register writes -/

theorem rg_zero (k : Core) : k.rg 0 = 0 := by simp [Core.rg]

theorem rg_wg (k : Core) (i j : Fin 32) (v : DWord) :
    (k.wg i v).rg j = if j = 0 then 0 else if i = j then v else k.rg j := by
  by_cases hj : j = 0
  · simp [Core.rg, hj]
  · by_cases hi : i = j
    · subst hi; simp [Core.rg, Core.wg, hj]
    · have : i.val ≠ j.val := fun e => hi (Fin.ext e)
      by_cases h0 : i = 0
      · simp [Core.wg, h0, hj]; intro h; exact absurd h.symm hj
      · simp [Core.rg, Core.wg, h0, hj, hi, Vector.getElem_set_ne, this]

theorem rf_wf (k : Core) (i j : Fin 32) (v : DWord) : (k.wf i v).rf j = if i = j then v else k.rf j := by
  by_cases hi : i = j
  · subst hi; simp [Core.rf, Core.wf]
  · have : i.val ≠ j.val := fun e => hi (Fin.ext e)
    simp [Core.rf, Core.wf, hi, Vector.getElem_set_ne, this]

/-! ### The issue bookkeeping -/

@[simp] theorem retimed_rg (k t : Core) (i : Fin 32) : (k.retimed t).rg i = k.rg i := rfl
@[simp] theorem retimed_rf (k t : Core) (i : Fin 32) : (k.retimed t).rf i = k.rf i := rfl
@[simp] theorem retimed_pc (k t : Core) : (k.retimed t).pc = k.pc := rfl
@[simp] theorem retimed_retimed (k t u : Core) : (k.retimed t).retimed u = k.retimed u := rfl
@[simp] theorem retimed_adv (k t : Core) : (k.retimed t).adv = k.adv.retimed t := rfl
@[simp] theorem retimed_wf (k t : Core) (i : Fin 32) (v : DWord) : (k.retimed t).wf i v = (k.wf i v).retimed t := rfl
@[simp] theorem retimed_orFF (k t : Core) (fl : FFlags) : (k.retimed t).orFF fl = (k.orFF fl).retimed t := rfl
@[simp] theorem retimed_orIF (k t : Core) (fl : BitVec 2) : (k.retimed t).orIF fl = (k.orIF fl).retimed t := rfl
@[simp] theorem retimed_wg (k t : Core) (i : Fin 32) (v : DWord) : (k.retimed t).wg i v = (k.wg i v).retimed t := by
  unfold Core.wg; split <;> rfl
@[simp] theorem retimed_ea (k t : Core) (i : Fin 32) (v : BitVec 12) : (k.retimed t).ea i v = k.ea i v := rfl
theorem issued_eq_retimed (k : Core) (cls : IssClass) (dst : Option CReg) (cyc : Nat) (p : Bool) :
    k.issued cls dst cyc p = k.retimed (k.issued cls dst cyc p) := rfl
theorem idle_eq_retimed (k : Core) (n : Nat) : k.idle n = k.retimed (k.idle n) := rfl

/-- An instruction that may run issues: only the issue bookkeeping of its core has changed when its effect begins. -/
theorem issue_of_mayRun {s : State} {c : Fin 10} {cls : IssClass} {srcs : List CReg} {dst : Option CReg}
    (h : s.mayRun c cls srcs dst = true) :
    s.issue c cls srcs dst =
      ⟨s.setCore c ((s.core c).issued cls dst (s.issueCycle c cls srcs dst) ((s.core c).pairsNow c cls (srcs ++ dst.toList))),
        s.issueCycle c cls srcs dst, true⟩ := by
  simp only [State.mayRun, Bool.and_eq_true, Bool.or_eq_true, decide_eq_true_eq, beq_iff_eq] at h
  obtain ⟨⟨⟨⟨h1, h2⟩, h3⟩, h4⟩, h5⟩ := h
  have hs : s.settleShared c (s.issueCycle c cls srcs dst) = s := by
    unfold State.settleShared
    cases hsh : (s.core c).shared with
    | none => rfl
    | some a =>
      rw [hsh] at h2
      simp only [Bool.or_eq_true, decide_eq_true_eq] at h2
      have : (!a.nextTick && decide (a.slot < s.issueCycle c cls srcs dst)) = false := by
        rcases h2 with h2 | h2
        · simp [h2]
        · simp; intro _; omega
      simp [this]
  have e2 : (c.val != 9 && decide (s.runcyc ≤ s.issueCycle c cls srcs dst)) = false := by
    rcases h3 with h3 | h3
    · simp [h3]
    · simp; intro _; omega
  have e3 : ¬ codeLimit c ≤ (s.core c).pc.toNat := by omega
  unfold State.issueCycle at hs e2
  unfold State.issue State.issueCycle
  simp [h1, h5, hs, e2, e3]

/-- An instruction with an effect on its own core alone. -/
theorem exec1_retires {s : State} {c : Fin 10} {cls : IssClass} {srcs : List CReg} {dst : Option CReg} {f : Core → Core}
    (h : s.mayRun c cls srcs dst = true) (hf : ∀ k t, f (Core.retimed k t) = (f k).retimed t) :
    Retires s c (s.exec1 c cls srcs dst f) fun k => (f k).adv := by
  refine ⟨(s.core c).issued cls dst (s.issueCycle c cls srcs dst) ((s.core c).pairsNow c cls (srcs ++ dst.toList)), ?_⟩
  unfold State.exec1
  rw [issue_of_mayRun h, issued_eq_retimed]
  simp only [modCore_setCore, hf, retimed_adv, if_true]
  rfl

/-- An instruction with an effect on the whole state: its effect on the state after issue, in its issue cycle. -/
theorem execWith_of_mayRun {s : State} {c : Fin 10} {cls : IssClass} {srcs : List CReg} {dst : Option CReg}
    {f : State → Nat → State} (h : s.mayRun c cls srcs dst = true) :
    ∃ t : Core, s.execWith c cls srcs dst f =
      .next (f (s.setCore c ((s.core c).retimed t)) (s.issueCycle c cls srcs dst)) := by
  refine ⟨(s.core c).issued cls dst (s.issueCycle c cls srcs dst) ((s.core c).pairsNow c cls (srcs ++ dst.toList)), ?_⟩
  unfold State.execWith
  rw [issue_of_mayRun h]
  rfl

/-! ### Taking a trap -/

set_option linter.unusedSimpArgs false in
/-- An exception of an instruction is a trap with the PC of that instruction in EPC, and nothing else (R95–R97, R115). -/
theorem traps_except (s : State) (c : Fin 10) (t : Core) (cyc code : Nat) (tval : DWord) :
    Traps s c (.next ((s.setCore c ((s.core c).retimed t)).except c cyc code tval)) (BitVec.ofNat 64 code) tval := by
  let k := (s.core c).retimed t
  let t' : Core := { k with cyc := cyc + 3, pair := none, budget := k.budget + (cyc + 3) - k.cyc }
  unfold State.except State.takeTrap
  simp only [core_setCore]
  have ht : ((s.core c).retimed t).tvec = (s.core c).tvec := rfl
  have hi : ((s.core c).retimed t).intrap = (s.core c).intrap := rfl
  rw [ht, hi]
  cases hin : (s.core c).intrap <;> by_cases hv : (s.core c).tvec = 0 <;> by_cases h9 : c.val = 9 <;>
    simp only [h9, hin, hv, Bool.not_false, Bool.and_self, Bool.and_true, Bool.and_false, Bool.false_eq_true, if_true,
      if_false, and_self, or_true, true_or, or_self, false_and, and_true, State.haltCore]
  · have hdt : (s.core c).doubleTrap = true := by simp [Core.doubleTrap, hin]; try exact hv
    exact ⟨t', [⟨0x1801, 3, false, s.now, Config.faultDetail 0x1801 s.free⟩], s.free + 1, by
      rw [hdt]; simp only [State.core, Fin.getElem_fin, BitVec.ofNat_eq_ofNat] at hin hv; simp [hin, hv, State.raise, State.raiseAt, State.coreTime, State.t0, State.tTick, State.rateHz, State.modCore, State.core, State.setCore, Core.trapped, Core.retimed, t', k], by simp [h9, hdt]⟩
  · have hdt : (s.core c).doubleTrap = true := by simp [Core.doubleTrap, hin]; try exact hv
    exact ⟨t', [⟨0x0402, 2, true, s.coreTime cyc, Config.faultDetail 0x0402 s.free⟩], s.free + 1, by
      rw [hdt]; simp only [State.core, Fin.getElem_fin, BitVec.ofNat_eq_ofNat] at hin hv; simp [hin, hv, State.raise, State.raiseAt, State.coreTime, State.t0, State.tTick, State.rateHz, State.modCore, State.core, State.setCore, Core.trapped, Core.retimed, t', k], by simp [h9, hdt]⟩
  · have hdt : (s.core c).doubleTrap = false := by simp [Core.doubleTrap, hin]; try exact hv
    exact ⟨t', [⟨0x1801, 3, false, s.now, Config.faultDetail 0x1801 s.free⟩], s.free + 1, by
      rw [hdt]; simp only [State.core, Fin.getElem_fin, BitVec.ofNat_eq_ofNat] at hin hv; simp [hin, hv, State.raise, State.raiseAt, State.coreTime, State.t0, State.tTick, State.rateHz, State.modCore, State.core, State.setCore, Core.trapped, Core.retimed, t', k], by simp [h9, hdt]⟩
  · have hdt : (s.core c).doubleTrap = false := by simp [Core.doubleTrap, hin]; try exact hv
    exact ⟨t', [], s.free, by
      rw [hdt]; simp only [State.core, Fin.getElem_fin, BitVec.ofNat_eq_ofNat] at hin hv; simp [hin, hv, State.raise, State.raiseAt, State.coreTime, State.t0, State.tTick, State.rateHz, State.modCore, State.core, State.setCore, Core.trapped, Core.retimed, t', k], by simp [h9, hdt]⟩
  · have hdt : (s.core c).doubleTrap = true := by simp [Core.doubleTrap, hin]
    exact ⟨t', [⟨0x1801, 3, false, s.now, Config.faultDetail 0x1801 s.free⟩], s.free + 1, by
      rw [hdt]; simp only [State.core, Fin.getElem_fin, BitVec.ofNat_eq_ofNat] at hin hv; simp [hin, hv, State.raise, State.raiseAt, State.coreTime, State.t0, State.tTick, State.rateHz, State.modCore, State.core, State.setCore, Core.trapped, Core.retimed, t', k], by simp [h9, hdt]⟩
  · have hdt : (s.core c).doubleTrap = true := by simp [Core.doubleTrap, hin]
    exact ⟨t', [⟨0x0402, 2, true, s.coreTime cyc, Config.faultDetail 0x0402 s.free⟩], s.free + 1, by
      rw [hdt]; simp only [State.core, Fin.getElem_fin, BitVec.ofNat_eq_ofNat] at hin hv; simp [hin, hv, State.raise, State.raiseAt, State.coreTime, State.t0, State.tTick, State.rateHz, State.modCore, State.core, State.setCore, Core.trapped, Core.retimed, t', k], by simp [h9, hdt]⟩
  · have hdt : (s.core c).doubleTrap = true := by simp [Core.doubleTrap, hin]
    exact ⟨t', [⟨0x1801, 3, false, s.now, Config.faultDetail 0x1801 s.free⟩], s.free + 1, by
      rw [hdt]; simp only [State.core, Fin.getElem_fin, BitVec.ofNat_eq_ofNat] at hin hv; simp [hin, hv, State.raise, State.raiseAt, State.coreTime, State.t0, State.tTick, State.rateHz, State.modCore, State.core, State.setCore, Core.trapped, Core.retimed, t', k], by simp [h9, hdt]⟩
  · have hdt : (s.core c).doubleTrap = true := by simp [Core.doubleTrap, hin]
    exact ⟨t', [⟨0x0402, 2, true, s.coreTime cyc, Config.faultDetail 0x0402 s.free⟩], s.free + 1, by
      rw [hdt]; simp only [State.core, Fin.getElem_fin, BitVec.ofNat_eq_ofNat] at hin hv; simp [hin, hv, State.raise, State.raiseAt, State.coreTime, State.t0, State.tTick, State.rateHz, State.modCore, State.core, State.setCore, Core.trapped, Core.retimed, t', k], by simp [h9, hdt]⟩

end Sys2Proof.Machine
end

