-- ==== Sys2Proof/Laws/Memory.lean ====
section
/-! SUPPORT. Laws of byte-addressed memory: every operation keeps the canonical form, a read after a write gives the value
written, and every other address reads as before. Also the laws of the lists of pairs that hold register banks. -/

namespace Sys2Proof.Machine

/-- A canonical list from `lo` reads 0 below `lo`. -/
theorem Memory.read_below {m : Memory} : ∀ {lo : Nat}, Memory.wfFrom lo m = true → ∀ {x : Nat}, x < lo → m.read x = 0 := by
  induction m with
  | nil => intros; rfl
  | cons e m ih =>
    obtain ⟨a, b⟩ := e
    intro lo h x hx
    simp only [Memory.wfFrom, Bool.and_eq_true, decide_eq_true_eq] at h
    have hne : x ≠ a := by omega
    simp only [Memory.read, hne, if_false]
    exact ih h.2 (by omega)

theorem Memory.wfFrom_mono {m : Memory} {lo lo' : Nat} (hl : lo' ≤ lo) (h : Memory.wfFrom lo m = true) :
    Memory.wfFrom lo' m = true := by
  cases m with
  | nil => rfl
  | cons e m =>
    obtain ⟨a, b⟩ := e
    simp only [Memory.wfFrom, Bool.and_eq_true, decide_eq_true_eq] at h ⊢
    exact ⟨⟨by omega, h.1.2⟩, h.2⟩

theorem Memory.wfFrom_write {m : Memory} (k : Nat) (v : Byte) :
    ∀ {lo : Nat}, Memory.wfFrom lo m = true → lo ≤ k → Memory.wfFrom lo (m.write k v) = true := by
  induction m with
  | nil =>
    intro lo _ hk
    unfold Memory.write
    split <;> simp_all [Memory.wfFrom]
  | cons e m ih =>
    obtain ⟨a, b⟩ := e
    intro lo h hk
    have h0 := h
    simp only [Memory.wfFrom, Bool.and_eq_true, decide_eq_true_eq] at h
    unfold Memory.write
    by_cases h1 : k < a
    · simp only [h1, if_true]
      split
      · exact h0
      · rename_i hv
        simp only [Memory.wfFrom, Bool.and_eq_true, decide_eq_true_eq]
        exact ⟨⟨hk, by simpa using hv⟩, ⟨by omega, h.1.2⟩, h.2⟩
    · simp only [h1, if_false]
      by_cases h2 : k = a
      · subst h2
        simp only [if_true]
        split
        · exact Memory.wfFrom_mono (by omega) h.2
        · rename_i hv
          simp only [Memory.wfFrom, Bool.and_eq_true, decide_eq_true_eq]
          exact ⟨⟨hk, by simpa using hv⟩, h.2⟩
      · simp only [h2, if_false, Memory.wfFrom, Bool.and_eq_true, decide_eq_true_eq]
        exact ⟨h.1, ih h.2 (by omega)⟩

/-- A write keeps the canonical form. -/
theorem Memory.wf_write {m : Memory} (h : m.wf = true) (k : Nat) (v : Byte) : (m.write k v).wf = true :=
  Memory.wfFrom_write k v h (Nat.zero_le k)

/-- A write of several bytes keeps the canonical form. -/
theorem Memory.wf_writeN (bs : List Byte) : ∀ {m : Memory} (a : Nat), m.wf = true → (m.writeN a bs).wf = true := by
  induction bs with
  | nil => intro m a h; exact h
  | cons b bs ih => intro m a h; exact ih (a + 1) (Memory.wf_write h a b)

theorem Memory.read_write_from {m : Memory} (k : Nat) (v : Byte) :
    ∀ {lo : Nat}, Memory.wfFrom lo m = true → ∀ x : Nat, (m.write k v).read x = if x = k then v else m.read x := by
  induction m with
  | nil =>
    intro lo _ x
    unfold Memory.write
    split <;> by_cases hx : x = k <;> simp_all [Memory.read]
  | cons e m ih =>
    obtain ⟨a, b⟩ := e
    intro lo h x
    simp only [Memory.wfFrom, Bool.and_eq_true, decide_eq_true_eq] at h
    unfold Memory.write
    by_cases h1 : k < a
    · simp only [h1, if_true]
      have hb : (Memory.read ((a, b) :: m) k) = 0 :=
        Memory.read_below (lo := a) (by simpa [Memory.wfFrom, h.2] using h.1.2) h1
      split
      · rename_i hv
        by_cases hx : x = k
        · subst hx; simp [hb, hv]
        · simp [hx]
      · by_cases hx : x = k <;> simp [Memory.read, hx]
    · simp only [h1, if_false]
      by_cases h2 : k = a
      · subst h2
        have hb : Memory.read m k = 0 := Memory.read_below h.2 (Nat.lt_succ_self k)
        simp only [if_true]
        split
        · rename_i hv
          by_cases hx : x = k <;> simp [Memory.read, hx, hb, hv]
        · by_cases hx : x = k <;> simp [Memory.read, hx]
      · simp only [h2, if_false, Memory.read]
        by_cases hx : x = a
        · have : x ≠ k := by omega
          simp [hx]; intro h3; omega
        · simp only [hx, if_false]
          exact ih h.2 x

/-- Read after write of one byte, at the address written and at any other. -/
theorem Memory.read_write {m : Memory} (h : m.wf = true) (k : Nat) (v : Byte) (x : Nat) :
    (m.write k v).read x = if x = k then v else m.read x := Memory.read_write_from k v h x

/-! ### Lists of pairs -/

theorem assoc_assocSet {α : Type} (d : α) (m : List (Nat × α)) (k x : Nat) (v : α) :
    assoc d (assocSet m k v) x = if x = k then v else assoc d m x := by
  induction m with
  | nil => by_cases hx : x = k <;> simp [assocSet, assoc, hx]
  | cons e m ih =>
    obtain ⟨a, b⟩ := e
    unfold assocSet
    split
    · by_cases hx : x = k <;> simp [assoc, hx]
    · split
      · rename_i h; subst h; by_cases hx : x = k <;> simp [assoc, hx]
      · rename_i h
        simp only [assoc]
        by_cases hx : x = a
        · subst hx
          have : ¬ x = k := fun e => h e.symm
          simp [this]
        · simp [hx, ih]

end Sys2Proof.Machine
end

