-- ==== Sys2Proof/Laws/Parts.lean ====
section
/-! SUPPORT. One lemma per field for each further update of one part of the state, so that no proof unfolds a record
update. -/

namespace Sys2Proof.Machine

/-! ### State.modCore -/

section
variable (s : State) (c : Fin 10) (f : Core → Core)

@[simp] theorem modCore_pending : (s.modCore c f).pending = s.pending := rfl
@[simp] theorem modCore_outbox : (s.modCore c f).outbox = s.outbox := rfl
@[simp] theorem modCore_free : (s.modCore c f).free = s.free := rfl
@[simp] theorem modCore_variant : (s.modCore c f).variant = s.variant := rfl
@[simp] theorem modCore_prof : (s.modCore c f).prof = s.prof := rfl
@[simp] theorem modCore_now : (s.modCore c f).now = s.now := rfl
@[simp] theorem modCore_paths : (s.modCore c f).paths = s.paths := rfl
@[simp] theorem modCore_regs : (s.modCore c f).regs = s.regs := rfl
@[simp] theorem modCore_shadow : (s.modCore c f).shadow = s.shadow := rfl
@[simp] theorem modCore_due : (s.modCore c f).due = s.due := rfl
@[simp] theorem modCore_commits : (s.modCore c f).commits = s.commits := rfl
@[simp] theorem modCore_gate : (s.modCore c f).gate = s.gate := rfl
@[simp] theorem modCore_reqs : (s.modCore c f).reqs = s.reqs := rfl
@[simp] theorem modCore_cellEvs : (s.modCore c f).cellEvs = s.cellEvs := rfl
@[simp] theorem modCore_reports : (s.modCore c f).reports = s.reports := rfl
@[simp] theorem modCore_epoch : (s.modCore c f).epoch = s.epoch := rfl
@[simp] theorem modCore_running : (s.modCore c f).running = s.running := rfl
@[simp] theorem modCore_published : (s.modCore c f).published = s.published := rfl
@[simp] theorem modCore_view : (s.modCore c f).view = s.view := rfl
@[simp] theorem modCore_push : (s.modCore c f).push = s.push := rfl
@[simp] theorem modCore_staleTicks : (s.modCore c f).staleTicks = s.staleTicks := rfl
@[simp] theorem modCore_pushLate : (s.modCore c f).pushLate = s.pushLate := rfl
@[simp] theorem modCore_cutFail : (s.modCore c f).cutFail = s.cutFail := rfl
@[simp] theorem modCore_cutApplied : (s.modCore c f).cutApplied = s.cutApplied := rfl
@[simp] theorem modCore_comApplied : (s.modCore c f).comApplied = s.comApplied := rfl
@[simp] theorem modCore_planGen : (s.modCore c f).planGen = s.planGen := rfl
@[simp] theorem modCore_coreSafety : (s.modCore c f).coreSafety = s.coreSafety := rfl
@[simp] theorem modCore_stopAtStep1 : (s.modCore c f).stopAtStep1 = s.stopAtStep1 := rfl
@[simp] theorem modCore_haloLimits : (s.modCore c f).haloLimits = s.haloLimits := rfl
@[simp] theorem modCore_minsep : (s.modCore c f).minsep = s.minsep := rfl
@[simp] theorem modCore_cores : (s.modCore c f).cores = s.cores.set c (f (s.core c)) := rfl
@[simp] theorem modCore_data : (s.modCore c f).data = s.data := rfl
@[simp] theorem modCore_code : (s.modCore c f).code = s.code := rfl
@[simp] theorem modCore_scode : (s.modCore c f).scode = s.scode := rfl
@[simp] theorem modCore_sdata : (s.modCore c f).sdata = s.sdata := rfl
@[simp] theorem modCore_codeLocked : (s.modCore c f).codeLocked = s.codeLocked := rfl
@[simp] theorem modCore_hashOk : (s.modCore c f).hashOk = s.hashOk := rfl
@[simp] theorem modCore_arms : (s.modCore c f).arms = s.arms := rfl
@[simp] theorem modCore_aux : (s.modCore c f).aux = s.aux := rfl
@[simp] theorem modCore_chans : (s.modCore c f).chans = s.chans := rfl
@[simp] theorem modCore_solver : (s.modCore c f).solver = s.solver := rfl
@[simp] theorem modCore_cascs : (s.modCore c f).cascs = s.cascs := rfl
@[simp] theorem modCore_mans : (s.modCore c f).mans = s.mans := rfl
@[simp] theorem modCore_dyns : (s.modCore c f).dyns = s.dyns := rfl
@[simp] theorem modCore_lanes : (s.modCore c f).lanes = s.lanes := rfl
@[simp] theorem modCore_lanesEccUn : (s.modCore c f).lanesEccUn = s.lanesEccUn := rfl
@[simp] theorem modCore_lanesEccC : (s.modCore c f).lanesEccC = s.lanesEccC := rfl
@[simp] theorem modCore_fbk : (s.modCore c f).fbk = s.fbk := rfl
@[simp] theorem modCore_ssi : (s.modCore c f).ssi = s.ssi := rfl
@[simp] theorem modCore_uid : (s.modCore c f).uid = s.uid := rfl
@[simp] theorem modCore_mer : (s.modCore c f).mer = s.mer := rfl
@[simp] theorem modCore_mers : (s.modCore c f).mers = s.mers := rfl
@[simp] theorem modCore_aonSid : (s.modCore c f).aonSid = s.aonSid := rfl
@[simp] theorem modCore_outImage : (s.modCore c f).outImage = s.outImage := rfl
@[simp] theorem modCore_host : (s.modCore c f).host = s.host := rfl
@[simp] theorem modCore_saf : (s.modCore c f).saf = s.saf := rfl
@[simp] theorem modCore_halo : (s.modCore c f).halo = s.halo := rfl
@[simp] theorem modCore_scomm : (s.modCore c f).scomm = s.scomm := rfl
@[simp] theorem modCore_dbg : (s.modCore c f).dbg = s.dbg := rfl
@[simp] theorem modCore_jrn : (s.modCore c f).jrn = s.jrn := rfl
@[simp] theorem modCore_lines : (s.modCore c f).lines = s.lines := rfl
@[simp] theorem modCore_clk : (s.modCore c f).clk = s.clk := rfl
@[simp] theorem modCore_boot : (s.modCore c f).boot = s.boot := rfl
@[simp] theorem modCore_aon : (s.modCore c f).aon = s.aon := rfl
@[simp] theorem modCore_slots : (s.modCore c f).slots = s.slots := rfl
@[simp] theorem modCore_cap : (s.modCore c f).cap = s.cap := rfl
@[simp] theorem modCore_eph : (s.modCore c f).eph = s.eph := rfl

end

/-! ### State.modArm -/

section
variable (s : State) (k : Fin 8) (f : Arm → Arm)

@[simp] theorem modArm_pending : (s.modArm k f).pending = s.pending := rfl
@[simp] theorem modArm_outbox : (s.modArm k f).outbox = s.outbox := rfl
@[simp] theorem modArm_free : (s.modArm k f).free = s.free := rfl
@[simp] theorem modArm_variant : (s.modArm k f).variant = s.variant := rfl
@[simp] theorem modArm_prof : (s.modArm k f).prof = s.prof := rfl
@[simp] theorem modArm_now : (s.modArm k f).now = s.now := rfl
@[simp] theorem modArm_paths : (s.modArm k f).paths = s.paths := rfl
@[simp] theorem modArm_regs : (s.modArm k f).regs = s.regs := rfl
@[simp] theorem modArm_shadow : (s.modArm k f).shadow = s.shadow := rfl
@[simp] theorem modArm_due : (s.modArm k f).due = s.due := rfl
@[simp] theorem modArm_commits : (s.modArm k f).commits = s.commits := rfl
@[simp] theorem modArm_gate : (s.modArm k f).gate = s.gate := rfl
@[simp] theorem modArm_reqs : (s.modArm k f).reqs = s.reqs := rfl
@[simp] theorem modArm_cellEvs : (s.modArm k f).cellEvs = s.cellEvs := rfl
@[simp] theorem modArm_reports : (s.modArm k f).reports = s.reports := rfl
@[simp] theorem modArm_epoch : (s.modArm k f).epoch = s.epoch := rfl
@[simp] theorem modArm_running : (s.modArm k f).running = s.running := rfl
@[simp] theorem modArm_published : (s.modArm k f).published = s.published := rfl
@[simp] theorem modArm_view : (s.modArm k f).view = s.view := rfl
@[simp] theorem modArm_push : (s.modArm k f).push = s.push := rfl
@[simp] theorem modArm_staleTicks : (s.modArm k f).staleTicks = s.staleTicks := rfl
@[simp] theorem modArm_pushLate : (s.modArm k f).pushLate = s.pushLate := rfl
@[simp] theorem modArm_cutFail : (s.modArm k f).cutFail = s.cutFail := rfl
@[simp] theorem modArm_cutApplied : (s.modArm k f).cutApplied = s.cutApplied := rfl
@[simp] theorem modArm_comApplied : (s.modArm k f).comApplied = s.comApplied := rfl
@[simp] theorem modArm_planGen : (s.modArm k f).planGen = s.planGen := rfl
@[simp] theorem modArm_coreSafety : (s.modArm k f).coreSafety = s.coreSafety := rfl
@[simp] theorem modArm_stopAtStep1 : (s.modArm k f).stopAtStep1 = s.stopAtStep1 := rfl
@[simp] theorem modArm_haloLimits : (s.modArm k f).haloLimits = s.haloLimits := rfl
@[simp] theorem modArm_minsep : (s.modArm k f).minsep = s.minsep := rfl
@[simp] theorem modArm_cores : (s.modArm k f).cores = s.cores := rfl
@[simp] theorem modArm_data : (s.modArm k f).data = s.data := rfl
@[simp] theorem modArm_code : (s.modArm k f).code = s.code := rfl
@[simp] theorem modArm_scode : (s.modArm k f).scode = s.scode := rfl
@[simp] theorem modArm_sdata : (s.modArm k f).sdata = s.sdata := rfl
@[simp] theorem modArm_codeLocked : (s.modArm k f).codeLocked = s.codeLocked := rfl
@[simp] theorem modArm_hashOk : (s.modArm k f).hashOk = s.hashOk := rfl
@[simp] theorem modArm_arms : (s.modArm k f).arms = vmod s.arms k f := rfl
@[simp] theorem modArm_aux : (s.modArm k f).aux = s.aux := rfl
@[simp] theorem modArm_chans : (s.modArm k f).chans = s.chans := rfl
@[simp] theorem modArm_solver : (s.modArm k f).solver = s.solver := rfl
@[simp] theorem modArm_cascs : (s.modArm k f).cascs = s.cascs := rfl
@[simp] theorem modArm_mans : (s.modArm k f).mans = s.mans := rfl
@[simp] theorem modArm_dyns : (s.modArm k f).dyns = s.dyns := rfl
@[simp] theorem modArm_lanes : (s.modArm k f).lanes = s.lanes := rfl
@[simp] theorem modArm_lanesEccUn : (s.modArm k f).lanesEccUn = s.lanesEccUn := rfl
@[simp] theorem modArm_lanesEccC : (s.modArm k f).lanesEccC = s.lanesEccC := rfl
@[simp] theorem modArm_fbk : (s.modArm k f).fbk = s.fbk := rfl
@[simp] theorem modArm_ssi : (s.modArm k f).ssi = s.ssi := rfl
@[simp] theorem modArm_uid : (s.modArm k f).uid = s.uid := rfl
@[simp] theorem modArm_mer : (s.modArm k f).mer = s.mer := rfl
@[simp] theorem modArm_mers : (s.modArm k f).mers = s.mers := rfl
@[simp] theorem modArm_aonSid : (s.modArm k f).aonSid = s.aonSid := rfl
@[simp] theorem modArm_outImage : (s.modArm k f).outImage = s.outImage := rfl
@[simp] theorem modArm_host : (s.modArm k f).host = s.host := rfl
@[simp] theorem modArm_saf : (s.modArm k f).saf = s.saf := rfl
@[simp] theorem modArm_halo : (s.modArm k f).halo = s.halo := rfl
@[simp] theorem modArm_scomm : (s.modArm k f).scomm = s.scomm := rfl
@[simp] theorem modArm_dbg : (s.modArm k f).dbg = s.dbg := rfl
@[simp] theorem modArm_jrn : (s.modArm k f).jrn = s.jrn := rfl
@[simp] theorem modArm_lines : (s.modArm k f).lines = s.lines := rfl
@[simp] theorem modArm_clk : (s.modArm k f).clk = s.clk := rfl
@[simp] theorem modArm_boot : (s.modArm k f).boot = s.boot := rfl
@[simp] theorem modArm_aon : (s.modArm k f).aon = s.aon := rfl
@[simp] theorem modArm_slots : (s.modArm k f).slots = s.slots := rfl
@[simp] theorem modArm_cap : (s.modArm k f).cap = s.cap := rfl
@[simp] theorem modArm_eph : (s.modArm k f).eph = s.eph := rfl

end

/-! ### State.modAux -/

section
variable (s : State) (a : Fin 128) (f : AuxGen → AuxGen)

@[simp] theorem modAux_pending : (s.modAux a f).pending = s.pending := rfl
@[simp] theorem modAux_outbox : (s.modAux a f).outbox = s.outbox := rfl
@[simp] theorem modAux_free : (s.modAux a f).free = s.free := rfl
@[simp] theorem modAux_variant : (s.modAux a f).variant = s.variant := rfl
@[simp] theorem modAux_prof : (s.modAux a f).prof = s.prof := rfl
@[simp] theorem modAux_now : (s.modAux a f).now = s.now := rfl
@[simp] theorem modAux_paths : (s.modAux a f).paths = s.paths := rfl
@[simp] theorem modAux_regs : (s.modAux a f).regs = s.regs := rfl
@[simp] theorem modAux_shadow : (s.modAux a f).shadow = s.shadow := rfl
@[simp] theorem modAux_due : (s.modAux a f).due = s.due := rfl
@[simp] theorem modAux_commits : (s.modAux a f).commits = s.commits := rfl
@[simp] theorem modAux_gate : (s.modAux a f).gate = s.gate := rfl
@[simp] theorem modAux_reqs : (s.modAux a f).reqs = s.reqs := rfl
@[simp] theorem modAux_cellEvs : (s.modAux a f).cellEvs = s.cellEvs := rfl
@[simp] theorem modAux_reports : (s.modAux a f).reports = s.reports := rfl
@[simp] theorem modAux_epoch : (s.modAux a f).epoch = s.epoch := rfl
@[simp] theorem modAux_running : (s.modAux a f).running = s.running := rfl
@[simp] theorem modAux_published : (s.modAux a f).published = s.published := rfl
@[simp] theorem modAux_view : (s.modAux a f).view = s.view := rfl
@[simp] theorem modAux_push : (s.modAux a f).push = s.push := rfl
@[simp] theorem modAux_staleTicks : (s.modAux a f).staleTicks = s.staleTicks := rfl
@[simp] theorem modAux_pushLate : (s.modAux a f).pushLate = s.pushLate := rfl
@[simp] theorem modAux_cutFail : (s.modAux a f).cutFail = s.cutFail := rfl
@[simp] theorem modAux_cutApplied : (s.modAux a f).cutApplied = s.cutApplied := rfl
@[simp] theorem modAux_comApplied : (s.modAux a f).comApplied = s.comApplied := rfl
@[simp] theorem modAux_planGen : (s.modAux a f).planGen = s.planGen := rfl
@[simp] theorem modAux_coreSafety : (s.modAux a f).coreSafety = s.coreSafety := rfl
@[simp] theorem modAux_stopAtStep1 : (s.modAux a f).stopAtStep1 = s.stopAtStep1 := rfl
@[simp] theorem modAux_haloLimits : (s.modAux a f).haloLimits = s.haloLimits := rfl
@[simp] theorem modAux_minsep : (s.modAux a f).minsep = s.minsep := rfl
@[simp] theorem modAux_cores : (s.modAux a f).cores = s.cores := rfl
@[simp] theorem modAux_data : (s.modAux a f).data = s.data := rfl
@[simp] theorem modAux_code : (s.modAux a f).code = s.code := rfl
@[simp] theorem modAux_scode : (s.modAux a f).scode = s.scode := rfl
@[simp] theorem modAux_sdata : (s.modAux a f).sdata = s.sdata := rfl
@[simp] theorem modAux_codeLocked : (s.modAux a f).codeLocked = s.codeLocked := rfl
@[simp] theorem modAux_hashOk : (s.modAux a f).hashOk = s.hashOk := rfl
@[simp] theorem modAux_arms : (s.modAux a f).arms = s.arms := rfl
@[simp] theorem modAux_aux : (s.modAux a f).aux = vmod s.aux a f := rfl
@[simp] theorem modAux_chans : (s.modAux a f).chans = s.chans := rfl
@[simp] theorem modAux_solver : (s.modAux a f).solver = s.solver := rfl
@[simp] theorem modAux_cascs : (s.modAux a f).cascs = s.cascs := rfl
@[simp] theorem modAux_mans : (s.modAux a f).mans = s.mans := rfl
@[simp] theorem modAux_dyns : (s.modAux a f).dyns = s.dyns := rfl
@[simp] theorem modAux_lanes : (s.modAux a f).lanes = s.lanes := rfl
@[simp] theorem modAux_lanesEccUn : (s.modAux a f).lanesEccUn = s.lanesEccUn := rfl
@[simp] theorem modAux_lanesEccC : (s.modAux a f).lanesEccC = s.lanesEccC := rfl
@[simp] theorem modAux_fbk : (s.modAux a f).fbk = s.fbk := rfl
@[simp] theorem modAux_ssi : (s.modAux a f).ssi = s.ssi := rfl
@[simp] theorem modAux_uid : (s.modAux a f).uid = s.uid := rfl
@[simp] theorem modAux_mer : (s.modAux a f).mer = s.mer := rfl
@[simp] theorem modAux_mers : (s.modAux a f).mers = s.mers := rfl
@[simp] theorem modAux_aonSid : (s.modAux a f).aonSid = s.aonSid := rfl
@[simp] theorem modAux_outImage : (s.modAux a f).outImage = s.outImage := rfl
@[simp] theorem modAux_host : (s.modAux a f).host = s.host := rfl
@[simp] theorem modAux_saf : (s.modAux a f).saf = s.saf := rfl
@[simp] theorem modAux_halo : (s.modAux a f).halo = s.halo := rfl
@[simp] theorem modAux_scomm : (s.modAux a f).scomm = s.scomm := rfl
@[simp] theorem modAux_dbg : (s.modAux a f).dbg = s.dbg := rfl
@[simp] theorem modAux_jrn : (s.modAux a f).jrn = s.jrn := rfl
@[simp] theorem modAux_lines : (s.modAux a f).lines = s.lines := rfl
@[simp] theorem modAux_clk : (s.modAux a f).clk = s.clk := rfl
@[simp] theorem modAux_boot : (s.modAux a f).boot = s.boot := rfl
@[simp] theorem modAux_aon : (s.modAux a f).aon = s.aon := rfl
@[simp] theorem modAux_slots : (s.modAux a f).slots = s.slots := rfl
@[simp] theorem modAux_cap : (s.modAux a f).cap = s.cap := rfl
@[simp] theorem modAux_eph : (s.modAux a f).eph = s.eph := rfl

end

/-! ### State.modCasc -/

section
variable (s : State) (a : Fin 128) (f : Cascade → Cascade)

@[simp] theorem modCasc_pending : (s.modCasc a f).pending = s.pending := rfl
@[simp] theorem modCasc_outbox : (s.modCasc a f).outbox = s.outbox := rfl
@[simp] theorem modCasc_free : (s.modCasc a f).free = s.free := rfl
@[simp] theorem modCasc_variant : (s.modCasc a f).variant = s.variant := rfl
@[simp] theorem modCasc_prof : (s.modCasc a f).prof = s.prof := rfl
@[simp] theorem modCasc_now : (s.modCasc a f).now = s.now := rfl
@[simp] theorem modCasc_paths : (s.modCasc a f).paths = s.paths := rfl
@[simp] theorem modCasc_regs : (s.modCasc a f).regs = s.regs := rfl
@[simp] theorem modCasc_shadow : (s.modCasc a f).shadow = s.shadow := rfl
@[simp] theorem modCasc_due : (s.modCasc a f).due = s.due := rfl
@[simp] theorem modCasc_commits : (s.modCasc a f).commits = s.commits := rfl
@[simp] theorem modCasc_gate : (s.modCasc a f).gate = s.gate := rfl
@[simp] theorem modCasc_reqs : (s.modCasc a f).reqs = s.reqs := rfl
@[simp] theorem modCasc_cellEvs : (s.modCasc a f).cellEvs = s.cellEvs := rfl
@[simp] theorem modCasc_reports : (s.modCasc a f).reports = s.reports := rfl
@[simp] theorem modCasc_epoch : (s.modCasc a f).epoch = s.epoch := rfl
@[simp] theorem modCasc_running : (s.modCasc a f).running = s.running := rfl
@[simp] theorem modCasc_published : (s.modCasc a f).published = s.published := rfl
@[simp] theorem modCasc_view : (s.modCasc a f).view = s.view := rfl
@[simp] theorem modCasc_push : (s.modCasc a f).push = s.push := rfl
@[simp] theorem modCasc_staleTicks : (s.modCasc a f).staleTicks = s.staleTicks := rfl
@[simp] theorem modCasc_pushLate : (s.modCasc a f).pushLate = s.pushLate := rfl
@[simp] theorem modCasc_cutFail : (s.modCasc a f).cutFail = s.cutFail := rfl
@[simp] theorem modCasc_cutApplied : (s.modCasc a f).cutApplied = s.cutApplied := rfl
@[simp] theorem modCasc_comApplied : (s.modCasc a f).comApplied = s.comApplied := rfl
@[simp] theorem modCasc_planGen : (s.modCasc a f).planGen = s.planGen := rfl
@[simp] theorem modCasc_coreSafety : (s.modCasc a f).coreSafety = s.coreSafety := rfl
@[simp] theorem modCasc_stopAtStep1 : (s.modCasc a f).stopAtStep1 = s.stopAtStep1 := rfl
@[simp] theorem modCasc_haloLimits : (s.modCasc a f).haloLimits = s.haloLimits := rfl
@[simp] theorem modCasc_minsep : (s.modCasc a f).minsep = s.minsep := rfl
@[simp] theorem modCasc_cores : (s.modCasc a f).cores = s.cores := rfl
@[simp] theorem modCasc_data : (s.modCasc a f).data = s.data := rfl
@[simp] theorem modCasc_code : (s.modCasc a f).code = s.code := rfl
@[simp] theorem modCasc_scode : (s.modCasc a f).scode = s.scode := rfl
@[simp] theorem modCasc_sdata : (s.modCasc a f).sdata = s.sdata := rfl
@[simp] theorem modCasc_codeLocked : (s.modCasc a f).codeLocked = s.codeLocked := rfl
@[simp] theorem modCasc_hashOk : (s.modCasc a f).hashOk = s.hashOk := rfl
@[simp] theorem modCasc_arms : (s.modCasc a f).arms = s.arms := rfl
@[simp] theorem modCasc_aux : (s.modCasc a f).aux = s.aux := rfl
@[simp] theorem modCasc_chans : (s.modCasc a f).chans = s.chans := rfl
@[simp] theorem modCasc_solver : (s.modCasc a f).solver = s.solver := rfl
@[simp] theorem modCasc_cascs : (s.modCasc a f).cascs = vmod s.cascs a f := rfl
@[simp] theorem modCasc_mans : (s.modCasc a f).mans = s.mans := rfl
@[simp] theorem modCasc_dyns : (s.modCasc a f).dyns = s.dyns := rfl
@[simp] theorem modCasc_lanes : (s.modCasc a f).lanes = s.lanes := rfl
@[simp] theorem modCasc_lanesEccUn : (s.modCasc a f).lanesEccUn = s.lanesEccUn := rfl
@[simp] theorem modCasc_lanesEccC : (s.modCasc a f).lanesEccC = s.lanesEccC := rfl
@[simp] theorem modCasc_fbk : (s.modCasc a f).fbk = s.fbk := rfl
@[simp] theorem modCasc_ssi : (s.modCasc a f).ssi = s.ssi := rfl
@[simp] theorem modCasc_uid : (s.modCasc a f).uid = s.uid := rfl
@[simp] theorem modCasc_mer : (s.modCasc a f).mer = s.mer := rfl
@[simp] theorem modCasc_mers : (s.modCasc a f).mers = s.mers := rfl
@[simp] theorem modCasc_aonSid : (s.modCasc a f).aonSid = s.aonSid := rfl
@[simp] theorem modCasc_outImage : (s.modCasc a f).outImage = s.outImage := rfl
@[simp] theorem modCasc_host : (s.modCasc a f).host = s.host := rfl
@[simp] theorem modCasc_saf : (s.modCasc a f).saf = s.saf := rfl
@[simp] theorem modCasc_halo : (s.modCasc a f).halo = s.halo := rfl
@[simp] theorem modCasc_scomm : (s.modCasc a f).scomm = s.scomm := rfl
@[simp] theorem modCasc_dbg : (s.modCasc a f).dbg = s.dbg := rfl
@[simp] theorem modCasc_jrn : (s.modCasc a f).jrn = s.jrn := rfl
@[simp] theorem modCasc_lines : (s.modCasc a f).lines = s.lines := rfl
@[simp] theorem modCasc_clk : (s.modCasc a f).clk = s.clk := rfl
@[simp] theorem modCasc_boot : (s.modCasc a f).boot = s.boot := rfl
@[simp] theorem modCasc_aon : (s.modCasc a f).aon = s.aon := rfl
@[simp] theorem modCasc_slots : (s.modCasc a f).slots = s.slots := rfl
@[simp] theorem modCasc_cap : (s.modCasc a f).cap = s.cap := rfl
@[simp] theorem modCasc_eph : (s.modCasc a f).eph = s.eph := rfl

end

/-! ### State.modLane -/

section
variable (s : State) (l : Fin 32) (f : Lane → Lane)

@[simp] theorem modLane_pending : (s.modLane l f).pending = s.pending := rfl
@[simp] theorem modLane_outbox : (s.modLane l f).outbox = s.outbox := rfl
@[simp] theorem modLane_free : (s.modLane l f).free = s.free := rfl
@[simp] theorem modLane_variant : (s.modLane l f).variant = s.variant := rfl
@[simp] theorem modLane_prof : (s.modLane l f).prof = s.prof := rfl
@[simp] theorem modLane_now : (s.modLane l f).now = s.now := rfl
@[simp] theorem modLane_paths : (s.modLane l f).paths = s.paths := rfl
@[simp] theorem modLane_regs : (s.modLane l f).regs = s.regs := rfl
@[simp] theorem modLane_shadow : (s.modLane l f).shadow = s.shadow := rfl
@[simp] theorem modLane_due : (s.modLane l f).due = s.due := rfl
@[simp] theorem modLane_commits : (s.modLane l f).commits = s.commits := rfl
@[simp] theorem modLane_gate : (s.modLane l f).gate = s.gate := rfl
@[simp] theorem modLane_reqs : (s.modLane l f).reqs = s.reqs := rfl
@[simp] theorem modLane_cellEvs : (s.modLane l f).cellEvs = s.cellEvs := rfl
@[simp] theorem modLane_reports : (s.modLane l f).reports = s.reports := rfl
@[simp] theorem modLane_epoch : (s.modLane l f).epoch = s.epoch := rfl
@[simp] theorem modLane_running : (s.modLane l f).running = s.running := rfl
@[simp] theorem modLane_published : (s.modLane l f).published = s.published := rfl
@[simp] theorem modLane_view : (s.modLane l f).view = s.view := rfl
@[simp] theorem modLane_push : (s.modLane l f).push = s.push := rfl
@[simp] theorem modLane_staleTicks : (s.modLane l f).staleTicks = s.staleTicks := rfl
@[simp] theorem modLane_pushLate : (s.modLane l f).pushLate = s.pushLate := rfl
@[simp] theorem modLane_cutFail : (s.modLane l f).cutFail = s.cutFail := rfl
@[simp] theorem modLane_cutApplied : (s.modLane l f).cutApplied = s.cutApplied := rfl
@[simp] theorem modLane_comApplied : (s.modLane l f).comApplied = s.comApplied := rfl
@[simp] theorem modLane_planGen : (s.modLane l f).planGen = s.planGen := rfl
@[simp] theorem modLane_coreSafety : (s.modLane l f).coreSafety = s.coreSafety := rfl
@[simp] theorem modLane_stopAtStep1 : (s.modLane l f).stopAtStep1 = s.stopAtStep1 := rfl
@[simp] theorem modLane_haloLimits : (s.modLane l f).haloLimits = s.haloLimits := rfl
@[simp] theorem modLane_minsep : (s.modLane l f).minsep = s.minsep := rfl
@[simp] theorem modLane_cores : (s.modLane l f).cores = s.cores := rfl
@[simp] theorem modLane_data : (s.modLane l f).data = s.data := rfl
@[simp] theorem modLane_code : (s.modLane l f).code = s.code := rfl
@[simp] theorem modLane_scode : (s.modLane l f).scode = s.scode := rfl
@[simp] theorem modLane_sdata : (s.modLane l f).sdata = s.sdata := rfl
@[simp] theorem modLane_codeLocked : (s.modLane l f).codeLocked = s.codeLocked := rfl
@[simp] theorem modLane_hashOk : (s.modLane l f).hashOk = s.hashOk := rfl
@[simp] theorem modLane_arms : (s.modLane l f).arms = s.arms := rfl
@[simp] theorem modLane_aux : (s.modLane l f).aux = s.aux := rfl
@[simp] theorem modLane_chans : (s.modLane l f).chans = s.chans := rfl
@[simp] theorem modLane_solver : (s.modLane l f).solver = s.solver := rfl
@[simp] theorem modLane_cascs : (s.modLane l f).cascs = s.cascs := rfl
@[simp] theorem modLane_mans : (s.modLane l f).mans = s.mans := rfl
@[simp] theorem modLane_dyns : (s.modLane l f).dyns = s.dyns := rfl
@[simp] theorem modLane_lanes : (s.modLane l f).lanes = vmod s.lanes l f := rfl
@[simp] theorem modLane_lanesEccUn : (s.modLane l f).lanesEccUn = s.lanesEccUn := rfl
@[simp] theorem modLane_lanesEccC : (s.modLane l f).lanesEccC = s.lanesEccC := rfl
@[simp] theorem modLane_fbk : (s.modLane l f).fbk = s.fbk := rfl
@[simp] theorem modLane_ssi : (s.modLane l f).ssi = s.ssi := rfl
@[simp] theorem modLane_uid : (s.modLane l f).uid = s.uid := rfl
@[simp] theorem modLane_mer : (s.modLane l f).mer = s.mer := rfl
@[simp] theorem modLane_mers : (s.modLane l f).mers = s.mers := rfl
@[simp] theorem modLane_aonSid : (s.modLane l f).aonSid = s.aonSid := rfl
@[simp] theorem modLane_outImage : (s.modLane l f).outImage = s.outImage := rfl
@[simp] theorem modLane_host : (s.modLane l f).host = s.host := rfl
@[simp] theorem modLane_saf : (s.modLane l f).saf = s.saf := rfl
@[simp] theorem modLane_halo : (s.modLane l f).halo = s.halo := rfl
@[simp] theorem modLane_scomm : (s.modLane l f).scomm = s.scomm := rfl
@[simp] theorem modLane_dbg : (s.modLane l f).dbg = s.dbg := rfl
@[simp] theorem modLane_jrn : (s.modLane l f).jrn = s.jrn := rfl
@[simp] theorem modLane_lines : (s.modLane l f).lines = s.lines := rfl
@[simp] theorem modLane_clk : (s.modLane l f).clk = s.clk := rfl
@[simp] theorem modLane_boot : (s.modLane l f).boot = s.boot := rfl
@[simp] theorem modLane_aon : (s.modLane l f).aon = s.aon := rfl
@[simp] theorem modLane_slots : (s.modLane l f).slots = s.slots := rfl
@[simp] theorem modLane_cap : (s.modLane l f).cap = s.cap := rfl
@[simp] theorem modLane_eph : (s.modLane l f).eph = s.eph := rfl

end

/-! ### State.modFbk -/

section
variable (s : State) (a : Fin 128) (f : AxFbk → AxFbk)

@[simp] theorem modFbk_pending : (s.modFbk a f).pending = s.pending := rfl
@[simp] theorem modFbk_outbox : (s.modFbk a f).outbox = s.outbox := rfl
@[simp] theorem modFbk_free : (s.modFbk a f).free = s.free := rfl
@[simp] theorem modFbk_variant : (s.modFbk a f).variant = s.variant := rfl
@[simp] theorem modFbk_prof : (s.modFbk a f).prof = s.prof := rfl
@[simp] theorem modFbk_now : (s.modFbk a f).now = s.now := rfl
@[simp] theorem modFbk_paths : (s.modFbk a f).paths = s.paths := rfl
@[simp] theorem modFbk_regs : (s.modFbk a f).regs = s.regs := rfl
@[simp] theorem modFbk_shadow : (s.modFbk a f).shadow = s.shadow := rfl
@[simp] theorem modFbk_due : (s.modFbk a f).due = s.due := rfl
@[simp] theorem modFbk_commits : (s.modFbk a f).commits = s.commits := rfl
@[simp] theorem modFbk_gate : (s.modFbk a f).gate = s.gate := rfl
@[simp] theorem modFbk_reqs : (s.modFbk a f).reqs = s.reqs := rfl
@[simp] theorem modFbk_cellEvs : (s.modFbk a f).cellEvs = s.cellEvs := rfl
@[simp] theorem modFbk_reports : (s.modFbk a f).reports = s.reports := rfl
@[simp] theorem modFbk_epoch : (s.modFbk a f).epoch = s.epoch := rfl
@[simp] theorem modFbk_running : (s.modFbk a f).running = s.running := rfl
@[simp] theorem modFbk_published : (s.modFbk a f).published = s.published := rfl
@[simp] theorem modFbk_view : (s.modFbk a f).view = s.view := rfl
@[simp] theorem modFbk_push : (s.modFbk a f).push = s.push := rfl
@[simp] theorem modFbk_staleTicks : (s.modFbk a f).staleTicks = s.staleTicks := rfl
@[simp] theorem modFbk_pushLate : (s.modFbk a f).pushLate = s.pushLate := rfl
@[simp] theorem modFbk_cutFail : (s.modFbk a f).cutFail = s.cutFail := rfl
@[simp] theorem modFbk_cutApplied : (s.modFbk a f).cutApplied = s.cutApplied := rfl
@[simp] theorem modFbk_comApplied : (s.modFbk a f).comApplied = s.comApplied := rfl
@[simp] theorem modFbk_planGen : (s.modFbk a f).planGen = s.planGen := rfl
@[simp] theorem modFbk_coreSafety : (s.modFbk a f).coreSafety = s.coreSafety := rfl
@[simp] theorem modFbk_stopAtStep1 : (s.modFbk a f).stopAtStep1 = s.stopAtStep1 := rfl
@[simp] theorem modFbk_haloLimits : (s.modFbk a f).haloLimits = s.haloLimits := rfl
@[simp] theorem modFbk_minsep : (s.modFbk a f).minsep = s.minsep := rfl
@[simp] theorem modFbk_cores : (s.modFbk a f).cores = s.cores := rfl
@[simp] theorem modFbk_data : (s.modFbk a f).data = s.data := rfl
@[simp] theorem modFbk_code : (s.modFbk a f).code = s.code := rfl
@[simp] theorem modFbk_scode : (s.modFbk a f).scode = s.scode := rfl
@[simp] theorem modFbk_sdata : (s.modFbk a f).sdata = s.sdata := rfl
@[simp] theorem modFbk_codeLocked : (s.modFbk a f).codeLocked = s.codeLocked := rfl
@[simp] theorem modFbk_hashOk : (s.modFbk a f).hashOk = s.hashOk := rfl
@[simp] theorem modFbk_arms : (s.modFbk a f).arms = s.arms := rfl
@[simp] theorem modFbk_aux : (s.modFbk a f).aux = s.aux := rfl
@[simp] theorem modFbk_chans : (s.modFbk a f).chans = s.chans := rfl
@[simp] theorem modFbk_solver : (s.modFbk a f).solver = s.solver := rfl
@[simp] theorem modFbk_cascs : (s.modFbk a f).cascs = s.cascs := rfl
@[simp] theorem modFbk_mans : (s.modFbk a f).mans = s.mans := rfl
@[simp] theorem modFbk_dyns : (s.modFbk a f).dyns = s.dyns := rfl
@[simp] theorem modFbk_lanes : (s.modFbk a f).lanes = s.lanes := rfl
@[simp] theorem modFbk_lanesEccUn : (s.modFbk a f).lanesEccUn = s.lanesEccUn := rfl
@[simp] theorem modFbk_lanesEccC : (s.modFbk a f).lanesEccC = s.lanesEccC := rfl
@[simp] theorem modFbk_fbk : (s.modFbk a f).fbk = vmod s.fbk a f := rfl
@[simp] theorem modFbk_ssi : (s.modFbk a f).ssi = s.ssi := rfl
@[simp] theorem modFbk_uid : (s.modFbk a f).uid = s.uid := rfl
@[simp] theorem modFbk_mer : (s.modFbk a f).mer = s.mer := rfl
@[simp] theorem modFbk_mers : (s.modFbk a f).mers = s.mers := rfl
@[simp] theorem modFbk_aonSid : (s.modFbk a f).aonSid = s.aonSid := rfl
@[simp] theorem modFbk_outImage : (s.modFbk a f).outImage = s.outImage := rfl
@[simp] theorem modFbk_host : (s.modFbk a f).host = s.host := rfl
@[simp] theorem modFbk_saf : (s.modFbk a f).saf = s.saf := rfl
@[simp] theorem modFbk_halo : (s.modFbk a f).halo = s.halo := rfl
@[simp] theorem modFbk_scomm : (s.modFbk a f).scomm = s.scomm := rfl
@[simp] theorem modFbk_dbg : (s.modFbk a f).dbg = s.dbg := rfl
@[simp] theorem modFbk_jrn : (s.modFbk a f).jrn = s.jrn := rfl
@[simp] theorem modFbk_lines : (s.modFbk a f).lines = s.lines := rfl
@[simp] theorem modFbk_clk : (s.modFbk a f).clk = s.clk := rfl
@[simp] theorem modFbk_boot : (s.modFbk a f).boot = s.boot := rfl
@[simp] theorem modFbk_aon : (s.modFbk a f).aon = s.aon := rfl
@[simp] theorem modFbk_slots : (s.modFbk a f).slots = s.slots := rfl
@[simp] theorem modFbk_cap : (s.modFbk a f).cap = s.cap := rfl
@[simp] theorem modFbk_eph : (s.modFbk a f).eph = s.eph := rfl

end

/-! ### State.modLine -/

section
variable (s : State) (n : Fin 8) (f : Line → Line)

@[simp] theorem modLine_pending : (s.modLine n f).pending = s.pending := rfl
@[simp] theorem modLine_outbox : (s.modLine n f).outbox = s.outbox := rfl
@[simp] theorem modLine_free : (s.modLine n f).free = s.free := rfl
@[simp] theorem modLine_variant : (s.modLine n f).variant = s.variant := rfl
@[simp] theorem modLine_prof : (s.modLine n f).prof = s.prof := rfl
@[simp] theorem modLine_now : (s.modLine n f).now = s.now := rfl
@[simp] theorem modLine_paths : (s.modLine n f).paths = s.paths := rfl
@[simp] theorem modLine_regs : (s.modLine n f).regs = s.regs := rfl
@[simp] theorem modLine_shadow : (s.modLine n f).shadow = s.shadow := rfl
@[simp] theorem modLine_due : (s.modLine n f).due = s.due := rfl
@[simp] theorem modLine_commits : (s.modLine n f).commits = s.commits := rfl
@[simp] theorem modLine_gate : (s.modLine n f).gate = s.gate := rfl
@[simp] theorem modLine_reqs : (s.modLine n f).reqs = s.reqs := rfl
@[simp] theorem modLine_cellEvs : (s.modLine n f).cellEvs = s.cellEvs := rfl
@[simp] theorem modLine_reports : (s.modLine n f).reports = s.reports := rfl
@[simp] theorem modLine_epoch : (s.modLine n f).epoch = s.epoch := rfl
@[simp] theorem modLine_running : (s.modLine n f).running = s.running := rfl
@[simp] theorem modLine_published : (s.modLine n f).published = s.published := rfl
@[simp] theorem modLine_view : (s.modLine n f).view = s.view := rfl
@[simp] theorem modLine_push : (s.modLine n f).push = s.push := rfl
@[simp] theorem modLine_staleTicks : (s.modLine n f).staleTicks = s.staleTicks := rfl
@[simp] theorem modLine_pushLate : (s.modLine n f).pushLate = s.pushLate := rfl
@[simp] theorem modLine_cutFail : (s.modLine n f).cutFail = s.cutFail := rfl
@[simp] theorem modLine_cutApplied : (s.modLine n f).cutApplied = s.cutApplied := rfl
@[simp] theorem modLine_comApplied : (s.modLine n f).comApplied = s.comApplied := rfl
@[simp] theorem modLine_planGen : (s.modLine n f).planGen = s.planGen := rfl
@[simp] theorem modLine_coreSafety : (s.modLine n f).coreSafety = s.coreSafety := rfl
@[simp] theorem modLine_stopAtStep1 : (s.modLine n f).stopAtStep1 = s.stopAtStep1 := rfl
@[simp] theorem modLine_haloLimits : (s.modLine n f).haloLimits = s.haloLimits := rfl
@[simp] theorem modLine_minsep : (s.modLine n f).minsep = s.minsep := rfl
@[simp] theorem modLine_cores : (s.modLine n f).cores = s.cores := rfl
@[simp] theorem modLine_data : (s.modLine n f).data = s.data := rfl
@[simp] theorem modLine_code : (s.modLine n f).code = s.code := rfl
@[simp] theorem modLine_scode : (s.modLine n f).scode = s.scode := rfl
@[simp] theorem modLine_sdata : (s.modLine n f).sdata = s.sdata := rfl
@[simp] theorem modLine_codeLocked : (s.modLine n f).codeLocked = s.codeLocked := rfl
@[simp] theorem modLine_hashOk : (s.modLine n f).hashOk = s.hashOk := rfl
@[simp] theorem modLine_arms : (s.modLine n f).arms = s.arms := rfl
@[simp] theorem modLine_aux : (s.modLine n f).aux = s.aux := rfl
@[simp] theorem modLine_chans : (s.modLine n f).chans = s.chans := rfl
@[simp] theorem modLine_solver : (s.modLine n f).solver = s.solver := rfl
@[simp] theorem modLine_cascs : (s.modLine n f).cascs = s.cascs := rfl
@[simp] theorem modLine_mans : (s.modLine n f).mans = s.mans := rfl
@[simp] theorem modLine_dyns : (s.modLine n f).dyns = s.dyns := rfl
@[simp] theorem modLine_lanes : (s.modLine n f).lanes = s.lanes := rfl
@[simp] theorem modLine_lanesEccUn : (s.modLine n f).lanesEccUn = s.lanesEccUn := rfl
@[simp] theorem modLine_lanesEccC : (s.modLine n f).lanesEccC = s.lanesEccC := rfl
@[simp] theorem modLine_fbk : (s.modLine n f).fbk = s.fbk := rfl
@[simp] theorem modLine_ssi : (s.modLine n f).ssi = s.ssi := rfl
@[simp] theorem modLine_uid : (s.modLine n f).uid = s.uid := rfl
@[simp] theorem modLine_mer : (s.modLine n f).mer = s.mer := rfl
@[simp] theorem modLine_mers : (s.modLine n f).mers = s.mers := rfl
@[simp] theorem modLine_aonSid : (s.modLine n f).aonSid = s.aonSid := rfl
@[simp] theorem modLine_outImage : (s.modLine n f).outImage = s.outImage := rfl
@[simp] theorem modLine_host : (s.modLine n f).host = s.host := rfl
@[simp] theorem modLine_saf : (s.modLine n f).saf = s.saf := rfl
@[simp] theorem modLine_halo : (s.modLine n f).halo = s.halo := rfl
@[simp] theorem modLine_scomm : (s.modLine n f).scomm = s.scomm := rfl
@[simp] theorem modLine_dbg : (s.modLine n f).dbg = s.dbg := rfl
@[simp] theorem modLine_jrn : (s.modLine n f).jrn = s.jrn := rfl
@[simp] theorem modLine_lines : (s.modLine n f).lines = vmod s.lines n f := rfl
@[simp] theorem modLine_clk : (s.modLine n f).clk = s.clk := rfl
@[simp] theorem modLine_boot : (s.modLine n f).boot = s.boot := rfl
@[simp] theorem modLine_aon : (s.modLine n f).aon = s.aon := rfl
@[simp] theorem modLine_slots : (s.modLine n f).slots = s.slots := rfl
@[simp] theorem modLine_cap : (s.modLine n f).cap = s.cap := rfl
@[simp] theorem modLine_eph : (s.modLine n f).eph = s.eph := rfl

end

/-! ### State.modHalo -/

section
variable (s : State) (f : Halo → Halo)

@[simp] theorem modHalo_pending : (s.modHalo f).pending = s.pending := rfl
@[simp] theorem modHalo_outbox : (s.modHalo f).outbox = s.outbox := rfl
@[simp] theorem modHalo_free : (s.modHalo f).free = s.free := rfl
@[simp] theorem modHalo_variant : (s.modHalo f).variant = s.variant := rfl
@[simp] theorem modHalo_prof : (s.modHalo f).prof = s.prof := rfl
@[simp] theorem modHalo_now : (s.modHalo f).now = s.now := rfl
@[simp] theorem modHalo_paths : (s.modHalo f).paths = s.paths := rfl
@[simp] theorem modHalo_regs : (s.modHalo f).regs = s.regs := rfl
@[simp] theorem modHalo_shadow : (s.modHalo f).shadow = s.shadow := rfl
@[simp] theorem modHalo_due : (s.modHalo f).due = s.due := rfl
@[simp] theorem modHalo_commits : (s.modHalo f).commits = s.commits := rfl
@[simp] theorem modHalo_gate : (s.modHalo f).gate = s.gate := rfl
@[simp] theorem modHalo_reqs : (s.modHalo f).reqs = s.reqs := rfl
@[simp] theorem modHalo_cellEvs : (s.modHalo f).cellEvs = s.cellEvs := rfl
@[simp] theorem modHalo_reports : (s.modHalo f).reports = s.reports := rfl
@[simp] theorem modHalo_epoch : (s.modHalo f).epoch = s.epoch := rfl
@[simp] theorem modHalo_running : (s.modHalo f).running = s.running := rfl
@[simp] theorem modHalo_published : (s.modHalo f).published = s.published := rfl
@[simp] theorem modHalo_view : (s.modHalo f).view = s.view := rfl
@[simp] theorem modHalo_push : (s.modHalo f).push = s.push := rfl
@[simp] theorem modHalo_staleTicks : (s.modHalo f).staleTicks = s.staleTicks := rfl
@[simp] theorem modHalo_pushLate : (s.modHalo f).pushLate = s.pushLate := rfl
@[simp] theorem modHalo_cutFail : (s.modHalo f).cutFail = s.cutFail := rfl
@[simp] theorem modHalo_cutApplied : (s.modHalo f).cutApplied = s.cutApplied := rfl
@[simp] theorem modHalo_comApplied : (s.modHalo f).comApplied = s.comApplied := rfl
@[simp] theorem modHalo_planGen : (s.modHalo f).planGen = s.planGen := rfl
@[simp] theorem modHalo_coreSafety : (s.modHalo f).coreSafety = s.coreSafety := rfl
@[simp] theorem modHalo_stopAtStep1 : (s.modHalo f).stopAtStep1 = s.stopAtStep1 := rfl
@[simp] theorem modHalo_haloLimits : (s.modHalo f).haloLimits = s.haloLimits := rfl
@[simp] theorem modHalo_minsep : (s.modHalo f).minsep = s.minsep := rfl
@[simp] theorem modHalo_cores : (s.modHalo f).cores = s.cores := rfl
@[simp] theorem modHalo_data : (s.modHalo f).data = s.data := rfl
@[simp] theorem modHalo_code : (s.modHalo f).code = s.code := rfl
@[simp] theorem modHalo_scode : (s.modHalo f).scode = s.scode := rfl
@[simp] theorem modHalo_sdata : (s.modHalo f).sdata = s.sdata := rfl
@[simp] theorem modHalo_codeLocked : (s.modHalo f).codeLocked = s.codeLocked := rfl
@[simp] theorem modHalo_hashOk : (s.modHalo f).hashOk = s.hashOk := rfl
@[simp] theorem modHalo_arms : (s.modHalo f).arms = s.arms := rfl
@[simp] theorem modHalo_aux : (s.modHalo f).aux = s.aux := rfl
@[simp] theorem modHalo_chans : (s.modHalo f).chans = s.chans := rfl
@[simp] theorem modHalo_solver : (s.modHalo f).solver = s.solver := rfl
@[simp] theorem modHalo_cascs : (s.modHalo f).cascs = s.cascs := rfl
@[simp] theorem modHalo_mans : (s.modHalo f).mans = s.mans := rfl
@[simp] theorem modHalo_dyns : (s.modHalo f).dyns = s.dyns := rfl
@[simp] theorem modHalo_lanes : (s.modHalo f).lanes = s.lanes := rfl
@[simp] theorem modHalo_lanesEccUn : (s.modHalo f).lanesEccUn = s.lanesEccUn := rfl
@[simp] theorem modHalo_lanesEccC : (s.modHalo f).lanesEccC = s.lanesEccC := rfl
@[simp] theorem modHalo_fbk : (s.modHalo f).fbk = s.fbk := rfl
@[simp] theorem modHalo_ssi : (s.modHalo f).ssi = s.ssi := rfl
@[simp] theorem modHalo_uid : (s.modHalo f).uid = s.uid := rfl
@[simp] theorem modHalo_mer : (s.modHalo f).mer = s.mer := rfl
@[simp] theorem modHalo_mers : (s.modHalo f).mers = s.mers := rfl
@[simp] theorem modHalo_aonSid : (s.modHalo f).aonSid = s.aonSid := rfl
@[simp] theorem modHalo_outImage : (s.modHalo f).outImage = s.outImage := rfl
@[simp] theorem modHalo_host : (s.modHalo f).host = s.host := rfl
@[simp] theorem modHalo_saf : (s.modHalo f).saf = s.saf := rfl
@[simp] theorem modHalo_halo : (s.modHalo f).halo = f s.halo := rfl
@[simp] theorem modHalo_scomm : (s.modHalo f).scomm = s.scomm := rfl
@[simp] theorem modHalo_dbg : (s.modHalo f).dbg = s.dbg := rfl
@[simp] theorem modHalo_jrn : (s.modHalo f).jrn = s.jrn := rfl
@[simp] theorem modHalo_lines : (s.modHalo f).lines = s.lines := rfl
@[simp] theorem modHalo_clk : (s.modHalo f).clk = s.clk := rfl
@[simp] theorem modHalo_boot : (s.modHalo f).boot = s.boot := rfl
@[simp] theorem modHalo_aon : (s.modHalo f).aon = s.aon := rfl
@[simp] theorem modHalo_slots : (s.modHalo f).slots = s.slots := rfl
@[simp] theorem modHalo_cap : (s.modHalo f).cap = s.cap := rfl
@[simp] theorem modHalo_eph : (s.modHalo f).eph = s.eph := rfl

end

/-! ### State.modBoot -/

section
variable (s : State) (f : Boot → Boot)

@[simp] theorem modBoot_pending : (s.modBoot f).pending = s.pending := rfl
@[simp] theorem modBoot_outbox : (s.modBoot f).outbox = s.outbox := rfl
@[simp] theorem modBoot_free : (s.modBoot f).free = s.free := rfl
@[simp] theorem modBoot_variant : (s.modBoot f).variant = s.variant := rfl
@[simp] theorem modBoot_prof : (s.modBoot f).prof = s.prof := rfl
@[simp] theorem modBoot_now : (s.modBoot f).now = s.now := rfl
@[simp] theorem modBoot_paths : (s.modBoot f).paths = s.paths := rfl
@[simp] theorem modBoot_regs : (s.modBoot f).regs = s.regs := rfl
@[simp] theorem modBoot_shadow : (s.modBoot f).shadow = s.shadow := rfl
@[simp] theorem modBoot_due : (s.modBoot f).due = s.due := rfl
@[simp] theorem modBoot_commits : (s.modBoot f).commits = s.commits := rfl
@[simp] theorem modBoot_gate : (s.modBoot f).gate = s.gate := rfl
@[simp] theorem modBoot_reqs : (s.modBoot f).reqs = s.reqs := rfl
@[simp] theorem modBoot_cellEvs : (s.modBoot f).cellEvs = s.cellEvs := rfl
@[simp] theorem modBoot_reports : (s.modBoot f).reports = s.reports := rfl
@[simp] theorem modBoot_epoch : (s.modBoot f).epoch = s.epoch := rfl
@[simp] theorem modBoot_running : (s.modBoot f).running = s.running := rfl
@[simp] theorem modBoot_published : (s.modBoot f).published = s.published := rfl
@[simp] theorem modBoot_view : (s.modBoot f).view = s.view := rfl
@[simp] theorem modBoot_push : (s.modBoot f).push = s.push := rfl
@[simp] theorem modBoot_staleTicks : (s.modBoot f).staleTicks = s.staleTicks := rfl
@[simp] theorem modBoot_pushLate : (s.modBoot f).pushLate = s.pushLate := rfl
@[simp] theorem modBoot_cutFail : (s.modBoot f).cutFail = s.cutFail := rfl
@[simp] theorem modBoot_cutApplied : (s.modBoot f).cutApplied = s.cutApplied := rfl
@[simp] theorem modBoot_comApplied : (s.modBoot f).comApplied = s.comApplied := rfl
@[simp] theorem modBoot_planGen : (s.modBoot f).planGen = s.planGen := rfl
@[simp] theorem modBoot_coreSafety : (s.modBoot f).coreSafety = s.coreSafety := rfl
@[simp] theorem modBoot_stopAtStep1 : (s.modBoot f).stopAtStep1 = s.stopAtStep1 := rfl
@[simp] theorem modBoot_haloLimits : (s.modBoot f).haloLimits = s.haloLimits := rfl
@[simp] theorem modBoot_minsep : (s.modBoot f).minsep = s.minsep := rfl
@[simp] theorem modBoot_cores : (s.modBoot f).cores = s.cores := rfl
@[simp] theorem modBoot_data : (s.modBoot f).data = s.data := rfl
@[simp] theorem modBoot_code : (s.modBoot f).code = s.code := rfl
@[simp] theorem modBoot_scode : (s.modBoot f).scode = s.scode := rfl
@[simp] theorem modBoot_sdata : (s.modBoot f).sdata = s.sdata := rfl
@[simp] theorem modBoot_codeLocked : (s.modBoot f).codeLocked = s.codeLocked := rfl
@[simp] theorem modBoot_hashOk : (s.modBoot f).hashOk = s.hashOk := rfl
@[simp] theorem modBoot_arms : (s.modBoot f).arms = s.arms := rfl
@[simp] theorem modBoot_aux : (s.modBoot f).aux = s.aux := rfl
@[simp] theorem modBoot_chans : (s.modBoot f).chans = s.chans := rfl
@[simp] theorem modBoot_solver : (s.modBoot f).solver = s.solver := rfl
@[simp] theorem modBoot_cascs : (s.modBoot f).cascs = s.cascs := rfl
@[simp] theorem modBoot_mans : (s.modBoot f).mans = s.mans := rfl
@[simp] theorem modBoot_dyns : (s.modBoot f).dyns = s.dyns := rfl
@[simp] theorem modBoot_lanes : (s.modBoot f).lanes = s.lanes := rfl
@[simp] theorem modBoot_lanesEccUn : (s.modBoot f).lanesEccUn = s.lanesEccUn := rfl
@[simp] theorem modBoot_lanesEccC : (s.modBoot f).lanesEccC = s.lanesEccC := rfl
@[simp] theorem modBoot_fbk : (s.modBoot f).fbk = s.fbk := rfl
@[simp] theorem modBoot_ssi : (s.modBoot f).ssi = s.ssi := rfl
@[simp] theorem modBoot_uid : (s.modBoot f).uid = s.uid := rfl
@[simp] theorem modBoot_mer : (s.modBoot f).mer = s.mer := rfl
@[simp] theorem modBoot_mers : (s.modBoot f).mers = s.mers := rfl
@[simp] theorem modBoot_aonSid : (s.modBoot f).aonSid = s.aonSid := rfl
@[simp] theorem modBoot_outImage : (s.modBoot f).outImage = s.outImage := rfl
@[simp] theorem modBoot_host : (s.modBoot f).host = s.host := rfl
@[simp] theorem modBoot_saf : (s.modBoot f).saf = s.saf := rfl
@[simp] theorem modBoot_halo : (s.modBoot f).halo = s.halo := rfl
@[simp] theorem modBoot_scomm : (s.modBoot f).scomm = s.scomm := rfl
@[simp] theorem modBoot_dbg : (s.modBoot f).dbg = s.dbg := rfl
@[simp] theorem modBoot_jrn : (s.modBoot f).jrn = s.jrn := rfl
@[simp] theorem modBoot_lines : (s.modBoot f).lines = s.lines := rfl
@[simp] theorem modBoot_clk : (s.modBoot f).clk = s.clk := rfl
@[simp] theorem modBoot_boot : (s.modBoot f).boot = f s.boot := rfl
@[simp] theorem modBoot_aon : (s.modBoot f).aon = s.aon := rfl
@[simp] theorem modBoot_slots : (s.modBoot f).slots = s.slots := rfl
@[simp] theorem modBoot_cap : (s.modBoot f).cap = s.cap := rfl
@[simp] theorem modBoot_eph : (s.modBoot f).eph = s.eph := rfl

end

/-! ### State.modClk -/

section
variable (s : State) (f : Clk → Clk)

@[simp] theorem modClk_pending : (s.modClk f).pending = s.pending := rfl
@[simp] theorem modClk_outbox : (s.modClk f).outbox = s.outbox := rfl
@[simp] theorem modClk_free : (s.modClk f).free = s.free := rfl
@[simp] theorem modClk_variant : (s.modClk f).variant = s.variant := rfl
@[simp] theorem modClk_prof : (s.modClk f).prof = s.prof := rfl
@[simp] theorem modClk_now : (s.modClk f).now = s.now := rfl
@[simp] theorem modClk_paths : (s.modClk f).paths = s.paths := rfl
@[simp] theorem modClk_regs : (s.modClk f).regs = s.regs := rfl
@[simp] theorem modClk_shadow : (s.modClk f).shadow = s.shadow := rfl
@[simp] theorem modClk_due : (s.modClk f).due = s.due := rfl
@[simp] theorem modClk_commits : (s.modClk f).commits = s.commits := rfl
@[simp] theorem modClk_gate : (s.modClk f).gate = s.gate := rfl
@[simp] theorem modClk_reqs : (s.modClk f).reqs = s.reqs := rfl
@[simp] theorem modClk_cellEvs : (s.modClk f).cellEvs = s.cellEvs := rfl
@[simp] theorem modClk_reports : (s.modClk f).reports = s.reports := rfl
@[simp] theorem modClk_epoch : (s.modClk f).epoch = s.epoch := rfl
@[simp] theorem modClk_running : (s.modClk f).running = s.running := rfl
@[simp] theorem modClk_published : (s.modClk f).published = s.published := rfl
@[simp] theorem modClk_view : (s.modClk f).view = s.view := rfl
@[simp] theorem modClk_push : (s.modClk f).push = s.push := rfl
@[simp] theorem modClk_staleTicks : (s.modClk f).staleTicks = s.staleTicks := rfl
@[simp] theorem modClk_pushLate : (s.modClk f).pushLate = s.pushLate := rfl
@[simp] theorem modClk_cutFail : (s.modClk f).cutFail = s.cutFail := rfl
@[simp] theorem modClk_cutApplied : (s.modClk f).cutApplied = s.cutApplied := rfl
@[simp] theorem modClk_comApplied : (s.modClk f).comApplied = s.comApplied := rfl
@[simp] theorem modClk_planGen : (s.modClk f).planGen = s.planGen := rfl
@[simp] theorem modClk_coreSafety : (s.modClk f).coreSafety = s.coreSafety := rfl
@[simp] theorem modClk_stopAtStep1 : (s.modClk f).stopAtStep1 = s.stopAtStep1 := rfl
@[simp] theorem modClk_haloLimits : (s.modClk f).haloLimits = s.haloLimits := rfl
@[simp] theorem modClk_minsep : (s.modClk f).minsep = s.minsep := rfl
@[simp] theorem modClk_cores : (s.modClk f).cores = s.cores := rfl
@[simp] theorem modClk_data : (s.modClk f).data = s.data := rfl
@[simp] theorem modClk_code : (s.modClk f).code = s.code := rfl
@[simp] theorem modClk_scode : (s.modClk f).scode = s.scode := rfl
@[simp] theorem modClk_sdata : (s.modClk f).sdata = s.sdata := rfl
@[simp] theorem modClk_codeLocked : (s.modClk f).codeLocked = s.codeLocked := rfl
@[simp] theorem modClk_hashOk : (s.modClk f).hashOk = s.hashOk := rfl
@[simp] theorem modClk_arms : (s.modClk f).arms = s.arms := rfl
@[simp] theorem modClk_aux : (s.modClk f).aux = s.aux := rfl
@[simp] theorem modClk_chans : (s.modClk f).chans = s.chans := rfl
@[simp] theorem modClk_solver : (s.modClk f).solver = s.solver := rfl
@[simp] theorem modClk_cascs : (s.modClk f).cascs = s.cascs := rfl
@[simp] theorem modClk_mans : (s.modClk f).mans = s.mans := rfl
@[simp] theorem modClk_dyns : (s.modClk f).dyns = s.dyns := rfl
@[simp] theorem modClk_lanes : (s.modClk f).lanes = s.lanes := rfl
@[simp] theorem modClk_lanesEccUn : (s.modClk f).lanesEccUn = s.lanesEccUn := rfl
@[simp] theorem modClk_lanesEccC : (s.modClk f).lanesEccC = s.lanesEccC := rfl
@[simp] theorem modClk_fbk : (s.modClk f).fbk = s.fbk := rfl
@[simp] theorem modClk_ssi : (s.modClk f).ssi = s.ssi := rfl
@[simp] theorem modClk_uid : (s.modClk f).uid = s.uid := rfl
@[simp] theorem modClk_mer : (s.modClk f).mer = s.mer := rfl
@[simp] theorem modClk_mers : (s.modClk f).mers = s.mers := rfl
@[simp] theorem modClk_aonSid : (s.modClk f).aonSid = s.aonSid := rfl
@[simp] theorem modClk_outImage : (s.modClk f).outImage = s.outImage := rfl
@[simp] theorem modClk_host : (s.modClk f).host = s.host := rfl
@[simp] theorem modClk_saf : (s.modClk f).saf = s.saf := rfl
@[simp] theorem modClk_halo : (s.modClk f).halo = s.halo := rfl
@[simp] theorem modClk_scomm : (s.modClk f).scomm = s.scomm := rfl
@[simp] theorem modClk_dbg : (s.modClk f).dbg = s.dbg := rfl
@[simp] theorem modClk_jrn : (s.modClk f).jrn = s.jrn := rfl
@[simp] theorem modClk_lines : (s.modClk f).lines = s.lines := rfl
@[simp] theorem modClk_clk : (s.modClk f).clk = f s.clk := rfl
@[simp] theorem modClk_boot : (s.modClk f).boot = s.boot := rfl
@[simp] theorem modClk_aon : (s.modClk f).aon = s.aon := rfl
@[simp] theorem modClk_slots : (s.modClk f).slots = s.slots := rfl
@[simp] theorem modClk_cap : (s.modClk f).cap = s.cap := rfl
@[simp] theorem modClk_eph : (s.modClk f).eph = s.eph := rfl

end

/-! ### State.modDbg -/

section
variable (s : State) (f : Dbg → Dbg)

@[simp] theorem modDbg_pending : (s.modDbg f).pending = s.pending := rfl
@[simp] theorem modDbg_outbox : (s.modDbg f).outbox = s.outbox := rfl
@[simp] theorem modDbg_free : (s.modDbg f).free = s.free := rfl
@[simp] theorem modDbg_variant : (s.modDbg f).variant = s.variant := rfl
@[simp] theorem modDbg_prof : (s.modDbg f).prof = s.prof := rfl
@[simp] theorem modDbg_now : (s.modDbg f).now = s.now := rfl
@[simp] theorem modDbg_paths : (s.modDbg f).paths = s.paths := rfl
@[simp] theorem modDbg_regs : (s.modDbg f).regs = s.regs := rfl
@[simp] theorem modDbg_shadow : (s.modDbg f).shadow = s.shadow := rfl
@[simp] theorem modDbg_due : (s.modDbg f).due = s.due := rfl
@[simp] theorem modDbg_commits : (s.modDbg f).commits = s.commits := rfl
@[simp] theorem modDbg_gate : (s.modDbg f).gate = s.gate := rfl
@[simp] theorem modDbg_reqs : (s.modDbg f).reqs = s.reqs := rfl
@[simp] theorem modDbg_cellEvs : (s.modDbg f).cellEvs = s.cellEvs := rfl
@[simp] theorem modDbg_reports : (s.modDbg f).reports = s.reports := rfl
@[simp] theorem modDbg_epoch : (s.modDbg f).epoch = s.epoch := rfl
@[simp] theorem modDbg_running : (s.modDbg f).running = s.running := rfl
@[simp] theorem modDbg_published : (s.modDbg f).published = s.published := rfl
@[simp] theorem modDbg_view : (s.modDbg f).view = s.view := rfl
@[simp] theorem modDbg_push : (s.modDbg f).push = s.push := rfl
@[simp] theorem modDbg_staleTicks : (s.modDbg f).staleTicks = s.staleTicks := rfl
@[simp] theorem modDbg_pushLate : (s.modDbg f).pushLate = s.pushLate := rfl
@[simp] theorem modDbg_cutFail : (s.modDbg f).cutFail = s.cutFail := rfl
@[simp] theorem modDbg_cutApplied : (s.modDbg f).cutApplied = s.cutApplied := rfl
@[simp] theorem modDbg_comApplied : (s.modDbg f).comApplied = s.comApplied := rfl
@[simp] theorem modDbg_planGen : (s.modDbg f).planGen = s.planGen := rfl
@[simp] theorem modDbg_coreSafety : (s.modDbg f).coreSafety = s.coreSafety := rfl
@[simp] theorem modDbg_stopAtStep1 : (s.modDbg f).stopAtStep1 = s.stopAtStep1 := rfl
@[simp] theorem modDbg_haloLimits : (s.modDbg f).haloLimits = s.haloLimits := rfl
@[simp] theorem modDbg_minsep : (s.modDbg f).minsep = s.minsep := rfl
@[simp] theorem modDbg_cores : (s.modDbg f).cores = s.cores := rfl
@[simp] theorem modDbg_data : (s.modDbg f).data = s.data := rfl
@[simp] theorem modDbg_code : (s.modDbg f).code = s.code := rfl
@[simp] theorem modDbg_scode : (s.modDbg f).scode = s.scode := rfl
@[simp] theorem modDbg_sdata : (s.modDbg f).sdata = s.sdata := rfl
@[simp] theorem modDbg_codeLocked : (s.modDbg f).codeLocked = s.codeLocked := rfl
@[simp] theorem modDbg_hashOk : (s.modDbg f).hashOk = s.hashOk := rfl
@[simp] theorem modDbg_arms : (s.modDbg f).arms = s.arms := rfl
@[simp] theorem modDbg_aux : (s.modDbg f).aux = s.aux := rfl
@[simp] theorem modDbg_chans : (s.modDbg f).chans = s.chans := rfl
@[simp] theorem modDbg_solver : (s.modDbg f).solver = s.solver := rfl
@[simp] theorem modDbg_cascs : (s.modDbg f).cascs = s.cascs := rfl
@[simp] theorem modDbg_mans : (s.modDbg f).mans = s.mans := rfl
@[simp] theorem modDbg_dyns : (s.modDbg f).dyns = s.dyns := rfl
@[simp] theorem modDbg_lanes : (s.modDbg f).lanes = s.lanes := rfl
@[simp] theorem modDbg_lanesEccUn : (s.modDbg f).lanesEccUn = s.lanesEccUn := rfl
@[simp] theorem modDbg_lanesEccC : (s.modDbg f).lanesEccC = s.lanesEccC := rfl
@[simp] theorem modDbg_fbk : (s.modDbg f).fbk = s.fbk := rfl
@[simp] theorem modDbg_ssi : (s.modDbg f).ssi = s.ssi := rfl
@[simp] theorem modDbg_uid : (s.modDbg f).uid = s.uid := rfl
@[simp] theorem modDbg_mer : (s.modDbg f).mer = s.mer := rfl
@[simp] theorem modDbg_mers : (s.modDbg f).mers = s.mers := rfl
@[simp] theorem modDbg_aonSid : (s.modDbg f).aonSid = s.aonSid := rfl
@[simp] theorem modDbg_outImage : (s.modDbg f).outImage = s.outImage := rfl
@[simp] theorem modDbg_host : (s.modDbg f).host = s.host := rfl
@[simp] theorem modDbg_saf : (s.modDbg f).saf = s.saf := rfl
@[simp] theorem modDbg_halo : (s.modDbg f).halo = s.halo := rfl
@[simp] theorem modDbg_scomm : (s.modDbg f).scomm = s.scomm := rfl
@[simp] theorem modDbg_dbg : (s.modDbg f).dbg = f s.dbg := rfl
@[simp] theorem modDbg_jrn : (s.modDbg f).jrn = s.jrn := rfl
@[simp] theorem modDbg_lines : (s.modDbg f).lines = s.lines := rfl
@[simp] theorem modDbg_clk : (s.modDbg f).clk = s.clk := rfl
@[simp] theorem modDbg_boot : (s.modDbg f).boot = s.boot := rfl
@[simp] theorem modDbg_aon : (s.modDbg f).aon = s.aon := rfl
@[simp] theorem modDbg_slots : (s.modDbg f).slots = s.slots := rfl
@[simp] theorem modDbg_cap : (s.modDbg f).cap = s.cap := rfl
@[simp] theorem modDbg_eph : (s.modDbg f).eph = s.eph := rfl

end

/-! ### State.modPath -/

section
variable (s : State) (p : Path) (f : PathLatch → PathLatch)

@[simp] theorem modPath_pending : (s.modPath p f).pending = s.pending := rfl
@[simp] theorem modPath_outbox : (s.modPath p f).outbox = s.outbox := rfl
@[simp] theorem modPath_free : (s.modPath p f).free = s.free := rfl
@[simp] theorem modPath_variant : (s.modPath p f).variant = s.variant := rfl
@[simp] theorem modPath_prof : (s.modPath p f).prof = s.prof := rfl
@[simp] theorem modPath_now : (s.modPath p f).now = s.now := rfl
@[simp] theorem modPath_paths : (s.modPath p f).paths = vmod s.paths (pathIdx p) f := rfl
@[simp] theorem modPath_regs : (s.modPath p f).regs = s.regs := rfl
@[simp] theorem modPath_shadow : (s.modPath p f).shadow = s.shadow := rfl
@[simp] theorem modPath_due : (s.modPath p f).due = s.due := rfl
@[simp] theorem modPath_commits : (s.modPath p f).commits = s.commits := rfl
@[simp] theorem modPath_gate : (s.modPath p f).gate = s.gate := rfl
@[simp] theorem modPath_reqs : (s.modPath p f).reqs = s.reqs := rfl
@[simp] theorem modPath_cellEvs : (s.modPath p f).cellEvs = s.cellEvs := rfl
@[simp] theorem modPath_reports : (s.modPath p f).reports = s.reports := rfl
@[simp] theorem modPath_epoch : (s.modPath p f).epoch = s.epoch := rfl
@[simp] theorem modPath_running : (s.modPath p f).running = s.running := rfl
@[simp] theorem modPath_published : (s.modPath p f).published = s.published := rfl
@[simp] theorem modPath_view : (s.modPath p f).view = s.view := rfl
@[simp] theorem modPath_push : (s.modPath p f).push = s.push := rfl
@[simp] theorem modPath_staleTicks : (s.modPath p f).staleTicks = s.staleTicks := rfl
@[simp] theorem modPath_pushLate : (s.modPath p f).pushLate = s.pushLate := rfl
@[simp] theorem modPath_cutFail : (s.modPath p f).cutFail = s.cutFail := rfl
@[simp] theorem modPath_cutApplied : (s.modPath p f).cutApplied = s.cutApplied := rfl
@[simp] theorem modPath_comApplied : (s.modPath p f).comApplied = s.comApplied := rfl
@[simp] theorem modPath_planGen : (s.modPath p f).planGen = s.planGen := rfl
@[simp] theorem modPath_coreSafety : (s.modPath p f).coreSafety = s.coreSafety := rfl
@[simp] theorem modPath_stopAtStep1 : (s.modPath p f).stopAtStep1 = s.stopAtStep1 := rfl
@[simp] theorem modPath_haloLimits : (s.modPath p f).haloLimits = s.haloLimits := rfl
@[simp] theorem modPath_minsep : (s.modPath p f).minsep = s.minsep := rfl
@[simp] theorem modPath_cores : (s.modPath p f).cores = s.cores := rfl
@[simp] theorem modPath_data : (s.modPath p f).data = s.data := rfl
@[simp] theorem modPath_code : (s.modPath p f).code = s.code := rfl
@[simp] theorem modPath_scode : (s.modPath p f).scode = s.scode := rfl
@[simp] theorem modPath_sdata : (s.modPath p f).sdata = s.sdata := rfl
@[simp] theorem modPath_codeLocked : (s.modPath p f).codeLocked = s.codeLocked := rfl
@[simp] theorem modPath_hashOk : (s.modPath p f).hashOk = s.hashOk := rfl
@[simp] theorem modPath_arms : (s.modPath p f).arms = s.arms := rfl
@[simp] theorem modPath_aux : (s.modPath p f).aux = s.aux := rfl
@[simp] theorem modPath_chans : (s.modPath p f).chans = s.chans := rfl
@[simp] theorem modPath_solver : (s.modPath p f).solver = s.solver := rfl
@[simp] theorem modPath_cascs : (s.modPath p f).cascs = s.cascs := rfl
@[simp] theorem modPath_mans : (s.modPath p f).mans = s.mans := rfl
@[simp] theorem modPath_dyns : (s.modPath p f).dyns = s.dyns := rfl
@[simp] theorem modPath_lanes : (s.modPath p f).lanes = s.lanes := rfl
@[simp] theorem modPath_lanesEccUn : (s.modPath p f).lanesEccUn = s.lanesEccUn := rfl
@[simp] theorem modPath_lanesEccC : (s.modPath p f).lanesEccC = s.lanesEccC := rfl
@[simp] theorem modPath_fbk : (s.modPath p f).fbk = s.fbk := rfl
@[simp] theorem modPath_ssi : (s.modPath p f).ssi = s.ssi := rfl
@[simp] theorem modPath_uid : (s.modPath p f).uid = s.uid := rfl
@[simp] theorem modPath_mer : (s.modPath p f).mer = s.mer := rfl
@[simp] theorem modPath_mers : (s.modPath p f).mers = s.mers := rfl
@[simp] theorem modPath_aonSid : (s.modPath p f).aonSid = s.aonSid := rfl
@[simp] theorem modPath_outImage : (s.modPath p f).outImage = s.outImage := rfl
@[simp] theorem modPath_host : (s.modPath p f).host = s.host := rfl
@[simp] theorem modPath_saf : (s.modPath p f).saf = s.saf := rfl
@[simp] theorem modPath_halo : (s.modPath p f).halo = s.halo := rfl
@[simp] theorem modPath_scomm : (s.modPath p f).scomm = s.scomm := rfl
@[simp] theorem modPath_dbg : (s.modPath p f).dbg = s.dbg := rfl
@[simp] theorem modPath_jrn : (s.modPath p f).jrn = s.jrn := rfl
@[simp] theorem modPath_lines : (s.modPath p f).lines = s.lines := rfl
@[simp] theorem modPath_clk : (s.modPath p f).clk = s.clk := rfl
@[simp] theorem modPath_boot : (s.modPath p f).boot = s.boot := rfl
@[simp] theorem modPath_aon : (s.modPath p f).aon = s.aon := rfl
@[simp] theorem modPath_slots : (s.modPath p f).slots = s.slots := rfl
@[simp] theorem modPath_cap : (s.modPath p f).cap = s.cap := rfl
@[simp] theorem modPath_eph : (s.modPath p f).eph = s.eph := rfl

end

/-! ### State.eccNote and State.raiseAt -/

section
variable (s : State) (k : Fin 8) (e : Ecc)

@[simp] theorem eccNote_pending : (s.eccNote k e).pending = s.pending := by cases e <;> rfl
@[simp] theorem eccNote_outbox : (s.eccNote k e).outbox = s.outbox := by cases e <;> rfl
@[simp] theorem eccNote_free : (s.eccNote k e).free = s.free := by cases e <;> rfl
@[simp] theorem eccNote_variant : (s.eccNote k e).variant = s.variant := by cases e <;> rfl
@[simp] theorem eccNote_prof : (s.eccNote k e).prof = s.prof := by cases e <;> rfl
@[simp] theorem eccNote_now : (s.eccNote k e).now = s.now := by cases e <;> rfl
@[simp] theorem eccNote_paths : (s.eccNote k e).paths = s.paths := by cases e <;> rfl
@[simp] theorem eccNote_regs : (s.eccNote k e).regs = s.regs := by cases e <;> rfl
@[simp] theorem eccNote_shadow : (s.eccNote k e).shadow = s.shadow := by cases e <;> rfl
@[simp] theorem eccNote_due : (s.eccNote k e).due = s.due := by cases e <;> rfl
@[simp] theorem eccNote_commits : (s.eccNote k e).commits = s.commits := by cases e <;> rfl
@[simp] theorem eccNote_gate : (s.eccNote k e).gate = s.gate := by cases e <;> rfl
@[simp] theorem eccNote_reqs : (s.eccNote k e).reqs = s.reqs := by cases e <;> rfl
@[simp] theorem eccNote_cellEvs : (s.eccNote k e).cellEvs = s.cellEvs := by cases e <;> rfl
@[simp] theorem eccNote_reports : (s.eccNote k e).reports = s.reports := by cases e <;> rfl
@[simp] theorem eccNote_epoch : (s.eccNote k e).epoch = s.epoch := by cases e <;> rfl
@[simp] theorem eccNote_running : (s.eccNote k e).running = s.running := by cases e <;> rfl
@[simp] theorem eccNote_published : (s.eccNote k e).published = s.published := by cases e <;> rfl
@[simp] theorem eccNote_view : (s.eccNote k e).view = s.view := by cases e <;> rfl
@[simp] theorem eccNote_push : (s.eccNote k e).push = s.push := by cases e <;> rfl
@[simp] theorem eccNote_staleTicks : (s.eccNote k e).staleTicks = s.staleTicks := by cases e <;> rfl
@[simp] theorem eccNote_pushLate : (s.eccNote k e).pushLate = s.pushLate := by cases e <;> rfl
@[simp] theorem eccNote_cutFail : (s.eccNote k e).cutFail = s.cutFail := by cases e <;> rfl
@[simp] theorem eccNote_cutApplied : (s.eccNote k e).cutApplied = s.cutApplied := by cases e <;> rfl
@[simp] theorem eccNote_comApplied : (s.eccNote k e).comApplied = s.comApplied := by cases e <;> rfl
@[simp] theorem eccNote_planGen : (s.eccNote k e).planGen = s.planGen := by cases e <;> rfl
@[simp] theorem eccNote_coreSafety : (s.eccNote k e).coreSafety = s.coreSafety := by cases e <;> rfl
@[simp] theorem eccNote_stopAtStep1 : (s.eccNote k e).stopAtStep1 = s.stopAtStep1 := by cases e <;> rfl
@[simp] theorem eccNote_haloLimits : (s.eccNote k e).haloLimits = s.haloLimits := by cases e <;> rfl
@[simp] theorem eccNote_minsep : (s.eccNote k e).minsep = s.minsep := by cases e <;> rfl
@[simp] theorem eccNote_cores : (s.eccNote k e).cores = s.cores := by cases e <;> rfl
@[simp] theorem eccNote_data : (s.eccNote k e).data = s.data := by cases e <;> rfl
@[simp] theorem eccNote_code : (s.eccNote k e).code = s.code := by cases e <;> rfl
@[simp] theorem eccNote_scode : (s.eccNote k e).scode = s.scode := by cases e <;> rfl
@[simp] theorem eccNote_sdata : (s.eccNote k e).sdata = s.sdata := by cases e <;> rfl
@[simp] theorem eccNote_codeLocked : (s.eccNote k e).codeLocked = s.codeLocked := by cases e <;> rfl
@[simp] theorem eccNote_hashOk : (s.eccNote k e).hashOk = s.hashOk := by cases e <;> rfl
@[simp] theorem eccNote_arms : (s.eccNote k e).arms = s.arms := by cases e <;> rfl
@[simp] theorem eccNote_aux : (s.eccNote k e).aux = s.aux := by cases e <;> rfl
@[simp] theorem eccNote_chans : (s.eccNote k e).chans = s.chans := by cases e <;> rfl
@[simp] theorem eccNote_solver : (s.eccNote k e).solver = s.solver := by cases e <;> rfl
@[simp] theorem eccNote_cascs : (s.eccNote k e).cascs = s.cascs := by cases e <;> rfl
@[simp] theorem eccNote_mans : (s.eccNote k e).mans = s.mans := by cases e <;> rfl
@[simp] theorem eccNote_dyns : (s.eccNote k e).dyns = s.dyns := by cases e <;> rfl
@[simp] theorem eccNote_lanes : (s.eccNote k e).lanes = s.lanes := by cases e <;> rfl
@[simp] theorem eccNote_lanesEccUn : (s.eccNote k e).lanesEccUn = s.lanesEccUn := by cases e <;> rfl
@[simp] theorem eccNote_lanesEccC : (s.eccNote k e).lanesEccC = s.lanesEccC := by cases e <;> rfl
@[simp] theorem eccNote_fbk : (s.eccNote k e).fbk = s.fbk := by cases e <;> rfl
@[simp] theorem eccNote_ssi : (s.eccNote k e).ssi = s.ssi := by cases e <;> rfl
@[simp] theorem eccNote_uid : (s.eccNote k e).uid = s.uid := by cases e <;> rfl
@[simp] theorem eccNote_mer : (s.eccNote k e).mer = s.mer := by cases e <;> rfl
@[simp] theorem eccNote_mers : (s.eccNote k e).mers = s.mers := by cases e <;> rfl
@[simp] theorem eccNote_aonSid : (s.eccNote k e).aonSid = s.aonSid := by cases e <;> rfl
@[simp] theorem eccNote_outImage : (s.eccNote k e).outImage = s.outImage := by cases e <;> rfl
@[simp] theorem eccNote_host : (s.eccNote k e).host = s.host := by cases e <;> rfl
@[simp] theorem eccNote_halo : (s.eccNote k e).halo = s.halo := by cases e <;> rfl
@[simp] theorem eccNote_scomm : (s.eccNote k e).scomm = s.scomm := by cases e <;> rfl
@[simp] theorem eccNote_dbg : (s.eccNote k e).dbg = s.dbg := by cases e <;> rfl
@[simp] theorem eccNote_jrn : (s.eccNote k e).jrn = s.jrn := by cases e <;> rfl
@[simp] theorem eccNote_lines : (s.eccNote k e).lines = s.lines := by cases e <;> rfl
@[simp] theorem eccNote_clk : (s.eccNote k e).clk = s.clk := by cases e <;> rfl
@[simp] theorem eccNote_boot : (s.eccNote k e).boot = s.boot := by cases e <;> rfl
@[simp] theorem eccNote_aon : (s.eccNote k e).aon = s.aon := by cases e <;> rfl
@[simp] theorem eccNote_slots : (s.eccNote k e).slots = s.slots := by cases e <;> rfl
@[simp] theorem eccNote_cap : (s.eccNote k e).cap = s.cap := by cases e <;> rfl
@[simp] theorem eccNote_eph : (s.eccNote k e).eph = s.eph := by cases e <;> rfl

end

section
variable (s : State) (t : DWord) (code cls : Nat) (hold : Bool) (d : Option Word)

@[simp] theorem raiseAt_pending : (s.raiseAt t code cls hold d).pending = s.pending := by cases d <;> rfl
@[simp] theorem raiseAt_outbox : (s.raiseAt t code cls hold d).outbox = s.outbox := by cases d <;> rfl
@[simp] theorem raiseAt_variant : (s.raiseAt t code cls hold d).variant = s.variant := by cases d <;> rfl
@[simp] theorem raiseAt_prof : (s.raiseAt t code cls hold d).prof = s.prof := by cases d <;> rfl
@[simp] theorem raiseAt_now : (s.raiseAt t code cls hold d).now = s.now := by cases d <;> rfl
@[simp] theorem raiseAt_paths : (s.raiseAt t code cls hold d).paths = s.paths := by cases d <;> rfl
@[simp] theorem raiseAt_regs : (s.raiseAt t code cls hold d).regs = s.regs := by cases d <;> rfl
@[simp] theorem raiseAt_shadow : (s.raiseAt t code cls hold d).shadow = s.shadow := by cases d <;> rfl
@[simp] theorem raiseAt_due : (s.raiseAt t code cls hold d).due = s.due := by cases d <;> rfl
@[simp] theorem raiseAt_commits : (s.raiseAt t code cls hold d).commits = s.commits := by cases d <;> rfl
@[simp] theorem raiseAt_gate : (s.raiseAt t code cls hold d).gate = s.gate := by cases d <;> rfl
@[simp] theorem raiseAt_reqs : (s.raiseAt t code cls hold d).reqs = s.reqs := by cases d <;> rfl
@[simp] theorem raiseAt_cellEvs : (s.raiseAt t code cls hold d).cellEvs = s.cellEvs := by cases d <;> rfl
@[simp] theorem raiseAt_epoch : (s.raiseAt t code cls hold d).epoch = s.epoch := by cases d <;> rfl
@[simp] theorem raiseAt_running : (s.raiseAt t code cls hold d).running = s.running := by cases d <;> rfl
@[simp] theorem raiseAt_published : (s.raiseAt t code cls hold d).published = s.published := by cases d <;> rfl
@[simp] theorem raiseAt_view : (s.raiseAt t code cls hold d).view = s.view := by cases d <;> rfl
@[simp] theorem raiseAt_push : (s.raiseAt t code cls hold d).push = s.push := by cases d <;> rfl
@[simp] theorem raiseAt_staleTicks : (s.raiseAt t code cls hold d).staleTicks = s.staleTicks := by cases d <;> rfl
@[simp] theorem raiseAt_pushLate : (s.raiseAt t code cls hold d).pushLate = s.pushLate := by cases d <;> rfl
@[simp] theorem raiseAt_cutFail : (s.raiseAt t code cls hold d).cutFail = s.cutFail := by cases d <;> rfl
@[simp] theorem raiseAt_cutApplied : (s.raiseAt t code cls hold d).cutApplied = s.cutApplied := by cases d <;> rfl
@[simp] theorem raiseAt_comApplied : (s.raiseAt t code cls hold d).comApplied = s.comApplied := by cases d <;> rfl
@[simp] theorem raiseAt_planGen : (s.raiseAt t code cls hold d).planGen = s.planGen := by cases d <;> rfl
@[simp] theorem raiseAt_coreSafety : (s.raiseAt t code cls hold d).coreSafety = s.coreSafety := by cases d <;> rfl
@[simp] theorem raiseAt_stopAtStep1 : (s.raiseAt t code cls hold d).stopAtStep1 = s.stopAtStep1 := by cases d <;> rfl
@[simp] theorem raiseAt_haloLimits : (s.raiseAt t code cls hold d).haloLimits = s.haloLimits := by cases d <;> rfl
@[simp] theorem raiseAt_minsep : (s.raiseAt t code cls hold d).minsep = s.minsep := by cases d <;> rfl
@[simp] theorem raiseAt_cores : (s.raiseAt t code cls hold d).cores = s.cores := by cases d <;> rfl
@[simp] theorem raiseAt_data : (s.raiseAt t code cls hold d).data = s.data := by cases d <;> rfl
@[simp] theorem raiseAt_code : (s.raiseAt t code cls hold d).code = s.code := by cases d <;> rfl
@[simp] theorem raiseAt_scode : (s.raiseAt t code cls hold d).scode = s.scode := by cases d <;> rfl
@[simp] theorem raiseAt_sdata : (s.raiseAt t code cls hold d).sdata = s.sdata := by cases d <;> rfl
@[simp] theorem raiseAt_codeLocked : (s.raiseAt t code cls hold d).codeLocked = s.codeLocked := by cases d <;> rfl
@[simp] theorem raiseAt_hashOk : (s.raiseAt t code cls hold d).hashOk = s.hashOk := by cases d <;> rfl
@[simp] theorem raiseAt_arms : (s.raiseAt t code cls hold d).arms = s.arms := by cases d <;> rfl
@[simp] theorem raiseAt_aux : (s.raiseAt t code cls hold d).aux = s.aux := by cases d <;> rfl
@[simp] theorem raiseAt_chans : (s.raiseAt t code cls hold d).chans = s.chans := by cases d <;> rfl
@[simp] theorem raiseAt_solver : (s.raiseAt t code cls hold d).solver = s.solver := by cases d <;> rfl
@[simp] theorem raiseAt_cascs : (s.raiseAt t code cls hold d).cascs = s.cascs := by cases d <;> rfl
@[simp] theorem raiseAt_mans : (s.raiseAt t code cls hold d).mans = s.mans := by cases d <;> rfl
@[simp] theorem raiseAt_dyns : (s.raiseAt t code cls hold d).dyns = s.dyns := by cases d <;> rfl
@[simp] theorem raiseAt_lanes : (s.raiseAt t code cls hold d).lanes = s.lanes := by cases d <;> rfl
@[simp] theorem raiseAt_lanesEccUn : (s.raiseAt t code cls hold d).lanesEccUn = s.lanesEccUn := by cases d <;> rfl
@[simp] theorem raiseAt_lanesEccC : (s.raiseAt t code cls hold d).lanesEccC = s.lanesEccC := by cases d <;> rfl
@[simp] theorem raiseAt_fbk : (s.raiseAt t code cls hold d).fbk = s.fbk := by cases d <;> rfl
@[simp] theorem raiseAt_ssi : (s.raiseAt t code cls hold d).ssi = s.ssi := by cases d <;> rfl
@[simp] theorem raiseAt_uid : (s.raiseAt t code cls hold d).uid = s.uid := by cases d <;> rfl
@[simp] theorem raiseAt_mer : (s.raiseAt t code cls hold d).mer = s.mer := by cases d <;> rfl
@[simp] theorem raiseAt_mers : (s.raiseAt t code cls hold d).mers = s.mers := by cases d <;> rfl
@[simp] theorem raiseAt_aonSid : (s.raiseAt t code cls hold d).aonSid = s.aonSid := by cases d <;> rfl
@[simp] theorem raiseAt_outImage : (s.raiseAt t code cls hold d).outImage = s.outImage := by cases d <;> rfl
@[simp] theorem raiseAt_host : (s.raiseAt t code cls hold d).host = s.host := by cases d <;> rfl
@[simp] theorem raiseAt_saf : (s.raiseAt t code cls hold d).saf = s.saf := by cases d <;> rfl
@[simp] theorem raiseAt_halo : (s.raiseAt t code cls hold d).halo = s.halo := by cases d <;> rfl
@[simp] theorem raiseAt_scomm : (s.raiseAt t code cls hold d).scomm = s.scomm := by cases d <;> rfl
@[simp] theorem raiseAt_dbg : (s.raiseAt t code cls hold d).dbg = s.dbg := by cases d <;> rfl
@[simp] theorem raiseAt_jrn : (s.raiseAt t code cls hold d).jrn = s.jrn := by cases d <;> rfl
@[simp] theorem raiseAt_lines : (s.raiseAt t code cls hold d).lines = s.lines := by cases d <;> rfl
@[simp] theorem raiseAt_clk : (s.raiseAt t code cls hold d).clk = s.clk := by cases d <;> rfl
@[simp] theorem raiseAt_boot : (s.raiseAt t code cls hold d).boot = s.boot := by cases d <;> rfl
@[simp] theorem raiseAt_aon : (s.raiseAt t code cls hold d).aon = s.aon := by cases d <;> rfl
@[simp] theorem raiseAt_slots : (s.raiseAt t code cls hold d).slots = s.slots := by cases d <;> rfl
@[simp] theorem raiseAt_cap : (s.raiseAt t code cls hold d).cap = s.cap := by cases d <;> rfl
@[simp] theorem raiseAt_eph : (s.raiseAt t code cls hold d).eph = s.eph := by cases d <;> rfl

/-- Everything a raised fault does to the list of reports: one report, with the code, class, hold and stamp given. -/
theorem raiseAt_reports : ∃ x : Word, (s.raiseAt t code cls hold d).reports = s.reports ++ [⟨code, cls, hold, t, x⟩] := by
  cases d <;> exact ⟨_, rfl⟩

end

end Sys2Proof.Machine
end

