-- ==== Sys2Proof/Laws/State.lean ====
section
/-! SUPPORT. One lemma per field for each central update of the state, so that no proof unfolds a record update. -/

namespace Sys2Proof.Machine

/-! ### State.setCore -/

section
variable (s : State) (c : Fin 10) (k : Core)

@[simp] theorem setCore_cores : (s.setCore c k).cores = s.cores.set c k := rfl
@[simp] theorem setCore_pending : (s.setCore c k).pending = s.pending := rfl
@[simp] theorem setCore_outbox : (s.setCore c k).outbox = s.outbox := rfl
@[simp] theorem setCore_free : (s.setCore c k).free = s.free := rfl
@[simp] theorem setCore_variant : (s.setCore c k).variant = s.variant := rfl
@[simp] theorem setCore_prof : (s.setCore c k).prof = s.prof := rfl
@[simp] theorem setCore_now : (s.setCore c k).now = s.now := rfl
@[simp] theorem setCore_paths : (s.setCore c k).paths = s.paths := rfl
@[simp] theorem setCore_regs : (s.setCore c k).regs = s.regs := rfl
@[simp] theorem setCore_shadow : (s.setCore c k).shadow = s.shadow := rfl
@[simp] theorem setCore_due : (s.setCore c k).due = s.due := rfl
@[simp] theorem setCore_commits : (s.setCore c k).commits = s.commits := rfl
@[simp] theorem setCore_gate : (s.setCore c k).gate = s.gate := rfl
@[simp] theorem setCore_reqs : (s.setCore c k).reqs = s.reqs := rfl
@[simp] theorem setCore_cellEvs : (s.setCore c k).cellEvs = s.cellEvs := rfl
@[simp] theorem setCore_reports : (s.setCore c k).reports = s.reports := rfl
@[simp] theorem setCore_epoch : (s.setCore c k).epoch = s.epoch := rfl
@[simp] theorem setCore_running : (s.setCore c k).running = s.running := rfl
@[simp] theorem setCore_published : (s.setCore c k).published = s.published := rfl
@[simp] theorem setCore_view : (s.setCore c k).view = s.view := rfl
@[simp] theorem setCore_push : (s.setCore c k).push = s.push := rfl
@[simp] theorem setCore_staleTicks : (s.setCore c k).staleTicks = s.staleTicks := rfl
@[simp] theorem setCore_pushLate : (s.setCore c k).pushLate = s.pushLate := rfl
@[simp] theorem setCore_cutFail : (s.setCore c k).cutFail = s.cutFail := rfl
@[simp] theorem setCore_cutApplied : (s.setCore c k).cutApplied = s.cutApplied := rfl
@[simp] theorem setCore_comApplied : (s.setCore c k).comApplied = s.comApplied := rfl
@[simp] theorem setCore_planGen : (s.setCore c k).planGen = s.planGen := rfl
@[simp] theorem setCore_coreSafety : (s.setCore c k).coreSafety = s.coreSafety := rfl
@[simp] theorem setCore_stopAtStep1 : (s.setCore c k).stopAtStep1 = s.stopAtStep1 := rfl
@[simp] theorem setCore_haloLimits : (s.setCore c k).haloLimits = s.haloLimits := rfl
@[simp] theorem setCore_minsep : (s.setCore c k).minsep = s.minsep := rfl
@[simp] theorem setCore_data : (s.setCore c k).data = s.data := rfl
@[simp] theorem setCore_code : (s.setCore c k).code = s.code := rfl
@[simp] theorem setCore_scode : (s.setCore c k).scode = s.scode := rfl
@[simp] theorem setCore_sdata : (s.setCore c k).sdata = s.sdata := rfl
@[simp] theorem setCore_codeLocked : (s.setCore c k).codeLocked = s.codeLocked := rfl
@[simp] theorem setCore_hashOk : (s.setCore c k).hashOk = s.hashOk := rfl
@[simp] theorem setCore_arms : (s.setCore c k).arms = s.arms := rfl
@[simp] theorem setCore_aux : (s.setCore c k).aux = s.aux := rfl
@[simp] theorem setCore_chans : (s.setCore c k).chans = s.chans := rfl
@[simp] theorem setCore_solver : (s.setCore c k).solver = s.solver := rfl
@[simp] theorem setCore_cascs : (s.setCore c k).cascs = s.cascs := rfl
@[simp] theorem setCore_mans : (s.setCore c k).mans = s.mans := rfl
@[simp] theorem setCore_dyns : (s.setCore c k).dyns = s.dyns := rfl
@[simp] theorem setCore_lanes : (s.setCore c k).lanes = s.lanes := rfl
@[simp] theorem setCore_lanesEccUn : (s.setCore c k).lanesEccUn = s.lanesEccUn := rfl
@[simp] theorem setCore_lanesEccC : (s.setCore c k).lanesEccC = s.lanesEccC := rfl
@[simp] theorem setCore_fbk : (s.setCore c k).fbk = s.fbk := rfl
@[simp] theorem setCore_ssi : (s.setCore c k).ssi = s.ssi := rfl
@[simp] theorem setCore_uid : (s.setCore c k).uid = s.uid := rfl
@[simp] theorem setCore_mer : (s.setCore c k).mer = s.mer := rfl
@[simp] theorem setCore_mers : (s.setCore c k).mers = s.mers := rfl
@[simp] theorem setCore_aonSid : (s.setCore c k).aonSid = s.aonSid := rfl
@[simp] theorem setCore_outImage : (s.setCore c k).outImage = s.outImage := rfl
@[simp] theorem setCore_host : (s.setCore c k).host = s.host := rfl
@[simp] theorem setCore_saf : (s.setCore c k).saf = s.saf := rfl
@[simp] theorem setCore_halo : (s.setCore c k).halo = s.halo := rfl
@[simp] theorem setCore_scomm : (s.setCore c k).scomm = s.scomm := rfl
@[simp] theorem setCore_dbg : (s.setCore c k).dbg = s.dbg := rfl
@[simp] theorem setCore_jrn : (s.setCore c k).jrn = s.jrn := rfl
@[simp] theorem setCore_lines : (s.setCore c k).lines = s.lines := rfl
@[simp] theorem setCore_clk : (s.setCore c k).clk = s.clk := rfl
@[simp] theorem setCore_boot : (s.setCore c k).boot = s.boot := rfl
@[simp] theorem setCore_aon : (s.setCore c k).aon = s.aon := rfl
@[simp] theorem setCore_slots : (s.setCore c k).slots = s.slots := rfl
@[simp] theorem setCore_cap : (s.setCore c k).cap = s.cap := rfl
@[simp] theorem setCore_eph : (s.setCore c k).eph = s.eph := rfl

end

/-! ### State.setReg -/

section
variable (s : State) (off : Nat) (v : Word)

@[simp] theorem setReg_regs : (s.setReg off v).regs = assocSet s.regs off v := rfl
@[simp] theorem setReg_pending : (s.setReg off v).pending = s.pending := rfl
@[simp] theorem setReg_outbox : (s.setReg off v).outbox = s.outbox := rfl
@[simp] theorem setReg_free : (s.setReg off v).free = s.free := rfl
@[simp] theorem setReg_variant : (s.setReg off v).variant = s.variant := rfl
@[simp] theorem setReg_prof : (s.setReg off v).prof = s.prof := rfl
@[simp] theorem setReg_now : (s.setReg off v).now = s.now := rfl
@[simp] theorem setReg_paths : (s.setReg off v).paths = s.paths := rfl
@[simp] theorem setReg_shadow : (s.setReg off v).shadow = s.shadow := rfl
@[simp] theorem setReg_due : (s.setReg off v).due = s.due := rfl
@[simp] theorem setReg_commits : (s.setReg off v).commits = s.commits := rfl
@[simp] theorem setReg_gate : (s.setReg off v).gate = s.gate := rfl
@[simp] theorem setReg_reqs : (s.setReg off v).reqs = s.reqs := rfl
@[simp] theorem setReg_cellEvs : (s.setReg off v).cellEvs = s.cellEvs := rfl
@[simp] theorem setReg_reports : (s.setReg off v).reports = s.reports := rfl
@[simp] theorem setReg_epoch : (s.setReg off v).epoch = s.epoch := rfl
@[simp] theorem setReg_running : (s.setReg off v).running = s.running := rfl
@[simp] theorem setReg_published : (s.setReg off v).published = s.published := rfl
@[simp] theorem setReg_view : (s.setReg off v).view = s.view := rfl
@[simp] theorem setReg_push : (s.setReg off v).push = s.push := rfl
@[simp] theorem setReg_staleTicks : (s.setReg off v).staleTicks = s.staleTicks := rfl
@[simp] theorem setReg_pushLate : (s.setReg off v).pushLate = s.pushLate := rfl
@[simp] theorem setReg_cutFail : (s.setReg off v).cutFail = s.cutFail := rfl
@[simp] theorem setReg_cutApplied : (s.setReg off v).cutApplied = s.cutApplied := rfl
@[simp] theorem setReg_comApplied : (s.setReg off v).comApplied = s.comApplied := rfl
@[simp] theorem setReg_planGen : (s.setReg off v).planGen = s.planGen := rfl
@[simp] theorem setReg_coreSafety : (s.setReg off v).coreSafety = s.coreSafety := rfl
@[simp] theorem setReg_stopAtStep1 : (s.setReg off v).stopAtStep1 = s.stopAtStep1 := rfl
@[simp] theorem setReg_haloLimits : (s.setReg off v).haloLimits = s.haloLimits := rfl
@[simp] theorem setReg_minsep : (s.setReg off v).minsep = s.minsep := rfl
@[simp] theorem setReg_cores : (s.setReg off v).cores = s.cores := rfl
@[simp] theorem setReg_data : (s.setReg off v).data = s.data := rfl
@[simp] theorem setReg_code : (s.setReg off v).code = s.code := rfl
@[simp] theorem setReg_scode : (s.setReg off v).scode = s.scode := rfl
@[simp] theorem setReg_sdata : (s.setReg off v).sdata = s.sdata := rfl
@[simp] theorem setReg_codeLocked : (s.setReg off v).codeLocked = s.codeLocked := rfl
@[simp] theorem setReg_hashOk : (s.setReg off v).hashOk = s.hashOk := rfl
@[simp] theorem setReg_arms : (s.setReg off v).arms = s.arms := rfl
@[simp] theorem setReg_aux : (s.setReg off v).aux = s.aux := rfl
@[simp] theorem setReg_chans : (s.setReg off v).chans = s.chans := rfl
@[simp] theorem setReg_solver : (s.setReg off v).solver = s.solver := rfl
@[simp] theorem setReg_cascs : (s.setReg off v).cascs = s.cascs := rfl
@[simp] theorem setReg_mans : (s.setReg off v).mans = s.mans := rfl
@[simp] theorem setReg_dyns : (s.setReg off v).dyns = s.dyns := rfl
@[simp] theorem setReg_lanes : (s.setReg off v).lanes = s.lanes := rfl
@[simp] theorem setReg_lanesEccUn : (s.setReg off v).lanesEccUn = s.lanesEccUn := rfl
@[simp] theorem setReg_lanesEccC : (s.setReg off v).lanesEccC = s.lanesEccC := rfl
@[simp] theorem setReg_fbk : (s.setReg off v).fbk = s.fbk := rfl
@[simp] theorem setReg_ssi : (s.setReg off v).ssi = s.ssi := rfl
@[simp] theorem setReg_uid : (s.setReg off v).uid = s.uid := rfl
@[simp] theorem setReg_mer : (s.setReg off v).mer = s.mer := rfl
@[simp] theorem setReg_mers : (s.setReg off v).mers = s.mers := rfl
@[simp] theorem setReg_aonSid : (s.setReg off v).aonSid = s.aonSid := rfl
@[simp] theorem setReg_outImage : (s.setReg off v).outImage = s.outImage := rfl
@[simp] theorem setReg_host : (s.setReg off v).host = s.host := rfl
@[simp] theorem setReg_saf : (s.setReg off v).saf = s.saf := rfl
@[simp] theorem setReg_halo : (s.setReg off v).halo = s.halo := rfl
@[simp] theorem setReg_scomm : (s.setReg off v).scomm = s.scomm := rfl
@[simp] theorem setReg_dbg : (s.setReg off v).dbg = s.dbg := rfl
@[simp] theorem setReg_jrn : (s.setReg off v).jrn = s.jrn := rfl
@[simp] theorem setReg_lines : (s.setReg off v).lines = s.lines := rfl
@[simp] theorem setReg_clk : (s.setReg off v).clk = s.clk := rfl
@[simp] theorem setReg_boot : (s.setReg off v).boot = s.boot := rfl
@[simp] theorem setReg_aon : (s.setReg off v).aon = s.aon := rfl
@[simp] theorem setReg_slots : (s.setReg off v).slots = s.slots := rfl
@[simp] theorem setReg_cap : (s.setReg off v).cap = s.cap := rfl
@[simp] theorem setReg_eph : (s.setReg off v).eph = s.eph := rfl

end

/-! ### State.out -/

section
variable (s : State) (o : Out)

@[simp] theorem out_outbox : (s.out o).outbox = s.outbox ++ [o] := rfl
@[simp] theorem out_pending : (s.out o).pending = s.pending := rfl
@[simp] theorem out_free : (s.out o).free = s.free := rfl
@[simp] theorem out_variant : (s.out o).variant = s.variant := rfl
@[simp] theorem out_prof : (s.out o).prof = s.prof := rfl
@[simp] theorem out_now : (s.out o).now = s.now := rfl
@[simp] theorem out_paths : (s.out o).paths = s.paths := rfl
@[simp] theorem out_regs : (s.out o).regs = s.regs := rfl
@[simp] theorem out_shadow : (s.out o).shadow = s.shadow := rfl
@[simp] theorem out_due : (s.out o).due = s.due := rfl
@[simp] theorem out_commits : (s.out o).commits = s.commits := rfl
@[simp] theorem out_gate : (s.out o).gate = s.gate := rfl
@[simp] theorem out_reqs : (s.out o).reqs = s.reqs := rfl
@[simp] theorem out_cellEvs : (s.out o).cellEvs = s.cellEvs := rfl
@[simp] theorem out_reports : (s.out o).reports = s.reports := rfl
@[simp] theorem out_epoch : (s.out o).epoch = s.epoch := rfl
@[simp] theorem out_running : (s.out o).running = s.running := rfl
@[simp] theorem out_published : (s.out o).published = s.published := rfl
@[simp] theorem out_view : (s.out o).view = s.view := rfl
@[simp] theorem out_push : (s.out o).push = s.push := rfl
@[simp] theorem out_staleTicks : (s.out o).staleTicks = s.staleTicks := rfl
@[simp] theorem out_pushLate : (s.out o).pushLate = s.pushLate := rfl
@[simp] theorem out_cutFail : (s.out o).cutFail = s.cutFail := rfl
@[simp] theorem out_cutApplied : (s.out o).cutApplied = s.cutApplied := rfl
@[simp] theorem out_comApplied : (s.out o).comApplied = s.comApplied := rfl
@[simp] theorem out_planGen : (s.out o).planGen = s.planGen := rfl
@[simp] theorem out_coreSafety : (s.out o).coreSafety = s.coreSafety := rfl
@[simp] theorem out_stopAtStep1 : (s.out o).stopAtStep1 = s.stopAtStep1 := rfl
@[simp] theorem out_haloLimits : (s.out o).haloLimits = s.haloLimits := rfl
@[simp] theorem out_minsep : (s.out o).minsep = s.minsep := rfl
@[simp] theorem out_cores : (s.out o).cores = s.cores := rfl
@[simp] theorem out_data : (s.out o).data = s.data := rfl
@[simp] theorem out_code : (s.out o).code = s.code := rfl
@[simp] theorem out_scode : (s.out o).scode = s.scode := rfl
@[simp] theorem out_sdata : (s.out o).sdata = s.sdata := rfl
@[simp] theorem out_codeLocked : (s.out o).codeLocked = s.codeLocked := rfl
@[simp] theorem out_hashOk : (s.out o).hashOk = s.hashOk := rfl
@[simp] theorem out_arms : (s.out o).arms = s.arms := rfl
@[simp] theorem out_aux : (s.out o).aux = s.aux := rfl
@[simp] theorem out_chans : (s.out o).chans = s.chans := rfl
@[simp] theorem out_solver : (s.out o).solver = s.solver := rfl
@[simp] theorem out_cascs : (s.out o).cascs = s.cascs := rfl
@[simp] theorem out_mans : (s.out o).mans = s.mans := rfl
@[simp] theorem out_dyns : (s.out o).dyns = s.dyns := rfl
@[simp] theorem out_lanes : (s.out o).lanes = s.lanes := rfl
@[simp] theorem out_lanesEccUn : (s.out o).lanesEccUn = s.lanesEccUn := rfl
@[simp] theorem out_lanesEccC : (s.out o).lanesEccC = s.lanesEccC := rfl
@[simp] theorem out_fbk : (s.out o).fbk = s.fbk := rfl
@[simp] theorem out_ssi : (s.out o).ssi = s.ssi := rfl
@[simp] theorem out_uid : (s.out o).uid = s.uid := rfl
@[simp] theorem out_mer : (s.out o).mer = s.mer := rfl
@[simp] theorem out_mers : (s.out o).mers = s.mers := rfl
@[simp] theorem out_aonSid : (s.out o).aonSid = s.aonSid := rfl
@[simp] theorem out_outImage : (s.out o).outImage = s.outImage := rfl
@[simp] theorem out_host : (s.out o).host = s.host := rfl
@[simp] theorem out_saf : (s.out o).saf = s.saf := rfl
@[simp] theorem out_halo : (s.out o).halo = s.halo := rfl
@[simp] theorem out_scomm : (s.out o).scomm = s.scomm := rfl
@[simp] theorem out_dbg : (s.out o).dbg = s.dbg := rfl
@[simp] theorem out_jrn : (s.out o).jrn = s.jrn := rfl
@[simp] theorem out_lines : (s.out o).lines = s.lines := rfl
@[simp] theorem out_clk : (s.out o).clk = s.clk := rfl
@[simp] theorem out_boot : (s.out o).boot = s.boot := rfl
@[simp] theorem out_aon : (s.out o).aon = s.aon := rfl
@[simp] theorem out_slots : (s.out o).slots = s.slots := rfl
@[simp] theorem out_cap : (s.out o).cap = s.cap := rfl
@[simp] theorem out_eph : (s.out o).eph = s.eph := rfl

end

/-! ### State.atTime -/

section
variable (s : State) (t : DWord)

@[simp] theorem atTime_now : (s.atTime t).now = t := rfl
@[simp] theorem atTime_pending : (s.atTime t).pending = s.pending := rfl
@[simp] theorem atTime_outbox : (s.atTime t).outbox = s.outbox := rfl
@[simp] theorem atTime_free : (s.atTime t).free = s.free := rfl
@[simp] theorem atTime_variant : (s.atTime t).variant = s.variant := rfl
@[simp] theorem atTime_prof : (s.atTime t).prof = s.prof := rfl
@[simp] theorem atTime_paths : (s.atTime t).paths = s.paths := rfl
@[simp] theorem atTime_regs : (s.atTime t).regs = s.regs := rfl
@[simp] theorem atTime_shadow : (s.atTime t).shadow = s.shadow := rfl
@[simp] theorem atTime_due : (s.atTime t).due = s.due := rfl
@[simp] theorem atTime_commits : (s.atTime t).commits = s.commits := rfl
@[simp] theorem atTime_gate : (s.atTime t).gate = s.gate := rfl
@[simp] theorem atTime_reqs : (s.atTime t).reqs = s.reqs := rfl
@[simp] theorem atTime_cellEvs : (s.atTime t).cellEvs = s.cellEvs := rfl
@[simp] theorem atTime_reports : (s.atTime t).reports = s.reports := rfl
@[simp] theorem atTime_epoch : (s.atTime t).epoch = s.epoch := rfl
@[simp] theorem atTime_running : (s.atTime t).running = s.running := rfl
@[simp] theorem atTime_published : (s.atTime t).published = s.published := rfl
@[simp] theorem atTime_view : (s.atTime t).view = s.view := rfl
@[simp] theorem atTime_push : (s.atTime t).push = s.push := rfl
@[simp] theorem atTime_staleTicks : (s.atTime t).staleTicks = s.staleTicks := rfl
@[simp] theorem atTime_pushLate : (s.atTime t).pushLate = s.pushLate := rfl
@[simp] theorem atTime_cutFail : (s.atTime t).cutFail = s.cutFail := rfl
@[simp] theorem atTime_cutApplied : (s.atTime t).cutApplied = s.cutApplied := rfl
@[simp] theorem atTime_comApplied : (s.atTime t).comApplied = s.comApplied := rfl
@[simp] theorem atTime_planGen : (s.atTime t).planGen = s.planGen := rfl
@[simp] theorem atTime_coreSafety : (s.atTime t).coreSafety = s.coreSafety := rfl
@[simp] theorem atTime_stopAtStep1 : (s.atTime t).stopAtStep1 = s.stopAtStep1 := rfl
@[simp] theorem atTime_haloLimits : (s.atTime t).haloLimits = s.haloLimits := rfl
@[simp] theorem atTime_minsep : (s.atTime t).minsep = s.minsep := rfl
@[simp] theorem atTime_cores : (s.atTime t).cores = s.cores := rfl
@[simp] theorem atTime_data : (s.atTime t).data = s.data := rfl
@[simp] theorem atTime_code : (s.atTime t).code = s.code := rfl
@[simp] theorem atTime_scode : (s.atTime t).scode = s.scode := rfl
@[simp] theorem atTime_sdata : (s.atTime t).sdata = s.sdata := rfl
@[simp] theorem atTime_codeLocked : (s.atTime t).codeLocked = s.codeLocked := rfl
@[simp] theorem atTime_hashOk : (s.atTime t).hashOk = s.hashOk := rfl
@[simp] theorem atTime_arms : (s.atTime t).arms = s.arms := rfl
@[simp] theorem atTime_aux : (s.atTime t).aux = s.aux := rfl
@[simp] theorem atTime_chans : (s.atTime t).chans = s.chans := rfl
@[simp] theorem atTime_solver : (s.atTime t).solver = s.solver := rfl
@[simp] theorem atTime_cascs : (s.atTime t).cascs = s.cascs := rfl
@[simp] theorem atTime_mans : (s.atTime t).mans = s.mans := rfl
@[simp] theorem atTime_dyns : (s.atTime t).dyns = s.dyns := rfl
@[simp] theorem atTime_lanes : (s.atTime t).lanes = s.lanes := rfl
@[simp] theorem atTime_lanesEccUn : (s.atTime t).lanesEccUn = s.lanesEccUn := rfl
@[simp] theorem atTime_lanesEccC : (s.atTime t).lanesEccC = s.lanesEccC := rfl
@[simp] theorem atTime_fbk : (s.atTime t).fbk = s.fbk := rfl
@[simp] theorem atTime_ssi : (s.atTime t).ssi = s.ssi := rfl
@[simp] theorem atTime_uid : (s.atTime t).uid = s.uid := rfl
@[simp] theorem atTime_mer : (s.atTime t).mer = s.mer := rfl
@[simp] theorem atTime_mers : (s.atTime t).mers = s.mers := rfl
@[simp] theorem atTime_aonSid : (s.atTime t).aonSid = s.aonSid := rfl
@[simp] theorem atTime_outImage : (s.atTime t).outImage = s.outImage := rfl
@[simp] theorem atTime_host : (s.atTime t).host = s.host := rfl
@[simp] theorem atTime_saf : (s.atTime t).saf = s.saf := rfl
@[simp] theorem atTime_halo : (s.atTime t).halo = s.halo := rfl
@[simp] theorem atTime_scomm : (s.atTime t).scomm = s.scomm := rfl
@[simp] theorem atTime_dbg : (s.atTime t).dbg = s.dbg := rfl
@[simp] theorem atTime_jrn : (s.atTime t).jrn = s.jrn := rfl
@[simp] theorem atTime_lines : (s.atTime t).lines = s.lines := rfl
@[simp] theorem atTime_clk : (s.atTime t).clk = s.clk := rfl
@[simp] theorem atTime_boot : (s.atTime t).boot = s.boot := rfl
@[simp] theorem atTime_aon : (s.atTime t).aon = s.aon := rfl
@[simp] theorem atTime_slots : (s.atTime t).slots = s.slots := rfl
@[simp] theorem atTime_cap : (s.atTime t).cap = s.cap := rfl
@[simp] theorem atTime_eph : (s.atTime t).eph = s.eph := rfl

end

/-! ### State.gatePush -/

section
variable (s : State) (n src : Nat) (i : GateItem)

@[simp] theorem gatePush_pending : (s.gatePush n src i).pending = s.pending := by unfold State.gatePush; split <;> rfl
@[simp] theorem gatePush_outbox : (s.gatePush n src i).outbox = s.outbox := by unfold State.gatePush; split <;> rfl
@[simp] theorem gatePush_free : (s.gatePush n src i).free = s.free := by unfold State.gatePush; split <;> rfl
@[simp] theorem gatePush_variant : (s.gatePush n src i).variant = s.variant := by unfold State.gatePush; split <;> rfl
@[simp] theorem gatePush_prof : (s.gatePush n src i).prof = s.prof := by unfold State.gatePush; split <;> rfl
@[simp] theorem gatePush_now : (s.gatePush n src i).now = s.now := by unfold State.gatePush; split <;> rfl
@[simp] theorem gatePush_paths : (s.gatePush n src i).paths = s.paths := by unfold State.gatePush; split <;> rfl
@[simp] theorem gatePush_regs : (s.gatePush n src i).regs = s.regs := by unfold State.gatePush; split <;> rfl
@[simp] theorem gatePush_shadow : (s.gatePush n src i).shadow = s.shadow := by unfold State.gatePush; split <;> rfl
@[simp] theorem gatePush_due : (s.gatePush n src i).due = s.due := by unfold State.gatePush; split <;> rfl
@[simp] theorem gatePush_commits : (s.gatePush n src i).commits = s.commits := by unfold State.gatePush; split <;> rfl
@[simp] theorem gatePush_reqs : (s.gatePush n src i).reqs = s.reqs := by unfold State.gatePush; split <;> rfl
@[simp] theorem gatePush_cellEvs : (s.gatePush n src i).cellEvs = s.cellEvs := by unfold State.gatePush; split <;> rfl
@[simp] theorem gatePush_reports : (s.gatePush n src i).reports = s.reports := by unfold State.gatePush; split <;> rfl
@[simp] theorem gatePush_epoch : (s.gatePush n src i).epoch = s.epoch := by unfold State.gatePush; split <;> rfl
@[simp] theorem gatePush_running : (s.gatePush n src i).running = s.running := by unfold State.gatePush; split <;> rfl
@[simp] theorem gatePush_published : (s.gatePush n src i).published = s.published := by unfold State.gatePush; split <;> rfl
@[simp] theorem gatePush_view : (s.gatePush n src i).view = s.view := by unfold State.gatePush; split <;> rfl
@[simp] theorem gatePush_push : (s.gatePush n src i).push = s.push := by unfold State.gatePush; split <;> rfl
@[simp] theorem gatePush_staleTicks : (s.gatePush n src i).staleTicks = s.staleTicks := by unfold State.gatePush; split <;> rfl
@[simp] theorem gatePush_pushLate : (s.gatePush n src i).pushLate = s.pushLate := by unfold State.gatePush; split <;> rfl
@[simp] theorem gatePush_cutFail : (s.gatePush n src i).cutFail = s.cutFail := by unfold State.gatePush; split <;> rfl
@[simp] theorem gatePush_cutApplied : (s.gatePush n src i).cutApplied = s.cutApplied := by unfold State.gatePush; split <;> rfl
@[simp] theorem gatePush_comApplied : (s.gatePush n src i).comApplied = s.comApplied := by unfold State.gatePush; split <;> rfl
@[simp] theorem gatePush_planGen : (s.gatePush n src i).planGen = s.planGen := by unfold State.gatePush; split <;> rfl
@[simp] theorem gatePush_coreSafety : (s.gatePush n src i).coreSafety = s.coreSafety := by unfold State.gatePush; split <;> rfl
@[simp] theorem gatePush_stopAtStep1 : (s.gatePush n src i).stopAtStep1 = s.stopAtStep1 := by unfold State.gatePush; split <;> rfl
@[simp] theorem gatePush_haloLimits : (s.gatePush n src i).haloLimits = s.haloLimits := by unfold State.gatePush; split <;> rfl
@[simp] theorem gatePush_minsep : (s.gatePush n src i).minsep = s.minsep := by unfold State.gatePush; split <;> rfl
@[simp] theorem gatePush_cores : (s.gatePush n src i).cores = s.cores := by unfold State.gatePush; split <;> rfl
@[simp] theorem gatePush_data : (s.gatePush n src i).data = s.data := by unfold State.gatePush; split <;> rfl
@[simp] theorem gatePush_code : (s.gatePush n src i).code = s.code := by unfold State.gatePush; split <;> rfl
@[simp] theorem gatePush_scode : (s.gatePush n src i).scode = s.scode := by unfold State.gatePush; split <;> rfl
@[simp] theorem gatePush_sdata : (s.gatePush n src i).sdata = s.sdata := by unfold State.gatePush; split <;> rfl
@[simp] theorem gatePush_codeLocked : (s.gatePush n src i).codeLocked = s.codeLocked := by unfold State.gatePush; split <;> rfl
@[simp] theorem gatePush_hashOk : (s.gatePush n src i).hashOk = s.hashOk := by unfold State.gatePush; split <;> rfl
@[simp] theorem gatePush_arms : (s.gatePush n src i).arms = s.arms := by unfold State.gatePush; split <;> rfl
@[simp] theorem gatePush_aux : (s.gatePush n src i).aux = s.aux := by unfold State.gatePush; split <;> rfl
@[simp] theorem gatePush_chans : (s.gatePush n src i).chans = s.chans := by unfold State.gatePush; split <;> rfl
@[simp] theorem gatePush_solver : (s.gatePush n src i).solver = s.solver := by unfold State.gatePush; split <;> rfl
@[simp] theorem gatePush_cascs : (s.gatePush n src i).cascs = s.cascs := by unfold State.gatePush; split <;> rfl
@[simp] theorem gatePush_mans : (s.gatePush n src i).mans = s.mans := by unfold State.gatePush; split <;> rfl
@[simp] theorem gatePush_dyns : (s.gatePush n src i).dyns = s.dyns := by unfold State.gatePush; split <;> rfl
@[simp] theorem gatePush_lanes : (s.gatePush n src i).lanes = s.lanes := by unfold State.gatePush; split <;> rfl
@[simp] theorem gatePush_lanesEccUn : (s.gatePush n src i).lanesEccUn = s.lanesEccUn := by unfold State.gatePush; split <;> rfl
@[simp] theorem gatePush_lanesEccC : (s.gatePush n src i).lanesEccC = s.lanesEccC := by unfold State.gatePush; split <;> rfl
@[simp] theorem gatePush_fbk : (s.gatePush n src i).fbk = s.fbk := by unfold State.gatePush; split <;> rfl
@[simp] theorem gatePush_ssi : (s.gatePush n src i).ssi = s.ssi := by unfold State.gatePush; split <;> rfl
@[simp] theorem gatePush_uid : (s.gatePush n src i).uid = s.uid := by unfold State.gatePush; split <;> rfl
@[simp] theorem gatePush_mer : (s.gatePush n src i).mer = s.mer := by unfold State.gatePush; split <;> rfl
@[simp] theorem gatePush_mers : (s.gatePush n src i).mers = s.mers := by unfold State.gatePush; split <;> rfl
@[simp] theorem gatePush_aonSid : (s.gatePush n src i).aonSid = s.aonSid := by unfold State.gatePush; split <;> rfl
@[simp] theorem gatePush_outImage : (s.gatePush n src i).outImage = s.outImage := by unfold State.gatePush; split <;> rfl
@[simp] theorem gatePush_host : (s.gatePush n src i).host = s.host := by unfold State.gatePush; split <;> rfl
@[simp] theorem gatePush_saf : (s.gatePush n src i).saf = s.saf := by unfold State.gatePush; split <;> rfl
@[simp] theorem gatePush_halo : (s.gatePush n src i).halo = s.halo := by unfold State.gatePush; split <;> rfl
@[simp] theorem gatePush_scomm : (s.gatePush n src i).scomm = s.scomm := by unfold State.gatePush; split <;> rfl
@[simp] theorem gatePush_dbg : (s.gatePush n src i).dbg = s.dbg := by unfold State.gatePush; split <;> rfl
@[simp] theorem gatePush_jrn : (s.gatePush n src i).jrn = s.jrn := by unfold State.gatePush; split <;> rfl
@[simp] theorem gatePush_lines : (s.gatePush n src i).lines = s.lines := by unfold State.gatePush; split <;> rfl
@[simp] theorem gatePush_clk : (s.gatePush n src i).clk = s.clk := by unfold State.gatePush; split <;> rfl
@[simp] theorem gatePush_boot : (s.gatePush n src i).boot = s.boot := by unfold State.gatePush; split <;> rfl
@[simp] theorem gatePush_aon : (s.gatePush n src i).aon = s.aon := by unfold State.gatePush; split <;> rfl
@[simp] theorem gatePush_slots : (s.gatePush n src i).slots = s.slots := by unfold State.gatePush; split <;> rfl
@[simp] theorem gatePush_cap : (s.gatePush n src i).cap = s.cap := by unfold State.gatePush; split <;> rfl
@[simp] theorem gatePush_eph : (s.gatePush n src i).eph = s.eph := by unfold State.gatePush; split <;> rfl

end

/-! ### State.raise -/

section
variable (s : State) (code cls : Nat) (hold : Bool) (d : Option Word)

@[simp] theorem raise_pending : (s.raise code cls hold d).pending = s.pending := by cases d <;> rfl
@[simp] theorem raise_outbox : (s.raise code cls hold d).outbox = s.outbox := by cases d <;> rfl
@[simp] theorem raise_variant : (s.raise code cls hold d).variant = s.variant := by cases d <;> rfl
@[simp] theorem raise_prof : (s.raise code cls hold d).prof = s.prof := by cases d <;> rfl
@[simp] theorem raise_now : (s.raise code cls hold d).now = s.now := by cases d <;> rfl
@[simp] theorem raise_paths : (s.raise code cls hold d).paths = s.paths := by cases d <;> rfl
@[simp] theorem raise_regs : (s.raise code cls hold d).regs = s.regs := by cases d <;> rfl
@[simp] theorem raise_shadow : (s.raise code cls hold d).shadow = s.shadow := by cases d <;> rfl
@[simp] theorem raise_due : (s.raise code cls hold d).due = s.due := by cases d <;> rfl
@[simp] theorem raise_commits : (s.raise code cls hold d).commits = s.commits := by cases d <;> rfl
@[simp] theorem raise_gate : (s.raise code cls hold d).gate = s.gate := by cases d <;> rfl
@[simp] theorem raise_reqs : (s.raise code cls hold d).reqs = s.reqs := by cases d <;> rfl
@[simp] theorem raise_cellEvs : (s.raise code cls hold d).cellEvs = s.cellEvs := by cases d <;> rfl
@[simp] theorem raise_epoch : (s.raise code cls hold d).epoch = s.epoch := by cases d <;> rfl
@[simp] theorem raise_running : (s.raise code cls hold d).running = s.running := by cases d <;> rfl
@[simp] theorem raise_published : (s.raise code cls hold d).published = s.published := by cases d <;> rfl
@[simp] theorem raise_view : (s.raise code cls hold d).view = s.view := by cases d <;> rfl
@[simp] theorem raise_push : (s.raise code cls hold d).push = s.push := by cases d <;> rfl
@[simp] theorem raise_staleTicks : (s.raise code cls hold d).staleTicks = s.staleTicks := by cases d <;> rfl
@[simp] theorem raise_pushLate : (s.raise code cls hold d).pushLate = s.pushLate := by cases d <;> rfl
@[simp] theorem raise_cutFail : (s.raise code cls hold d).cutFail = s.cutFail := by cases d <;> rfl
@[simp] theorem raise_cutApplied : (s.raise code cls hold d).cutApplied = s.cutApplied := by cases d <;> rfl
@[simp] theorem raise_comApplied : (s.raise code cls hold d).comApplied = s.comApplied := by cases d <;> rfl
@[simp] theorem raise_planGen : (s.raise code cls hold d).planGen = s.planGen := by cases d <;> rfl
@[simp] theorem raise_coreSafety : (s.raise code cls hold d).coreSafety = s.coreSafety := by cases d <;> rfl
@[simp] theorem raise_stopAtStep1 : (s.raise code cls hold d).stopAtStep1 = s.stopAtStep1 := by cases d <;> rfl
@[simp] theorem raise_haloLimits : (s.raise code cls hold d).haloLimits = s.haloLimits := by cases d <;> rfl
@[simp] theorem raise_minsep : (s.raise code cls hold d).minsep = s.minsep := by cases d <;> rfl
@[simp] theorem raise_cores : (s.raise code cls hold d).cores = s.cores := by cases d <;> rfl
@[simp] theorem raise_data : (s.raise code cls hold d).data = s.data := by cases d <;> rfl
@[simp] theorem raise_code : (s.raise code cls hold d).code = s.code := by cases d <;> rfl
@[simp] theorem raise_scode : (s.raise code cls hold d).scode = s.scode := by cases d <;> rfl
@[simp] theorem raise_sdata : (s.raise code cls hold d).sdata = s.sdata := by cases d <;> rfl
@[simp] theorem raise_codeLocked : (s.raise code cls hold d).codeLocked = s.codeLocked := by cases d <;> rfl
@[simp] theorem raise_hashOk : (s.raise code cls hold d).hashOk = s.hashOk := by cases d <;> rfl
@[simp] theorem raise_arms : (s.raise code cls hold d).arms = s.arms := by cases d <;> rfl
@[simp] theorem raise_aux : (s.raise code cls hold d).aux = s.aux := by cases d <;> rfl
@[simp] theorem raise_chans : (s.raise code cls hold d).chans = s.chans := by cases d <;> rfl
@[simp] theorem raise_solver : (s.raise code cls hold d).solver = s.solver := by cases d <;> rfl
@[simp] theorem raise_cascs : (s.raise code cls hold d).cascs = s.cascs := by cases d <;> rfl
@[simp] theorem raise_mans : (s.raise code cls hold d).mans = s.mans := by cases d <;> rfl
@[simp] theorem raise_dyns : (s.raise code cls hold d).dyns = s.dyns := by cases d <;> rfl
@[simp] theorem raise_lanes : (s.raise code cls hold d).lanes = s.lanes := by cases d <;> rfl
@[simp] theorem raise_lanesEccUn : (s.raise code cls hold d).lanesEccUn = s.lanesEccUn := by cases d <;> rfl
@[simp] theorem raise_lanesEccC : (s.raise code cls hold d).lanesEccC = s.lanesEccC := by cases d <;> rfl
@[simp] theorem raise_fbk : (s.raise code cls hold d).fbk = s.fbk := by cases d <;> rfl
@[simp] theorem raise_ssi : (s.raise code cls hold d).ssi = s.ssi := by cases d <;> rfl
@[simp] theorem raise_uid : (s.raise code cls hold d).uid = s.uid := by cases d <;> rfl
@[simp] theorem raise_mer : (s.raise code cls hold d).mer = s.mer := by cases d <;> rfl
@[simp] theorem raise_mers : (s.raise code cls hold d).mers = s.mers := by cases d <;> rfl
@[simp] theorem raise_aonSid : (s.raise code cls hold d).aonSid = s.aonSid := by cases d <;> rfl
@[simp] theorem raise_outImage : (s.raise code cls hold d).outImage = s.outImage := by cases d <;> rfl
@[simp] theorem raise_host : (s.raise code cls hold d).host = s.host := by cases d <;> rfl
@[simp] theorem raise_saf : (s.raise code cls hold d).saf = s.saf := by cases d <;> rfl
@[simp] theorem raise_halo : (s.raise code cls hold d).halo = s.halo := by cases d <;> rfl
@[simp] theorem raise_scomm : (s.raise code cls hold d).scomm = s.scomm := by cases d <;> rfl
@[simp] theorem raise_dbg : (s.raise code cls hold d).dbg = s.dbg := by cases d <;> rfl
@[simp] theorem raise_jrn : (s.raise code cls hold d).jrn = s.jrn := by cases d <;> rfl
@[simp] theorem raise_lines : (s.raise code cls hold d).lines = s.lines := by cases d <;> rfl
@[simp] theorem raise_clk : (s.raise code cls hold d).clk = s.clk := by cases d <;> rfl
@[simp] theorem raise_boot : (s.raise code cls hold d).boot = s.boot := by cases d <;> rfl
@[simp] theorem raise_aon : (s.raise code cls hold d).aon = s.aon := by cases d <;> rfl
@[simp] theorem raise_slots : (s.raise code cls hold d).slots = s.slots := by cases d <;> rfl
@[simp] theorem raise_cap : (s.raise code cls hold d).cap = s.cap := by cases d <;> rfl
@[simp] theorem raise_eph : (s.raise code cls hold d).eph = s.eph := by cases d <;> rfl

end

/-! ### State.msix -/

section
variable (s : State) (v : Nat)

@[simp] theorem msix_pending : (s.msix v).pending = s.pending := by unfold State.msix; split <;> rfl
@[simp] theorem msix_free : (s.msix v).free = s.free := by unfold State.msix; split <;> rfl
@[simp] theorem msix_variant : (s.msix v).variant = s.variant := by unfold State.msix; split <;> rfl
@[simp] theorem msix_prof : (s.msix v).prof = s.prof := by unfold State.msix; split <;> rfl
@[simp] theorem msix_now : (s.msix v).now = s.now := by unfold State.msix; split <;> rfl
@[simp] theorem msix_paths : (s.msix v).paths = s.paths := by unfold State.msix; split <;> rfl
@[simp] theorem msix_regs : (s.msix v).regs = s.regs := by unfold State.msix; split <;> rfl
@[simp] theorem msix_shadow : (s.msix v).shadow = s.shadow := by unfold State.msix; split <;> rfl
@[simp] theorem msix_due : (s.msix v).due = s.due := by unfold State.msix; split <;> rfl
@[simp] theorem msix_commits : (s.msix v).commits = s.commits := by unfold State.msix; split <;> rfl
@[simp] theorem msix_gate : (s.msix v).gate = s.gate := by unfold State.msix; split <;> rfl
@[simp] theorem msix_reqs : (s.msix v).reqs = s.reqs := by unfold State.msix; split <;> rfl
@[simp] theorem msix_cellEvs : (s.msix v).cellEvs = s.cellEvs := by unfold State.msix; split <;> rfl
@[simp] theorem msix_reports : (s.msix v).reports = s.reports := by unfold State.msix; split <;> rfl
@[simp] theorem msix_epoch : (s.msix v).epoch = s.epoch := by unfold State.msix; split <;> rfl
@[simp] theorem msix_running : (s.msix v).running = s.running := by unfold State.msix; split <;> rfl
@[simp] theorem msix_published : (s.msix v).published = s.published := by unfold State.msix; split <;> rfl
@[simp] theorem msix_view : (s.msix v).view = s.view := by unfold State.msix; split <;> rfl
@[simp] theorem msix_push : (s.msix v).push = s.push := by unfold State.msix; split <;> rfl
@[simp] theorem msix_staleTicks : (s.msix v).staleTicks = s.staleTicks := by unfold State.msix; split <;> rfl
@[simp] theorem msix_pushLate : (s.msix v).pushLate = s.pushLate := by unfold State.msix; split <;> rfl
@[simp] theorem msix_cutFail : (s.msix v).cutFail = s.cutFail := by unfold State.msix; split <;> rfl
@[simp] theorem msix_cutApplied : (s.msix v).cutApplied = s.cutApplied := by unfold State.msix; split <;> rfl
@[simp] theorem msix_comApplied : (s.msix v).comApplied = s.comApplied := by unfold State.msix; split <;> rfl
@[simp] theorem msix_planGen : (s.msix v).planGen = s.planGen := by unfold State.msix; split <;> rfl
@[simp] theorem msix_coreSafety : (s.msix v).coreSafety = s.coreSafety := by unfold State.msix; split <;> rfl
@[simp] theorem msix_stopAtStep1 : (s.msix v).stopAtStep1 = s.stopAtStep1 := by unfold State.msix; split <;> rfl
@[simp] theorem msix_haloLimits : (s.msix v).haloLimits = s.haloLimits := by unfold State.msix; split <;> rfl
@[simp] theorem msix_minsep : (s.msix v).minsep = s.minsep := by unfold State.msix; split <;> rfl
@[simp] theorem msix_cores : (s.msix v).cores = s.cores := by unfold State.msix; split <;> rfl
@[simp] theorem msix_data : (s.msix v).data = s.data := by unfold State.msix; split <;> rfl
@[simp] theorem msix_code : (s.msix v).code = s.code := by unfold State.msix; split <;> rfl
@[simp] theorem msix_scode : (s.msix v).scode = s.scode := by unfold State.msix; split <;> rfl
@[simp] theorem msix_sdata : (s.msix v).sdata = s.sdata := by unfold State.msix; split <;> rfl
@[simp] theorem msix_codeLocked : (s.msix v).codeLocked = s.codeLocked := by unfold State.msix; split <;> rfl
@[simp] theorem msix_hashOk : (s.msix v).hashOk = s.hashOk := by unfold State.msix; split <;> rfl
@[simp] theorem msix_arms : (s.msix v).arms = s.arms := by unfold State.msix; split <;> rfl
@[simp] theorem msix_aux : (s.msix v).aux = s.aux := by unfold State.msix; split <;> rfl
@[simp] theorem msix_chans : (s.msix v).chans = s.chans := by unfold State.msix; split <;> rfl
@[simp] theorem msix_solver : (s.msix v).solver = s.solver := by unfold State.msix; split <;> rfl
@[simp] theorem msix_cascs : (s.msix v).cascs = s.cascs := by unfold State.msix; split <;> rfl
@[simp] theorem msix_mans : (s.msix v).mans = s.mans := by unfold State.msix; split <;> rfl
@[simp] theorem msix_dyns : (s.msix v).dyns = s.dyns := by unfold State.msix; split <;> rfl
@[simp] theorem msix_lanes : (s.msix v).lanes = s.lanes := by unfold State.msix; split <;> rfl
@[simp] theorem msix_lanesEccUn : (s.msix v).lanesEccUn = s.lanesEccUn := by unfold State.msix; split <;> rfl
@[simp] theorem msix_lanesEccC : (s.msix v).lanesEccC = s.lanesEccC := by unfold State.msix; split <;> rfl
@[simp] theorem msix_fbk : (s.msix v).fbk = s.fbk := by unfold State.msix; split <;> rfl
@[simp] theorem msix_ssi : (s.msix v).ssi = s.ssi := by unfold State.msix; split <;> rfl
@[simp] theorem msix_uid : (s.msix v).uid = s.uid := by unfold State.msix; split <;> rfl
@[simp] theorem msix_mer : (s.msix v).mer = s.mer := by unfold State.msix; split <;> rfl
@[simp] theorem msix_mers : (s.msix v).mers = s.mers := by unfold State.msix; split <;> rfl
@[simp] theorem msix_aonSid : (s.msix v).aonSid = s.aonSid := by unfold State.msix; split <;> rfl
@[simp] theorem msix_outImage : (s.msix v).outImage = s.outImage := by unfold State.msix; split <;> rfl
@[simp] theorem msix_saf : (s.msix v).saf = s.saf := by unfold State.msix; split <;> rfl
@[simp] theorem msix_halo : (s.msix v).halo = s.halo := by unfold State.msix; split <;> rfl
@[simp] theorem msix_scomm : (s.msix v).scomm = s.scomm := by unfold State.msix; split <;> rfl
@[simp] theorem msix_dbg : (s.msix v).dbg = s.dbg := by unfold State.msix; split <;> rfl
@[simp] theorem msix_jrn : (s.msix v).jrn = s.jrn := by unfold State.msix; split <;> rfl
@[simp] theorem msix_lines : (s.msix v).lines = s.lines := by unfold State.msix; split <;> rfl
@[simp] theorem msix_clk : (s.msix v).clk = s.clk := by unfold State.msix; split <;> rfl
@[simp] theorem msix_boot : (s.msix v).boot = s.boot := by unfold State.msix; split <;> rfl
@[simp] theorem msix_aon : (s.msix v).aon = s.aon := by unfold State.msix; split <;> rfl
@[simp] theorem msix_slots : (s.msix v).slots = s.slots := by unfold State.msix; split <;> rfl
@[simp] theorem msix_cap : (s.msix v).cap = s.cap := by unfold State.msix; split <;> rfl
@[simp] theorem msix_eph : (s.msix v).eph = s.eph := by unfold State.msix; split <;> rfl

end

/-! ### State.modHost -/

section
variable (s : State) (f : HostIf → HostIf)

@[simp] theorem modHost_host : (s.modHost f).host = f s.host := rfl
@[simp] theorem modHost_pending : (s.modHost f).pending = s.pending := rfl
@[simp] theorem modHost_outbox : (s.modHost f).outbox = s.outbox := rfl
@[simp] theorem modHost_free : (s.modHost f).free = s.free := rfl
@[simp] theorem modHost_variant : (s.modHost f).variant = s.variant := rfl
@[simp] theorem modHost_prof : (s.modHost f).prof = s.prof := rfl
@[simp] theorem modHost_now : (s.modHost f).now = s.now := rfl
@[simp] theorem modHost_paths : (s.modHost f).paths = s.paths := rfl
@[simp] theorem modHost_regs : (s.modHost f).regs = s.regs := rfl
@[simp] theorem modHost_shadow : (s.modHost f).shadow = s.shadow := rfl
@[simp] theorem modHost_due : (s.modHost f).due = s.due := rfl
@[simp] theorem modHost_commits : (s.modHost f).commits = s.commits := rfl
@[simp] theorem modHost_gate : (s.modHost f).gate = s.gate := rfl
@[simp] theorem modHost_reqs : (s.modHost f).reqs = s.reqs := rfl
@[simp] theorem modHost_cellEvs : (s.modHost f).cellEvs = s.cellEvs := rfl
@[simp] theorem modHost_reports : (s.modHost f).reports = s.reports := rfl
@[simp] theorem modHost_epoch : (s.modHost f).epoch = s.epoch := rfl
@[simp] theorem modHost_running : (s.modHost f).running = s.running := rfl
@[simp] theorem modHost_published : (s.modHost f).published = s.published := rfl
@[simp] theorem modHost_view : (s.modHost f).view = s.view := rfl
@[simp] theorem modHost_push : (s.modHost f).push = s.push := rfl
@[simp] theorem modHost_staleTicks : (s.modHost f).staleTicks = s.staleTicks := rfl
@[simp] theorem modHost_pushLate : (s.modHost f).pushLate = s.pushLate := rfl
@[simp] theorem modHost_cutFail : (s.modHost f).cutFail = s.cutFail := rfl
@[simp] theorem modHost_cutApplied : (s.modHost f).cutApplied = s.cutApplied := rfl
@[simp] theorem modHost_comApplied : (s.modHost f).comApplied = s.comApplied := rfl
@[simp] theorem modHost_planGen : (s.modHost f).planGen = s.planGen := rfl
@[simp] theorem modHost_coreSafety : (s.modHost f).coreSafety = s.coreSafety := rfl
@[simp] theorem modHost_stopAtStep1 : (s.modHost f).stopAtStep1 = s.stopAtStep1 := rfl
@[simp] theorem modHost_haloLimits : (s.modHost f).haloLimits = s.haloLimits := rfl
@[simp] theorem modHost_minsep : (s.modHost f).minsep = s.minsep := rfl
@[simp] theorem modHost_cores : (s.modHost f).cores = s.cores := rfl
@[simp] theorem modHost_data : (s.modHost f).data = s.data := rfl
@[simp] theorem modHost_code : (s.modHost f).code = s.code := rfl
@[simp] theorem modHost_scode : (s.modHost f).scode = s.scode := rfl
@[simp] theorem modHost_sdata : (s.modHost f).sdata = s.sdata := rfl
@[simp] theorem modHost_codeLocked : (s.modHost f).codeLocked = s.codeLocked := rfl
@[simp] theorem modHost_hashOk : (s.modHost f).hashOk = s.hashOk := rfl
@[simp] theorem modHost_arms : (s.modHost f).arms = s.arms := rfl
@[simp] theorem modHost_aux : (s.modHost f).aux = s.aux := rfl
@[simp] theorem modHost_chans : (s.modHost f).chans = s.chans := rfl
@[simp] theorem modHost_solver : (s.modHost f).solver = s.solver := rfl
@[simp] theorem modHost_cascs : (s.modHost f).cascs = s.cascs := rfl
@[simp] theorem modHost_mans : (s.modHost f).mans = s.mans := rfl
@[simp] theorem modHost_dyns : (s.modHost f).dyns = s.dyns := rfl
@[simp] theorem modHost_lanes : (s.modHost f).lanes = s.lanes := rfl
@[simp] theorem modHost_lanesEccUn : (s.modHost f).lanesEccUn = s.lanesEccUn := rfl
@[simp] theorem modHost_lanesEccC : (s.modHost f).lanesEccC = s.lanesEccC := rfl
@[simp] theorem modHost_fbk : (s.modHost f).fbk = s.fbk := rfl
@[simp] theorem modHost_ssi : (s.modHost f).ssi = s.ssi := rfl
@[simp] theorem modHost_uid : (s.modHost f).uid = s.uid := rfl
@[simp] theorem modHost_mer : (s.modHost f).mer = s.mer := rfl
@[simp] theorem modHost_mers : (s.modHost f).mers = s.mers := rfl
@[simp] theorem modHost_aonSid : (s.modHost f).aonSid = s.aonSid := rfl
@[simp] theorem modHost_outImage : (s.modHost f).outImage = s.outImage := rfl
@[simp] theorem modHost_saf : (s.modHost f).saf = s.saf := rfl
@[simp] theorem modHost_halo : (s.modHost f).halo = s.halo := rfl
@[simp] theorem modHost_scomm : (s.modHost f).scomm = s.scomm := rfl
@[simp] theorem modHost_dbg : (s.modHost f).dbg = s.dbg := rfl
@[simp] theorem modHost_jrn : (s.modHost f).jrn = s.jrn := rfl
@[simp] theorem modHost_lines : (s.modHost f).lines = s.lines := rfl
@[simp] theorem modHost_clk : (s.modHost f).clk = s.clk := rfl
@[simp] theorem modHost_boot : (s.modHost f).boot = s.boot := rfl
@[simp] theorem modHost_aon : (s.modHost f).aon = s.aon := rfl
@[simp] theorem modHost_slots : (s.modHost f).slots = s.slots := rfl
@[simp] theorem modHost_cap : (s.modHost f).cap = s.cap := rfl
@[simp] theorem modHost_eph : (s.modHost f).eph = s.eph := rfl

end

/-! ### State.modMer -/

section
variable (s : State) (f : Mer → Mer)

@[simp] theorem modMer_mer : (s.modMer f).mer = f s.mer := rfl
@[simp] theorem modMer_pending : (s.modMer f).pending = s.pending := rfl
@[simp] theorem modMer_outbox : (s.modMer f).outbox = s.outbox := rfl
@[simp] theorem modMer_free : (s.modMer f).free = s.free := rfl
@[simp] theorem modMer_variant : (s.modMer f).variant = s.variant := rfl
@[simp] theorem modMer_prof : (s.modMer f).prof = s.prof := rfl
@[simp] theorem modMer_now : (s.modMer f).now = s.now := rfl
@[simp] theorem modMer_paths : (s.modMer f).paths = s.paths := rfl
@[simp] theorem modMer_regs : (s.modMer f).regs = s.regs := rfl
@[simp] theorem modMer_shadow : (s.modMer f).shadow = s.shadow := rfl
@[simp] theorem modMer_due : (s.modMer f).due = s.due := rfl
@[simp] theorem modMer_commits : (s.modMer f).commits = s.commits := rfl
@[simp] theorem modMer_gate : (s.modMer f).gate = s.gate := rfl
@[simp] theorem modMer_reqs : (s.modMer f).reqs = s.reqs := rfl
@[simp] theorem modMer_cellEvs : (s.modMer f).cellEvs = s.cellEvs := rfl
@[simp] theorem modMer_reports : (s.modMer f).reports = s.reports := rfl
@[simp] theorem modMer_epoch : (s.modMer f).epoch = s.epoch := rfl
@[simp] theorem modMer_running : (s.modMer f).running = s.running := rfl
@[simp] theorem modMer_published : (s.modMer f).published = s.published := rfl
@[simp] theorem modMer_view : (s.modMer f).view = s.view := rfl
@[simp] theorem modMer_push : (s.modMer f).push = s.push := rfl
@[simp] theorem modMer_staleTicks : (s.modMer f).staleTicks = s.staleTicks := rfl
@[simp] theorem modMer_pushLate : (s.modMer f).pushLate = s.pushLate := rfl
@[simp] theorem modMer_cutFail : (s.modMer f).cutFail = s.cutFail := rfl
@[simp] theorem modMer_cutApplied : (s.modMer f).cutApplied = s.cutApplied := rfl
@[simp] theorem modMer_comApplied : (s.modMer f).comApplied = s.comApplied := rfl
@[simp] theorem modMer_planGen : (s.modMer f).planGen = s.planGen := rfl
@[simp] theorem modMer_coreSafety : (s.modMer f).coreSafety = s.coreSafety := rfl
@[simp] theorem modMer_stopAtStep1 : (s.modMer f).stopAtStep1 = s.stopAtStep1 := rfl
@[simp] theorem modMer_haloLimits : (s.modMer f).haloLimits = s.haloLimits := rfl
@[simp] theorem modMer_minsep : (s.modMer f).minsep = s.minsep := rfl
@[simp] theorem modMer_cores : (s.modMer f).cores = s.cores := rfl
@[simp] theorem modMer_data : (s.modMer f).data = s.data := rfl
@[simp] theorem modMer_code : (s.modMer f).code = s.code := rfl
@[simp] theorem modMer_scode : (s.modMer f).scode = s.scode := rfl
@[simp] theorem modMer_sdata : (s.modMer f).sdata = s.sdata := rfl
@[simp] theorem modMer_codeLocked : (s.modMer f).codeLocked = s.codeLocked := rfl
@[simp] theorem modMer_hashOk : (s.modMer f).hashOk = s.hashOk := rfl
@[simp] theorem modMer_arms : (s.modMer f).arms = s.arms := rfl
@[simp] theorem modMer_aux : (s.modMer f).aux = s.aux := rfl
@[simp] theorem modMer_chans : (s.modMer f).chans = s.chans := rfl
@[simp] theorem modMer_solver : (s.modMer f).solver = s.solver := rfl
@[simp] theorem modMer_cascs : (s.modMer f).cascs = s.cascs := rfl
@[simp] theorem modMer_mans : (s.modMer f).mans = s.mans := rfl
@[simp] theorem modMer_dyns : (s.modMer f).dyns = s.dyns := rfl
@[simp] theorem modMer_lanes : (s.modMer f).lanes = s.lanes := rfl
@[simp] theorem modMer_lanesEccUn : (s.modMer f).lanesEccUn = s.lanesEccUn := rfl
@[simp] theorem modMer_lanesEccC : (s.modMer f).lanesEccC = s.lanesEccC := rfl
@[simp] theorem modMer_fbk : (s.modMer f).fbk = s.fbk := rfl
@[simp] theorem modMer_ssi : (s.modMer f).ssi = s.ssi := rfl
@[simp] theorem modMer_uid : (s.modMer f).uid = s.uid := rfl
@[simp] theorem modMer_mers : (s.modMer f).mers = s.mers := rfl
@[simp] theorem modMer_aonSid : (s.modMer f).aonSid = s.aonSid := rfl
@[simp] theorem modMer_outImage : (s.modMer f).outImage = s.outImage := rfl
@[simp] theorem modMer_host : (s.modMer f).host = s.host := rfl
@[simp] theorem modMer_saf : (s.modMer f).saf = s.saf := rfl
@[simp] theorem modMer_halo : (s.modMer f).halo = s.halo := rfl
@[simp] theorem modMer_scomm : (s.modMer f).scomm = s.scomm := rfl
@[simp] theorem modMer_dbg : (s.modMer f).dbg = s.dbg := rfl
@[simp] theorem modMer_jrn : (s.modMer f).jrn = s.jrn := rfl
@[simp] theorem modMer_lines : (s.modMer f).lines = s.lines := rfl
@[simp] theorem modMer_clk : (s.modMer f).clk = s.clk := rfl
@[simp] theorem modMer_boot : (s.modMer f).boot = s.boot := rfl
@[simp] theorem modMer_aon : (s.modMer f).aon = s.aon := rfl
@[simp] theorem modMer_slots : (s.modMer f).slots = s.slots := rfl
@[simp] theorem modMer_cap : (s.modMer f).cap = s.cap := rfl
@[simp] theorem modMer_eph : (s.modMer f).eph = s.eph := rfl

end

/-! ### State.modSaf -/

section
variable (s : State) (f : Saf → Saf)

@[simp] theorem modSaf_saf : (s.modSaf f).saf = f s.saf := rfl
@[simp] theorem modSaf_pending : (s.modSaf f).pending = s.pending := rfl
@[simp] theorem modSaf_outbox : (s.modSaf f).outbox = s.outbox := rfl
@[simp] theorem modSaf_free : (s.modSaf f).free = s.free := rfl
@[simp] theorem modSaf_variant : (s.modSaf f).variant = s.variant := rfl
@[simp] theorem modSaf_prof : (s.modSaf f).prof = s.prof := rfl
@[simp] theorem modSaf_now : (s.modSaf f).now = s.now := rfl
@[simp] theorem modSaf_paths : (s.modSaf f).paths = s.paths := rfl
@[simp] theorem modSaf_regs : (s.modSaf f).regs = s.regs := rfl
@[simp] theorem modSaf_shadow : (s.modSaf f).shadow = s.shadow := rfl
@[simp] theorem modSaf_due : (s.modSaf f).due = s.due := rfl
@[simp] theorem modSaf_commits : (s.modSaf f).commits = s.commits := rfl
@[simp] theorem modSaf_gate : (s.modSaf f).gate = s.gate := rfl
@[simp] theorem modSaf_reqs : (s.modSaf f).reqs = s.reqs := rfl
@[simp] theorem modSaf_cellEvs : (s.modSaf f).cellEvs = s.cellEvs := rfl
@[simp] theorem modSaf_reports : (s.modSaf f).reports = s.reports := rfl
@[simp] theorem modSaf_epoch : (s.modSaf f).epoch = s.epoch := rfl
@[simp] theorem modSaf_running : (s.modSaf f).running = s.running := rfl
@[simp] theorem modSaf_published : (s.modSaf f).published = s.published := rfl
@[simp] theorem modSaf_view : (s.modSaf f).view = s.view := rfl
@[simp] theorem modSaf_push : (s.modSaf f).push = s.push := rfl
@[simp] theorem modSaf_staleTicks : (s.modSaf f).staleTicks = s.staleTicks := rfl
@[simp] theorem modSaf_pushLate : (s.modSaf f).pushLate = s.pushLate := rfl
@[simp] theorem modSaf_cutFail : (s.modSaf f).cutFail = s.cutFail := rfl
@[simp] theorem modSaf_cutApplied : (s.modSaf f).cutApplied = s.cutApplied := rfl
@[simp] theorem modSaf_comApplied : (s.modSaf f).comApplied = s.comApplied := rfl
@[simp] theorem modSaf_planGen : (s.modSaf f).planGen = s.planGen := rfl
@[simp] theorem modSaf_coreSafety : (s.modSaf f).coreSafety = s.coreSafety := rfl
@[simp] theorem modSaf_stopAtStep1 : (s.modSaf f).stopAtStep1 = s.stopAtStep1 := rfl
@[simp] theorem modSaf_haloLimits : (s.modSaf f).haloLimits = s.haloLimits := rfl
@[simp] theorem modSaf_minsep : (s.modSaf f).minsep = s.minsep := rfl
@[simp] theorem modSaf_cores : (s.modSaf f).cores = s.cores := rfl
@[simp] theorem modSaf_data : (s.modSaf f).data = s.data := rfl
@[simp] theorem modSaf_code : (s.modSaf f).code = s.code := rfl
@[simp] theorem modSaf_scode : (s.modSaf f).scode = s.scode := rfl
@[simp] theorem modSaf_sdata : (s.modSaf f).sdata = s.sdata := rfl
@[simp] theorem modSaf_codeLocked : (s.modSaf f).codeLocked = s.codeLocked := rfl
@[simp] theorem modSaf_hashOk : (s.modSaf f).hashOk = s.hashOk := rfl
@[simp] theorem modSaf_arms : (s.modSaf f).arms = s.arms := rfl
@[simp] theorem modSaf_aux : (s.modSaf f).aux = s.aux := rfl
@[simp] theorem modSaf_chans : (s.modSaf f).chans = s.chans := rfl
@[simp] theorem modSaf_solver : (s.modSaf f).solver = s.solver := rfl
@[simp] theorem modSaf_cascs : (s.modSaf f).cascs = s.cascs := rfl
@[simp] theorem modSaf_mans : (s.modSaf f).mans = s.mans := rfl
@[simp] theorem modSaf_dyns : (s.modSaf f).dyns = s.dyns := rfl
@[simp] theorem modSaf_lanes : (s.modSaf f).lanes = s.lanes := rfl
@[simp] theorem modSaf_lanesEccUn : (s.modSaf f).lanesEccUn = s.lanesEccUn := rfl
@[simp] theorem modSaf_lanesEccC : (s.modSaf f).lanesEccC = s.lanesEccC := rfl
@[simp] theorem modSaf_fbk : (s.modSaf f).fbk = s.fbk := rfl
@[simp] theorem modSaf_ssi : (s.modSaf f).ssi = s.ssi := rfl
@[simp] theorem modSaf_uid : (s.modSaf f).uid = s.uid := rfl
@[simp] theorem modSaf_mer : (s.modSaf f).mer = s.mer := rfl
@[simp] theorem modSaf_mers : (s.modSaf f).mers = s.mers := rfl
@[simp] theorem modSaf_aonSid : (s.modSaf f).aonSid = s.aonSid := rfl
@[simp] theorem modSaf_outImage : (s.modSaf f).outImage = s.outImage := rfl
@[simp] theorem modSaf_host : (s.modSaf f).host = s.host := rfl
@[simp] theorem modSaf_halo : (s.modSaf f).halo = s.halo := rfl
@[simp] theorem modSaf_scomm : (s.modSaf f).scomm = s.scomm := rfl
@[simp] theorem modSaf_dbg : (s.modSaf f).dbg = s.dbg := rfl
@[simp] theorem modSaf_jrn : (s.modSaf f).jrn = s.jrn := rfl
@[simp] theorem modSaf_lines : (s.modSaf f).lines = s.lines := rfl
@[simp] theorem modSaf_clk : (s.modSaf f).clk = s.clk := rfl
@[simp] theorem modSaf_boot : (s.modSaf f).boot = s.boot := rfl
@[simp] theorem modSaf_aon : (s.modSaf f).aon = s.aon := rfl
@[simp] theorem modSaf_slots : (s.modSaf f).slots = s.slots := rfl
@[simp] theorem modSaf_cap : (s.modSaf f).cap = s.cap := rfl
@[simp] theorem modSaf_eph : (s.modSaf f).eph = s.eph := rfl

end

/-! ### State.modEph -/

section
variable (s : State) (f : Eph → Eph)

@[simp] theorem modEph_eph : (s.modEph f).eph = f s.eph := rfl
@[simp] theorem modEph_pending : (s.modEph f).pending = s.pending := rfl
@[simp] theorem modEph_outbox : (s.modEph f).outbox = s.outbox := rfl
@[simp] theorem modEph_free : (s.modEph f).free = s.free := rfl
@[simp] theorem modEph_variant : (s.modEph f).variant = s.variant := rfl
@[simp] theorem modEph_prof : (s.modEph f).prof = s.prof := rfl
@[simp] theorem modEph_now : (s.modEph f).now = s.now := rfl
@[simp] theorem modEph_paths : (s.modEph f).paths = s.paths := rfl
@[simp] theorem modEph_regs : (s.modEph f).regs = s.regs := rfl
@[simp] theorem modEph_shadow : (s.modEph f).shadow = s.shadow := rfl
@[simp] theorem modEph_due : (s.modEph f).due = s.due := rfl
@[simp] theorem modEph_commits : (s.modEph f).commits = s.commits := rfl
@[simp] theorem modEph_gate : (s.modEph f).gate = s.gate := rfl
@[simp] theorem modEph_reqs : (s.modEph f).reqs = s.reqs := rfl
@[simp] theorem modEph_cellEvs : (s.modEph f).cellEvs = s.cellEvs := rfl
@[simp] theorem modEph_reports : (s.modEph f).reports = s.reports := rfl
@[simp] theorem modEph_epoch : (s.modEph f).epoch = s.epoch := rfl
@[simp] theorem modEph_running : (s.modEph f).running = s.running := rfl
@[simp] theorem modEph_published : (s.modEph f).published = s.published := rfl
@[simp] theorem modEph_view : (s.modEph f).view = s.view := rfl
@[simp] theorem modEph_push : (s.modEph f).push = s.push := rfl
@[simp] theorem modEph_staleTicks : (s.modEph f).staleTicks = s.staleTicks := rfl
@[simp] theorem modEph_pushLate : (s.modEph f).pushLate = s.pushLate := rfl
@[simp] theorem modEph_cutFail : (s.modEph f).cutFail = s.cutFail := rfl
@[simp] theorem modEph_cutApplied : (s.modEph f).cutApplied = s.cutApplied := rfl
@[simp] theorem modEph_comApplied : (s.modEph f).comApplied = s.comApplied := rfl
@[simp] theorem modEph_planGen : (s.modEph f).planGen = s.planGen := rfl
@[simp] theorem modEph_coreSafety : (s.modEph f).coreSafety = s.coreSafety := rfl
@[simp] theorem modEph_stopAtStep1 : (s.modEph f).stopAtStep1 = s.stopAtStep1 := rfl
@[simp] theorem modEph_haloLimits : (s.modEph f).haloLimits = s.haloLimits := rfl
@[simp] theorem modEph_minsep : (s.modEph f).minsep = s.minsep := rfl
@[simp] theorem modEph_cores : (s.modEph f).cores = s.cores := rfl
@[simp] theorem modEph_data : (s.modEph f).data = s.data := rfl
@[simp] theorem modEph_code : (s.modEph f).code = s.code := rfl
@[simp] theorem modEph_scode : (s.modEph f).scode = s.scode := rfl
@[simp] theorem modEph_sdata : (s.modEph f).sdata = s.sdata := rfl
@[simp] theorem modEph_codeLocked : (s.modEph f).codeLocked = s.codeLocked := rfl
@[simp] theorem modEph_hashOk : (s.modEph f).hashOk = s.hashOk := rfl
@[simp] theorem modEph_arms : (s.modEph f).arms = s.arms := rfl
@[simp] theorem modEph_aux : (s.modEph f).aux = s.aux := rfl
@[simp] theorem modEph_chans : (s.modEph f).chans = s.chans := rfl
@[simp] theorem modEph_solver : (s.modEph f).solver = s.solver := rfl
@[simp] theorem modEph_cascs : (s.modEph f).cascs = s.cascs := rfl
@[simp] theorem modEph_mans : (s.modEph f).mans = s.mans := rfl
@[simp] theorem modEph_dyns : (s.modEph f).dyns = s.dyns := rfl
@[simp] theorem modEph_lanes : (s.modEph f).lanes = s.lanes := rfl
@[simp] theorem modEph_lanesEccUn : (s.modEph f).lanesEccUn = s.lanesEccUn := rfl
@[simp] theorem modEph_lanesEccC : (s.modEph f).lanesEccC = s.lanesEccC := rfl
@[simp] theorem modEph_fbk : (s.modEph f).fbk = s.fbk := rfl
@[simp] theorem modEph_ssi : (s.modEph f).ssi = s.ssi := rfl
@[simp] theorem modEph_uid : (s.modEph f).uid = s.uid := rfl
@[simp] theorem modEph_mer : (s.modEph f).mer = s.mer := rfl
@[simp] theorem modEph_mers : (s.modEph f).mers = s.mers := rfl
@[simp] theorem modEph_aonSid : (s.modEph f).aonSid = s.aonSid := rfl
@[simp] theorem modEph_outImage : (s.modEph f).outImage = s.outImage := rfl
@[simp] theorem modEph_host : (s.modEph f).host = s.host := rfl
@[simp] theorem modEph_saf : (s.modEph f).saf = s.saf := rfl
@[simp] theorem modEph_halo : (s.modEph f).halo = s.halo := rfl
@[simp] theorem modEph_scomm : (s.modEph f).scomm = s.scomm := rfl
@[simp] theorem modEph_dbg : (s.modEph f).dbg = s.dbg := rfl
@[simp] theorem modEph_jrn : (s.modEph f).jrn = s.jrn := rfl
@[simp] theorem modEph_lines : (s.modEph f).lines = s.lines := rfl
@[simp] theorem modEph_clk : (s.modEph f).clk = s.clk := rfl
@[simp] theorem modEph_boot : (s.modEph f).boot = s.boot := rfl
@[simp] theorem modEph_aon : (s.modEph f).aon = s.aon := rfl
@[simp] theorem modEph_slots : (s.modEph f).slots = s.slots := rfl
@[simp] theorem modEph_cap : (s.modEph f).cap = s.cap := rfl

end

/-! ### State.modCap -/

section
variable (s : State) (f : Cap → Cap)

@[simp] theorem modCap_cap : (s.modCap f).cap = f s.cap := rfl
@[simp] theorem modCap_pending : (s.modCap f).pending = s.pending := rfl
@[simp] theorem modCap_outbox : (s.modCap f).outbox = s.outbox := rfl
@[simp] theorem modCap_free : (s.modCap f).free = s.free := rfl
@[simp] theorem modCap_variant : (s.modCap f).variant = s.variant := rfl
@[simp] theorem modCap_prof : (s.modCap f).prof = s.prof := rfl
@[simp] theorem modCap_now : (s.modCap f).now = s.now := rfl
@[simp] theorem modCap_paths : (s.modCap f).paths = s.paths := rfl
@[simp] theorem modCap_regs : (s.modCap f).regs = s.regs := rfl
@[simp] theorem modCap_shadow : (s.modCap f).shadow = s.shadow := rfl
@[simp] theorem modCap_due : (s.modCap f).due = s.due := rfl
@[simp] theorem modCap_commits : (s.modCap f).commits = s.commits := rfl
@[simp] theorem modCap_gate : (s.modCap f).gate = s.gate := rfl
@[simp] theorem modCap_reqs : (s.modCap f).reqs = s.reqs := rfl
@[simp] theorem modCap_cellEvs : (s.modCap f).cellEvs = s.cellEvs := rfl
@[simp] theorem modCap_reports : (s.modCap f).reports = s.reports := rfl
@[simp] theorem modCap_epoch : (s.modCap f).epoch = s.epoch := rfl
@[simp] theorem modCap_running : (s.modCap f).running = s.running := rfl
@[simp] theorem modCap_published : (s.modCap f).published = s.published := rfl
@[simp] theorem modCap_view : (s.modCap f).view = s.view := rfl
@[simp] theorem modCap_push : (s.modCap f).push = s.push := rfl
@[simp] theorem modCap_staleTicks : (s.modCap f).staleTicks = s.staleTicks := rfl
@[simp] theorem modCap_pushLate : (s.modCap f).pushLate = s.pushLate := rfl
@[simp] theorem modCap_cutFail : (s.modCap f).cutFail = s.cutFail := rfl
@[simp] theorem modCap_cutApplied : (s.modCap f).cutApplied = s.cutApplied := rfl
@[simp] theorem modCap_comApplied : (s.modCap f).comApplied = s.comApplied := rfl
@[simp] theorem modCap_planGen : (s.modCap f).planGen = s.planGen := rfl
@[simp] theorem modCap_coreSafety : (s.modCap f).coreSafety = s.coreSafety := rfl
@[simp] theorem modCap_stopAtStep1 : (s.modCap f).stopAtStep1 = s.stopAtStep1 := rfl
@[simp] theorem modCap_haloLimits : (s.modCap f).haloLimits = s.haloLimits := rfl
@[simp] theorem modCap_minsep : (s.modCap f).minsep = s.minsep := rfl
@[simp] theorem modCap_cores : (s.modCap f).cores = s.cores := rfl
@[simp] theorem modCap_data : (s.modCap f).data = s.data := rfl
@[simp] theorem modCap_code : (s.modCap f).code = s.code := rfl
@[simp] theorem modCap_scode : (s.modCap f).scode = s.scode := rfl
@[simp] theorem modCap_sdata : (s.modCap f).sdata = s.sdata := rfl
@[simp] theorem modCap_codeLocked : (s.modCap f).codeLocked = s.codeLocked := rfl
@[simp] theorem modCap_hashOk : (s.modCap f).hashOk = s.hashOk := rfl
@[simp] theorem modCap_arms : (s.modCap f).arms = s.arms := rfl
@[simp] theorem modCap_aux : (s.modCap f).aux = s.aux := rfl
@[simp] theorem modCap_chans : (s.modCap f).chans = s.chans := rfl
@[simp] theorem modCap_solver : (s.modCap f).solver = s.solver := rfl
@[simp] theorem modCap_cascs : (s.modCap f).cascs = s.cascs := rfl
@[simp] theorem modCap_mans : (s.modCap f).mans = s.mans := rfl
@[simp] theorem modCap_dyns : (s.modCap f).dyns = s.dyns := rfl
@[simp] theorem modCap_lanes : (s.modCap f).lanes = s.lanes := rfl
@[simp] theorem modCap_lanesEccUn : (s.modCap f).lanesEccUn = s.lanesEccUn := rfl
@[simp] theorem modCap_lanesEccC : (s.modCap f).lanesEccC = s.lanesEccC := rfl
@[simp] theorem modCap_fbk : (s.modCap f).fbk = s.fbk := rfl
@[simp] theorem modCap_ssi : (s.modCap f).ssi = s.ssi := rfl
@[simp] theorem modCap_uid : (s.modCap f).uid = s.uid := rfl
@[simp] theorem modCap_mer : (s.modCap f).mer = s.mer := rfl
@[simp] theorem modCap_mers : (s.modCap f).mers = s.mers := rfl
@[simp] theorem modCap_aonSid : (s.modCap f).aonSid = s.aonSid := rfl
@[simp] theorem modCap_outImage : (s.modCap f).outImage = s.outImage := rfl
@[simp] theorem modCap_host : (s.modCap f).host = s.host := rfl
@[simp] theorem modCap_saf : (s.modCap f).saf = s.saf := rfl
@[simp] theorem modCap_halo : (s.modCap f).halo = s.halo := rfl
@[simp] theorem modCap_scomm : (s.modCap f).scomm = s.scomm := rfl
@[simp] theorem modCap_dbg : (s.modCap f).dbg = s.dbg := rfl
@[simp] theorem modCap_jrn : (s.modCap f).jrn = s.jrn := rfl
@[simp] theorem modCap_lines : (s.modCap f).lines = s.lines := rfl
@[simp] theorem modCap_clk : (s.modCap f).clk = s.clk := rfl
@[simp] theorem modCap_boot : (s.modCap f).boot = s.boot := rfl
@[simp] theorem modCap_aon : (s.modCap f).aon = s.aon := rfl
@[simp] theorem modCap_slots : (s.modCap f).slots = s.slots := rfl
@[simp] theorem modCap_eph : (s.modCap f).eph = s.eph := rfl

end

end Sys2Proof.Machine
end

