-- ==== Sys2Proof/Tests/Slice0.lean ====
section
/-! SUPPORT. Tests: a term that each check of well-formedness refuses; for every statement with hypotheses a theorem
`witness_<statement>` that shows states and operands meeting them, clause by clause; and small tests of single steps, their
expected results worked out by hand from the rules they name. -/

open Sys2Proof Sys2Proof.Machine

namespace Sys2Proof.Tests

set_option maxRecDepth 20000

/-! ### States the tests start from -/

/-- A profile with one arm of two joints, one auxiliary axis on step channel 0, and one line. -/
def prof : Profile where
  arms := [some { joints := [0, 1], lims := [{ qmin := -1000, qmax := 1000 }, { qmin := -1000, qmax := 1000 }] }]
  aux := [{ ax := 5, out := .step 0, qmin := -1000, qmax := 1000 }]
  lines := [{ en := true }]
  pring := some 1
  plantPort := 100
  plantFrom := [1]

/-- Registers that point at the core's partition (g1), the shared region (g2), a misaligned word (g3) and code (g4 = 0);
g5 holds 3. -/
def regs : Vector DWord 32 :=
  ((((Vector.replicate 32 (0 : DWord)).set 1 0x10000000).set 2 0x20000000).set 3 0x10000001).set 5 3

/-- Every core runs, in safety state run, at epoch 8. -/
def busy : State := { State.reset with
  prof := prof, running := true, coreSafety := .run, epoch := 8
  cores := Vector.replicate 10 { mode := .running, g := regs } }

/-- `busy` with core c changed. -/
def busyCore (c : Fin 10) (f : Core → Core) : State := busy.setCore c (f (busy.core c))

/-! ### Well-formedness refuses -/

theorem test_wf_unaligned_write : (Instr.registerWrite .pcie 2 0 0).wf = false := by decide
theorem test_wf_unaligned_shadow : (Instr.shadowWrite .pcie 1 0 0).wf = false := by decide
theorem test_wf_low_read_of_high : (Instr.lowWordRead .jtag 4).wf = false := by decide
theorem test_wf_low_write_of_high : (Instr.lowWordWrite .jtag 4 0).wf = false := by decide
theorem test_wf_high_write_of_low : (Instr.highWordWrite .saf 8 0 0).wf = false := by decide
theorem test_wf_qword_unaligned : (Instr.qwordAccess .pcie 4 none 0).wf = false := by decide
theorem test_wf_bar2_past_end : (Instr.bar2Write 0xFFFFFFF [1, 2]).wf = false := by decide
theorem test_wf_short_ring_entry : (Instr.ringFetch 0 [] 0).wf = false := by decide
theorem test_wf_long_ssi_word : (Instr.ssiWord 0 (List.replicate 65 true) none false).wf = false := by decide
theorem test_wf_dma_code : (Instr.dmaSuspend 0 256 0).wf = false := by decide
theorem test_wf_flash_bytes : (Instr.flashDone [1]).wf = false := by decide
theorem test_wf_setpoint_kind : (Instr.setpointApply [⟨0, 7, 0, 0, 0⟩]).wf = false := by decide
theorem test_wf_loss_kind : (Instr.setpointLoss [⟨0, 7, 0, 0, 0⟩]).wf = false := by decide
theorem test_wf_long_service : (Instr.serviceTransmit .a (List.replicate 257 0) 0).wf = false := by decide
theorem test_wf_no_report : (Instr.faultReport 0 0).wf = false := by decide
theorem test_wf_empty_loop : (Instr.rpt 0 0 1).wf = false ∧ (Instr.rpt 0 1 0).wf = false := by decide
theorem test_wf_long_frame : (Instr.eventFrame .a ⟨4, 0, 0, 257, 0, 0, List.replicate 257 0, 0, false, 0⟩ 0).wf = false := by decide
theorem test_wf_short_link : (Instr.enumReceive .a .north ⟨4, 0, 0, 0, 0, 0, [], 0⟩ 0).wf = false := by decide
theorem test_wf_repeat_short_link : (Instr.frameRepeat .a .north (.link ⟨4, 0, 0, 0, 0, 0, [], 0⟩)).wf = false := by decide
theorem test_wf_accepts : (Instr.registerWrite .pcie 8 1 0).wf = true ∧ (Instr.add 0 1 2 3).wf = true
    ∧ (Instr.ringFetch 0 (List.replicate 64 0) 0).wf = true := by decide

/-! ### Witnesses: the cores -/

theorem witness_CoreRegisterFilesAndCsrs : (31 : Fin 32) ≠ 0 ∧ (31 : Fin 32) ≠ 1
    ∧ (0x060 : Nat) ∈ [0x002, 0x011, 0x030, 0x040, 0x041, 0x042, 0x043, 0x044, 0x045, 0x050, 0x060] := by decide

theorem witness_IntegerRegisterResults :
    busy.mayRun 0 .alu [.g 1, .g 2] (dstG 31) = true ∧ busy.mayRun 8 .mul [.g 0, .g 0] (dstG 0) = true
    ∧ busy.mayRun 9 .alu [.g 1, .g 5] (dstG 5) = true ∧ busy.mayRun 9 .mul [.g 31, .g 31] (dstG 31) = true
    ∧ busy.mayRun 9 .alu [.g 31] (dstG 1) = true ∧ (8 : DWord).getMsbD 60 = true := by decide

theorem witness_DivisionResultsAndFlags :
    busy.mayRun 0 .div [.g 1, .g 0] (dstG 31) = true ∧ busy.mayRun 9 .div [.g 1, .g 5] (dstG 0) = true := by decide

theorem witness_ImmediateResults :
    busy.mayRun 9 .alu [.g 1] (dstG 31) = true ∧ busy.mayRun 0 .alu [] (dstG 1) = true
    ∧ (63 : BitVec 12).toNat < 64 ∧ 64 ≤ (64 : BitVec 12).toNat := by decide

theorem witness_FloatingArithmeticResults :
    busy.mayRun 0 .fp [.f 1, .f 2] (some (.f 31)) = true ∧ busy.mayRun 8 .fdiv [.f 0, .f 0] (some (.f 0)) = true
    ∧ busy.mayRun 8 .fpShort [.f 1, .f 2] (some (.f 3)) = true ∧ busy.mayRun 8 .fsqrt [.f 1] (some (.f 3)) = true
    ∧ busy.mayRun 8 .fp [.f 1, .f 2, .f 3] (some (.f 4)) = true := by decide

theorem witness_FloatingCompareAndConvertResults :
    busy.mayRun 0 .fpShort [.f 1, .f 2] (dstG 31) = true ∧ busy.mayRun 8 .fpShort [.f 1] (dstG 3) = true
    ∧ busy.mayRun 8 .fp [.f 1] (dstG 3) = true ∧ busy.mayRun 8 .fp [.g 1] (some (.f 3)) = true
    ∧ busy.mayRun 8 .fpShort [.g 1] (some (.f 3)) = true
    ∧ f64IsNaN 0x7FF8000000000000 = true ∧ f64IsInf 0xFFF0000000000000 = true ∧ f64IsFinite 0x43E0000000000000 = true
    ∧ (f64ToIntExact false 0x43E0000000000000).1 > 2 ^ 63 - 1 ∧ f64IsFinite 0xC3E0000000000001 = true
    ∧ (f64ToIntExact false 0xC3E0000000000001).1 < -(2 ^ 63) ∧ -(2 ^ 63) ≤ (f64ToIntExact true 0xC3E0000000000000).1 := by decide

theorem witness_FloatingAndMemoryOperations :
    f64IsNaN (f64Sub 0x7FF0000000000000 0x7FF0000000000000).1 = true
    ∧ (f64Mul 0x0010000000000000 0x3FD5555555555555).2.getLsbD 1 = true
    ∧ Memory.wf [(3, 1), (9, 255)] = true ∧ 0 < [(7 : Byte)].length ∧ 2 < 3 ∧ 3 + 1 ≤ 4 := by decide

theorem witness_MemoryMapAndCellOperands :
    (8 : Fin 10).val ≠ 9 ∧ 0x7FFFFF < 0x800000 ∧ prof.priv64k * 65536 = 0xC0000 ∧ 0xBFFFF < 0xC0000 ∧ 0xC0000 < 0x10000000
    ∧ 0 < 0x800000 - 9 * 0xC0000 ∧ 0x1FFF < 0x2000
    ∧ (∃ o p : Nat, busy.region 0 0x100BFFFF = .data o false ∧ busy.region 1 0x10000000 = .data p false)
    ∧ (∃ o p : Nat, busy.region 8 0x100BFFFF = .data o false ∧ busy.region 1 0x20000000 = .data p true)
    ∧ 0x10000001 % 8 ≠ 0 ∧ 0x0FFFFFF8 % 8 = 0 ∧ 0x0FFFFFF8 < 0x10000000 ∧ 0x100C0000 % 8 = 0
    ∧ 0x100BFFF8 < 0x10000000 + 0xC0000 ∧ 0x10000000 + 0xC0000 < 0x100BFFF8 + 16 ∧ 0x100BFFF8 + 8 ≤ 0x10000000 + 0xC0000 := by
  refine ⟨by decide, by decide, by decide, by decide, by decide, by decide, by decide, ⟨0xBFFFF, 0xC0000, by decide, by decide⟩,
    ⟨9 * 0xC0000 - 1, 9 * 0xC0000, by decide, by decide⟩, ?_⟩
  decide

/-- Each place an address can lead to is met by an access of LittleEndianLoadValues. -/
theorem witness_LittleEndianLoadValues :
    busy.mayRun 0 .load [.g 1] (dstG 31) = true ∧ busy.mayRun 9 .load [.g 1] (dstG 0) = true ∧ busy.mayRun 8 .load [.g 1] (some (.f 31)) = true
    ∧ busy.mayRun 0 .store [.g 1, .g 5] none = true ∧ busy.mayRun 9 .store [.g 1, .g 5] none = true
    ∧ busy.mayRun 8 .store [.g 1, .f 5] none = true
    ∧ busy.region 0 0 = .code 0 ∧ busy.region 0 0x10000000 = .data 0 false ∧ busy.region 0 0x20000000 = .data (9 * 0xC0000) true
    ∧ busy.region 0 0x30001FFF = .view 0x1FFF ∧ busy.region 9 0x10000000 = .sdata 0 ∧ busy.region 9 0x40000000 = .periph 0
    ∧ busy.region 9 0x41000000 = .bar0 0 ∧ busy.region 0 0x00800000 = .nowhere := by decide

theorem witness_AtomicResults :
    busy.mayRun 0 .atomic [.g 1, .g 5] (dstG 31) = true ∧ busy.mayRun 8 .atomic [.g 2, .g 5, .g 6] (dstG 6) = true
    ∧ ((busy.core 0).rg 1).toNat % 8 = 0 ∧ ((busy.core 0).rg 3).toNat % 8 ≠ 0 ∧ busy.region 0 0x20000000 = .data (9 * 0xC0000) true
    ∧ ∃ a : SharedAcc, ((busyCore 0 fun k => { k with shared := some ⟨.amo 1 0 5 0, 0x20000000, 0, 4, false, 0⟩ }).core 0).shared = some a
        ∧ a.nextTick = false :=
  ⟨by decide, by decide, by decide, by decide, by decide, ⟨.amo 1 0 5 0, 0x20000000, 0, 4, false, 0⟩, by decide, by decide⟩

theorem witness_UncorrectableErrorsTrap :
    busy.mayRun 0 .load [.g 1] (dstG 31) = true ∧ busy.mayRun 9 .store [.g 1, .g 5] none = true
    ∧ ((busy.core 0).rg 1 + (4 : BitVec 12).signExtend 64).toNat % 4 = 0
    ∧ (∃ off sh, busy.region 0 0x10000004 = .data off sh ∨ busy.region 0 0x10000004 = .sdata off)
    ∧ (∃ off sh, busy.region 9 0x10000000 = .data off sh ∨ busy.region 9 0x10000000 = .sdata off)
    ∧ (∃ off, busy.region 0 4 = .code off) ∧ busy.mayRun 8 .atomic [.g 2, .g 5] (dstG 7) = true
    ∧ (∃ off sh, busy.region 8 0x20000000 = .data off sh) :=
  ⟨by decide, by decide, by decide, ⟨4, false, by decide⟩, ⟨0, false, by decide⟩, ⟨4, by decide⟩, by decide, ⟨9 * 0xC0000, true, by decide⟩⟩

theorem witness_BranchAndJumpResults :
    busy.mayRun 0 .branch [.g 1, .g 2] none = true ∧ busy.mayRun 9 .jal [] (dstG 31) = true ∧ busy.mayRun 9 .jalr [.g 1] (dstG 1) = true
    ∧ ((busy.core 9).rg 1 + (4 : BitVec 12).signExtend 64).getLsbD 1 = false
    ∧ ((busy.core 9).rg 1 + (1 : BitVec 12).signExtend 64).getLsbD 0 = true := by decide

theorem witness_CsrInstructionResults :
    busy.mayRun 0 .sys [] (dstG 1) = true ∧ busy.mayRun 9 .sys [.g 5] (dstG 1) = true
    ∧ csrDefined 0 0x040 = true ∧ csrDefined 9 0x040 = false ∧ csrReadOnly 0x021 = true ∧ csrReadOnly 0x043 = false
    ∧ busy.cptLegal ((1#64 <<< 63 ||| 0xFFFFF) &&& cptMask) = false := by decide

theorem witness_WaitEventAndTrapResults :
    let late := busyCore 9 fun k => { k with late := true }
    let ev := busyCore 0 fun k => { k with evq := [⟨1, 1, 0, 7, 8, 0⟩] }
    let inT := busyCore 9 fun k => { k with intrap := true, ie := false, pie := true }
    busy.mayRun 0 .sys [] (dstG 1) = true ∧ (busy.core 9).late = false ∧ late.mayRun 9 .sys [] (dstG 1) = true ∧ (late.core 9).late = true
    ∧ (busy.core 0).evq = [] ∧ ev.mayRun 0 .sys [] (dstG 0) = true ∧ (ev.core 0).evq = ⟨1, 1, 0, 7, 8, 0⟩ :: []
    ∧ (8 : BitVec 12).toNat < 9 ∧ 9 ≤ (9 : BitVec 12).toNat ∧ (15 : BitVec 12).toNat < 16 ∧ 16 ≤ (16 : BitVec 12).toNat
    ∧ busy.mayRun 0 .sys [.g 5] none = true ∧ inT.mayRun 9 .sys [] none = true ∧ (inT.core 9).intrap = true
    ∧ busy.mayRun 9 .sys [] none = true ∧ (busy.core 9).intrap = false ∧ busy.canIssue 0 = true
    ∧ busy.canIssue 9 = true ∧ Ecc.corrected ≠ .uncorr := by decide

theorem witness_CyclePointsFireAndPend :
    let on := busyCore 0 fun k => { k with cpt := k.cpt.set 3 (5#64 <<< 60), ie := true, cptPend := 8 }
    on.running = true ∧ on.corePresent 0 = true ∧ (on.core 0).mode = .running ∧ (on.core 0).frozen = false
    ∧ (on.core 0).cpt[(3 : Fin 4)].getLsbD 63 = false ∧ (busyCore 0 fun k => { k with cpt := k.cpt.set 3 (9#64 <<< 60) }).epoch % prof.planDiv = 0
    ∧ ((busyCore 0 fun k => { k with cpt := k.cpt.set 3 (9#64 <<< 60) }).core 0).cpt[(3 : Fin 4)].getLsbD 63 = true
    ∧ ((busyCore 0 fun k => { k with cpt := k.cpt.set 3 (8#64 <<< 60) }).core 0).cpt[(3 : Fin 4)].getLsbD 60 = false
    ∧ (on.core 0).ie = true ∧ (on.core 0).cptPend.getLsbD 3 = true ∧ (∀ j < 3, (on.core 0).cptPend.getLsbD j = false)
    ∧ (busy.core 0).ie = false := by decide

theorem witness_SleepingCoreCyclePoints :
    let asleep (w : Wait) := busyCore 0 fun k => { k with mode := .waiting, wait := some w, cpt := k.cpt.set 0 (12#64 <<< 60) }
    let s := asleep (.tick 3)
    let j := asleep (.job 3 0 0)
    s.running = true ∧ s.corePresent 0 = true ∧ (s.core 0).mode = .waiting ∧ (s.core 0).wait = some (.tick 3) ∧ (s.core 0).frozen = false
    ∧ (s.core 0).cpt[(0 : Fin 4)].getLsbD 63 = true ∧ (s.core 0).cpt[(0 : Fin 4)].getLsbD 60 = false
    ∧ (s.core 0).cpt[(0 : Fin 4)].getLsbD 62 = true ∧ (s.core 0).ie = false ∧ (j.core 0).wait = some (.job 3 0 0)
    ∧ ((busyCore 0 fun k => { k with cpt := k.cpt.set 0 (8#64 <<< 60) }).core 0).cpt[(0 : Fin 4)].getLsbD 62 = false := by decide

theorem witness_BudgetFreezeStartAndStop :
    busy.running = true ∧ busy.coreLive 0 = true ∧ (busy.core 0).frozen = false ∧ Ecc.corrected ≠ .uncorr ∧ busy.canIssue 0 = true ∧ (busy.setReg 0x40108 100).regN 0x40108 ≠ 0 ∧ (busy.core 0).overrun = false
    ∧ ({ State.reset with due := [(0x40100, 1)] } : State).runWritten 0 = some true
    ∧ ({ State.reset with due := [(0x40100, 0)] } : State).runWritten 0 = some false
    ∧ State.reset.corePresent 0 = true ∧ (State.reset.core 0).mode = .stopped ∧ State.reset.jrn.replay[(0 : Fin 9)] = []
    ∧ ((busyCore 0 fun k => { k with mode := .halted, cleanup := true }).core 0).cleanup = true := by decide

theorem witness_WaitsEndAtTheirBoundary :
    let asleep (c : Fin 10) (w : Wait) := busyCore c fun k => { k with mode := .waiting, wait := some w, waitFrom := 7 }
    ((asleep 9 (.plan 3)).core 9).mode = .waiting ∧ ((asleep 9 (.plan 3)).core 9).waitFrom ≠ busy.halo.period.toNat
    ∧ ((asleep 0 (.plan 3)).core 0).waitFrom < busy.epoch ∧ ((asleep 0 (.plan 3)).core 0).wait = some (.plan 3)
    ∧ ((asleep 0 (.plan 3)).core 0).mode = .waiting
    ∧ ((asleep 9 (.plan 3)).core 9).wait = some (.plan 3) ∧ ((asleep 0 (.event 3)).core 0).wait = some (.event 3)
    ∧ ((asleep 0 (.tick 3)).core 0).wait = some (.tick 3) ∧ ((asleep 0 (.line 3 0 true 5 9)).core 0).wait = some (.line 3 0 true 5 9)
    ∧ ((asleep 0 (.job 3 0 9)).core 0).wait = some (.job 3 0 9)
    ∧ busy.running = true ∧ busy.epoch % prof.planDiv = 0 ∧ busy.corePresent 0 = true ∧ (busy.core 0).wait = none
    ∧ ({ busy with reqs := [⟨8, 7, .signal 0 5⟩] } : State).reqs = [⟨8, 7, .signal 0 5⟩] ∧ busy.coreLive 0 = true
    ∧ (busy.core 0).evq = [] ∧ busy.cellEvs = [] := by decide

/-! ### Witnesses: cell instructions, the general statements and register accesses -/

/-- A timed dwell of 100 ns for the two joints of arm 0, at the start of core 0's partition. -/
def segData : Memory := [(0, 1), (4, 3), (5, 255), (6, 2), (27, 128), (29, 128), (32, 100)]
def full : List SegDesc := List.replicate 64 {}

theorem witness_SegmentInstructionResults :
    let s : State := { busy with data := segData }
    let d := segOfBytes (segData.readN 0 128)
    (0 : Fin 9).val = (0 : Fin 8).val ∧ s.mayRun 0 (.cell 1) [.g 1] (dstG 7) = true
    ∧ s.operand 0 ((s.core 0).rg 1).toNat 128 .clean = .inr 0
    ∧ 64 ≤ full.length ∧ s.arms[(0 : Fin 8)].staged.length < 64 ∧ s.segCheck 0 d = none ∧ busy.segCheck 0 (segOfBytes (busy.data.readN 0 128)) = some 0
    ∧ s.coreSafety = .run ∧ State.reset.coreSafety ≠ .run ∧ s.activeCount 0 0 < 64
    ∧ 64 ≤ ({ s with reqs := List.replicate 64 ⟨0, 8, .sega d⟩ } : State).activeCount 0 0
    ∧ s.mayRun 0 (.cell 1) [] (dstG 7) = true ∧ s.mayRun 8 (.cell 1) [] (dstG 7) = true ∧ s.mayRun 8 (.cell 1) [.g 5] (dstG 7) = true
    ∧ ((s.core 8).rg 0).toNat < 256 ∧ (∀ k < 8, ((s.core 8).rg 0).getLsbD k = true → s.armPresent k = true) ∧ (s.core 0).rg 4 = 0
    ∧ (s.core 0).rg 5 ≠ 0 ∧ s.operand 0 ((s.core 0).rg 3).toNat 128 .clean = .inl (3, 0x10000001)
    ∧ ¬ (d.action = 1 ∧ s.is8064 = true ∧ 64 ≤ d.actTgt.toNat ∧ d.actTgt.toNat < 128) ∧ Ecc.corrected ≠ .uncorr := by decide

/-- A descriptor whose ACTTGT names axis 64 of a part that has 64 axes. -/
theorem witness_SegmentInstructionResults_fused :
    let s : State := { busy with variant := .s8064, data := segData.writeN 0x38 [1, 64] }
    let d := segOfBytes (s.data.readN 0 128)
    d.action = 1 ∧ s.is8064 = true ∧ 64 ≤ d.actTgt.toNat ∧ d.actTgt.toNat < 128
    ∧ s.operand 0 ((s.core 0).rg 1).toNat 128 .clean = .inr 0 ∧ s.mayRun 0 (.cell 1) [.g 1] (dstG 7) = true := by decide

/-- Core 8 with axis 5 in g6 and axis 0 in g0; its partition starts with a position move, then a STOP. -/
def auxState : State := { busyCore 8 fun k => { k with g := k.g.set 6 5 } with
  data := [(0x600000, 1), (0x600004, 1), (0x600012, 128), (0x600013, 63), (0x600016, 128), (0x600017, 63), (0x60001A, 128), (0x60001B, 63),
    (0x600020, 1), (0x600024, 4)] }

theorem witness_AuxiliaryAndLineWaitResults :
    let s := auxState
    let m := auxOfBytes (s.data.readN 0x600000 32)
    let st := auxOfBytes (s.data.readN 0x600020 32)
    let fault : State := { busy with view := some { lines := [{ status := 4 }] } }
    s.mayRun 8 (.cell 1) [.g 1, .g 6] (dstG 7) = true ∧ (s.core 8).rg 6 = BitVec.ofNat 64 (5 : Fin 128).val ∧ s.axisPresent 5 = true
    ∧ s.operand 8 ((s.core 8).rg 1).toNat 32 .clean = .inr 0x600000 ∧ s.coreSafety = .run ∧ (s.auxProf 5).isSome = true ∧ m.check = none
    ∧ m.isStop = false ∧ st.check = none ∧ st.isStop = true ∧ (s.auxProf 0).isSome = false ∧ s.aux[(5 : Fin 128)].queue.length < 8
    ∧ ({ m with vel := 0 } : AuxMove).check = some 0x10 ∧ 8 ≤ (List.replicate 8 m).length
    ∧ (s.coreSafety ≠ .dusk)
    ∧ (0 : Fin 9) ≠ 8 ∧ busy.mayRun 0 (.cell 1) [.g 1, .g 5] (dstG 7) = true ∧ (15 : BitVec 12).toNat = (7 : Fin 8).val + 8
    ∧ (busy.prof.lines.getD 0 {}).en = true ∧ (fault.viewLine 0).status.getLsbD 2 = true ∧ (busy.viewLine 0).status.getLsbD 2 = false
    ∧ ((busy.core 0).rg 0).sle (busy.viewLine 0).count = true ∧ ((busy.core 0).rg 1).sle (busy.viewLine 0).count = false
    ∧ (busy.core 0).rg 5 ≠ 0 ∧ ((busy.core 0).rg 5).toNat ≤ busy.epoch ∧ (busy.core 0).rg 0 = 0 := by decide

/-- A dense solve of one unknown, at the start of core 0's partition. -/
def jobData : Memory :=
  [(0, 1), (2, 1), (8, 1), (12, 1), (0x10, 0x80), (0x13, 0x10), (0x14, 8), (0x19, 0x10), (0x1B, 0x10), (0x1D, 0x10), (0x21, 2), (0x23, 0x10),
    (0x46, 0xF0), (0x47, 0x3F)]
def aJob : Job := { handle := 3, core := 0, d := {}, allowed := 1 }

theorem witness_SolverInstructionResults :
    let s : State := { busy with data := jobData }
    let d := jobOfBytes (jobData.readN 0 128)
    let opened : State := { busy with solver := { busy.solver with queue := [aJob] } }
    let done : State := { busy with solver := { busy.solver with delivered := [(3, 1)] } }
    s.mayRun 0 (.cell 1) [.g 1] (dstG 7) = true ∧ s.operand 0 ((s.core 0).rg 1).toNat 128 .clean = .inr 0
    ∧ (∀ i < 4, d.tmask.getLsbD i = true → s.tilesPresent.getLsbD i = true) ∧ (∀ i < 8, d.armMask.getLsbD i = true → s.armPresent i = true)
    ∧ s.heldJobs 0 < 8 ∧ s.jobCheck 0 0x10000000 d = none ∧ busy.jobCheck 0 0x10000000 (jobOfBytes (busy.data.readN 0 128)) = some 0
    ∧ 8 ≤ ({ busy with solver := { busy.solver with queue := List.replicate 8 aJob } } : State).heldJobs 0
    ∧ busy.mayRun 0 (.cell 1) [.g 5] (dstG 7) = true ∧ (done.collect 0 3).isSome = true ∧ (opened.collect 0 3).isSome = false
    ∧ opened.jobOpen 0 3 = true ∧ busy.jobOpen 0 3 = false ∧ busy.mayRun 0 (.cell 1) [.g 5, .g 0] (dstG 7) = true
    ∧ ((busy.core 0).rg 5).setWidth 32 = 3#32 ∧ (busy.core 0).rg 5 ≠ 0 ∧ ((busy.core 0).rg 5).toNat ≤ busy.epoch ∧ (busy.core 0).rg 0 = 0
    ∧ (3 : Word).toNat / 2 ^ 28 = (0 : Fin 9).val ∧ done.solver.delivered = [] ++ (3, 1) :: [] := by decide

theorem witness_PublicationAndJournalInstructionResults :
    let s := busyCore 0 fun k => { k with g := (k.g.set 6 8).set 7 1 }
    let ring : Ring := { released := [(0, [1])] }
    let q : State := { s with
      prof := { prof with routes := [⟨1, none, 0⟩] }
      host := { s.host with rings := s.host.rings.set 1 ring } }
    let j : State := { q with jrn := { q.jrn with entries := [(0, ⟨9, false, 0, 0, 0, 5, []⟩)], replay := q.jrn.replay.set 0 [9] } }
    s.mayRun 0 (.cell 1) [.g 1, .g 6] (dstG 9) = true ∧ (s.core 0).rg 6 = BitVec.ofNat 64 8
    ∧ s.operand 0 ((s.core 0).rg 1).toNat (32 * 8) .clean = .inr 0 ∧ s.operand 0 ((s.core 0).rg 1).toNat 8 .clean = .inr 0
    ∧ (1 : BitVec 12).toNat < 2 ∧ (0 : Fin 9) ≠ 8 ∧ (s.core 0).rg 0 = BitVec.ofNat 64 0
    ∧ q.mayRun 0 (.cell 1) [.g 1, .g 7] (dstG 9) = true ∧ (q.core 0).rg 7 = BitVec.ofNat 64 (1 : Fin 4).val ∧ q.route 1 1 = 0
    ∧ q.operand 0 ((q.core 0).rg 1).toNat 64 .clean = .inr 0 ∧ q.jrn.replay[(0 : Fin 9)] = [] ∧ (q.host.rings[(0 : Fin 4)]).released = []
    ∧ (q.host.rings[(1 : Fin 4)]).released = (0, [1]) :: [] ∧ j.jrn.replay[(0 : Fin 9)] = 9 :: []
    ∧ 0 < 2048 ∧ s.outstanding 0 9 = false ∧ j.outstanding 0 9 = true
    ∧ s.mayRun 0 (.cell 1) [.g 1] (dstG 9) = true ∧ s.mayRun 8 (.cell 1) [] (dstG 9) = true
    ∧ (s.profItem 0 1).isSome = true ∧ s.profItem 0 0xFFF = none ∧ (255 : BitVec 12).toNat < 256 ∧ 256 ≤ (256 : BitVec 12).toNat := by decide

theorem witness_StepRunsTheFrontCommand : State.reset.pending = [] := by decide

theorem witness_EveryCommandRunsAndKeepsTheFuses : (exec .tapBypass State.reset) = .next State.reset := rfl

theorem witness_MemoriesStayCanonical : State.reset.MemoriesCanonical ∧ step State.reset = .next State.reset :=
  ⟨⟨by decide, by decide, by decide, by decide, by decide, by
    intro f hf
    have : State.reset.keyframes = [] := by decide
    rw [this] at hf; cases hf⟩, rfl⟩

theorem witness_EventQueuesStayBounded : State.reset.QueuesBounded ∧ step State.reset = .next State.reset :=
  ⟨⟨by decide, by
    intro f hf
    have : State.reset.keyframes = [] := by decide
    rw [this] at hf; cases hf⟩, rfl⟩

theorem witness_EventsMergeAndGateReleasesInOrder :
    let a (cls : Byte) (n : Nat) : Core := { evq := List.replicate n ⟨cls, 1, 0, 0, 0, 0⟩ }
    (a 5 64).evq.length ≤ 64 ∧ (∃ x ∈ (a 1 1).evq, x.cls = 1 ∧ x.source = 0) ∧ (a 5 63).evq.length < 64 ∧ (∃ x ∈ (a 5 64).evq, x.cls = 5)
    ∧ (a 4 59).evq.length - min ((a 4 59).evq.filter fun x => x.cls == 5).length 4 < 60
    ∧ 60 ≤ (a 4 60).evq.length - min ((a 4 60).evq.filter fun x => x.cls == 5).length 4 := by decide

theorem witness_StampsNameTheNextBoundary :
    let rp : State := { State.reset with eph := { State.reset.eph with replay := true } }
    State.reset.eph.replay = false ∧ rp.eph.replay = true ∧ State.reset.stopped (gateDomain 6) = false
    ∧ ({ State.reset with clk := { State.reset.clk with stopped := 0x1FF } } : State).stopped (gateDomain 6) = true
    ∧ (0 : DWord).toNat + 1000 < (State.reset.epoch + 1) * State.reset.tTick
    ∧ (State.reset.epoch + 1) * State.reset.tTick ≤ (0x20000 : DWord).toNat + 1000 := by decide

theorem witness_RegisterReadsAndLatches :
    State.reset.Reaches .pcie false 0x20000 4 ∧ State.reset.Reaches .pcie false 0x20008 4 ∧ State.reset.Reaches .pcie false 0x2000C 4
    ∧ State.reset.Reaches .pcie false 0x20008 8
    ∧ (regAt 0x20000 = some ⟨.almTiming, 0, 0, false, false, false⟩) ∧ (regAt 0x20008 = some ⟨.almEpoch, 0, 0, false, true, false⟩)
    ∧ (regAt 0x2000C = some ⟨.almEpoch, 0, 0, true, true, false⟩) ∧ Path.pcie ≠ .jtag
    ∧ exec (.lowWordWrite .pcie 2 0) State.reset = .next State.reset := by
  simp only [State.Reaches]
  exact ⟨by decide, by decide, by decide, by decide, by decide, by decide, by decide, by decide, rfl⟩

theorem witness_RegisterWritesCommitBothWords :
    State.reset.Reaches .pcie true 0x200 4 ∧ State.reset.Reaches .pcie true 0x204 4 ∧ State.reset.Reaches .pcie true 0x200 8
    ∧ (regAt 0x200 = some ⟨.glbCqbase, 0, 0, false, true, false⟩) ∧ (regAt 0x204 = some ⟨.glbCqbase, 0, 0, true, true, false⟩)
    ∧ State.reset.Reaches .pcie true 0x404 4 ∧ (regAt 0x404 = some ⟨.glbFladdr, 0, 0, false, false, false⟩)
    ∧ State.reset.Writable 0x404 ⟨.glbFladdr, 0, 0, false, false, false⟩ ∧ (RegId.glbFladdr, 0, 0x10000, 0x7FFFFFF) ∈ heldRegisters
    ∧ ¬ ({ State.reset with boot := { State.reset.boot with stage := 6 } } : State).Writable 0x20010 ⟨.almPushCtrl, 0, 0, false, false, true⟩ := by
  simp only [State.Reaches, State.Writable]
  exact ⟨by decide, by decide, by decide, by decide, by decide, by decide, by decide, by decide, by decide, by decide⟩

theorem witness_ShadowWritesChangeNothingInForce :
    let s : State := { State.reset with boot := { State.reset.boot with stage := 7 } }
    let r : RegAt := (regAt 0x40108).getD ⟨.almTiming, 0, 0, false, false, false⟩
    s.Reaches .pcie true 0x40108 4 ∧ regAt 0x40108 = some r ∧ r.shad = true ∧ r.high = false ∧ r.wide = false
    ∧ s.stopped (gateDomain (srcOf .pcie)) = false
    ∧ s.Writable 0x40108 r ∧ s.eph.replay = false ∧ blockOf 0x40108 = some .pln := by
  simp only [State.Reaches, State.Writable]
  decide

theorem witness_CommitsApplyWholeOrNotAtAll :
    let s : State := { State.reset with boot := { State.reset.boot with stage := 7 } }
    s.Reaches .pcie true (cbBase .cap + 0xFFC) 4 ∧ s.eph.replay = false ∧ s.stopped 7 = false ∧ s.blockUp (cbBase .cap) = true
    ∧ s.validate [] = none ∧ s.validate [(0x40108, 5)] = none ∧ (regAt 0x40108).isSome = true ∧ ([(0x40108, (5 : Word))].map Prod.fst).Nodup ∧ (s.validate [(0xA1104, 0x3F)]).isSome = true := by
  simp only [State.Reaches]
  decide

theorem witness_BadAccessesAreCounted :
    let s := busy
    s.pathOpen .pcie true = true ∧ ¬ ((3 = 4 ∨ 3 = 8) ∧ (0 : BitVec 25).toNat % 3 = 0) ∧ bar0Known 0x900 4 = false ∧ s.pathOpen .jtag true = false
    ∧ s.powered = true ∧ s.stopped 1 = false ∧ 0x800000 ≤ (0xFFFFFE : BitVec 28).toNat ∧ (0xFFFFFE : BitVec 28).toNat + [(1 : Byte), 2].length ≤ 0x1000000
    ∧ (0x1D00FFF : BitVec 28).toNat + [(1 : Byte)].length ≤ 0x1D01000 ∧ (0x7FFFFF : BitVec 28).toNat < 0x800000
    ∧ (0x1CFFFFF : BitVec 28).toNat < 0x1D00000 ∧ 0x1D01000 ≤ (0x1D01000 : BitVec 28).toNat := by decide

theorem witness_SafetyCoreWindowAccesses :
    let s : State := busyCore 9 fun k => { k with g := (k.g.set 6 0x41000000).set 7 0x41000800 }
    0 < 0x2000000 ∧ ((s.core 9).rg 6 + (4 : BitVec 12).signExtend 64).toNat = 0x41000000 + 4
    ∧ s.mayRun 9 .load [.g 6] (dstG 1) = true ∧ bar0Known 4 4 = true ∧ s.accKind .saf false 4 = .ok ∧ s.accKind .saf true 4 = .ok ∧ bar0Known 0x900 4 = false
    ∧ ((s.core 9).rg 7 + (256 : BitVec 12).signExtend 64).toNat = 0x41000000 + 0x900
    ∧ s.mayRun 9 .store [.g 6, .g 1] none = true
    ∧ ({ s with clk := { s.clk with stopped := 0x1FF } } : State).accKind .saf true 0x40108 = .stopped ∧ bar0Known 0x40108 4 = true := by decide

/-! ### Witnesses: plans, axes, lines, feedback, control and lanes -/

def dwell : SegDesc := segOfBytes (segData.readN 0 128)
/-- A move of joint 0 to a position past its upper limit. -/
def farMove : SegDesc := { dwell with kind := 1, dwellNs := 0, cspeed := 0x3FF0000000000000, target := [2000] }

/-- `busy` with arm 0 changed. -/
def busyArm (f : Arm → Arm) : State := { busy with arms := busy.arms.set 0 (f busy.arms[(0 : Fin 8)]) }
def withReq (s : State) (r : Req) : State := { s with reqs := [⟨0, 7, r⟩] }

theorem witness_TickBoundaryAndAlmanac :
    let push : State := { busy with push := some ⟨0, 0x1000, {}⟩ }
    busy.running = true ∧ busy.stopped 1 = false ∧ busy.boot.power ≠ .quiet ∧ busy.eph.replay = false
    ∧ ({ busy with boot := { busy.boot with power := .quiet } } : State).boot.power = .quiet
    ∧ ({ busy with clk := { busy.clk with stopped := 0x1FF } } : State).stopped 1 = true
    ∧ push.push = some ⟨0, 0x1000, {}⟩ := by decide

theorem witness_JournalCommitResults :
    let jr : State := withReq busy (.jrec 1 false 0 0 [])
    let jd : State := { withReq busy (.jdone 9 1) with jrn := { busy.jrn with entries := [(0, ⟨9, false, 0, 0, 0, 5, []⟩)] } }
    jr.dueReqs Req.isJrec = [⟨0, 7, .jrec 1 false 0 0 []⟩] ∧ jr.jrn.freeIdx = some 0
    ∧ jd.dueReqs Req.isJdone = [⟨0, 7, .jdone 9 1⟩] ∧ jd.jrn.entries.find? (fun y => y.2.seq == 9) = some (0, ⟨9, false, 0, 0, 0, 5, []⟩)
    ∧ jd.host.backlog.length < 4096 := by decide

theorem witness_CutoverAndAppendResults :
    let good := withReq (busyArm fun a => { a with staged := [dwell] }) .cut
    let bad := withReq (busyArm fun a => { a with staged := [farMove] }) .cut
    let p : ArmProf := (busy.armProf 0).getD {}
    busy.dueReqs Req.isCut = [] ∧ good.dueReqs Req.isCut ≠ [] ∧ good.coreSafety = .run ∧ good.stagedArms = [(0, p)]
    ∧ (∀ x ∈ good.stagedArms, good.cutCause x.1 x.2 = none) ∧ bad.stagedArms = [] ++ (0, p) :: [] ∧ (bad.cutCause 0 p).isSome = true
    ∧ ({ good with coreSafety := .dusk } : State).coreSafety ≠ .run
    ∧ (withReq busy (.sega dwell)).dueReqs Req.isSega = [⟨(0 : Fin 8).castSucc, 7, .sega dwell⟩] ∧ busy.armProf (0 : Fin 8).val = some p := by decide

theorem witness_StopAndSegmentEndResults :
    let r : RunSeg := { nStart := 1, q0 := [0, 0] }
    let run := busyArm fun a => { a with active := [{ d := dwell }], run := some r }
    let stp := busyArm fun a => { a with stopping := .stop, active := [{ d := dwell }] }
    stp.arms[(0 : Fin 8)].stopping = .stop ∧ stp.arms[(0 : Fin 8)].active = { d := dwell } :: [] ∧ f64IsZero stp.arms[(0 : Fin 8)].sigma = true
    ∧ stp.arms[(0 : Fin 8)].handE = [] ∧ run.arms[(0 : Fin 8)].stopping ≠ .stop ∧ (busyArm fun a => { a with handK := 64 }).arms[(0 : Fin 8)].handK = 64
    ∧ run.arms[(0 : Fin 8)].active = [{ d := dwell }] ∧ run.arms[(0 : Fin 8)].run = some r ∧ dwell.timed = true
    ∧ dwell.dwellNs.toNat ≤ (run.epoch + 1 - 1) * run.tTick ∧ run.coreSafety ≠ .sto
    ∧ (run.epoch + 1 - 9) * run.tTick < dwell.dwellNs.toNat := by decide

theorem witness_AuxiliaryMoveResults :
    let move : AuxMove := { moveId := 1, kind := 1 }
    let stop : AuxMove := { moveId := 1, kind := 4 }
    let s : State := { busy with reqs := [⟨8, 7, .auxq 5 move⟩] }
    let ax (f : AuxGen → AuxGen) : State := { busy with aux := busy.aux.set 5 (f {}) }
    s.dueReqs Req.isAuxq = [⟨8, 7, .auxq 5 move⟩] ∧ (s.auxProf 5).isSome = true ∧ move.isStop = false ∧ stop.isStop = true
    ∧ (ax fun g => { g with stopping := .stop }).aux[(5 : Fin 128)].stopping = .stop
    ∧ f64IsZero (ax fun g => { g with stopping := .stop }).aux[(5 : Fin 128)].v = true
    ∧ f64IsZero (ax fun g => { g with v := 0x3FF0000000000000 }).aux[(5 : Fin 128)].v = false
    ∧ f64IsZero (ax fun g => { g with stopping := .stop }).aux[(5 : Fin 128)].aprev = true ∧ s.coreSafety = .run ∧ State.reset.coreSafety ≠ .run
    ∧ (ax fun g => { g with stallDue := true }).aux[(5 : Fin 128)].stallDue = true
    ∧ assocHas ({ busy with due := [(0xD100C + 5 * 0x40, 1)] } : State).due (0xD100C + 5 * 0x40) = true
    ∧ (busy.chanAxis 0).isSome = true := by decide

theorem witness_SolverJobCommandResults :
    let s := withReq busy (.job aJob)
    let j : Job := { aJob with d := { nt := 1, tmask := 0, tickMax := 1 } }
    let q (f : Solver → Solver) : State := { busy with solver := f busy.solver }
    let e : Job := { j with ended := some (7, 0) }
    s.dueReqs Req.isJob = [⟨0, 7, .job aJob⟩] ∧ busy.running = true ∧ busy.solver.clock < busy.runcyc
    ∧ (q fun v => { v with queue := [j] }).solver.queue = [j] ∧ j.d.nt.toNat ≤ popcount4 (j.allowed &&& ~~~ busy.solver.busy)
    ∧ (q fun v => { v with clock := busy.runcyc }).runcyc ≤ (q fun v => { v with clock := busy.runcyc }).solver.clock
    ∧ (q fun v => { v with running := [{ j with started := some (8, 0), result := { cycles := 1 } }] }).solver.running
        = [{ j with started := some (8, 0), result := { cycles := 1 } }]
    ∧ 8 + (0 + 1 - 1) / busy.runcyc = busy.epoch ∧ j.d.tickMax ≠ 0 ∧ Ecc.corrected ≠ .uncorr
    ∧ (q fun v => { v with running := [{ j with started := some (8, 0) }] }).solver.queue = []
    ∧ (withReq (q fun v => { v with queue := [j] }) (.jcancel j.handle)).dueReqs Req.isJcancel = [⟨0, 7, .jcancel j.handle⟩]
    ∧ (withReq (q fun v => { v with queue := [j] }) (.jcancel j.handle)).dueReqs Req.isJob = []
    ∧ (q fun v => { v with ended := [e] }).solver.ended = [e] ∧ e.ended = some (7, 0) ∧ 7 < busy.epoch ∧ e.d.outLen.toNat ≤ 100000 := by decide

theorem witness_LineDecoderResults :
    abOf (majority 0) (majority 7) = 1 ∧ upOf 1 = 0 ∧ upOf 0 = 2 ∧ (3 : BitVec 2) ^^^ 0 = 3 ∧ majority 6 = true
    ∧ (let p : LineProf := { en := true, idxMode := 1, period := 100, tol := 2 }
       (majority 7 && (p.idxMode == 1 || (p.idxMode == 2 && (0 : BitVec 2) == p.zqual))) = true ∧ p.period ≠ 0)
    ∧ (let l : Line := { idxRef := some (0, 1, false), dirLast := 1 }
       l.idxRef = some (0, l.dirLast, false) ∧ l.dirLast ≠ 0 ∧ l.zCond = false)
    ∧ (((102 - 0 : Int).natAbs : Int) - 100).natAbs ≤ 2 ∧ 2 < (((103 - 0 : Int).natAbs : Int) - 100).natAbs := by decide

theorem witness_LineLatchAndClearResults :
    let s : State := { busy with lines := busy.lines.set 0 { fault := true, latch := { fault := true } } }
    busy.running = true ∧ busy.eph.replay = false
    ∧ ({ busy with eph := { busy.eph with replay := true } } : State).eph.replay = true
    ∧ State.reset.running = false ∧ s.lines[(0 : Fin 8)].fault = true ∧ s.lines[(0 : Fin 8)].latch.fault = true
    ∧ s.lines[(0 : Fin 8)].raised = false ∧ ({ busy with lines := busy.lines.set 0 { raised := true } } : State).lines[(0 : Fin 8)].raised = true
    ∧ bitOf (assoc 0 [(linCtrlOff 7, (7 : Word))] (linCtrlOff 7)).toNat 2 = true := by decide

/-- Axis 0 on SSI port 0, whose frame has started; axis 1 takes its position from node 70. -/
def ssiState : State := { (busy.setReg 0xC0100 0x80000000).setReg 0xC1000 0x40000000 with ssi := busy.ssi.set 0 { started := some (1000, true) } }
/-- A kept class 1 frame of node 70 without records, in basic cycle 8. -/
def fbFrame (pay : List Byte) : SchedFrame :=
  let f : SchedFrame := ⟨1, 1, 70, BitVec.ofNat 16 pay.length, 8, 0, pay, 0, false, BitVec.ofNat 64 (8 * 125000)⟩
  { f with crc := crc32c 0xFFFFFFFF (SchedFrame.header f ++ pay) }
def schedProf : Profile := { prof with
  tabA := [⟨0, 100, 1, 70, 0, 0, 0, 0⟩, ⟨200, 100, 9, 64, 0, 0, 0, 0⟩, ⟨3, 0, 0x900, 64, 0, 0, 2, 0⟩, ⟨300, 100, 5, 0, 0, 0, 1, 0⟩]
  axNodes := [⟨1, 70, 0, false⟩], arbStart := 1000, arbEnd := 2000, msLen := 10, guard := 1 }
def fbState : State := { busy.setReg 0xC1020 0x80000000 with prof := schedProf }

theorem witness_PositionWordResults :
    bitOf (ssiState.regN 0xC0100) 31 = true ∧ busy.ssi[(0 : Fin 16)].started = none ∧ ssiState.ssi[(0 : Fin 16)].started = some (1000, true)
    ∧ ({ ssiState with eph := { ssiState.eph with replay := true } } : State).eph.replay = true ∧ ssiState.eph.replay = false
    ∧ ssiState.portAxis 0 = some 0 ∧ (ssiState.ssiDecode 0 true [] none false).cause = 0 ∧ (ssiState.ssiDecode 0 false [] none false).cause ≠ 0
    ∧ fbState.eph.replay = false
    ∧ fbState.frameDiscard .a (fbFrame [0, 0, 0, 0, 0, 0, 0, 0]) = .none ∧ (fbFrame (List.replicate 8 0)).cls = 1
    ∧ fbState.frameDiscard .a (fbFrame [0, 0, 1, 0, 0, 0, 0, 0]) = .none ∧ (8 : Nat) ≠ 8 + 16 * 1 + 20 * 0 + 0
    ∧ fbState.frameDiscard .a { fbFrame [] with crc := 0 } ≠ .none
    ∧ fbState.frameDiscard .a (fbFrame ([0, 0, 1, 0, 0, 0, 0, 0, 0, 1, 0, 0] ++ List.replicate 12 0)) = .none
    ∧ fbState.prof.ioIns.find? (fun n => n.node == 70) = none ∧ fbState.nodeAxis 70 0 = some 1 ∧ fbState.fbkSrc 1 = 2 := by decide

theorem witness_GatherAndExtrapolateResults :
    let f : AxFbk := { latch := .valid 5 900, have1 := true, time := 900000, est := { first := false, still := false, pPrev := 5 } }
    let s : State := { ssiState with fbk := ssiState.fbk.set 0 f }
    let l : Line := { est := { first := false, still := false }, latch := { time := 0xFFFFFFFF } }
    s.eph.rpNow = none ∧ s.axisPresent 0 = true ∧ s.fbkSrc 0 = 1 ∧ s.fbkSrc 5 = 0 ∧ fbState.fbkSrc 1 = 2 ∧ State.reset.running = false ∧ s.running = true
    ∧ s.fbk[(0 : Fin 128)].have1 = true ∧ ((s.epoch * s.tTick : Nat) : Int) - s.fbk[(0 : Fin 128)].time ≤ (s.tTick : Int) + 2000
    ∧ s.fbk[(1 : Fin 128)].have1 = false ∧ s.fbk[(0 : Fin 128)].latch = .valid 5 900 ∧ f.est.ran = false ∧ f.est.first = false ∧ f.est.still = false
    ∧ s.axStill 0 ≤ 2000000000 - f.est.tChg ∧ (s.lineProf 0).en = true ∧ l.est.ran = false ∧ l.latch.count = l.est.pPrev
    ∧ s.lineStill 0 ≤ (l.latch.time.toNat : Int) - l.est.tChg
    ∧ ({ f with timeout := true, outage := true } : AxFbk).outage = true := by decide

theorem witness_ControlAndSetpointResults :
    let man : State := { busy.setReg (ctlBase 0 + 4) 1 with mans := busy.mans.set 0 true }
    let i := busy.cascIn 0 (busy.axisCmd 0).1
    let tq := (busy.setReg 0xA1000 1).cascIn 0 ((busy.setReg 0xA1000 1).axisCmd 0).1
    let v : NodeVal := ⟨70, 0, 0, 5, 1, false⟩
    busy.axisPresent 0 = true ∧ busy.runsCascade 0 = true ∧ busy.stopped 2 = false
    ∧ ({ busy with clk := { busy.clk with stopped := 0x1FF } } : State).stopped 2 = true ∧ State.reset.stopped 2 = false ∧ busy.coreSafety ≠ .sto ∧ busy.mans[(0 : Fin 128)] = false
    ∧ i.bq1en = false ∧ i.bq2en = false ∧ i.torque = false ∧ tq.torque = true ∧ tq.bq1en = false
    ∧ State.reset.coreSafety = .sto ∧ man.mans[(0 : Fin 128)] = true ∧ man.manReg 0 = true ∧ busy.manReg 0 = false
    ∧ (({} : Cascade).um - i.pp {} - i.vff) * 2 ^ i.sh 19 = 0 ∧ ({} : Cascade).um.natAbs ≤ i.vlim ∧ ({} : Cascade).um - i.vff = 0
    ∧ bitOf (assoc 0 [(ctlBase 0 + 4, (6 : Word))] (ctlBase 0 + 4)).toNat 2 = true
    ∧ State.reset.running = false ∧ v.dest = 70 ∧ 1 ≤ v.miss := by decide

/-- A controller that may send: locked, with address 64 and one setpoint entry. -/
def sender : State := { busy with
  prof := { schedProf with axNodes := [⟨0, 70, 0, false⟩] }
  mer := { busy.mer with sync := .locked, addr := some 64 } }

theorem witness_ControlAndSetpointResults_send :
    sender.running = true ∧ sender.maySend = true ∧ sender.sptEntries .a (sender.epoch % 64) = [⟨200, 100, 9, 64, 0, 0, 0, 0⟩]
    ∧ sender.setpointRecs .a ≠ [] ∧ (sender.setpointRecs .a).length ≤ 31
    ∧ windowNeed sender.prof.guard [8 + 8 * (sender.setpointRecs .a).length] ≤ 8 * 100 := by decide

theorem witness_LaneInstructionResults :
    let lane (f : Lane → Lane) : State := { busy with lanes := busy.lanes.set 0 (f {}) }
    let s := lane fun k => { k with running := true, active := true, pc := 2047 }
    let ovr := lane fun k => { k with active := true, cycle := busy.passcyc + 1 }
    let deep := lane fun k => { k with active := true, reps := [(1, 2, 3), (0, 9, 1)] }
    s.lanes[(0 : Fin 32)].active = true ∧ s.lanes[(0 : Fin 32)].cycle ≤ s.passcyc ∧ 2048 ≤ (rptNext [] 2047).2 ∧ (rptNext [] 2046).2 < 2048
    ∧ s.stopped 2 = false
    ∧ ovr.passcyc < ovr.lanes[(0 : Fin 32)].cycle ∧ 2 ≤ deep.lanes[(0 : Fin 32)].reps.length ∧ s.lanes[(0 : Fin 32)].reps.length < 2
    ∧ 2047 ≤ s.lanes[(0 : Fin 32)].pc ∧ (lane fun k => { k with active := true, pc := 2046 }).lanes[(0 : Fin 32)].pc < 2047
    ∧ (⟨0, 0, 0, 0, true, 0, 0, true⟩ : TapOp).ok = true ∧ (⟨1, 0, 0, 0, false, 0, 0, true⟩ : TapOp).ok = false
    ∧ (2048 : BitVec 12).toNat ≤ 2048 ∧ 2048 < (2049 : BitVec 12).toNat ∧ (1 : BitVec 11) ≠ 0 := by decide

theorem witness_LaneControlResults :
    let lane (f : Lane → Lane) : State := { busy with lanes := busy.lanes.set 0 (f {}) }
    let s := lane fun k => { k with running := true, active := true, pc := 2047 }
    let ovr := lane fun k => { k with active := true, cycle := busy.passcyc + 1 }
    s.lanes[(0 : Fin 32)].active = true ∧ s.stopped 2 = false ∧ s.lanes[(0 : Fin 32)].cycle ≤ s.passcyc
    ∧ ovr.lanes[(0 : Fin 32)].active = true ∧ ovr.passcyc < ovr.lanes[(0 : Fin 32)].cycle
    ∧ s.laneInput (s.regN 0xB0800) = some 0 ∧ (∀ i : Nat, i < 4 → fld (s.regN (0xB0800 + 4 * i)) 11 8 ≠ 6)
    ∧ bitOf ((busy.setReg 0xB0100 1).regN 0xB0100) 0 = true ∧ bitOf (busy.regN 0xB0100) 0 = false ∧ s.lanes[(0 : Fin 32)].running = true
    ∧ (({ busy with due := [(0xB0040, 0), (0xB0044, 0)] } : State).due.map Prod.fst = [0xB0040, 0xB0044]) := by decide

/-! ### Witnesses: safety, Halo, telegrams, capture, Ephemeris and boot -/

def rep (cls : Nat) : FaultRep := { code := 0x0E02, cls := cls }
def inSaf (s : State) (f : Saf → Saf) : State := { s with saf := f s.saf }

theorem witness_FaultIntakeResults :
    let s (n : Nat) : State := { inSaf busy fun f => { f with state := .run } with reports := [rep n] }
    let q0 : QFault := ⟨rep 2, 0, 0⟩
    let r := inSaf busy fun f => { f with state := .dusk, react := some q0 }
    (s 0).saf.react = none ∧ (s 0).saf.queue = [] ∧ (s 3).reports = [rep 3] ∧ (rep 3).cls ≤ 3 ∧ ((s 1).asTaken (rep 1)).cls < 2
    ∧ ((s 2).asTaken (rep 2)).cls = 2 ∧ (s 2).saf.inSto = false ∧ State.reset.saf.inSto = true ∧ ((s 3).asTaken (rep 3)).cls = 3
    ∧ (s 2).eph.replay = false ∧ r.saf.react = some q0 ∧ r.saf.reactOver = false ∧ r.saf.queue.length < 16
    ∧ q0.rep.cls < (r.asTaken (rep 3)).cls ∧ (r.asTaken (rep 2)).cls ≤ q0.rep.cls
    ∧ (List.replicate 17 q0).length ≤ 17 ∧ State.reset.saf.reactOver = true := by decide

theorem witness_SafetyStateResults :
    let d := { inSaf busy fun f => { f with state := .dusk } with coreSafety := .dusk }
    let moving : State := { d with arms := d.arms.set 0 { d.arms[(0 : Fin 8)] with sigma := 0x3FF0000000000000 } }
    let e := inSaf busy fun f => { f with state := .sto, edge := true }
    let free := inSaf busy fun f => { f with estA := true, estB := true, edge := true }
    d.coreSafety = .dusk ∧ d.saf.state = .dusk ∧ d.saf.stoDue = false ∧ d.saf.queue = [] ∧ d.eph.replay = false ∧ d.atRest = true
    ∧ moving.atRest = false ∧ (0 < ({ prof with tHoldS := 1 } : Profile).tHoldS) ∧ d.saf.noHold = false ∧ d.saf.finalRamp = false
    ∧ ({ inSaf busy fun f => { f with state := .hold } with coreSafety := .hold } : State).saf.state = .hold
    ∧ State.reset.saf.state = .sto ∧ State.reset.coreSafety = .sto ∧ (inSaf busy fun f => { f with wdog := true }).saf.wdog = true
    ∧ 500 ≤ 2000 ∧ 499 < 500 ∧ 2000 < 2001
    ∧ 49999 < prof.saf.tminMs * 1000 ∧ prof.saf.tminMs * 1000 ≤ 50000 ∧ prof.saf.tmaxMs * 1000 < 2000001 ∧ 2000000 ≤ prof.saf.tmaxMs * 1000
    ∧ busy.saf.stuck = false ∧ busy.boot.ready = false ∧ ({ busy with boot := { busy.boot with ready := true } } : State).boot.ready = true
    ∧ busy.saf.edge = false ∧ e.saf.edge = true ∧ e.saf.state = .sto ∧ e.blocking.isSome = true
    ∧ (inSaf e fun f => { f with state := .run }).saf.state ≠ .sto
    ∧ free.saf.state = .sto ∧ free.saf.edge = true ∧ free.blocking = none ∧ d.stopped 3 = false ∧ (inSaf busy fun f => { f with stuck := true }).saf.stuck = true := by decide

theorem witness_SafetyInputsOutputsAndMailbox :
    let p : State := { busy with prof := { prof with saf := { prof.saf with sincfg := [3, 0, 2] } } }
    let split := inSaf p fun f => { f with sin := 1 }
    let est := inSaf busy fun f => { f with estA := true }
    let mb (cmd : Byte) := inSaf busy fun f => { f with mbx := { f.mbx with busy := true, seen := true, cmd := cmd } }
    busy.pairOf 0 = none ∧ p.pairOf 1 = some 0 ∧ p.pairAgrees 0 = true ∧ split.pairAgrees 0 = false
    ∧ p.sinMode 2 = 2 ∧ fld (p.sinCfg 2) 6 5 = (0 : Fin 4).val ∧ (0 : BitVec 16).getLsbD 2 = false ∧ 2 ≤ (2 : Fin 4).val ∧ (1 : Fin 4).val < 2
    ∧ est.saf.estA ≠ est.saf.estB
    ∧ ((inSaf busy fun f => { f with soutReq := 0x80, forced := 0 }).saf.sout.getLsbD 7 = true)
    ∧ (9999999 : DWord).toNat < busy.saf.marchAt + 10000000 + 2 * (busy.prof.haloDiv * busy.tTick)
    ∧ busy.saf.marchAt + 10000000 + 2 * (busy.prof.haloDiv * busy.tTick) ≤ (12000000 : DWord).toNat
    ∧ busy.monMasked 8 = false ∧ busy.stopped 8 = false ∧ busy.saf.flowDone = false ∧ busy.mayRun 9 .sys [] none = true
    ∧ busy.mayRun 0 .sys [] none = true ∧ busy.saf.mbx.busy = false ∧ (mb 1).saf.mbx.busy = true ∧ (mb 1).saf.mbx.seen = true
    ∧ (mb 2).saf.mbx.cmd.toNat = 2 ∧ (mb 3).saf.mbx.cmd.toNat = 3 ∧ 0x80 ≤ (mb 0x80).saf.mbx.cmd.toNat ∧ (mb 0).saf.mbx.cmd.toNat = 0
    ∧ 4 ≤ (mb 0x7F).saf.mbx.cmd.toNat ∧ (mb 0x7F).saf.mbx.cmd.toNat < 0x80
    ∧ ({ inSaf (mb 2) fun f => { f with state := .hold } with coreSafety := .hold } : State).saf.state = .hold := by decide

/-- A neighbour with one part, whose frames come in the entries of sender 70. -/
def haloState : State :=
  let e : MEntry := ⟨0, 100, 1, 70, 0, 0, 0, 0⟩
  { busy with prof := { prof with tabA := [e], tabB := [e], saf := { prof.saf with nbrs := [⟨1, 1⟩] } } }
def haloFrame (x : Byte) : SchedFrame :=
  let p := haloState.framePeriod
  let body : List Byte := [1, BitVec.ofNat 8 (p / 8 % 256), 0, 1, 0, x, 0, 0] ++ leBytes (p % 2 ^ 32) 4
  let b := body ++ leBytes (crc32c 0 body).toNat 4
  let f : SchedFrame := ⟨3, 1, 70, 16, BitVec.ofNat 8 (p + 1), 0, b, 0, false, BitVec.ofNat 64 ((p + 1) * 125000)⟩
  { f with crc := crc32c 0xFFFFFFFF (SchedFrame.header f ++ b) }

theorem witness_HaloResults :
    let pub : State := { busy with halo := { busy.halo with pubs := [(0, 0, [])] } }
    let e : MEntry := ⟨0, 100, 40, 64, 0, 0, 0, 0⟩
    let send : State := { sender with prof := { sender.prof with tabA := [e], tabB := [e], mer := { sender.prof.mer with haloFids := [40] } } }
    let miss : State := { busy with halo := { busy.halo with nbrs := busy.halo.nbrs.set 1 { missA := 2 } } }
    busy.running = true ∧ busy.epoch % busy.prof.haloDiv = 0 ∧ ({ busy with epoch := 9 } : State).epoch % 8 ≠ 0 ∧ busy.boot.power ≠ .quiet
    ∧ busy.haloTick = true ∧ State.reset.haloTick = false ∧ busy.armProf 1 = none ∧ busy.armProf 0 ≠ none ∧ pub.halo.pubs = [(0, 0, [])]
    ∧ busy.maySend = false ∧ send.maySend = true ∧ send.running = true ∧ send.prof.saf.npart = 1 ∧ send.haloEntries .a = [e] ∧ send.haloEntries .b = [e]
    ∧ sender.haloEntries .a = [] ∧ sender.haloEntries .b = [] ∧ busy.stopped 3 = false
    ∧ haloState.nbrCells.contains 1 = true
    ∧ (haloState.haloCopy .a 1 0 (some (haloFrame 0))).1 = some (haloFrame 0).payload
    ∧ (haloState.haloCopy .b 1 0 (some (haloFrame 7))).1 = some (haloFrame 7).payload ∧ (haloFrame 0).payload ≠ (haloFrame 7).payload
    ∧ (haloState.prof.saf.nbrs.find? fun x => x.cell == 1) = some ⟨1, 1⟩
    ∧ busy.halo.nbrs[(1 : Fin 16)].missA ≤ busy.prof.saf.missMax ∧ miss.prof.saf.missMax < miss.halo.nbrs[(1 : Fin 16)].missA
    ∧ miss.halo.nbrs[(1 : Fin 16)].raised.getLsbD 0 = false := by decide

/-- Connection 0 with identity 5, and a telegram of it with a given sequence number and no payload. -/
def connState (k : Conn) : State := { busy with
  prof := { prof with saf := { prof.saf with
    conns := [{ en := true, signal := true, connid := 5, texp := 10, seqwin := 2, recovn := 2 }], txs := [{}] } }
  scomm := { busy.scomm with conns := busy.scomm.conns.set 0 k, valid := 1 } }
def telegram (seq : Nat) : List Byte :=
  let b := leBytes 5 4 ++ leBytes seq 2 ++ [0, 0] ++ leBytes 0 4
  b ++ leBytes (crc32c 0 b).toNat 4

theorem witness_SafeTelegramResults :
    let ok := connState { st := .ok }
    let rec1 := connState { st := .recovering, recov := 1 }
    4 ≤ (telegram 1).length ∧ (telegram 1).length = 16 + valAt (telegram 1) 6 1 ∧ valAt (telegram 1) 6 1 ≤ 64 ∧ valAt (telegram 1) 7 1 = 0
    ∧ [1, 0, 0, 0].length ≠ 16 + valAt [1, 0, 0, 0] 6 1 ∧ ok.connOf (valAt (telegram 1) 0 4) = some 0 ∧ ok.connOf 6 = none
    ∧ ok.scomm.unkAt = none ∧ (crc32c (ok.connProf 0).key ((telegram 1).take 12)).toNat = valAt (telegram 1) 12 4
    ∧ ok.scomm.valid.getLsbD 0 = true ∧ busy.scomm.valid.getLsbD 1 = false
    ∧ -1000 ≤ ((0 : Word) - BitVec.ofNat 32 (valAt (telegram 1) 8 4)).toInt ∧ ((0 : Word) - BitVec.ofNat 32 (valAt (telegram 1) 8 4)).toInt ≤ (10 * 1000 : Nat)
    ∧ ok.scomm.conns[(0 : Fin 32)].st = .ok ∧ ((BitVec.ofNat 16 (valAt (telegram 2) 4 2)) - 0).toNat ≤ (ok.connProf 0).seqwin
    ∧ (ok.connProf 0).seqwin < ((BitVec.ofNat 16 (valAt (telegram 3) 4 2)) - 0).toNat ∧ ((BitVec.ofNat 16 (valAt (telegram 0) 4 2)) - 0).toNat = 0
    ∧ (connState {}).scomm.conns[(0 : Fin 32)].st = .failed ∧ 1 < ((connState {}).connProf 0).recovn
    ∧ rec1.scomm.conns[(0 : Fin 32)].st = .recovering ∧ (ok.connProf 0).en = true ∧ ok.prof.saf.txs[(0 : Fin 8).val]? = some {}
    ∧ (List.replicate 64 (0 : Byte)).length ≤ 64 := by decide

def rec0 : CapRecord := { index := 0, set := 0 }
theorem witness_CaptureResults :
    let c (r : CapRecord) (f : CapSet → CapSet) : State :=
      { busy with cap := { busy.cap with recs := [r], sets := busy.cap.sets.set 0 (f {}) } }
    let fills := c { rec0 with left := 2 } fun k => { k with fill := some 0 }
    let armed : State := { (busy.setReg 0x140104 8) with cap := { busy.cap with sets := busy.cap.sets.set 0 { armed := true } } }
    let shut := c { rec0 with closed := true } id
    busy.running = true ∧ 0 < busy.epoch ∧ State.reset.running = false ∧ (∀ k : Fin 4, busy.cap.sets[k].armed = false ∧ busy.cap.sets[k].fill = none)
    ∧ fills.cap.sets[(0 : Fin 4)].fill = some 0 ∧ fills.cap.find 0 = some { rec0 with left := 2 } ∧ 1 < ({ rec0 with left := 2 } : CapRecord).left
    ∧ armed.cap.sets[(0 : Fin 4)].fill = none ∧ armed.cap.sets[(0 : Fin 4)].armed = true
    ∧ (armed.cap.claim ((armed.capLen 0 * armed.capNsig 0 * 2 + 4095) / 4096)).isSome = true ∧ armed.capPre 0 + 1 < armed.capLen 0
    ∧ fills.cap.claim 1 = none ∧ bitOf (assoc 0 [(0x140100, (0x10000 : Word))] 0x140100).toNat 16 = true
    ∧ (c rec0 id).cap.find 0 = some rec0 ∧ rec0.closed = false ∧ (c rec0 id).cap.sets[(0 : Fin 4)].fill ≠ some 0
    ∧ shut.cap.find 0 = some { rec0 with closed := true }
    ∧ ({ shut with cap := { shut.cap with reading := some 0 } } : State).cap.reading = some 0 := by decide

def keyOf (s : State) : Keyframe := ⟨s.epoch, 0, 0, 0, s.keyState, false⟩
def block (n : Nat) : TickBlock where
  seq := BitVec.ofNat 64 n
  epoch := n
  session := 0
  kf := false
  almcrc := 0
  spdig := 0
  gate := []
  axes := Vector.replicate 128 {}
  lines := Vector.replicate 8 {}
  bytes := 64
def inEph (s : State) (f : Eph → Eph) : State := { s with eph := f s.eph }

theorem witness_EphemerisAndReplayResults :
    let str : State := (inEph busy fun e => { e with queue := [.block (block 5)] }).setReg 0x16004C 1
    let big : State := str.setReg 0x160048 0x100000
    let k := keyOf State.reset
    let cap := inEph busy fun e => { e with slots := e.slots.set 0 (.capturing k) }
    let pin := inEph busy fun e => { e with slots := e.slots.set 1 (.pinned k), pin := true }
    let sto := inEph State.reset fun e => { e with copied := [.key k] }
    str.strEn = true ∧ bitOf str.host.susp.toNat 1 = false ∧ big.strEn = true ∧ (StreamItem.block (block 5)).size ≤ big.streamRoom
    ∧ str.streamRoom < (StreamItem.block (block 5)).size ∧ busy.strEn = false ∧ busy.eph.copied = []
    ∧ busy.running = true ∧ busy.eph.replay = false ∧ ({ busy with epoch := 8192 } : State).epoch % busy.kfint = 0
    ∧ (∀ i : Fin 2, busy.eph.slots[i].isCapturing = false) ∧ cap.eph.slots[(0 : Fin 2)].isCapturing = true
    ∧ cap.eph.slots[(1 - 0 : Fin 2)].isCapturing = false ∧ 8388608 ≤ 8388608 ∧ (inEph busy fun e => { e with filling := true }).eph.filling = true
    ∧ Ecc.corrected ≠ .uncorr ∧ k.bad = false ∧ ({ k with bad := true } : Keyframe).bad = true
    ∧ pin.eph.pin = true ∧ pin.eph.filling = false ∧ sto.eph.rpRun = false ∧ sto.saf.state = .sto
    ∧ (inSaf sto fun f => { f with state := .run }).saf.state ≠ .sto ∧ sto.eph.copied.length = 1 := by decide

theorem witness_EphemerisAndReplayResults_slots :
    let k := keyOf State.reset
    (inEph busy fun e => { e with slots := e.slots.set 0 (.capturing k) }).eph.slots[(0 : Fin 2)] = .capturing k
    ∧ (inEph busy fun e => { e with slots := e.slots.set 1 (.pinned k) }).eph.slots[(1 : Fin 2)] = .pinned k
    ∧ (∀ k', (inEph busy fun e => { e with slots := e.slots.set 1 (.pinned k) }).eph.slots[(0 : Fin 2)] ≠ .pinned k')
    ∧ (inEph State.reset fun e => { e with copied := [.key k] }).eph.copied[0]? = some (.key k)
    ∧ (∀ k', (inEph State.reset fun e => { e with copied := [] }).eph.copied[0]? ≠ some (.key k')) :=
  ⟨rfl, rfl, fun _ h => (by cases h), rfl, fun _ h => (by cases h)⟩

theorem witness_EphemerisAndReplayResults_tick :
    let a : Almanac := { epoch := 5 }
    let b : TickBlock := { block 5 with almcrc := a.crc, spdig := busy.spDigest }
    let s : State := { inEph busy fun e => { e with rpRun := true, rpNow := some b, rpLeft := [block 6] } with published := some a }
    let s1 := s.setReg 0x160090 6
    s.eph.rpRun = true ∧ s.published = some a ∧ a.epoch = BitVec.ofNat 64 b.epoch ∧ a.crc = b.almcrc ∧ s.spDigest = b.spdig
    ∧ (s.regN 0x160090 + 2 ^ 32 * s.regN 0x160094) % 2 ^ 63 ≤ b.epoch ∧ b.epoch < (s1.regN 0x160090 + 2 ^ 32 * s1.regN 0x160094) % 2 ^ 63
    ∧ (block 6).bad = false ∧ (block 6).gap = false ∧ (block 6).seq = b.seq + 1 ∧ (block 6).epoch = b.epoch + 1 :=
  ⟨rfl, rfl, rfl, rfl, rfl, by decide, by decide, rfl, rfl, by decide, rfl⟩

theorem witness_ResetAndBootResults :
    let at7 : State := { State.reset with
      prof := { prof with autostart := 1 }, boot := { State.reset.boot with stage := 7 }, mer := { State.reset.mer with sync := .locked } }
    let quiet : State := { State.reset with boot := { State.reset.boot with power := .quiet } }
    let off : State := { State.reset with boot := { State.reset.boot with power := .off } }
    State.reset.powered = true ∧ off.powered = false ∧ (0 : BitVec 16) ≠ 0xD4A3 ∧ State.reset.dbg.scope ≠ 2
    ∧ ({ State.reset with dbg := { State.reset.dbg with scope := 2 } } : State).dbg.scope = 2
    ∧ State.reset.boot.failed = false ∧ State.reset.boot.halted = false ∧ State.reset.dbg.hold = false ∧ State.reset.boot.stage = 1
    ∧ ({ State.reset with boot := { State.reset.boot with failed := true } } : State).boot.failed = true ∧ State.reset.boot.warmStart = false
    ∧ at7.running = false ∧ at7.boot.stage = 7 ∧ at7.mer.sync = .locked ∧ at7.boot.failed = false ∧ at7.prof.autostart.getLsbD 0 = true
    ∧ State.reset.mer.sync ≠ .locked ∧ State.reset.switchable = true
    ∧ ({ State.reset with aux := State.reset.aux.set 127 { v := 0x3FF0000000000000 } } : State).switchable = false
    ∧ quiet.boot.power = .quiet ∧ quiet.jrn.entries = [] ∧ State.reset.boot.power ≠ .quiet := by decide

/-! ### Witnesses: Meridian, the schedule, the host and debug -/

def inMer (s : State) (f : Mer → Mer) : State := { s with mer := f s.mer }
def portA (s : State) (p : MerPort) : State := inMer s fun m => { m with ports := m.ports.set 0 p }
/-- A link frame with the check value it should carry. -/
def linkFrame (type scope : Byte) (pay : List Byte) : LinkFrame :=
  let f : LinkFrame := ⟨type, scope, 1, 0, 9, 64, bytesAt pay 0 20, 0⟩
  { f with crc := crc32c 0xFFFFFFFF (LinkFrame.body f) }

theorem witness_LinkAndColdStartResults :
    let two := inMer busy fun m => { m with ports := Vector.replicate 4 { state := .ready } }
    let meas := portA busy { state := .measure, samples := List.replicate 16 0 }
    let listen := inMer busy fun m => { m with cold := .listen 1000 }
    let lode := inMer busy fun m => { m with cold := .lodestar }
    let s7 := inMer busy fun m => { m with stage7 := some 5 }
    let f := linkFrame 1 1 (leBytes 7 8)
    let own (n : Nat) : State := { listen with uid := BitVec.ofNat 48 n }
    (busy.port .a .north).state = .down ∧ (two.port .a .north).state = .ready ∧ (two.port .a (otherPort .north)).state = .ready
    ∧ ((portA busy { state := .train }).port .a .north).state = .train
    ∧ meas.mer.addr = none ∧ meas.isLodestar = false ∧ (meas.port .a .north).samples.length = 16 ∧ (0 : DWord).toNat / busy.tTick % 64 = 0
    ∧ (5 : BitVec 4).getLsbD 0 = true ∧ (5 : BitVec 4).getLsbD 1 = false ∧ busy.mer.ports[(0 : Fin 4)].state ≠ .blocked
    ∧ (linkFrame 1 1 []).scope = 1 ∧ (linkFrame 4 0 []).scope ≠ 1 ∧ ((linkFrame 1 1 []).type, (linkFrame 1 1 []).uid, (linkFrame 1 1 []).seq) ∉ two.mer.flood
    ∧ listen.mer.cold = .listen 1000 ∧ (999 : DWord).toNat < 1000 ∧ 1000 ≤ (1000 : DWord).toNat
    ∧ LinkFrame.ok f = true ∧ f.type = 1 ∧ (listen.port .a .north).state ≠ .blocked ∧ listen.isBeacon 0 = false
    ∧ valAt f.payload 0 8 % 2 ^ 52 < (own 8).ownKey ∧ valAt f.payload 0 8 % 2 ^ 52 = (own 7).ownKey ∧ (own 6).ownKey < valAt f.payload 0 8 % 2 ^ 52
    ∧ (inMer busy fun m => { m with cold := .contend 1000 }).mer.cold = .contend 1000 ∧ lode.isLodestar = true
    ∧ s7.mer.stage7 = some 5 ∧ s7.prof.mer.permit = false ∧ s7.mer.syncCycle = none ∧ s7.mer.noLode = false ∧ 5 + 1000000000 ≤ (1000000005 : DWord).toNat
    ∧ (busy.port .a .north).linked = false ∧ (two.port .a .north).linked = true ∧ LinkFrame.ok (linkFrame 2 0 []) = true
    ∧ ((portA busy { state := .ready, req := some (0, 3) }).port .a .north).req = some (0, 3)
    ∧ LinkFrame.ok (linkFrame 3 0 []) = true ∧ valAt (linkFrame 3 0 []).payload 18 1 = (0 : Byte).toNat := by decide

/-- A frame of class `cls` from sender `src` in basic cycle 8, starting `off` ns into it. -/
def schedFrame (cls : BitVec 4) (fid : BitVec 12) (src : Nat) (off : Nat) (pay : List Byte) : SchedFrame :=
  let f : SchedFrame := ⟨cls, fid, BitVec.ofNat 16 src, BitVec.ofNat 16 pay.length, 8, 0, pay, 0, false, BitVec.ofNat 64 (8 * 125000 + off)⟩
  { f with crc := crc32c 0xFFFFFFFF (SchedFrame.header f ++ pay) }

theorem witness_SyncAndNumberingResults :
    let lode := inMer busy fun m => { m with cold := .lodestar }
    let sync : SchedFrame := schedFrame 0 0 1 0 (leBytes (8 * 125000) 8 ++ leBytes 0 4 ++ [8, 1, 0, 0] ++ leBytes 0 2 ++ leBytes 0 2 ++ leBytes 0 2 ++ leBytes 0 2)
    let fol := inMer busy fun m => { m with cold := .follower, joining := false }
    let dup := inMer busy fun m => { m with ports := m.ports.set 1 { syncCycle := some 8 } }
    let st (x : SyncState) (bad good since hold : Nat) : State :=
      { inMer busy fun m => { m with sync := x, bad := bad, good := good, syncCycle := some 100, holdFrom := 100 - hold } with running := true, epoch := 101 + since }
    let on := portA busy { state := .ready }
    let lon := portA lode { state := .ready }
    let r : CtrlRep := { uid := 9, pin := some 3, hops := 1, branch := 0 }
    let asg := inMer lode fun m => { m with reports := [r], lastRep := some 0 }
    let pin : State := { busy with prof := { prof with mer := { prof.mer with pinMode := true, nodeAddrs := [(9, 65)] } } }
    let own := inMer on fun m => { m with number := some 1 }
    busy.isLodestar = false ∧ lode.isLodestar = true ∧ lode.eph.replay = false
    ∧ (sync.abort || !SchedFrame.crcOk sync) = false ∧ (sync.cls = 0 ∧ sync.fid = 0 ∧ sync.payload.length = 24 ∧ sync.rsv = 0)
    ∧ ((portA busy { state := .blocked }).port .a .north).state = .blocked ∧ (dup.port .a (otherPort .north)).syncCycle = some (valAt sync.payload 0 8 / busy.tTick)
    ∧ fol.isLodestar = false ∧ fol.mer.cold = .follower ∧ fol.mer.joining = false ∧ fol.syncDiffers sync.payload = false
    ∧ fol.mer.syncCycle ≠ some (valAt sync.payload 0 8 / busy.tTick) ∧ fol.mer.syncFrom ≠ 1 ∧ lode.prof.mer.asSteer = false
    ∧ (fol.port .a (otherPort .north)).syncCycle ≠ some (valAt sync.payload 0 8 / busy.tTick)
    ∧ (st .locked 8 0 0 0).mer.sync = .locked ∧ 8 ≤ (st .locked 8 0 0 0).mer.bad ∧ 4 ≤ (st .degraded 0 0 4 0).missedCycles ∧ (st .locked 0 0 3 0).missedCycles < 4 ∧ 64 ≤ (st .holdover 0 0 4 64).heldCycles
    ∧ (st .holdover 0 0 0 0).missedCycles = 0
    ∧ 64 ≤ (st .degraded 0 64 0 0).mer.good ∧ (st .holdover 0 0 0 0).mer.offset16.natAbs ≤ 16000
    ∧ LinkFrame.ok (linkFrame 4 0 []) = true ∧ (on.port .a .north).linked = true ∧ on.isLodestar = false
    ∧ 255 < valAt (linkFrame 4 0 [255]).payload 0 1 + 1 ∧ valAt (linkFrame 4 0 [254]).payload 0 1 + 1 ≤ 255
    ∧ LinkFrame.ok (linkFrame 5 0 []) = true ∧ lon.isLodestar = true ∧ (lon.port .a .north).linked = true
    ∧ asg.mer.reports = [r] ∧ r.number = none ∧ r.pin = some 3 ∧ (3 : Fin 16) ≠ 0 ∧ asg.mer.lastRep = some 0 ∧ 0 + 128 * asg.tTick ≤ (16000000 : DWord).toNat
    ∧ LinkFrame.ok (linkFrame 6 0 [0, 0, 0, 0, 0, 0, 15]) = true ∧ valAt (linkFrame 6 0 [0, 0, 0, 0, 0, 0, 15]).payload 6 1 < 16
    ∧ BitVec.ofNat 48 (valAt (linkFrame 6 0 [0, 0, 0, 0, 0, 0, 15]).payload 0 6) = on.uid
    ∧ LinkFrame.ok (linkFrame 7 0 [9]) = true ∧ pin.prof.mer.pinMode = true ∧ (pin.prof.mer.nodeAddrs.any fun e => e.1 == 9) = true
    ∧ (pin.prof.mer.nodeAddrs.any fun e => e.1 == 8) = false ∧ BitVec.ofNat 48 (valAt (linkFrame 7 0 [9]).payload 0 6) = 9
    ∧ LinkFrame.ok (linkFrame 8 0 [65]) = true ∧ own.mer.number = some (valAt (linkFrame 8 0 [65]).payload 0 2 / 64)
    ∧ valAt (linkFrame 8 0 [65]).payload 0 2 % 64 ≠ 0 ∧ 65 ∉ own.mer.acks ∧ (inMer own fun m => { m with acks := [65] }).mer.acks = [65] := by decide

theorem witness_ScheduleFramesAndCyclePointResults :
    let ev : SchedFrame := schedFrame 4 0x900 64 8000 [1, 2, 3, 4]
    let sv (op : Byte) : SchedFrame := schedFrame 5 5 70 2400 [64, 0, op, 0]
    let l : SchedLoad := ⟨70, false, 3, 0, false, false⟩
    let ld (l : SchedLoad) := inMer sender fun m => { m with loads := [l] }
    let node := inMer sender fun m => { m with nodes := [{ uid := 9, addr := some 70 }] }
    let load := schedFrame 5 5 64 2400 ([70, 0, 0x10, 3] ++ leBytes 3 4 ++ [1, 0, 0, 0] ++ leBytes 5 8)
    let a : ArbFrame := ⟨5, 0x900, [1], 63⟩
    let q (n : Nat) := inMer sender fun m => { m with arb := m.arb.set 0 [⟨5, 0x900, List.replicate n 0, 64⟩] }
    let cp (v : Word) := (((sender.setReg (cpOff 0) v).setReg (cpOff 0 + 8) 0x100).setReg (cpOff 0 + 12) 0)
    sender.frameDiscard .a ev = .none ∧ ev.cls = 4 ∧ ev.payload.length = 4 ∧ sender.frameDiscard .a { ev with abort := true } ≠ .none
    ∧ sender.stopped 5 = false ∧ sender.stopped 6 = false
    ∧ sender.eph.replay = false ∧ sender.frameDiscard .a (sv 1) = .none ∧ (sv 1).cls = 5 ∧ sender.mer.addr = some (valAt (sv 1).payload 0 2 % 1024)
    ∧ 1 ≤ valAt (sv 1).payload 2 1 ∧ valAt (sv 15).payload 2 1 ≤ 15
    ∧ (ld l).mer.loads.find? (fun x => x.node == (70 : BitVec 10).toNat && x.chB == (Channel.a == .b)) = some l
    ∧ (ld l).ownSlot .a = some ⟨3, 0, 0x900, 64, 0, 0, 2, 0⟩ ∧ l.acked = false ∧ l.tries < 3 ∧ (ld l).epoch < 2 ^ 37 ∧ 3 ≤ ({ l with tries := 3 } : SchedLoad).tries
    ∧ (load.abort || !SchedFrame.crcOk load || load.cls != 5 || valAt load.payload 2 1 != 0x10) = false
    ∧ (∃ n ∈ node.mer.nodes, n.uid = 9 ∧ n.addr = some (valAt load.payload 0 2 % 1024))
    ∧ sender.frameDiscard .a (sv 0x11) = .none ∧ valAt (sv 0x11).payload 2 1 = 0x11 ∧ (ld l).mer.loads = [l]
    ∧ busy.maySend = false ∧ sender.maySend = true ∧ (q 1).mer.arb[chanIdx .a] = [⟨5, 0x900, [0], 64⟩] ∧ 0 < sender.prof.msLen
    ∧ (sender.table .a).filter (fun x => x.kind == 2 && some x.sender == sender.mer.addr) = [⟨3, 0, 0x900, 64, 0, 0, 2, 0⟩]
    ∧ (0x900 : Nat) = a.fid.toNat ∧ 8 * 1000 + 3 * 80 + airtime 1 + 8 * 1 ≤ 8 * 2000 ∧ ¬ 8 * 1000 + 3 * 80 + airtime 2000 + 8 * 1 ≤ 8 * 2000
    ∧ (∃ f ∈ (q 1).mer.arb[chanIdx .a], f.fid = 0x900 ∧ f.waits = 64) ∧ a.waits ≠ 64
    ∧ ({ sender with mers := { sender.mers with crcCnt := sender.mers.crcCnt.set 0 16 } } : State).mers.crcCnt[chanIdx .a] = 16
    ∧ sender.mers.crcRaised[chanIdx .a] = false ∧ sender.tTick < ((0x8001DC91 : Word).extractLsb 17 0).toNat + 3000
    ∧ ¬ sender.tTick < ((0x8001DC90 : Word).extractLsb 17 0).toNat + 3000
    ∧ (cp 0xA0000000).running = true ∧ ((cp 0xA0000000).reg (cpOff 0)).getLsbD 31 = true ∧ ((cp 0xA0000000).reg (cpOff 0)).getLsbD 29 = true
    ∧ (((cp 0xA0000000).reg (cpOff 0 + 12)) ++ ((cp 0xA0000000).reg (cpOff 0 + 8))).getLsbD (8 % 64) = true
    ∧ (cp 0xA0000000).mer.sync ≠ .unsync ∧ ((cp 0).reg (cpOff 0)).getLsbD 31 = false ∧ busy.mer.sync = .unsync := by decide

theorem witness_HostAndDebugResults :
    let ring : Ring := { prod := 1 }
    let en : State := { busy.setReg 0x128 0x41 with host := { busy.host with rings := busy.host.rings.set 1 ring } }
    let full : State := { en with gate := List.replicate 64 ⟨9, 5, .ringEntry 1 0 []⟩ }
    let x : CqRec := ⟨1, 0, 0, false, 0, 0⟩
    let cq : State := { busy.setReg 0x208 1 with host := { busy.host with backlog := [x] } }
    let sq (q : Fin 4) : State := (sender.setReg (sqOff q + 8) 0x41).setReg (sqOff q + 12) 1
    let fl : State := { busy.setReg 0x404 0x2000000 with boot := { busy.boot with stage := 8 } }
    let un : State := { busy with dbg := { busy.dbg with unlk := [(0, 1)] } }
    en.stopped 7 = false ∧ en.stopped 8 = false ∧ en.eph.replay = false ∧ en.ringEn 1 = true ∧ busy.ringEn 0 = false ∧ en.ringSize 1 < ((17 : Word) - 0).toNat ∧ ((16 : Word) - 0).toNat ≤ en.ringSize 1
    ∧ ((0 : Word) - 1).toInt < 0 ∧ en.host.susp.getLsbD 4 = false ∧ 0 < (ring.prod - ring.fetch).toInt ∧ en.untaken 1 < 64 ∧ 64 ≤ full.untaken 1
    ∧ (List.replicate 64 (0 : Byte)).length = 64 ∧ busy.prof.pring = some 1 ∧ (0 : Fin 2) = busy.prof.plantIf ∧ 100 = busy.prof.plantPort
    ∧ (1 : Word) ∈ busy.prof.plantFrom ∧ cq.host.backlog = [x] ∧ cq.cqRoom = true ∧ busy.cqRoom = false
    ∧ ({ busy with host := { busy.host with susp := 0x800 } } : State).host.susp.getLsbD 11 = true ∧ busy.host.susp.getLsbD 11 = false
    ∧ (11 : Fin 12) ≠ 1 ∧ busy.host.linkDown = false ∧ ({ busy with host := { busy.host with linkDown := true } } : State).host.linkDown = true
    ∧ (sq 0).sqReady 0 = true ∧ busy.sqReady 0 = false ∧ (sq 1).sqReady 1 = true ∧ (sq 3).sqReady 3 = true
    ∧ valAt [0, 0, 0x10] 2 1 = 0x10 ∧ valAt [0, 0, 1] 2 1 ≠ 0x11 ∧ (sq 3).ownSlot .a = some ⟨3, 0, 0x900, 64, 0, 0, 2, 0⟩
    ∧ (0 : BitVec 16) ≠ 0xF1A5 ∧ ¬ (fl.regN 0x404 % 2 ^ 27 / 4096 * 4096 / 2 ^ 25 = fl.boot.slot.val ∧ fl.boot.failed = false)
    ∧ ¬ (fl.boot.failed = false ∧ 4 ≤ fl.boot.stage ∧ fl.boot.stage ≤ 6) ∧ fl.host.flOp = none
    ∧ (busy.regN 0x404 % 2 ^ 27 / 4096 * 4096 / 2 ^ 25 = busy.boot.slot.val ∧ busy.boot.failed = false)
    ∧ ({ busy with host := { busy.host with flOp := some (1, 0) } } : State).host.flOp = some (1, 0) ∧ busy.host.staging.wf = true
    ∧ un.dbg.tries < 3 ∧ (assoc (0 : Word) un.dbg.unlk 0).toNat = 1 ∧ (assoc (0 : Word) busy.dbg.unlk 0).toNat ≠ 1
    ∧ 3 ≤ ({ busy.dbg with tries := 3 } : Dbg).tries ∧ [(5 : Word)][0]? = some 5 := by decide

/-! ### Single steps, with results worked out by hand -/

/-- A part of the state after a command. -/
def after {α : Type} (i : Instr) (s : State) (f : State → α) : Option α :=
  match exec i s with
  | .next t => some (f t)
  | _ => none
def g (t : State) (c : Fin 10) (r : Fin 32) : DWord := (t.core c).rg r

/-- R101: 0x1000_0000 + 0x2000_0000. -/
theorem test_add : after (.add 0 7 1 2) busy (g · 0 7) = some 0x30000000 := by decide
/-- R72: a write to g0 is discarded, the PC moves on by 4. -/
theorem test_add_g0 : after (.add 0 0 1 2) busy (fun t => (g t 0 0, (t.core 0).pc)) = some (0, 4) := by decide
/-- R101: 3 - 0x1000_0000 wraps to a negative word. -/
theorem test_sub_wraps : after (.sub 9 7 5 1) busy (g · 9 7) = some 0xFFFFFFFFF0000003 := by decide
/-- R102: a divisor of 0 gives all bits set and IFLAGS[0]. -/
theorem test_div_by_zero : after (.div 0 7 5 0) busy (fun t => (g t 0 7, (t.core 0).iflags)) = some (0xFFFFFFFFFFFFFFFF, 1) := by decide
/-- R101: imm12 0xFFF is -1. -/
theorem test_addi_negative : after (.addi 0 7 5 0xFFF) busy (g · 0 7) = some 2 := by decide
/-- R103: LIW sign-extends its 22 bits. -/
theorem test_liw : after (.liw 0 7 0x200000) busy (g · 0 7) = some 0xFFFFFFFFFFE00000 := by decide
/-- R108: LB sign-extends the byte 0x80 at 0x1000_001B. -/
theorem test_lb : after (.lb 0 7 1 27 .clean) { busy with data := segData } (g · 0 7) = some 0xFFFFFFFFFFFFFF80 := by decide
/-- R108: a store writes the low bytes of its register; a byte of 0 takes no entry. -/
theorem test_sw : after (.sw 0 5 1 8 .clean) busy (fun t => t.data) = some [(8, 3)] := by decide
/-- R108: a misaligned LW raises MISALIGN (3) with the address in TVAL; with TVEC 0 the core halts. -/
theorem test_lw_misaligned : after (.lw 0 7 3 0 .clean) busy (fun t => ((t.core 0).cause, (t.core 0).tval, (t.core 0).mode)) =
    some (3, 0x10000001, .halted) := by decide
/-- R110: BEQ taken to PC + 4 x 3. -/
theorem test_beq : after (.beq 0 5 5 3) busy (fun t => (t.core 0).pc) = some 12 := by decide
/-- R104: 1.0 + 1.0 is 2.0 and sets no flag. -/
theorem test_fadd : after (.fadd 0 1 2 2) (busyCore 0 fun k => k.wf 2 0x3FF0000000000000) (fun t => ((t.core 0).rf 1, (t.core 0).fflags)) =
    some (0x4000000000000000, 0) := by decide
/-- R104: 1.0 / 0.0 is infinity with DZ. -/
theorem test_fdiv_by_zero : after (.fdiv 0 1 2 3) (busyCore 0 fun k => k.wf 2 0x3FF0000000000000) (fun t => ((t.core 0).rf 1, (t.core 0).fflags)) =
    some (0x7FF0000000000000, 8) := by decide
/-- R109: AMOADD returns the old value and adds. -/
theorem test_amoadd : after (.amoadd 0 7 1 5 .clean) { busy with data := [(0, 4)] } (fun t => (g t 0 7, t.data)) = some (4, [(0, 7)]) := by decide
/-- R57: 00 to 10 counts one step up. -/
theorem test_line_step : after (.lineEdge 0 7 0 1) busy (fun t => (t.lines[(0 : Fin 8)].hw, t.lines[(0 : Fin 8)].ab)) = some (1, 2) := by decide
/-- R59: a change of both channels is a QERR: no count, two counts of uncertainty. -/
theorem test_line_qerr : after (.lineEdge 0 7 7 1) busy (fun t => (t.lines[(0 : Fin 8)].hw, t.lines[(0 : Fin 8)].uncert)) = some (0, 2) := by decide
/-- R287: with X[0] = 3 and Y[0] = 5 TMPY leaves 15. -/
theorem test_tmpy : after (.tmpy 0 0 ⟨0, 0, 0, 0, true, 0, 0, true⟩)
    { busy with lanes := busy.lanes.set 0 { running := true, active := true, x := [(0, 3)], y := [(0, 5)] } }
    (fun t => t.lanes[(0 : Fin 32)].acc[(0 : Fin 2)]) = some 15 := by decide
/-- R22: an input 1 microsecond before the boundary is stamped with the tick after it. -/
theorem test_stamp_late : busy.stampAt (BitVec.ofNat 64 (9 * 125000 - 1000)) = 10 ∧ busy.stampAt (BitVec.ofNat 64 (9 * 125000 - 1001)) = 9 := by decide
/-- R531: the IDCODE of an A8128. -/
theorem test_idcode : after .tapIdcode State.reset (fun t => t.outbox) = some [.data .jtag 0xB8128A5B] := by decide
/-- The worked examples of 03 and 04: their encodings, written there field by field, decode to the instructions they stand for. -/
theorem test_decode_malax_examples :
    decodeMalax 8 0x41A86000 = some (.ld 8 6 20 0 .clean) ∧ decodeMalax 8 0x406A7000 = some (.fld 8 1 21 0 .clean)
    ∧ decodeMalax 8 0x208C0020 = some (.fcvtDL 8 2 6) ∧ decodeMalax 8 0x28C22200 = some (.fmadd 8 3 1 2 4)
    ∧ decodeMalax 8 0x48EA4008 = some (.fsd 8 3 21 8) ∧ decodeMalax 0 0x8954B002 = some (.waitl 0 5 10 11 2)
    ∧ decodeMalax 0 0x91980000 = some (.job 0 6 12 .clean) ∧ decodeMalax 0 0x81C00003 = some (.cut 0 7) := by decide
/-- R99, R100: group, rd, ra, opx or rb, and func or imm12; a field that the instruction does not use must be 0. -/
theorem test_decode_malax_fields :
    decodeMalax 0 0x01C22000 = some (.add 0 7 1 2) ∧ decodeMalax 0 0x09CA0FFF = some (.addi 0 7 5 0xFFF)
    ∧ decodeMalax 0 0x580A5003 = some (.beq 0 5 5 3) ∧ decodeMalax 0 0x51C22001 = some (.amoadd 0 7 1 2 .clean)
    ∧ decodeMalax 0 0x11FFFFFF = some (.liw 0 7 0x3FFFFF) ∧ decodeMalax 0 0x70009000 = some (.eret 0)
    ∧ decodeMalax 0 0x70029000 = none ∧ decodeMalax 0 0x30000000 = none ∧ decodeMalax 0 0x28C22204 = none := by decide
/-- R286: operation, accumulator, register and mode fields of the three formats; reserved encodings are no instruction. -/
theorem test_decode_lane :
    decodeLane 0 0x00092200 = some (.tmpy 0 0 ⟨0, 0, 1, 1, false, 2, 1, false⟩)
    ∧ decodeLane 0 0x08092200 = some (.tmac 0 0 ⟨0, 0, 1, 1, false, 2, 1, false⟩)
    ∧ decodeLane 0 0x4205C000 = some (.lanePut 0 0 ⟨true, 0, 0, true⟩ 14) ∧ decodeLane 0 0x88800FFF = some (.setm 0 2 0xFFF)
    ∧ decodeLane 0 0xA0001002 = some (.rpt 0 2 2) ∧ decodeLane 0 0xB8000000 = some (.laneEnd 0)
    ∧ decodeLane 0 0x03000000 = none ∧ decodeLane 0 0x90000801 = none ∧ decodeLane 0 0x18000000 = none := by decide

end Sys2Proof.Tests
end

section
/-! The results of the binary64 arithmetic of the planner cores (R104, R105, R107). -/

namespace Sys2Proof.Machine

/-! ### Minimum, maximum and sign transfer as the statements name them -/

theorem f64SigFlag_eq_nvSignalling (a b : DWord) : f64SigFlag a b = nvSignalling a b := rfl

theorem f64Neg_eq_getLsbD (a : DWord) : f64Neg a = a.getLsbD 63 := rfl

/-- Two zeros compare equal, so only their signs order them (R105). -/
theorem f64Cmp_of_zeros {a b : DWord} (h : (f64IsZero a && f64IsZero b) = true) : f64Cmp a b = .eq := by
  simp [f64Cmp, h]

theorem f64MinMax_flags (isMax : Bool) (a b : DWord) : (f64MinMax isMax a b).2 = nvSignalling a b := by
  rw [← f64SigFlag_eq_nvSignalling]
  unfold f64MinMax
  split_ifs <;> rfl

theorem f64MinMax_value (isMax : Bool) (a b : DWord) : (f64MinMax isMax a b).1 = minMaxR105 isMax a b := by
  unfold f64MinMax minMaxR105
  cases ha : f64IsNaN a <;> cases hb : f64IsNaN b
  case false.false =>
    cases hz : f64IsZero a && f64IsZero b with
    | true => simp [f64Lt, ha, hb, f64Cmp_of_zeros hz, f64Neg_eq_getLsbD]
    | false => simp [f64Lt, ha, hb]
  all_goals simp [f64NaN]

/-- Bit 63 of a value that joins a sign and a magnitude is the sign, every lower bit that of the magnitude (R104). -/
theorem f64WithSign_getLsbD (a : DWord) (neg : Bool) (i : Nat) (hi : i < 64) :
    (f64WithSign a neg).getLsbD i = if i = 63 then neg else a.getLsbD i := by
  have hmag : ∀ i < 64, (0x7FFFFFFFFFFFFFFF : DWord).getLsbD i = decide (i ≠ 63) := by decide
  have hsgn : ∀ i < 64, (0x8000000000000000 : DWord).getLsbD i = decide (i = 63) := by decide
  unfold f64WithSign f64Abs
  rw [BitVec.getLsbD_or, BitVec.getLsbD_and, hmag i hi]
  by_cases h : i = 63
  · subst h; cases neg <;> simp
  · cases neg
    · simp [h]
    · rw [if_pos rfl, hsgn i hi]
      simp [h]

/-- The magnitude of `a` under a sign is the sign bit before the low 63 bits of `a`. -/
theorem f64WithSign_eq_append (a : DWord) (neg : Bool) :
    f64WithSign a neg = BitVec.ofBool neg ++ a.setWidth 63 := by
  refine BitVec.eq_of_getLsbD_eq fun i hi => ?_
  rw [f64WithSign_getLsbD a neg i hi, BitVec.getLsbD_append]
  by_cases h : i = 63
  · simp [h]
  · have : i < 63 := by omega
    simp [this, h]

/-! ### The two shapes of instruction -/

theorem fpResult_of_fpRR {mk : Fin 9 → Fin 32 → Fin 32 → Fin 32 → Instr} {cls : IssClass} {f : DWord → DWord → DWord × FFlags}
    {v : DWord → DWord → DWord} {fl : DWord → DWord → FFlags}
    (hmk : ∀ c fd fa fb s, exec (mk c fd fa fb) s = s.fpRR c cls fd fa fb f)
    (hv : ∀ a b, (f a b).1 = v a b) (hfl : ∀ a b, (f a b).2 = fl a b) : FpResult mk cls v fl := by
  intro s c fd fa fb h
  rw [hmk]
  simp only [← hv, ← hfl]
  exact exec1_retires h fun k t => rfl

theorem fmaResult_of_fpFma {mk : Fin 9 → Fin 32 → Fin 32 → Fin 32 → Fin 32 → Instr} {np na : Bool}
    (hmk : ∀ c fd fa fb fc s, exec (mk c fd fa fb fc) s = s.fpFma c np na fd fa fb fc) : FmaResult mk np na := by
  intro s c fd fa fb fc h
  rw [hmk]
  exact exec1_retires h fun k t => rfl

end Sys2Proof.Machine

open Sys2Proof Sys2Proof.Machine

/-- Settles O5: each instruction is one of the shapes above, with a result and flags that the statement names. -/
theorem floatingArithmeticResults : Obligations.FloatingArithmeticResults := by
  unfold Obligations.FloatingArithmeticResults
  refine ⟨?fadd, ?fsub, ?fmul, ?fdiv, ?fmin, ?fmax, ?fsgnj, ?fsgnjn, ?fsgnjx, ?fsqrt, ?fmadd, ?fmsub, ?fnmsub, ?fnmadd⟩
  case fadd => exact fpResult_of_fpRR (f := f64Add) (fun _ _ _ _ _ => rfl) (fun _ _ => rfl) (fun _ _ => rfl)
  case fsub => exact fpResult_of_fpRR (f := f64Sub) (fun _ _ _ _ _ => rfl) (fun _ _ => rfl) (fun _ _ => rfl)
  case fmul => exact fpResult_of_fpRR (f := f64Mul) (fun _ _ _ _ _ => rfl) (fun _ _ => rfl) (fun _ _ => rfl)
  case fdiv => exact fpResult_of_fpRR (f := f64Div) (fun _ _ _ _ _ => rfl) (fun _ _ => rfl) (fun _ _ => rfl)
  case fmin => exact fpResult_of_fpRR (f := f64MinMax false) (fun _ _ _ _ _ => rfl) (f64MinMax_value false) (f64MinMax_flags false)
  case fmax => exact fpResult_of_fpRR (f := f64MinMax true) (fun _ _ _ _ _ => rfl) (f64MinMax_value true) (f64MinMax_flags true)
  case fsgnj =>
    exact fpResult_of_fpRR (f := fun a b => (f64WithSign a (f64Neg b), 0)) (fun _ _ _ _ _ => rfl)
      (fun a b => f64Neg_eq_getLsbD b ▸ f64WithSign_eq_append a _) (fun _ _ => rfl)
  case fsgnjn =>
    exact fpResult_of_fpRR (f := fun a b => (f64WithSign a (!f64Neg b), 0)) (fun _ _ _ _ _ => rfl)
      (fun a b => f64Neg_eq_getLsbD b ▸ f64WithSign_eq_append a _) (fun _ _ => rfl)
  case fsgnjx =>
    exact fpResult_of_fpRR (f := fun a b => (f64WithSign a (f64Neg a != f64Neg b), 0)) (fun _ _ _ _ _ => rfl)
      (fun a b => f64Neg_eq_getLsbD a ▸ f64Neg_eq_getLsbD b ▸ f64WithSign_eq_append a _) (fun _ _ => rfl)
  case fsqrt => exact fun s c fd fa h => exec1_retires h fun k t => rfl
  case fmadd => exact fmaResult_of_fpFma fun _ _ _ _ _ _ => rfl
  case fmsub => exact fmaResult_of_fpFma fun _ _ _ _ _ _ => rfl
  case fnmsub => exact fmaResult_of_fpFma fun _ _ _ _ _ _ => rfl
  case fnmadd => exact fmaResult_of_fpFma fun _ _ _ _ _ _ => rfl

end

section
/-! Accesses to the registers of BAR0: what an access that reaches its register does there, by the part of the register
that its offset names (R7, R10 to R13, R512, R514). -/

namespace Sys2Proof.Machine

/-! ### An access that reaches its register -/

/-- An access that reaches its register is turned away by none of the checks (R513). -/
theorem guarded_of_reaches {s : State} {p : Path} {write : Bool} {off size : Nat} (h : s.Reaches p write off size)
    (f : State → State) : s.guarded p write off size f = f s := by
  obtain ⟨hopen, halign, hknown, hkind⟩ := h
  simp [State.guarded, hopen, halign, hknown, hkind]

/-- The ways an access can end: turned away without an effect, at its register, as a bad access, or at a stopped domain
(R491, R513). -/
theorem guarded_induction {s : State} {p : Path} {write : Bool} {off size : Nat} {f : State → State} (motive : State → Prop)
    (closed : motive s) (reached : motive (f s)) (bad : ∀ wrongSize, motive (s.badAccess p off wrongSize write))
    (trap : motive (s.windowTrap off)) (stopped : motive (s.stoppedError p write)) :
    motive (s.guarded p write off size f) := by
  unfold State.guarded
  by_cases hopen : s.pathOpen p write = true
  case neg => simpa [hopen] using closed
  by_cases halign : off % size = 0
  case neg => simpa [hopen, halign] using bad true
  by_cases hknown : bar0Known off size = true
  case neg => simpa [hopen, halign, hknown] using bad false
  cases hkind : s.accKind p write off with
  | ok => simpa [hopen, halign, hknown, hkind] using reached
  | closed => simpa [hopen, halign, hknown, hkind] using closed
  | stopped =>
    cases hread : (p == .saf && !write) with
    | true => simpa [hopen, halign, hknown, hkind, hread] using trap
    | false => simpa [hopen, halign, hknown, hkind, hread] using stopped

theorem readBar0_word {s : State} {p : Path} {off : Nat} {r : RegAt} (hr : regAt off = some r) :
    s.readBar0 p off 4 = s.read4 p off r := by
  simp [State.readBar0, hr]

theorem writeBar0_word {s : State} {p : Path} {off : Nat} {r : RegAt} {v : DWord} {t : DWord} (hr : regAt off = some r) :
    s.writeBar0 p off 4 v t = s.write4 p off r (v.setWidth 32) t := by
  simp [State.writeBar0, hr]

theorem readBar0_doubleword {s : State} {p : Path} {off : Nat} {r r2 : RegAt} (hr : regAt off = some r)
    (hr2 : regAt (off + 4) = some r2) :
    s.readBar0 p off 8 = ((s.read4 p off r).1 + 2 ^ 32 * ((s.read4 p off r).2.read4 p (off + 4) r2).1,
      ((s.read4 p off r).2.read4 p (off + 4) r2).2) := by
  simp [State.readBar0, hr, hr2]

theorem writeBar0_doubleword {s : State} {p : Path} {off : Nat} {r r2 : RegAt} {v : DWord} {t : DWord}
    (hr : regAt off = some r) (hr2 : regAt (off + 4) = some r2) :
    s.writeBar0 p off 8 v t =
      (s.write4 p off r (v.setWidth 32) t).write4 p (off + 4) r2 (v.extractLsb' 32 32) t := by
  simp [State.writeBar0, hr, hr2]

/-! ### Reads of a word -/

section
variable {s : State} {p : Path} {off : Nat} {r : RegAt}

theorem read4_single (hh : r.high = false) (hw : r.wide = false) :
    s.read4 p off r = (s.regAtBase off r % 2 ^ 32, s.drawn r.id) := by
  simp [State.read4, hh, hw]

theorem read4_low (hh : r.high = false) (hw : r.wide = true) :
    s.read4 p off r = (s.regAtBase off r % 2 ^ 32, (s.drawn r.id).modPath p fun l =>
      { l with readHigh := BitVec.ofNat 32 (s.regAtBase off r / 2 ^ 32) }) := by
  simp [State.read4, hh, hw]

theorem read4_high (hh : r.high = true) : s.read4 p off r = ((s.pathOf p).readHigh.toNat, s) := by
  simp [State.read4, hh]

/-! ### Writes of a word -/

variable {v : Word} {t : DWord}

theorem write4_single (hh : r.high = false) (hw : r.wide = false) :
    s.write4 p off r v t = s.writeFull p off r v.toNat t := by
  simp [State.write4, hh, hw]

theorem write4_low (hh : r.high = false) (hw : r.wide = true) :
    s.write4 p off r v t = s.modPath p fun l => { l with stagedLow := v } := by
  simp [State.write4, hh, hw]

theorem write4_high (hh : r.high = true) :
    s.write4 p off r v t = s.writeFull p (off - 4) r ((s.pathOf p).stagedLow.toNat + 2 ^ 32 * v.toNat) t := by
  simp [State.write4, hh]

end

/-! ### The latch and the staging register of a path -/

theorem pathIdx_injective : Function.Injective pathIdx := by
  intro p q h
  cases p <;> cases q <;> simp_all [pathIdx]

theorem modPath_pathOf (s : State) (p : Path) (f : PathLatch → PathLatch) : (s.modPath p f).pathOf p = f (s.pathOf p) := by
  simp [State.modPath, State.pathOf, vmod]

/-- A change of one path's latch leaves those of the others (R12). -/
theorem modPath_paths_of_ne (s : State) {p q : Path} (h : p ≠ q) (f : PathLatch → PathLatch) :
    (s.modPath p f).paths[pathIdx q] = s.paths[pathIdx q] := by
  have hne : (pathIdx p).val ≠ (pathIdx q).val := fun e => h (pathIdx_injective (Fin.ext e))
  simp [State.modPath, vmod, Vector.getElem_set_ne, hne]

/-! ### What a read draws -/

theorem drawn_eq_of_ne {s : State} {id : RegId} (h : id ≠ .clkAonsid) : s.drawn id = { s with free := (s.drawn id).free } := by
  unfold State.drawn
  have hid : (id == RegId.clkAonsid) = false := by simpa using h
  rw [hid]
  split <;> rfl

theorem drawn_clkAonsid (s : State) : s.drawn .clkAonsid = s.crystal := rfl

/-- A read that draws changes nothing but the free count and, for CLK_AONSID, the coarse count (R502). -/
theorem drawn_eq (s : State) (id : RegId) :
    s.drawn id = { s with free := (s.drawn id).free, aonSid := (s.drawn id).aonSid, aon := (s.drawn id).aon } := by
  by_cases h : id = .clkAonsid
  · subst h; rfl
  · rw [drawn_eq_of_ne h]

theorem drawn_paths (s : State) (id : RegId) : (s.drawn id).paths = s.paths := by rw [drawn_eq]

end Sys2Proof.Machine
end

section
/-! The reads of registers (R10, R12, R514), and what an access of one path leaves to the others. -/

namespace Sys2Proof.Machine

/-! ### The paths of an access that is turned away -/

@[simp] theorem takeTrap_paths (s : State) (c : Fin 10) (cyc : Nat) (isInt : Bool) (code : Nat) (tval epc : DWord) :
    (s.takeTrap c cyc isInt code tval epc).paths = s.paths := by
  unfold State.takeTrap State.haltCore
  dsimp only
  split_ifs <;> simp

theorem windowTrap_paths (s : State) (off : Nat) : (s.windowTrap off).paths = s.paths := by
  unfold State.windowTrap State.except
  split_ifs <;> simp

theorem badAccess_paths (s : State) (p : Path) (off : Nat) (wrongSize write : Bool) :
    (s.badAccess p off wrongSize write).paths = s.paths := by
  cases p <;> cases write <;> simp [State.badAccess, windowTrap_paths]

theorem stoppedError_paths (s : State) (p : Path) (write : Bool) : (s.stoppedError p write).paths = s.paths := by
  cases p <;> cases write <;> simp [State.stoppedError]

/-- An access leaves a path's latch as it is unless what it does at its register changes it. -/
theorem guarded_paths {s : State} {p : Path} {write : Bool} {off size : Nat} {f : State → State} (i : Fin 3)
    (hf : (f s).paths[i] = s.paths[i]) : (s.guarded p write off size f).paths[i] = s.paths[i] := by
  have keeps : ∀ u : State, u.paths = s.paths → u.paths[i] = s.paths[i] := fun u hu => by simp only [hu]
  exact guarded_induction (fun u => u.paths[i] = s.paths[i]) rfl hf (fun w => keeps _ (badAccess_paths s p off w write))
    (keeps _ (windowTrap_paths s off)) (keeps _ (stoppedError_paths s p write))

/-! ### Reads of one word -/

theorem lowWordRead_of_reaches {s : State} {p : Path} {off : BitVec 25} {r : RegAt} (h : s.Reaches p false off.toNat 4)
    (hr : regAt off.toNat = some r) :
    exec (.lowWordRead p off) s = .next ((s.read4 p off.toNat r).2.out (.data p (BitVec.ofNat 64 (s.read4 p off.toNat r).1))) := by
  show execLowWordRead p off s = _
  rw [execLowWordRead, guarded_of_reaches h, readBar0_word hr]

theorem lowWordRead_paths_of_ne {s t : State} {p q : Path} {off : BitVec 25} (hne : p ≠ q)
    (h : exec (.lowWordRead p off) s = .next t) : t.paths[pathIdx q] = s.paths[pathIdx q] := by
  have ht : execLowWordRead p off s = .next t := h
  rw [execLowWordRead] at ht
  cases ht
  refine guarded_paths _ ?_
  dsimp only
  rw [out_paths]
  cases hr : regAt off.toNat with
  | none => simp [State.readBar0, hr]
  | some r =>
    rw [readBar0_word hr]
    cases hh : r.high with
    | true => rw [read4_high hh]
    | false =>
      cases hw : r.wide with
      | true => rw [read4_low hh hw, modPath_paths_of_ne _ hne, drawn_paths]
      | false => rw [read4_single hh hw, drawn_paths]

theorem lowWordWrite_paths_of_ne {s t : State} {p q : Path} {off : BitVec 25} {v : Word} (hne : p ≠ q)
    (h : exec (.lowWordWrite p off v) s = .next t) : t.paths[pathIdx q] = s.paths[pathIdx q] := by
  have ht : execLowWordWrite p off v s = .next t := h
  rw [execLowWordWrite] at ht
  cases ht
  cases hr : regAt off.toNat with
  | none => rfl
  | some r =>
    dsimp only
    split_ifs
    · exact guarded_paths _ (modPath_paths_of_ne s hne _)
    · rfl

/-! ### Reads of a doubleword -/

/-- A doubleword read joins the low word and the latched high word: both words of one value (R514). -/
theorem joined_words (v : Nat) : v % 2 ^ 32 + 2 ^ 32 * (BitVec.ofNat 32 (v / 2 ^ 32)).toNat = v % 2 ^ 64 := by
  rw [BitVec.toNat_ofNat]
  omega

theorem qwordRead_of_reaches {s : State} {p : Path} {off : BitVec 25} {r r2 : RegAt} {t : DWord}
    (h : s.Reaches p false off.toNat 8) (hr : regAt off.toNat = some r) (hr2 : regAt (off.toNat + 4) = some r2)
    (hh : r.high = false) (hw : r.wide = true) (hh2 : r2.high = true) :
    exec (.qwordAccess p off none t) s = .next ((((s.atTime t).drawn r.id).modPath p fun l =>
        { l with readHigh := BitVec.ofNat 32 ((s.atTime t).regAtBase off.toNat r / 2 ^ 32) }).out
      (.data p (BitVec.ofNat 64 ((s.atTime t).regAtBase off.toNat r % 2 ^ 64)))) := by
  have hreach : (s.atTime t).Reaches p false off.toNat 8 := h
  show execQwordAccess p off none t s = _
  rw [execQwordAccess]
  dsimp only
  rw [guarded_of_reaches hreach, readBar0_doubleword hr hr2, read4_low hh hw, read4_high hh2, modPath_pathOf]
  dsimp only
  rw [joined_words]

end Sys2Proof.Machine

open Sys2Proof Sys2Proof.Machine

/-- Settles O30: a read of a word by the part of the register it names, one of a doubleword as its two words, and the
frame of a path from the frame of every way an access can end. -/
theorem registerReadsAndLatches : Obligations.RegisterReadsAndLatches := by
  unfold Obligations.RegisterReadsAndLatches
  refine ⟨?word, ?drawn, ?doubleword, ?otherPaths⟩
  case word =>
    intro s p off r h hr
    refine ⟨fun hh hw => ?_, fun hh hw => ?_, fun hh => ?_⟩
    · rw [lowWordRead_of_reaches h hr, read4_single hh hw]
      rfl
    · rw [lowWordRead_of_reaches h hr, read4_low hh hw, State.modPath, drawn_paths]
      rfl
    · rw [lowWordRead_of_reaches h hr, read4_high hh]
      rfl
  case drawn => exact fun s id => ⟨drawn_eq_of_ne, _, drawn_clkAonsid s⟩
  case doubleword =>
    intro s p off r r2 t h hr hr2 hh hw hh2
    refine ⟨_, qwordRead_of_reaches h hr hr2 hh hw hh2, ?_⟩
    rw [drawn_eq]
    exact ⟨rfl, rfl, rfl, rfl, rfl, rfl, rfl⟩
  case otherPaths =>
    intro s t p q off v hne h
    exact h.elim (lowWordRead_paths_of_ne hne) (lowWordWrite_paths_of_ne hne)

end

section
/-! The writes of registers (R3, R11, R12, R470, R497, R514). -/

namespace Sys2Proof.Machine

/-! ### The access commands at their register -/

section
variable {s : State} {p : Path} {off : BitVec 25} {r : RegAt} {v : Word} {t : DWord}

theorem lowWordWrite_of_reaches (h : s.Reaches p true off.toNat 4) (hr : regAt off.toNat = some r) (hh : r.high = false)
    (hw : r.wide = true) :
    exec (.lowWordWrite p off v) s = .next (s.modPath p fun l => { l with stagedLow := v }) := by
  show execLowWordWrite p off v s = _
  simp only [execLowWordWrite, hr, hh, hw, Bool.not_false, Bool.and_self, if_true, guarded_of_reaches h]

theorem highWordWrite_of_reaches (h : s.Reaches p true off.toNat 4) (hr : regAt off.toNat = some r) (hh : r.high = true) :
    exec (.highWordWrite p off v t) s = .next (s.write4 p off.toNat r v t) := by
  show execHighWordWrite p off v t s = _
  simp only [execHighWordWrite, hr, hh, if_true, guarded_of_reaches h]

/-- A word keeps its value through the doubleword that carries it to its register. -/
theorem setWidth_doubleword_word (v : Word) : (v.setWidth 64).setWidth 32 = v := by
  simp

theorem registerWrite_of_reaches (h : s.Reaches p true off.toNat 4) (hr : regAt off.toNat = some r) :
    exec (.registerWrite p off v t) s = .next (s.write4 p off.toNat r v t) := by
  show execRegisterWrite p off v t s = _
  rw [execRegisterWrite, guarded_of_reaches h, writeBar0_word hr, setWidth_doubleword_word]

end

/-- The two words of a doubleword spell it. -/
theorem words_of_doubleword (w : DWord) : (w.setWidth 32).toNat + 2 ^ 32 * (w.extractLsb' 32 32).toNat = w.toNat := by
  have hw := w.isLt
  simp only [BitVec.toNat_setWidth, BitVec.extractLsb'_toNat, Nat.shiftRight_eq_div_pow]
  omega

/-- An aligned doubleword write stages its low word and writes the whole register with its high word (R514). -/
theorem qwordWrite_of_reaches {s : State} {p : Path} {off : BitVec 25} {r r2 : RegAt} {w t : DWord}
    (h : s.Reaches p true off.toNat 8) (hr : regAt off.toNat = some r) (hr2 : regAt (off.toNat + 4) = some r2)
    (hh : r.high = false) (hw : r.wide = true) (hh2 : r2.high = true) :
    exec (.qwordAccess p off (some w) t) s = .next (((s.atTime t).modPath p fun l => { l with stagedLow := w.setWidth 32 }).writeFull
      p off.toNat r2 w.toNat t) := by
  have hreach : (s.atTime t).Reaches p true off.toNat 8 := h
  show execQwordAccess p off (some w) t s = _
  rw [execQwordAccess, guarded_of_reaches hreach, writeBar0_doubleword hr hr2, write4_low hh hw, write4_high hh2, modPath_pathOf,
    words_of_doubleword, Nat.add_sub_cancel]

/-! ### Whole writes -/

theorem writeFull_discarded {s : State} {p : Path} {base : Nat} {r : RegAt} {v : Nat} {t : DWord} (h : ¬ s.Writable base r) :
    s.writeFull p base r v t = s := by
  have hdiscard : (s.fusedReg r || !s.blockUp base || (s.eph.replay && inDetBlock base)) = true := by
    by_contra hc
    simp only [Bool.or_eq_true, Bool.and_eq_true, Bool.not_eq_true', not_or, not_and_or, Bool.not_eq_true, Bool.not_eq_false] at hc
    obtain ⟨⟨hfuse, hup⟩, hrep⟩ := hc
    exact h ⟨hfuse, hup, hrep⟩
  rw [State.writeFull, if_pos hdiscard]

theorem not_discarded_of_writable {s : State} {base : Nat} {r : RegAt} (h : s.Writable base r) :
    (s.fusedReg r || !s.blockUp base || (s.eph.replay && inDetBlock base)) = false := by
  obtain ⟨hfuse, hup, hrep⟩ := h
  rcases hrep with hrep | hrep <;> simp [hfuse, hup, hrep]

/-! ### The write of an unshadowed register that takes effect, by the block that it lies in (R512) -/

section
variable {s : State} {p : Path} {base : Nat} {r : RegAt} {v : Nat} {t : DWord}

theorem writeFull_glb (hw : s.Writable base r) (hc : r.id ≠ .commit) (hs : r.shad = false) (hhi : base < 0x10000) :
    s.writeFull p base r v t = s.writeGlb base r v t := by
  simp [State.writeFull, not_discarded_of_writable hw, hc, hs, hhi]

theorem writeFull_mer (hw : s.Writable base r) (hc : r.id ≠ .commit) (hs : r.shad = false) (hlo : 0x100000 ≤ base)
    (hhi : base < 0x140000) : s.writeFull p base r v t = s.writeMer base r v t := by
  have h1 : ¬ base < 0x10000 := by omega
  have h2 : ¬ base < 0x20000 := by omega
  have h3 : ¬ base < 0x100000 := by omega
  simp [State.writeFull, not_discarded_of_writable hw, hc, hs, hhi, h1, h2, h3]

theorem writeFull_eph (hw : s.Writable base r) (hc : r.id ≠ .commit) (hs : r.shad = false) (hlo : 0x140008 ≤ base)
    (hhi : base < 0x180000) : s.writeFull p base r v t = s.writeEph base r v := by
  have h1 : ¬ base < 0x10000 := by omega
  have h2 : ¬ base < 0x20000 := by omega
  have h3 : ¬ base < 0x100000 := by omega
  have h4 : ¬ base < 0x140000 := by omega
  have h5 : base ≠ 0x140004 := by omega
  simp [State.writeFull, not_discarded_of_writable hw, hc, hs, hhi, h1, h2, h3, h4, h5]

theorem writeFull_saf (hw : s.Writable base r) (hc : r.id ≠ .commit) (hs : r.shad = false) (hlo : 0x180000 ≤ base)
    (hhi : base < 0x1A0000) : s.writeFull p base r v t = s.writeSaf base r v := by
  have h1 : ¬ base < 0x10000 := by omega
  have h2 : ¬ base < 0x20000 := by omega
  have h3 : ¬ base < 0x100000 := by omega
  have h4 : ¬ base < 0x140000 := by omega
  have h5 : base ≠ 0x140004 := by omega
  have h6 : ¬ base < 0x180000 := by omega
  simp [State.writeFull, not_discarded_of_writable hw, hc, hs, hhi, h1, h2, h3, h4, h5, h6]

end

/-! ### Registers that hold what is written (16 to 21) -/

theorem plainMask_held : ∀ e ∈ heldRegisters, plainMask e.1 = e.2.2.2 ∧ plainMask e.1 ≠ 0 := by decide

theorem held_ne_commit : ∀ e ∈ heldRegisters, e.1 ≠ .commit := by decide

/-- A register that holds what is written has no effect beside. -/
theorem writeFull_held {s : State} {p : Path} {base lo hi mask : Nat} {r : RegAt} {v : Nat} {t : DWord}
    (hmem : (r.id, lo, hi, mask) ∈ heldRegisters) (hlo : lo ≤ base) (hhi : base < hi) (hw : s.Writable base r)
    (hs : r.shad = false) : s.writeFull p base r v t = s.setPlain base r v := by
  have hc := held_ne_commit _ hmem
  simp only [heldRegisters, List.mem_cons, Prod.mk.injEq, List.not_mem_nil, or_false] at hmem
  rcases hmem with h | h | h | h | h | h | h | h | h | h | h | h | h | h | h <;> obtain ⟨hid, rfl, rfl, -⟩ := h
  iterate 6 · simp [writeFull_glb hw hc hs hhi, State.writeGlb, hid]
  · simp [writeFull_mer hw hc hs hlo hhi, State.writeMer, hid]
  iterate 6 · simp [writeFull_eph hw hc hs hlo hhi, State.writeEph, hid]
  iterate 2 · simp [writeFull_saf hw hc hs hlo hhi, State.writeSaf, hid]

/-- The plain bits of a register are stored in its one or two words. -/
theorem setPlain_of_mask {s : State} {base : Nat} {r : RegAt} {v mask : Nat} (hm : plainMask r.id = mask)
    (h0 : plainMask r.id ≠ 0) :
    let w := Nat.land v mask
    let low := assocSet s.regs base (BitVec.ofNat 32 w)
    s.setPlain base r v =
      { s with regs := if r.wide then assocSet low (base + 4) (BitVec.ofNat 32 (w / 2 ^ 32)) else low } := by
  subst hm
  rw [State.setPlain]
  cases r.wide <;> simp [h0, State.setReg]

end Sys2Proof.Machine

open Sys2Proof Sys2Proof.Machine

/-- Settles O31: the write of each part of a register, the doubleword write as its two word writes, and the whole write of
a register that holds what is written. -/
theorem registerWritesCommitBothWords : Obligations.RegisterWritesCommitBothWords := by
  unfold Obligations.RegisterWritesCommitBothWords
  refine ⟨?word, ?doubleword, ?whole⟩
  case word =>
    intro s p off r v t h hr
    refine ⟨fun hh hw => lowWordWrite_of_reaches h hr hh hw, fun hh => ?_, fun hh hw => ?_⟩
    · rw [highWordWrite_of_reaches h hr hh, write4_high hh]
      rfl
    · rw [registerWrite_of_reaches h hr, write4_single hh hw]
  case doubleword => exact fun s p off r r2 w t h hr hr2 hh hw hh2 => qwordWrite_of_reaches h hr hr2 hh hw hh2
  case whole =>
    intro s p base r v t
    refine ⟨writeFull_discarded, fun lo hi mask hmem hlo hhi hw hs => ?_⟩
    obtain ⟨hm, h0⟩ := plainMask_held _ hmem
    exact (writeFull_held hmem hlo hhi hw hs).trans (setPlain_of_mask hm h0)

end

section
/-! SHADOW_WRITE and the release of a shadow write by the gate (R13, R22, R23, R36). -/

namespace Sys2Proof.Machine

/-! ### No shadowed register is a commit register -/

theorem at?_id {row : RegRow} {off : Nat} {r : RegAt} (h : row.at? off = some r) : r.id = row.id := by
  simp only [RegRow.at?, Option.ite_none_left_eq_some, Option.ite_none_right_eq_some, Option.some.injEq] at h
  obtain ⟨-, -, rfl⟩ := h
  rfl

/-- The tables of the blocks list no commit register: those are found before them (R36). -/
theorem regRowsAt_id_ne_commit (off : Nat) : ∀ row ∈ regRowsAt off, row.id ≠ .commit := by
  unfold regRowsAt
  iterate 16 refine iteInduction (motive := fun l : List RegRow => ∀ row ∈ l, row.id ≠ .commit) (fun _ => by decide) fun _ => ?_
  decide

theorem id_ne_commit_of_shad {off : Nat} {r : RegAt} (hr : regAt off = some r) (hs : r.shad = true) : r.id ≠ .commit := by
  unfold regAt at hr
  split at hr
  · cases hr
    cases hs
  · obtain ⟨row, hmem, hat⟩ := List.exists_of_findSome?_eq_some hr
    rw [at?_id hat]
    exact regRowsAt_id_ne_commit off row hmem

/-! ### A shadow write joins the gate -/

theorem gateIn_of_running {s : State} {t : DWord} {src : Nat} {i : GateItem} (hrep : s.eph.replay = false)
    (hrun : s.stopped (gateDomain src) = false) :
    s.gateIn t src i = { s with gate := s.gate ++ [⟨s.stampAt t, src, i⟩] } := by
  simp [State.gateIn, State.gatePush, hrep, hrun]

theorem pathSource_eq_srcOf (p : Path) : pathSource p = srcOf p := by
  cases p <;> rfl

theorem shadowWrite_single {s : State} {p : Path} {off : Nat} {r : RegAt} {v : Nat} {t : DWord} (hw : r.wide = false)
    (hrep : s.eph.replay = false) (hrun : s.stopped (gateDomain (srcOf p)) = false) :
    s.shadowWrite p off r v t = s.gated t (srcOf p) [.shadow off (BitVec.ofNat 32 (Nat.land v (shadowMask r)))] := by
  have hgate := gateIn_of_running (s := s.atTime t) (t := t) (src := srcOf p)
    (i := .shadow off (BitVec.ofNat 32 (Nat.land v (shadowMask r)))) hrep hrun
  rw [State.shadowWrite, pathSource_eq_srcOf, hgate, hw]
  rfl

theorem writeFull_shadowed {s : State} {p : Path} {base : Nat} {r : RegAt} {v : Nat} {t : DWord} (hw : s.Writable base r)
    (hc : r.id ≠ .commit) (hs : r.shad = true) : s.writeFull p base r v t = s.shadowWrite p base r v t := by
  simp [State.writeFull, not_discarded_of_writable hw, hc, hs]

/-- A shadow write that reaches its register is a write of a shadowed register (R13). -/
theorem shadowWrite_of_reaches {s : State} {p : Path} {off : BitVec 25} {r : RegAt} {v : Word} {t : DWord}
    (h : s.Reaches p true off.toNat 4) (hr : regAt off.toNat = some r) (hs : r.shad = true) :
    exec (.shadowWrite p off v t) s = .next (s.write4 p off.toNat r v t) := by
  show execShadowWrite p off v t s = _
  simp only [execShadowWrite, hr, hs, if_true, guarded_of_reaches h, writeBar0_word hr, setWidth_doubleword_word]

/-! ### The gate releases a shadow write -/

theorem one_shadow_of_no_commit {x : Release} {stamp src off : Nat} {v : Word} {b : CBlock} {rest : List GateIn}
    (hb : blockOf off = some b) (hsn : ∀ e ∈ x.snaps, e.1 ≠ b) :
    x.one ⟨stamp, src, .shadow off v⟩ rest = x.shadow off v := by
  have hnone : (x.snaps.any fun e => e.1 == b) = false := by simpa using hsn
  simp [Release.one, hb, hnone]

end Sys2Proof.Machine

open Sys2Proof Sys2Proof.Machine

/-- Settles O32: the write goes through the gate alone, and its release changes the shadow copies alone. -/
theorem shadowWritesChangeNothingInForce : Obligations.ShadowWritesChangeNothingInForce := by
  unfold Obligations.ShadowWritesChangeNothingInForce
  refine ⟨?written, ?released⟩
  case written =>
    intro s p off r v t h hr hs hh hw hwr hrep hrun
    rw [shadowWrite_of_reaches h hr hs, write4_single hh hw, writeFull_shadowed hwr (id_ne_commit_of_shad hr hs) hs,
      shadowWrite_single hw hrep hrun]
  case released =>
    intro x stamp src off v b rest hb hsn
    rw [one_shadow_of_no_commit hb hsn]
    rfl

end

section
/-! The cell instructions that act on segments and plans (R3, R43, R78, R119 to R128, R146). -/

namespace Sys2Proof.Machine

/-! ### How a cell instruction ends -/

/-- The state in which a cell instruction of core `c` begins: issued, and else `s`. -/
def State.begun (s : State) (c : Fin 9) (t : Core) : State := s.setCore c.castSucc ((s.core c.castSucc).retimed t)

@[simp] theorem begun_core (s : State) (c : Fin 9) (t : Core) :
    (s.begun c t).core c.castSucc = (s.core c.castSucc).retimed t := by simp [State.begun]
@[simp] theorem begun_arms (s : State) (c : Fin 9) (t : Core) : (s.begun c t).arms = s.arms := rfl
@[simp] theorem begun_data (s : State) (c : Fin 9) (t : Core) : (s.begun c t).data = s.data := rfl
@[simp] theorem begun_coreSafety (s : State) (c : Fin 9) (t : Core) : (s.begun c t).coreSafety = s.coreSafety := rfl
@[simp] theorem begun_rgOf (s : State) (c : Fin 9) (t : Core) (r : Fin 32) :
    (s.begun c t).rgOf c r = (s.core c.castSucc).rg r := by simp [State.rgOf]
@[simp] theorem begun_operand (s : State) (c : Fin 9) (t : Core) (a len : Nat) (err : Ecc) :
    (s.begun c t).operand c a len err = s.operand c a len err := rfl
@[simp] theorem begun_fusedAxis (s : State) (c : Fin 9) (t : Core) (a : Nat) : (s.begun c t).fusedAxis a = s.fusedAxis a := rfl
@[simp] theorem begun_segCheck (s : State) (c : Fin 9) (t : Core) (k : Fin 8) (d : SegDesc) :
    (s.begun c t).segCheck k d = s.segCheck k d := rfl
@[simp] theorem begun_activeCount (s : State) (c : Fin 9) (t : Core) (k : Fin 8) :
    (s.begun c t).activeCount c k = s.activeCount c k := rfl
@[simp] theorem begun_armPresent (s : State) (c : Fin 9) (t : Core) (k : Nat) : (s.begun c t).armPresent k = s.armPresent k := rfl

/-- The cycle a cell instruction issues in. -/
def State.cellCycle (s : State) (c : Fin 9) (rd : Fin 32) (srcs : List CReg) : Nat :=
  s.issueCycle c.castSucc (.cell 1) srcs (dstG rd)

section
variable {s : State} {c : Fin 9} {rd : Fin 32} {srcs : List CReg} {f : State → Nat → CellAns}

theorem cell_of_mayRun (h : s.mayRun c.castSucc (.cell 1) srcs (dstG rd) = true) :
    let cyc := s.cellCycle c rd srcs
    ∃ t : Core, s.cell c rd srcs f = .next (match f (s.begun c t) cyc with
      | .trap code tval => (if code = 4 then ((s.begun c t).eccUp 1).raiseAt ((s.begun c t).coreTime cyc) 0x0401 2 true
          else s.begun c t).except c.castSucc cyc code tval
      | .done n v st => st.modCore c.castSucc fun k => ((k.wg rd v).lengthen rd cyc n).adv
      | .sleep st => st) := by
  obtain ⟨t, ht⟩ := execWith_of_mayRun (f := fun s1 cyc => match f s1 cyc with
      | .trap code tval => (if code = 4 then (s1.eccUp 1).raiseAt (s1.coreTime cyc) 0x0401 2 true
          else s1).except c.castSucc cyc code tval
      | .done n v st => st.modCore c.castSucc fun k => ((k.wg rd v).lengthen rd cyc n).adv
      | .sleep st => st) h
  exact ⟨t, ht⟩

/-- A cell instruction that answers a result on the begun state of some state `u` with the same core completes with the
rest of `u` (R119 to R123). -/
theorem cellDone_of_done {n : Nat} {v : DWord} {u : State} (h : s.mayRun c.castSucc (.cell 1) srcs (dstG rd) = true)
    (hf : ∀ t cyc, f (s.begun c t) cyc = .done n v (u.begun c t)) : CellDone c rd (s.cell c rd srcs f) v u := by
  obtain ⟨t, ht⟩ := cell_of_mayRun (f := f) h
  rw [ht, hf]
  dsimp only
  refine ⟨(((u.core c.castSucc).retimed t).wg rd v).lengthen rd (s.cellCycle c rd srcs) n, ?_⟩
  simp only [State.begun, modCore_setCore, retimed_wg]
  rfl

/-- A cell instruction that answers an exception other than MEM_ECC has no other effect. -/
theorem traps_of_trap {code : Nat} {tval : DWord} (h : s.mayRun c.castSucc (.cell 1) srcs (dstG rd) = true) (hcode : code ≠ 4)
    (hf : ∀ t cyc, f (s.begun c t) cyc = .trap code tval) :
    Traps s c.castSucc (s.cell c rd srcs f) (BitVec.ofNat 64 code) tval := by
  obtain ⟨t, ht⟩ := cell_of_mayRun (f := f) h
  rw [ht, hf]
  dsimp only
  rw [if_neg hcode]
  exact traps_except s c.castSucc t _ code tval

/-- MEM_ECC is raised with the error counted and reported as PLANNER_ECC (R78, R145). -/
theorem traps_of_memEcc {tval : DWord} (h : s.mayRun c.castSucc (.cell 1) srcs (dstG rd) = true)
    (hf : ∀ t cyc, f (s.begun c t) cyc = .trap 4 tval) :
    Traps ((s.eccUp 1).raiseAt (s.coreTime (s.cellCycle c rd srcs)) 0x0401 2 true) c.castSucc (s.cell c rd srcs f) 4 tval := by
  obtain ⟨t, ht⟩ := cell_of_mayRun (f := f) h
  rw [ht, hf]
  dsimp only
  rw [if_pos rfl]
  exact traps_except ((s.eccUp 1).raiseAt (s.coreTime (s.cellCycle c rd srcs)) 0x0401 2 true) c.castSucc t _ 4 tval

end

/-! ### Refusal words and memory operands -/

theorem refuse_eq_refusalWord {code : Nat} (detail : Nat) (hc : code < 256) :
    refuse code detail = refusalWord (BitVec.ofNat 32 detail) (BitVec.ofNat 8 code) := by
  apply BitVec.eq_of_toNat_eq
  have hd : (BitVec.ofNat 32 detail).toNat < 2 ^ 32 := BitVec.isLt _
  have hw : (BitVec.ofNat 8 code).toNat < 2 ^ 8 := BitVec.isLt _
  have hone : ((1 : BitVec 24) <<< 23).toNat = 2 ^ 23 := by decide
  unfold refuse refusalWord
  rw [BitVec.toNat_append, ← Nat.shiftLeft_add_eq_or_of_lt hw, BitVec.toNat_append, ← Nat.shiftLeft_add_eq_or_of_lt hd, hone]
  simp only [BitVec.toNat_ofNat, Nat.shiftLeft_eq] at hd hw ⊢
  omega

/-- The check of a segment operand leaves an uncorrectable error to the end (R146). -/
theorem operand_copied {s : State} {c : Fin 9} {a len : Nat} {err : Ecc} :
    s.operand c a len (if err = .uncorr then .clean else err) = s.operand c a len .clean := by
  cases err <;> rfl

/-- Without an uncorrectable error an operand raises MISALIGN or ACCESS, never MEM_ECC (R119). -/
theorem operand_clean_code_ne {s : State} {c : Fin 9} {a len : Nat} {e : Nat × DWord} (h : s.operand c a len .clean = .inl e) :
    e.1 ≠ 4 := by
  unfold State.operand at h
  dsimp only at h
  split_ifs at h <;> cases h <;> simp_all

/-! ### The descriptor operand of SEGQ and SEGA (R3, R124, R146) -/

/-- ACTTGT names an axis that is fused off on this part. -/
def State.targetFused (s : State) (d : SegDesc) : Bool :=
  d.action == 1 && s.fusedAxis d.actTgt.toNat && decide (d.actTgt.toNat < 128)

theorem targetFused_iff (s : State) (d : SegDesc) : s.targetFused d = true ↔
    d.action = 1 ∧ s.is8064 = true ∧ 64 ≤ d.actTgt.toNat ∧ d.actTgt.toNat < 128 := by
  simp [State.targetFused, State.fusedAxis, and_assoc]

section
variable {s : State} {c : Fin 9} {word : DWord} {a : Nat} {err : Ecc} {f : SegDesc → CellAns}

theorem withSeg_of_offset {off : Nat} (h : s.operand c a 128 .clean = .inr off) :
    s.withSeg c word a err f =
      (if s.targetFused (segOfBytes (s.data.readN off 128)) then .trap 7 word
        else if err = .uncorr then .trap 4 (BitVec.ofNat 64 a)
        else f (segOfBytes (s.data.readN off 128)) : CellAns).noting (if err = .uncorr then .clean else err) := by
  simp only [State.withSeg, State.withBytes, beq_iff_eq, operand_copied, h, State.targetFused]
  split_ifs <;> rfl

theorem withSeg_fused {off : Nat} (h : s.operand c a 128 .clean = .inr off)
    (hf : s.targetFused (segOfBytes (s.data.readN off 128)) = true) : s.withSeg c word a err f = .trap 7 word := by
  rw [withSeg_of_offset h, hf]
  rfl

theorem withSeg_uncorr {off : Nat} (h : s.operand c a 128 .clean = .inr off)
    (hf : s.targetFused (segOfBytes (s.data.readN off 128)) = false) :
    s.withSeg c word a .uncorr f = .trap 4 (BitVec.ofNat 64 a) := by
  rw [withSeg_of_offset h, hf]
  rfl

theorem withSeg_read {off : Nat} (h : s.operand c a 128 .clean = .inr off)
    (hf : s.targetFused (segOfBytes (s.data.readN off 128)) = false) (he : err ≠ .uncorr) :
    s.withSeg c word a err f = (f (segOfBytes (s.data.readN off 128))).noting err := by
  rw [withSeg_of_offset h, hf, if_neg he, if_neg he]
  rfl

theorem withSeg_bad {e : Nat × DWord} (h : s.operand c a 128 .clean = .inl e) : s.withSeg c word a err f = .trap e.1 e.2 := by
  simp only [State.withSeg, State.withBytes, beq_iff_eq, operand_copied, h]

end

/-! ### The bodies of the instructions on an arm core -/

theorem armOf_of_val {c : Fin 9} {k : Fin 8} (h : c.val = k.val) : armOf c = some k := by
  simp [armOf, h]

theorem armOf_of_ne {c : Fin 9} (h : c ≠ 8) : ∃ k : Fin 8, c.val = k.val ∧ armOf c = some k := by
  have hc : c.val < 8 := by omega
  exact ⟨⟨c.val, hc⟩, rfl, armOf_of_val rfl⟩

/-- A descriptor joins the staged queue of an arm. -/
def State.stage (s : State) (k : Fin 8) (d : SegDesc) : State := s.modArm k fun a => { a with staged := a.staged ++ [d] }

theorem stage_eq (s : State) (k : Fin 8) (d : SegDesc) :
    s.stage k d = { s with arms := s.arms.set k { s.arms[k] with staged := s.arms[k].staged ++ [d] } } := rfl

theorem stage_count (s : State) (k : Fin 8) (d : SegDesc) : (s.stage k d).arms[k].staged.length = s.arms[k].staged.length + 1 := by
  simp [stage_eq]

theorem begun_stage (s : State) (c : Fin 9) (t : Core) (k : Fin 8) (d : SegDesc) :
    (s.begun c t).stage k d = (s.stage k d).begun c t := rfl

theorem begun_request (s : State) (c : Fin 9) (t : Core) (r : Req) : (s.begun c t).request c r = (s.request c r).begun c t := rfl

/-- What SEGQ does with a descriptor (R124, R125). -/
def State.segqBody (s : State) (k : Fin 8) (d : SegDesc) : CellAns :=
  if 64 ≤ s.arms[k].staged.length then .done 18 (refuse 1 64) s
  else match s.segCheck k d with
    | some o => .done 18 (refuse 3 o) s
    | none => .done 18 (BitVec.ofNat 64 (s.stage k d).arms[k].staged.length) (s.stage k d)

/-- What SEGA does with a descriptor (R124, R125). -/
def State.segaBody (s : State) (c : Fin 9) (k : Fin 8) (d : SegDesc) : CellAns :=
  if s.coreSafety != .run then .done 18 (refuse 2 s.coreSafety.num) s
  else if 64 ≤ s.activeCount c k then .done 18 (refuse 1 64) s
  else match s.segCheck k d with
    | some o => .done 18 (refuse 3 o) s
    | none => .done 18 (BitVec.ofNat 64 ((s.request c (.sega d)).activeCount c k)) (s.request c (.sega d))

/-- SEGQ and SEGA differ in their word and in what they do with the descriptor `g`. -/
def State.segInstr (s : State) (c : Fin 9) (rd ra : Fin 32) (word : DWord) (err : Ecc) (g : State → SegDesc → CellAns) : Res :=
  s.cell c rd [.g ra] fun s1 _ => s1.withSeg c word (s1.rgOf c ra).toNat err (g s1)

theorem segq_of_arm {s : State} {c : Fin 9} {k : Fin 8} {rd ra : Fin 32} {err : Ecc} (h : armOf c = some k) :
    exec (.segq c rd ra err) s = s.segInstr c rd ra (wordR 0x10 rd.val ra.val 0 0) err fun s1 d => s1.segqBody k d := by
  show execSegq c rd ra err s = _
  simp only [execSegq, h]
  rfl

theorem sega_of_arm {s : State} {c : Fin 9} {k : Fin 8} {rd ra : Fin 32} {err : Ecc} (h : armOf c = some k) :
    exec (.sega c rd ra err) s = s.segInstr c rd ra (wordR 0x10 rd.val ra.val 0 1) err fun s1 d => s1.segaBody c k d := by
  show execSega c rd ra err s = _
  simp only [execSega, h]
  rfl

section
variable {s : State} {c : Fin 9} {k : Fin 8} {d : SegDesc} {t : Core}

theorem segqBody_full (h : 64 ≤ s.arms[k].staged.length) :
    (s.begun c t).segqBody k d = .done 18 (refusalWord 64 1) (s.begun c t) := by
  rw [State.segqBody, begun_arms, if_pos h, refuse_eq_refusalWord 64 (by decide)]
  rfl

theorem segqBody_invalid {o : Nat} (hroom : s.arms[k].staged.length < 64) (h : s.segCheck k d = some o) :
    (s.begun c t).segqBody k d = .done 18 (refusalWord (BitVec.ofNat 32 o) 3) (s.begun c t) := by
  rw [State.segqBody, begun_arms, if_neg (Nat.not_le.mpr hroom), begun_segCheck, h]
  exact congrArg (CellAns.done 18 · _) (refuse_eq_refusalWord o (by decide))

theorem segqBody_staged (hroom : s.arms[k].staged.length < 64) (h : s.segCheck k d = none) :
    (s.begun c t).segqBody k d = .done 18 (BitVec.ofNat 64 (s.arms[k].staged.length + 1)) ((s.stage k d).begun c t) := by
  rw [State.segqBody, begun_arms, if_neg (Nat.not_le.mpr hroom), begun_segCheck, h, stage_count, begun_stage, begun_arms]

theorem segaBody_dusk (h : s.coreSafety ≠ .run) : (s.begun c t).segaBody c k d =
    .done 18 (refusalWord (BitVec.ofNat 32 s.coreSafety.num) 2) (s.begun c t) := by
  rw [State.segaBody, begun_coreSafety, if_pos (bne_iff_ne.mpr h), refuse_eq_refusalWord _ (by decide)]
  rfl

/-- In run SEGA looks at its queue and its descriptor alone. -/
theorem segaBody_of_run (h : s.coreSafety = .run) : (s.begun c t).segaBody c k d =
    if 64 ≤ s.activeCount c k then .done 18 (refuse 1 64) (s.begun c t)
    else match s.segCheck k d with
      | some o => .done 18 (refuse 3 o) (s.begun c t)
      | none => .done 18 (BitVec.ofNat 64 ((s.request c (.sega d)).activeCount c k)) ((s.request c (.sega d)).begun c t) := by
  rw [State.segaBody, begun_coreSafety, h]
  rfl

theorem segaBody_full (hrun : s.coreSafety = .run) (h : 64 ≤ s.activeCount c k) :
    (s.begun c t).segaBody c k d = .done 18 (refusalWord 64 1) (s.begun c t) := by
  rw [segaBody_of_run hrun, if_pos h, refuse_eq_refusalWord 64 (by decide)]
  rfl

theorem segaBody_invalid {o : Nat} (hrun : s.coreSafety = .run) (hroom : s.activeCount c k < 64)
    (h : s.segCheck k d = some o) :
    (s.begun c t).segaBody c k d = .done 18 (refusalWord (BitVec.ofNat 32 o) 3) (s.begun c t) := by
  rw [segaBody_of_run hrun, if_neg (Nat.not_le.mpr hroom), h]
  exact congrArg (CellAns.done 18 · _) (refuse_eq_refusalWord o (by decide))

theorem activeCount_request_sega : (s.request c (.sega d)).activeCount c k = s.activeCount c k + 1 := by
  simp [State.activeCount, State.ownReqs, State.request, Req.isSega, Nat.add_assoc]

theorem segaBody_requested (hrun : s.coreSafety = .run) (hroom : s.activeCount c k < 64) (h : s.segCheck k d = none) :
    (s.begun c t).segaBody c k d =
      .done 18 (BitVec.ofNat 64 (s.activeCount c k + 1)) ((s.request c (.sega d)).begun c t) := by
  rw [segaBody_of_run hrun, if_neg (Nat.not_le.mpr hroom), h, activeCount_request_sega]

end

/-! ### SEGQ and SEGA -/

section
variable {s : State} {c : Fin 9} {k : Fin 8} {rd ra : Fin 32} {word : DWord} {off : Nat} {g : State → SegDesc → CellAns}

variable (hrun : s.mayRun c.castSucc (.cell 1) [.g ra] (dstG rd) = true)
include hrun

theorem segInstr_fused (hop : s.operand c ((s.core c.castSucc).rg ra).toNat 128 .clean = .inr off)
    (hf : s.targetFused (segOfBytes (s.data.readN off 128)) = true) (e : Ecc) :
    Traps s c.castSucc (s.segInstr c rd ra word e g) 7 word := by
  refine traps_of_trap (code := 7) hrun (by decide) fun t cyc => ?_
  rw [begun_rgOf]
  exact withSeg_fused (s := s.begun c t) hop hf

theorem segInstr_uncorr (hop : s.operand c ((s.core c.castSucc).rg ra).toNat 128 .clean = .inr off)
    (hf : s.targetFused (segOfBytes (s.data.readN off 128)) = false) :
    Traps ((s.eccUp 1).raiseAt (s.coreTime (s.cellCycle c rd [.g ra])) 0x0401 2 true) c.castSucc (s.segInstr c rd ra word .uncorr g) 4
      ((s.core c.castSucc).rg ra) := by
  refine traps_of_memEcc hrun fun t cyc => ?_
  rw [begun_rgOf, withSeg_uncorr (s := s.begun c t) hop hf, BitVec.ofNat_toNat, BitVec.setWidth_eq]

theorem segInstr_done (hop : s.operand c ((s.core c.castSucc).rg ra).toNat 128 .clean = .inr off)
    (hf : s.targetFused (segOfBytes (s.data.readN off 128)) = false) {e : Ecc} (he : e ≠ .uncorr) {n : Nat} {v : DWord} {u : State}
    (hg : ∀ t, g (s.begun c t) (segOfBytes (s.data.readN off 128)) = .done n v (u.begun c t)) :
    CellDone c rd (s.segInstr c rd ra word e g) v (u.eccNote 1 e) := by
  refine cellDone_of_done (n := n) hrun fun t cyc => ?_
  rw [begun_rgOf, withSeg_read (s := s.begun c t) hop hf he, begun_data, hg]
  cases e <;> rfl

theorem segInstr_bad {e : Nat × DWord} (hop : s.operand c ((s.core c.castSucc).rg ra).toNat 128 .clean = .inl e) (err : Ecc) :
    Traps s c.castSucc (s.segInstr c rd ra word err g) (BitVec.ofNat 64 e.1) e.2 := by
  refine traps_of_trap hrun (operand_clean_code_ne hop) fun t cyc => ?_
  rw [begun_rgOf]
  exact withSeg_bad (s := s.begun c t) hop

end

/-! ### The instructions of core 8, which has no arm -/

section
variable {s : State} {c : Fin 9} {rd ra : Fin 32} (hc : c = 8)
include hc

theorem armOf_cellCore : armOf c = none := by
  subst hc; rfl

theorem segq_role (h : s.mayRun c.castSucc (.cell 1) [.g ra] (dstG rd) = true) (err : Ecc) :
    Traps s c.castSucc (exec (.segq c rd ra err) s) 8 (wordR 0x10 rd.val ra.val 0 0) := by
  show Traps s c.castSucc (execSegq c rd ra err s) 8 _
  rw [execSegq, armOf_cellCore hc]
  exact traps_of_trap (code := 8) h (by decide) fun t cyc => rfl

theorem sega_role (h : s.mayRun c.castSucc (.cell 1) [.g ra] (dstG rd) = true) (err : Ecc) :
    Traps s c.castSucc (exec (.sega c rd ra err) s) 8 (wordR 0x10 rd.val ra.val 0 1) := by
  show Traps s c.castSucc (execSega c rd ra err s) 8 _
  rw [execSega, armOf_cellCore hc]
  exact traps_of_trap (code := 8) h (by decide) fun t cyc => rfl

theorem segclr_role (h : s.mayRun c.castSucc (.cell 1) [] (dstG rd) = true) :
    Traps s c.castSucc (exec (.segclr c rd) s) 8 (wordR 0x10 rd.val 0 0 2) := by
  show Traps s c.castSucc (execSegclr c rd s) 8 _
  rw [execSegclr, armOf_cellCore hc]
  exact traps_of_trap (code := 8) h (by decide) fun t cyc => rfl

theorem segstat_role (h : s.mayRun c.castSucc (.cell 1) [] (dstG rd) = true) :
    Traps s c.castSucc (exec (.segstat c rd) s) 8 (wordR 0x10 rd.val 0 0 4) := by
  show Traps s c.castSucc (execSegstat c rd s) 8 _
  rw [execSegstat, armOf_cellCore hc]
  exact traps_of_trap (code := 8) h (by decide) fun t cyc => rfl

end

/-! ### SEGCLR, SEGSTAT and CUT -/

section
variable {s : State} {c : Fin 9} {k : Fin 8} {rd : Fin 32} (hrun : s.mayRun c.castSucc (.cell 1) [] (dstG rd) = true)
include hrun

theorem segclr_done (hk : armOf c = some k) : CellDone c rd (exec (.segclr c rd) s) 0
    { s with arms := s.arms.set k { s.arms[k] with staged := [] } } := by
  show CellDone c rd (execSegclr c rd s) 0 (s.modArm k fun a => { a with staged := [] })
  rw [execSegclr, hk]
  exact cellDone_of_done (n := 1) hrun fun t cyc => rfl

theorem segstat_done (hk : armOf c = some k) : CellDone c rd (exec (.segstat c rd) s)
    (BitVec.ofNat 64 (s.arms[k].staged.length % 256 + 256 * (s.activeCount c k % 256) + 65536 * s.arms[k].segIdNow.toNat)) s := by
  show CellDone c rd (execSegstat c rd s) _ s
  rw [execSegstat, hk]
  exact cellDone_of_done (n := 1) hrun fun t cyc => rfl

theorem cut_requested (hs : s.coreSafety = .run) :
    CellDone c rd (exec (.cut c rd) s) 0 { s with reqs := s.reqs ++ [⟨c, s.epoch, .cut⟩] } := by
  show CellDone c rd (execCut c rd s) 0 (s.request c .cut)
  rw [execCut]
  exact cellDone_of_done (n := 1) hrun fun t cyc => by rw [begun_coreSafety, hs]; rfl

theorem cut_refused (hs : s.coreSafety ≠ .run) :
    CellDone c rd (exec (.cut c rd) s) (refusalWord (BitVec.ofNat 32 s.coreSafety.num) 2) s := by
  show CellDone c rd (execCut c rd s) _ s
  rw [execCut]
  refine cellDone_of_done (n := 1) hrun fun t cyc => ?_
  rw [begun_coreSafety, if_pos (bne_iff_ne.mpr hs), refuse_eq_refusalWord _ (by decide)]
  rfl

end

/-! ### STOP (R128) -/

/-- The arms that STOP names. -/
def stopMask (c : Fin 9) (v : DWord) : BitVec 8 := if c = 8 then v.setWidth 8 else BitVec.ofNat 8 (2 ^ c.val)

/-- An operand of STOP that names arms to stop. -/
def State.stopOperandOk (s : State) (c : Fin 9) (v : DWord) : Prop :=
  if c = 8 then v.toNat < 256 ∧ ∀ k < 8, v.getLsbD k = true → s.armPresent k = true else v = 0

/-- What STOP does with its operand `v`. -/
def State.stopBody (s : State) (c : Fin 9) (rd ra : Fin 32) (v : DWord) : CellAns :=
  let mask : BitVec 8 := match armOf c with | some k => BitVec.ofNat 8 (2 ^ k.val) | none => BitVec.ofNat 8 v.toNat
  let fused : Bool := (armOf c).isNone && (List.range 8).any fun k => mask.getLsbD k && !s.armPresent k
  let badOp : Bool := if (armOf c).isSome then v.toNat != 0 else decide (256 ≤ v.toNat)
  if fused then .trap 7 (wordR 0x10 rd.val ra.val 0 5)
  else if badOp then .trap 9 (wordR 0x10 rd.val ra.val 0 5)
  else .done 1 0 (if s.coreSafety == .run then s.request c (.stop mask) else s)

section
variable {s : State} {c : Fin 9} {rd ra : Fin 32} {v : DWord}

theorem stop_eq : exec (.stop c rd ra) s = s.cell c rd [.g ra] fun s1 _ => s1.stopBody c rd ra (s1.rgOf c ra) := rfl

theorem stopBody_ok (h : s.stopOperandOk c v) :
    s.stopBody c rd ra v = .done 1 0 (if s.coreSafety == .run then s.request c (.stop (stopMask c v)) else s) := by
  by_cases hc : c = 8
  · subst hc
    obtain ⟨hlt, hpresent⟩ : v.toNat < 256 ∧ ∀ k < 8, v.getLsbD k = true → s.armPresent k = true := h
    have hmask : BitVec.ofNat 8 v.toNat = v.setWidth 8 := rfl
    simpa [State.stopBody, armOf_cellCore, hmask, stopMask, Nat.not_le.mpr hlt] using hpresent
  · obtain ⟨k, hk, harm⟩ := armOf_of_ne hc
    have hv : v = 0 := by simpa [State.stopOperandOk, hc] using h
    simp [State.stopBody, harm, hv, stopMask, hc, hk]

theorem stopBody_bad (hc : c ≠ 8) (hv : v ≠ 0) : s.stopBody c rd ra v = .trap 9 (wordR 0x10 rd.val ra.val 0 5) := by
  obtain ⟨k, -, harm⟩ := armOf_of_ne hc
  have hn : v.toNat ≠ 0 := fun h => hv (BitVec.eq_of_toNat_eq h)
  simp [State.stopBody, harm, hn]

variable (hrun : s.mayRun c.castSucc (.cell 1) [.g ra] (dstG rd) = true)
include hrun

theorem stop_requested (h : s.stopOperandOk c ((s.core c.castSucc).rg ra)) (hs : s.coreSafety = .run) :
    CellDone c rd (exec (.stop c rd ra) s) 0
      { s with reqs := s.reqs ++ [⟨c, s.epoch, .stop (stopMask c ((s.core c.castSucc).rg ra))⟩] } := by
  rw [stop_eq]
  refine cellDone_of_done (n := 1) hrun fun t cyc => ?_
  rw [begun_rgOf, stopBody_ok (s := s.begun c t) h, begun_coreSafety, if_pos (beq_iff_eq.mpr hs)]
  rfl

theorem stop_without_effect (h : s.stopOperandOk c ((s.core c.castSucc).rg ra)) (hs : s.coreSafety ≠ .run) :
    CellDone c rd (exec (.stop c rd ra) s) 0 s := by
  rw [stop_eq]
  refine cellDone_of_done (n := 1) hrun fun t cyc => ?_
  rw [begun_rgOf, stopBody_ok (s := s.begun c t) h, begun_coreSafety, if_neg (by simpa using hs)]

theorem stop_operand (hc : c ≠ 8) (hv : (s.core c.castSucc).rg ra ≠ 0) :
    Traps s c.castSucc (exec (.stop c rd ra) s) 9 (wordR 0x10 rd.val ra.val 0 5) := by
  rw [stop_eq]
  refine traps_of_trap (code := 9) hrun (by decide) fun t cyc => ?_
  rw [begun_rgOf, stopBody_bad hc hv]

end

end Sys2Proof.Machine

open Sys2Proof Sys2Proof.Machine

/-- Settles O19: SEGQ and SEGA by what becomes of their operand and their descriptor, the others by their case of safety
state and core. -/
theorem segmentInstructionResults : Obligations.SegmentInstructionResults := by
  unfold Obligations.SegmentInstructionResults
  refine ⟨?segments, ?plan, ?cutAndRoles, ?stopAndOperands⟩
  case segments =>
    intro s c k rd ra off hck hrun hop
    have hk := armOf_of_val hck
    dsimp only
    rw [← targetFused_iff]
    simp only [Bool.not_eq_true, segq_of_arm hk, sega_of_arm hk]
    refine ⟨fun hf e => ⟨segInstr_fused hrun hop hf e, segInstr_fused hrun hop hf e⟩,
      fun hf => ⟨_, segInstr_uncorr hrun hop hf, segInstr_uncorr hrun hop hf⟩, fun e hf he => ?_⟩
    refine ⟨fun h => ?_, fun f hroom hchk => ?_, fun hroom hchk => ?_, fun h => ?_, fun hs h => ?_,
      fun f hs hroom hchk => ?_, fun hs hroom hchk => ?_⟩
    · exact segInstr_done hrun hop hf he fun t => segqBody_full h
    · exact segInstr_done hrun hop hf he fun t => segqBody_invalid hroom hchk
    · exact segInstr_done hrun hop hf he fun t => segqBody_staged hroom hchk
    · exact segInstr_done hrun hop hf he fun t => segaBody_dusk h
    · exact segInstr_done hrun hop hf he fun t => segaBody_full hs h
    · exact segInstr_done hrun hop hf he fun t => segaBody_invalid hs hroom hchk
    · exact segInstr_done hrun hop hf he fun t => segaBody_requested hs hroom hchk
  case plan =>
    intro s c k rd hck hrun
    exact ⟨segclr_done hrun (armOf_of_val hck), segstat_done hrun (armOf_of_val hck)⟩
  case cutAndRoles =>
    intro s c rd hrun
    exact ⟨cut_requested hrun, cut_refused hrun, fun hc => ⟨segclr_role hc hrun, segstat_role hc hrun⟩⟩
  case stopAndOperands =>
    intro s c rd ra hrun
    refine ⟨stop_requested hrun, stop_without_effect hrun, stop_operand hrun,
      fun err hc => ⟨segq_role hc hrun err, sega_role hc hrun err⟩, fun err e hc hop => ?_⟩
    obtain ⟨k, -, hk⟩ := armOf_of_ne hc
    rw [segq_of_arm hk, sega_of_arm hk]
    exact ⟨segInstr_bad hrun hop err, segInstr_bad hrun hop err⟩

end

section
/-! No command changes what is fused into the part, and none touches the commands that wait behind it (R2, R3): one lemma
per operation of the model that yields a state, in the model's order, and from them one per command. -/

namespace Sys2Proof.Machine

/-! ### What no command changes -/

/-- What no command changes: the waiting commands behind it, and the fused variant and identifier of the part. -/
def State.ident (s : State) : List Instr × Variant × BitVec 48 := (s.pending, s.variant, s.uid)

@[simp] theorem ident_fold (s : State) : (s.pending, s.variant, s.uid) = s.ident := rfl

/-- A state written out field by field, as an update of some of its fields is. -/
@[simp] theorem ident_mk
    (pending outbox free variant prof now paths regs shadow due commits gate reqs cellEvs reports epoch running
    published view push staleTicks pushLate cutFail cutApplied comApplied planGen coreSafety stopAtStep1 haloLimits
    minsep cores data code scode sdata codeLocked hashOk arms aux chans solver cascs mans dyns lanes lanesEccUn
    lanesEccC fbk ssi uid mer mers aonSid outImage host saf halo scomm dbg jrn lines clk boot aon slots cap eph) :
    State.ident ⟨pending, outbox, free, variant, prof, now, paths, regs, shadow, due, commits, gate, reqs, cellEvs,
    reports, epoch, running, published, view, push, staleTicks, pushLate, cutFail, cutApplied, comApplied, planGen,
    coreSafety, stopAtStep1, haloLimits, minsep, cores, data, code, scode, sdata, codeLocked, hashOk, arms, aux,
    chans, solver, cascs, mans, dyns, lanes, lanesEccUn, lanesEccC, fbk, ssi, uid, mer, mers, aonSid, outImage, host,
    saf, halo, scomm, dbg, jrn, lines, clk, boot, aon, slots, cap, eph⟩ =
      (pending, variant, uid) := rfl

@[simp] theorem ident_ite (c : Prop) [Decidable c] (a b : State) :
    (if c then a else b).ident = if c then a.ident else b.ident := apply_ite _ _ _ _

@[simp] theorem ident_setCore (s : State) (c : Fin 10) (k : Core) : (s.setCore c k).ident = s.ident := rfl

/-- A fold keeps what each of its steps keeps. -/
@[simp] theorem foldl_ident {α : Type} {f : State → α → State} (h : ∀ s x, (f s x).ident = s.ident) (s : State)
    (l : List α) : (l.foldl f s).ident = s.ident := by
  induction l generalizing s with
  | nil => rfl
  | cons x l ih => rw [List.foldl_cons, ih, h]

/-- An outcome is a next state with the same identity. -/
def Runs (s : State) (o : Res) : Prop := ∃ t : State, o = .next t ∧ t.ident = s.ident

@[simp] theorem runs_next (s t : State) : Runs s (.next t) ↔ t.ident = s.ident := by
  constructor
  · rintro ⟨u, hu, h⟩
    cases hu
    exact h
  · exact fun h => ⟨t, rfl, h⟩

@[simp] theorem runs_ite (c : Prop) [Decidable c] (s : State) (a b : Res) :
    Runs s (if c then a else b) ↔ if c then Runs s a else Runs s b := by
  split_ifs <;> rfl

@[simp] theorem ranFrom_ident {s : State} {o : Res} (h : Runs s o) : (ranFrom s o).ident = s.ident := by
  obtain ⟨t, rfl, ht⟩ := h
  exact ht

/-- A cell instruction's answer keeps the identity; an exception leaves the state to the trap. -/
def CellAns.keeps (s : State) : CellAns → Prop
  | .trap _ _ => True
  | .done _ _ st => st.ident = s.ident
  | .sleep st => st.ident = s.ident

@[simp] theorem keeps_trap (s : State) (n : Nat) (v : DWord) : (CellAns.trap n v).keeps s := trivial

@[simp] theorem keeps_done (s st : State) (n : Nat) (v : DWord) :
    (CellAns.done n v st).keeps s ↔ st.ident = s.ident := Iff.rfl

@[simp] theorem keeps_sleep (s st : State) : (CellAns.sleep st).keeps s ↔ st.ident = s.ident := Iff.rfl

@[simp] theorem keeps_ite (s : State) (p : Prop) [Decidable p] (a b : CellAns) :
    (if p then a else b).keeps s ↔ if p then a.keeps s else b.keeps s := by
  split_ifs <;> rfl

/-! ### `Machine/Ops.lean` -/

@[simp] theorem draw_ident (s : State) : s.draw.2.ident = s.ident := by simp [State.draw]

@[simp] theorem pulse_ident (s : State) (b : Fin 6) (bound : Nat) : (s.pulse b bound).2.ident = s.ident := by
  unfold State.pulse
  dsimp only
  split
  · split <;> simp
  simp

@[simp] theorem crystal_ident (s : State) : s.crystal.ident = s.ident := by simp [State.crystal]
@[simp] theorem gatePush_ident (s : State) (stamp src : Nat) (i : GateItem) :
    (s.gatePush stamp src i).ident = s.ident := by
  simp [State.gatePush]
@[simp] theorem gateIn_ident (s : State) (t : DWord) (src : Nat) (i : GateItem) :
    (s.gateIn t src i).ident = s.ident := by
  simp [State.gateIn]

@[simp] theorem raiseAt_ident (s : State) (t : DWord) (code cls : Nat) (hold : Bool) (detail : Option Word) :
    (s.raiseAt t code cls hold detail).ident = s.ident := by
  unfold State.raiseAt
  split <;> simp

@[simp] theorem raise_ident (s : State) (code cls : Nat) (hold : Bool) (detail : Option Word) :
    (s.raise code cls hold detail).ident = s.ident := by
  simp [State.raise]
@[simp] theorem eccUp_ident (s : State) (k : Fin 8) : (s.eccUp k).ident = s.ident := by simp [State.eccUp]
@[simp] theorem eccCorrected_ident (s : State) (k : Fin 8) : (s.eccCorrected k).ident = s.ident := by
  simp [State.eccCorrected]

@[simp] theorem eccNote_ident (s : State) (k : Fin 8) (ec : Ecc) : (s.eccNote k ec).ident = s.ident := by
  unfold State.eccNote
  split <;> simp

@[simp] theorem solverNote_ident (s : State) (e : Ecc) : (s.solverNote e).ident = s.ident := by
  simp [State.solverNote]
@[simp] theorem out_ident (s : State) (o : Out) : (s.out o).ident = s.ident := by simp [State.out]
@[simp] theorem modPath_ident (s : State) (p : Path) (f : PathLatch → PathLatch) :
    (s.modPath p f).ident = s.ident := by
  simp [State.modPath]
@[simp] theorem modCore_ident (s : State) (c : Fin 10) (f : Core → Core) : (s.modCore c f).ident = s.ident := by
  simp [State.modCore]
@[simp] theorem deliver_ident (s : State) (c : Fin 9) (e : EvRec) (rank : Nat) :
    (s.deliver c e rank).ident = s.ident := by
  simp [State.deliver]
@[simp] theorem cellEvent_ident (s : State) (c : Fin 9) (cls source data : Nat) :
    (s.cellEvent c cls source data).ident = s.ident := by
  simp [State.cellEvent]
@[simp] theorem deliverCell_ident (s : State) : s.deliverCell.ident = s.ident := by simp [State.deliverCell]
@[simp] theorem haltCore_ident (s : State) (c : Fin 10) (cyc : Nat) : (s.haltCore c cyc).ident = s.ident := by
  simp [State.haltCore]
@[simp] theorem takeTrap_ident (s : State) (c : Fin 10) (cyc : Nat) (isInt : Bool) (code : Nat) (tval epc : DWord) :
    (s.takeTrap c cyc isInt code tval epc).ident = s.ident := by
  simp [State.takeTrap]
@[simp] theorem setReg_ident (s : State) (off : Nat) (v : Word) : (s.setReg off v).ident = s.ident := by
  simp [State.setReg]
@[simp] theorem msix_ident (s : State) (v : Nat) : (s.msix v).ident = s.ident := by simp [State.msix]

/-! ### `Machine/Commit.lean` -/

@[simp] theorem applyRegs_ident (s : State) (snap : Bank) : (s.applyRegs snap).ident = s.ident := by
  unfold State.applyRegs
  dsimp only
  refine foldl_ident (fun _ _ => ?_) _ _
  split <;> simp

@[simp] theorem spmodeReset_ident (old s : State) : (old.spmodeReset s).ident = s.ident := by simp [State.spmodeReset]
@[simp] theorem modCommit_ident (s : State) (b : CBlock) (f : CommitStat → CommitStat) :
    (s.modCommit b f).ident = s.ident := by
  simp [State.modCommit]

@[simp] theorem commitBlock_ident (s : State) (b : CBlock) (snap : Bank) :
    (s.commitBlock b snap).ident = s.ident := by
  unfold State.commitBlock
  dsimp only
  split <;> simp

@[simp] theorem releaseGo_ident (s : State) (sn : Snaps) (b : CBlock) : (s.releaseGo sn b).1.ident = s.ident := by
  unfold State.releaseGo
  dsimp only
  split <;> simp

@[simp] theorem step3_ident (s : State) (sn : Snaps) : (s.step3 sn).ident = s.ident := by
  unfold State.step3
  refine foldl_ident (fun _ _ => ?_) _ _
  split <;> simp

/-! ### `Machine/ArmGen.lean` -/

@[simp] theorem modArm_ident (s : State) (k : Fin 8) (f : Arm → Arm) : (s.modArm k f).ident = s.ident := by
  simp [State.modArm]
@[simp] theorem fireAction_ident (s : State) (k : Fin 8) (d : SegDesc) : (s.fireAction k d).ident = s.ident := by
  simp [State.fireAction]
@[simp] theorem withholdAll_ident (s : State) (k : Fin 8) : (s.withholdAll k).ident = s.ident := by
  simp [State.withholdAll]

@[simp] theorem windowAndAction_ident (s : State) (k : Fin 8) (retiring : Bool) :
    (s.windowAndAction k retiring).ident = s.ident := by
  unfold State.windowAndAction
  dsimp only
  split <;> simp

@[simp] theorem retireHead_ident (s : State) (k : Fin 8) : (s.retireHead k).ident = s.ident := by
  simp [State.retireHead]

@[simp] theorem openGate_ident (s : State) (k : Fin 8) : (s.openGate k).ident = s.ident := by
  unfold State.openGate
  dsimp only
  split <;> simp

@[simp] theorem settleArm_ident (k : Fin 8) (fuel : Nat) (s : State) : (s.settleArm k fuel).ident = s.ident := by
  induction fuel generalizing s with
  | zero => rfl
  | succ fuel ih =>
    unfold State.settleArm
    dsimp only
    split
    · simp [ih]
    · simp

@[simp] theorem lateActions_ident (s : State) (k : Fin 8) : (s.lateActions k).ident = s.ident := by
  simp [State.lateActions]
@[simp] theorem armOutputs_ident (s : State) (k : Fin 8) (p : ArmProf) : (s.armOutputs k p).ident = s.ident := by
  simp [State.armOutputs]

@[simp] theorem armTick_ident (s : State) (k : Fin 8) : (s.armTick k).ident = s.ident := by
  unfold State.armTick
  dsimp only
  split
  · rfl
  split
  · simp
  split <;> simp

/-! ### `Machine/Plans.lean` -/

@[simp] theorem startPlan_ident (s : State) (k : Fin 8) (p : ArmProf) (segs : List SegDesc) :
    (s.startPlan k p segs).ident = s.ident := by
  unfold State.startPlan
  dsimp only
  split <;> simp

@[simp] theorem dropDue_ident (s : State) (p : Req → Bool) : (s.dropDue p).ident = s.ident := by simp [State.dropDue]
@[simp] theorem takeReqs_ident (s : State) (p : Req → Bool) : (s.takeReqs p).2.ident = s.ident := by
  simp [State.takeReqs]

@[simp] theorem execCutover_runs (s : State) : Runs s (execCutover s) := by
  unfold execCutover
  dsimp only
  split
  · simp
  split
  · simp
  split <;> simp

@[simp] theorem execSegaApply_runs (s : State) : Runs s (execSegaApply s) := by
  unfold execSegaApply
  rw [runs_next]
  refine (foldl_ident (fun st e => ?_) _ _).trans (takeReqs_ident s _)
  split
  case h_2 => rfl
  split
  case isFalse => rfl
  dsimp only
  split
  case h_1 => rfl
  split
  case isTrue => simp
  split
  case isTrue => simp
  split <;> simp

@[simp] theorem rampStop_ident (s : State) (k : Fin 8) : (s.rampStop k).ident = s.ident := by simp [State.rampStop]
@[simp] theorem execRampStopApply_runs (s : State) : Runs s (execRampStopApply s) := by simp [execRampStopApply]
@[simp] theorem execHandoverEnd_runs (k : Fin 8) (s : State) : Runs s (execHandoverEnd k s) := by
  simp [execHandoverEnd]

@[simp] theorem execDwellExpire_runs (k : Fin 8) (s : State) : Runs s (execDwellExpire k s) := by
  unfold execDwellExpire
  split <;> simp

@[simp] theorem execRampStopRest_runs (k : Fin 8) (s : State) : Runs s (execRampStopRest k s) := by
  simp [execRampStopRest]

/-! ### `Machine/AuxAxes.lean` -/

@[simp] theorem modAux_ident (s : State) (a : Fin 128) (f : AuxGen → AuxGen) : (s.modAux a f).ident = s.ident := by
  simp [State.modAux]
@[simp] theorem auxEvent_ident (s : State) (a : Nat) (id : Word) (status cause : Nat) :
    (s.auxEvent a id status cause).ident = s.ident := by
  simp [State.auxEvent]

@[simp] theorem auxStop_ident (s : State) (a : Fin 128) (m : AuxMove) : (s.auxStop a m).ident = s.ident := by
  unfold State.auxStop
  dsimp only
  split
  · split <;> simp
  split <;> simp

@[simp] theorem execAuxqApply_runs (s : State) : Runs s (execAuxqApply s) := by
  unfold execAuxqApply
  dsimp only
  rw [runs_next, foldl_ident, foldl_ident, takeReqs_ident]
  all_goals
    intro st e
    repeat' split
    all_goals simp

@[simp] theorem auxTick_ident (s : State) (p : AuxProf) : (s.auxTick p).ident = s.ident := by
  unfold State.auxTick
  dsimp only
  split
  · simp
  split
  · simp
  split
  · split
    · split <;> simp
    simp
  · split
    · split <;> simp
    simp
  split
  · split <;> simp
  simp

@[simp] theorem loadTick_ident (s : State) (p : AuxProf) : (s.loadTick p).ident = s.ident := by simp [State.loadTick]
@[simp] theorem execAuxStall_runs (a : Fin 128) (s : State) : Runs s (execAuxStall a s) := by simp [execAuxStall]
@[simp] theorem execAuxStopDone_runs (a : Fin 128) (s : State) : Runs s (execAuxStopDone a s) := by
  simp [execAuxStopDone]
@[simp] theorem execClrStall_runs (a : Fin 128) (s : State) : Runs s (execClrStall a s) := by simp [execClrStall]

@[simp] theorem execStepBatch_runs (c : Fin 16) (s : State) : Runs s (execStepBatch c s) := by
  unfold execStepBatch
  dsimp only
  split <;> simp

@[simp] theorem cutBatch_ident (s : State) (c : Fin 16) : (s.cutBatch c).ident = s.ident := by
  unfold State.cutBatch
  dsimp only
  split <;> simp

@[simp] theorem cutBatches_ident (s : State) : s.cutBatches.ident = s.ident := by simp [State.cutBatches]

/-! ### `Machine/Timing.lean` -/

@[simp] theorem doShared_ident (s : State) (c : Fin 10) (a : SharedAcc) : (s.doShared c a).ident = s.ident := by
  unfold State.doShared
  dsimp only
  split <;> simp

@[simp] theorem settleShared_ident (s : State) (c : Fin 10) (cyc : Nat) : (s.settleShared c cyc).ident = s.ident := by
  unfold State.settleShared
  split <;> simp

@[simp] theorem issue_ident (s : State) (c : Fin 10) (cls : IssClass) (srcs : List CReg) (dst : Option CReg) :
    (s.issue c cls srcs dst).st.ident = s.ident := by
  unfold State.issue
  dsimp only
  split_ifs <;> simp

@[simp] theorem exec1_runs (s : State) (c : Fin 10) (cls : IssClass) (srcs : List CReg) (dst : Option CReg)
    (f : Core → Core) : Runs s (s.exec1 c cls srcs dst f) := by
  simp [State.exec1]

@[simp] theorem execWith_runs {f : State → Nat → State} (hf : ∀ s n, (f s n).ident = s.ident) (s : State) (c : Fin 10)
    (cls : IssClass) (srcs : List CReg) (dst : Option CReg) : Runs s (s.execWith c cls srcs dst f) := by
  simp [State.execWith, hf]

@[simp] theorem except_ident (s : State) (c : Fin 10) (cyc code : Nat) (tval : DWord) :
    (s.except c cyc code tval).ident = s.ident := by
  simp [State.except]

/-! ### `Machine/CoreSys.lean` -/

@[simp] theorem takePoint_ident (s : State) (c : Fin 10) (cyc i : Nat) : (s.takePoint c cyc i).ident = s.ident := by
  simp [State.takePoint]

@[simp] theorem takePending_ident (s : State) (c : Fin 10) (cyc : Nat) : (s.takePending c cyc).ident = s.ident := by
  unfold State.takePending
  dsimp only
  split <;> simp

@[simp] theorem csrOp_runs (s : State) (c : Fin 10) (rd ra : Fin 32) (csr : BitVec 12) (opx : Nat) (writes : Bool)
    (upd : DWord → DWord → DWord) : Runs s (s.csrOp c rd ra csr opx writes upd) := by
  simp [State.csrOp]
@[simp] theorem execCsrr_runs (c : Fin 10) (rd : Fin 32) (csr : BitVec 12) (s : State) :
    Runs s (execCsrr c rd csr s) := by
  simp [execCsrr]
@[simp] theorem execCsrw_runs (c : Fin 10) (rd ra : Fin 32) (csr : BitVec 12) (s : State) :
    Runs s (execCsrw c rd ra csr s) := by
  simp [execCsrw]
@[simp] theorem execCsrs_runs (c : Fin 10) (rd ra : Fin 32) (csr : BitVec 12) (s : State) :
    Runs s (execCsrs c rd ra csr s) := by
  simp [execCsrs]
@[simp] theorem execCsrc_runs (c : Fin 10) (rd ra : Fin 32) (csr : BitVec 12) (s : State) :
    Runs s (execCsrc c rd ra csr s) := by
  simp [execCsrc]
@[simp] theorem execWaitt_runs (c : Fin 9) (rd : Fin 32) (s : State) : Runs s (execWaitt c rd s) := by
  simp [execWaitt]
@[simp] theorem execWaitp_runs (c : Fin 10) (rd : Fin 32) (s : State) : Runs s (execWaitp c rd s) := by
  simp [execWaitp]
@[simp] theorem execWaite_runs (c : Fin 9) (rd : Fin 32) (s : State) : Runs s (execWaite c rd s) := by
  simp [execWaite]
@[simp] theorem execPoll_runs (c : Fin 9) (rd : Fin 32) (s : State) : Runs s (execPoll c rd s) := by simp [execPoll]

@[simp] theorem execSignal_runs (c : Fin 9) (ra : Fin 32) (imm : BitVec 12) (s : State) :
    Runs s (execSignal c ra imm s) := by
  unfold execSignal
  dsimp only
  refine execWith_runs (fun _ _ => ?_) _ _ _ _ _
  split
  · simp
  split <;> simp

@[simp] theorem execEret_runs (c : Fin 10) (s : State) : Runs s (execEret c s) := by simp [execEret]
@[simp] theorem execTrap_runs (c : Fin 10) (imm : BitVec 12) (fetchErr : Ecc) (s : State) :
    Runs s (execTrap c imm fetchErr s) := by
  simp [execTrap]

@[simp] theorem wakeCore_ident (s : State) (c : Fin 10) : (s.wakeCore c).ident = s.ident := by
  unfold State.wakeCore
  split <;> simp

@[simp] theorem execWaitWake_runs (c : Fin 10) (s : State) : Runs s (execWaitWake c s) := by simp [execWaitWake]

@[simp] theorem execPlanPeriodStart_runs (s : State) : Runs s (execPlanPeriodStart s) := by
  unfold execPlanPeriodStart
  rw [runs_next, ident_ite, foldl_ident, ite_self]
  intro st c
  dsimp only
  repeat' split
  all_goals simp

@[simp] theorem execSignalDeliver_runs (s : State) : Runs s (execSignalDeliver s) := by
  unfold execSignalDeliver
  dsimp only
  rw [runs_next, deliverCell_ident, foldl_ident, ident_mk, ident_fold]
  intro st e
  split <;> simp

@[simp] theorem firePoint_ident (s : State) (c : Fin 10) (k : Fin 4) (off : Nat) :
    (s.firePoint c k off).ident = s.ident := by
  simp [State.firePoint]

@[simp] theorem execCyclePointFire_runs (c : Fin 9) (k : Fin 4) (s : State) : Runs s (execCyclePointFire c k s) := by
  unfold execCyclePointFire
  dsimp only
  split
  · simp
  split <;> simp

@[simp] theorem execBudgetOverrun_runs (c : Fin 9) (s : State) : Runs s (execBudgetOverrun c s) := by
  simp [execBudgetOverrun]
@[simp] theorem scrub_ident (s : State) (m : Fin 3) (e : Ecc) : (s.scrub m e).ident = s.ident := by simp [State.scrub]

@[simp] theorem execCoreFreeze_runs (c : Fin 9) (s : State) (scrub : Option (Fin 3 × Ecc)) :
    Runs s (execCoreFreeze c s scrub) := by
  unfold execCoreFreeze
  dsimp only
  split <;> simp

/-! ### `Machine/Cell.lean` -/

@[simp] theorem cell_runs {f : State → Nat → CellAns} (hf : ∀ s n, (f s n).keeps s) (s : State) (c : Fin 9)
    (rd : Fin 32) (srcs : List CReg) : Runs s (s.cell c rd srcs f) := by
  unfold State.cell
  refine execWith_runs (fun s1 cyc => ?_) s _ _ _ _
  have h := hf s1 cyc
  split
  case h_1 => simp
  all_goals simp_all

@[simp] theorem noting_keeps (s : State) (a : CellAns) (err : Ecc) : (a.noting err).keeps s ↔ a.keeps s := by
  cases a <;> simp [CellAns.noting]

@[simp] theorem withBytes_keeps {f : List Byte → CellAns} {s : State} (hf : ∀ b, (f b).keeps s) (c : Fin 9)
    (a len : Nat) (err : Ecc) : (s.withBytes c a len err f).keeps s := by
  unfold State.withBytes
  split <;> simp [hf]

@[simp] theorem request_ident (s : State) (c : Fin 9) (r : Req) : (s.request c r).ident = s.ident := by
  simp [State.request]

@[simp] theorem withSeg_keeps {f : SegDesc → CellAns} {s : State} (hf : ∀ d, (f d).keeps s) (c : Fin 9) (word : DWord)
    (a : Nat) (err : Ecc) : (s.withSeg c word a err f).keeps s := by
  refine withBytes_keeps (fun b => ?_) c a 128 _
  dsimp only
  split_ifs <;> simp [hf]

@[simp] theorem execSegq_runs (c : Fin 9) (rd ra : Fin 32) (err : Ecc) (s : State) :
    Runs s (execSegq c rd ra err s) := by
  unfold execSegq
  refine cell_runs (fun s1 _ => ?_) _ _ _ _
  split
  · trivial
  · refine withSeg_keeps (fun d => ?_) _ _ _ _
    repeat' split
    all_goals simp

@[simp] theorem execSega_runs (c : Fin 9) (rd ra : Fin 32) (err : Ecc) (s : State) :
    Runs s (execSega c rd ra err s) := by
  unfold execSega
  refine cell_runs (fun s1 _ => ?_) _ _ _ _
  split
  · trivial
  · refine withSeg_keeps (fun d => ?_) _ _ _ _
    repeat' split
    all_goals simp

@[simp] theorem execSegclr_runs (c : Fin 9) (rd : Fin 32) (s : State) : Runs s (execSegclr c rd s) := by
  unfold execSegclr
  split <;> simp

@[simp] theorem execCut_runs (c : Fin 9) (rd : Fin 32) (s : State) : Runs s (execCut c rd s) := by simp [execCut]

@[simp] theorem execSegstat_runs (c : Fin 9) (rd : Fin 32) (s : State) : Runs s (execSegstat c rd s) := by
  unfold execSegstat
  split <;> simp

@[simp] theorem execStop_runs (c : Fin 9) (rd ra : Fin 32) (s : State) : Runs s (execStop c rd ra s) := by
  simp [execStop]

@[simp] theorem execAuxq_runs (c : Fin 9) (rd ra rb : Fin 32) (err : Ecc) (s : State) :
    Runs s (execAuxq c rd ra rb err s) := by
  unfold execAuxq
  refine cell_runs (fun s1 _ => ?_) _ _ _ _
  dsimp only
  iterate 3 refine iteInduction (fun _ => trivial) (fun _ => ?_)
  refine withBytes_keeps (fun b => ?_) _ _ _ _
  split
  · simp
  split
  · simp
  split
  · simp
  split <;> simp

@[simp] theorem execWaitl_runs (c : Fin 9) (rd ra rb : Fin 32) (func : BitVec 12) (s : State) :
    Runs s (execWaitl c rd ra rb func s) := by
  unfold execWaitl
  dsimp only
  refine cell_runs (fun _ _ => ?_) _ _ _ _
  split
  · simp
  split
  · simp
  split <;> simp

@[simp] theorem execWaitlWake_runs (c : Fin 9) (s : State) : Runs s (execWaitlWake c s) := by
  unfold execWaitlWake
  dsimp only
  split
  · split
    · split <;> simp
    simp
  simp

@[simp] theorem execHpub_runs (c : Fin 9) (rd ra rb : Fin 32) (func : BitVec 12) (err : Ecc) (s : State) :
    Runs s (execHpub c rd ra rb func err s) := by
  simp [execHpub]
@[simp] theorem execApub_runs (c : Fin 9) (rd ra rb : Fin 32) (func : BitVec 12) (err : Ecc) (s : State) :
    Runs s (execApub c rd ra rb func err s) := by
  simp [execApub]

@[simp] theorem execRtake_runs (c : Fin 9) (rd ra rb : Fin 32) (s : State) : Runs s (execRtake c rd ra rb s) := by
  unfold execRtake
  dsimp only
  refine cell_runs (fun _ _ => ?_) _ _ _ _
  split
  · simp
  split
  · simp
  split
  · simp
  split
  · simp
  split <;> simp

@[simp] theorem execJrec_runs (c : Fin 9) (rd ra rb : Fin 32) (err : Ecc) (s : State) :
    Runs s (execJrec c rd ra rb err s) := by
  simp [execJrec]
@[simp] theorem execJdone_runs (c : Fin 9) (rd ra rb : Fin 32) (s : State) : Runs s (execJdone c rd ra rb s) := by
  simp [execJdone]

@[simp] theorem execJnext_runs (c : Fin 9) (rd ra : Fin 32) (s : State) : Runs s (execJnext c rd ra s) := by
  unfold execJnext
  dsimp only
  refine cell_runs (fun _ _ => ?_) _ _ _ _
  split
  · simp
  split <;> simp

@[simp] theorem execProfq_runs (c : Fin 9) (rd : Fin 32) (imm : BitVec 12) (s : State) :
    Runs s (execProfq c rd imm s) := by
  unfold execProfq
  refine cell_runs (fun _ _ => ?_) _ _ _ _
  split <;> simp

@[simp] theorem execCapq_runs (c : Fin 9) (rd : Fin 32) (imm : BitVec 12) (s : State) :
    Runs s (execCapq c rd imm s) := by
  simp [execCapq]

/-! ### `Machine/SafeDomain.lean` -/

@[simp] theorem modSaf_ident (s : State) (f : Saf → Saf) : (s.modSaf f).ident = s.ident := by simp [State.modSaf]
@[simp] theorem atTime_ident (s : State) (t : DWord) : (s.atTime t).ident = s.ident := by simp [State.atTime]
@[simp] theorem signalFault_ident (s : State) (r : FaultRep) : (s.signalFault r).ident = s.ident := by
  simp [State.signalFault]
@[simp] theorem takeFault_ident (s : State) (t : DWord) (q : QFault) : (s.takeFault t q).ident = s.ident := by
  simp [State.takeFault]

@[simp] theorem drainQueue_ident (n : Nat) (s : State) : (s.drainQueue n).ident = s.ident := by
  induction n generalizing s with
  | zero => rfl
  | succ n ih =>
    unfold State.drainQueue
    split <;> simp [ih]

@[simp] theorem settleFaults_ident (s : State) : s.settleFaults.ident = s.ident := by simp [State.settleFaults]

@[simp] theorem intake_ident (s : State) (t : DWord) (r0 : FaultRep) : (s.intake t r0).ident = s.ident := by
  unfold State.intake
  dsimp only
  split
  · simp
  split <;> simp

@[simp] theorem execFaultQueuePop_runs (s : State) : Runs s (execFaultQueuePop s) := by simp [execFaultQueuePop]
@[simp] theorem execProgramFaultRaise_runs (i : Fin 128) (cls : Fin 4) (hold : Bool) (t : DWord) (s : State) :
    Runs s (execProgramFaultRaise i cls hold t s) := by
  simp [execProgramFaultRaise]
@[simp] theorem stoCore_ident (s : State) : s.stoCore.ident = s.ident := by simp [State.stoCore]
@[simp] theorem execStoEntry_runs (t : DWord) (s : State) : Runs s (execStoEntry t s) := by simp [execStoEntry]
@[simp] theorem duskRest_ident (t : DWord) (s : State) : (s.duskRest t).ident = s.ident := by simp [State.duskRest]
@[simp] theorem execDuskTimeout_runs (t : DWord) (s : State) : Runs s (execDuskTimeout t s) := by
  simp [execDuskTimeout]
@[simp] theorem endHold_ident (s : State) (t : DWord) : (s.endHold t).ident = s.ident := by simp [State.endHold]
@[simp] theorem execHoldEnd_runs (t : DWord) (s : State) : Runs s (execHoldEnd t s) := by simp [execHoldEnd]
@[simp] theorem wdogExpire_ident (s : State) (t : DWord) : (s.wdogExpire t).ident = s.ident := by
  simp [State.wdogExpire]
@[simp] theorem execWdogService_runs (since : Nat) (t : DWord) (s : State) : Runs s (execWdogService since t s) := by
  simp [execWdogService]
@[simp] theorem execWdogExpired_runs (t : DWord) (s : State) : Runs s (execWdogExpired t s) := by
  simp [execWdogExpired]
@[simp] theorem execWdogStoDelay_runs (s : State) : Runs s (execWdogStoDelay s) := by simp [execWdogStoDelay]
@[simp] theorem execStoReadback_runs (t : DWord) (s : State) : Runs s (execStoReadback t s) := by
  simp [execStoReadback]
@[simp] theorem execResetEdge_runs (released pressed : Nat) (t : DWord) (s : State) :
    Runs s (execResetEdge released pressed t s) := by
  simp [execResetEdge]
@[simp] theorem execResetStuck_runs (t : DWord) (s : State) : Runs s (execResetStuck t s) := by simp [execResetStuck]

@[simp] theorem execResetEdgeEvaluate_runs (t : DWord) (s : State) : Runs s (execResetEdgeEvaluate t s) := by
  unfold execResetEdgeEvaluate
  dsimp only
  split
  · simp
  split
  · simp
  split <;> simp

@[simp] theorem execSafeInputChange_runs (i : Fin 16) (level : Bool) (s : State) :
    Runs s (execSafeInputChange i level s) := by
  unfold execSafeInputChange
  dsimp only
  split <;> simp

@[simp] theorem execSinDisc_runs (i : Fin 16) (t : DWord) (s : State) : Runs s (execSinDisc i t s) := by
  unfold execSinDisc
  split <;> simp

@[simp] theorem execTestPulse_runs (k : Fin 4) (lows : BitVec 16) (estLow : Bool) (t : DWord) (s : State) :
    Runs s (execTestPulse k lows estLow t s) := by
  simp [execTestPulse]
@[simp] theorem execEstopChange_runs (a b : Bool) (t : DWord) (s : State) : Runs s (execEstopChange a b t s) := by
  simp [execEstopChange]
@[simp] theorem execEstopDisc_runs (t : DWord) (s : State) : Runs s (execEstopDisc t s) := by simp [execEstopDisc]
@[simp] theorem execSoutWrite_runs (v : Byte) (s : State) : Runs s (execSoutWrite v s) := by simp [execSoutWrite]
@[simp] theorem execDarkPulse_runs (k : Fin 8) (s : State) : Runs s (execDarkPulse k s) := by simp [execDarkPulse]
@[simp] theorem execSoutReadback_runs (k : Fin 8) (rb : Bool) (t : DWord) (s : State) :
    Runs s (execSoutReadback k rb t s) := by
  simp [execSoutReadback]
@[simp] theorem execMarchSegment_runs (fail : Bool) (t : DWord) (s : State) : Runs s (execMarchSegment fail t s) := by
  simp [execMarchSegment]
@[simp] theorem execHaloChunk_runs (fail : Bool) (t : DWord) (s : State) : Runs s (execHaloChunk fail t s) := by
  simp [execHaloChunk]
@[simp] theorem execDiagLate_runs (march : Bool) (t : DWord) (s : State) : Runs s (execDiagLate march t s) := by
  simp [execDiagLate]
@[simp] theorem diagReserve_ident (s : State) : s.diagReserve.ident = s.ident := by simp [State.diagReserve]
@[simp] theorem execFlowdlExpire_runs (t : DWord) (s : State) : Runs s (execFlowdlExpire t s) := by
  simp [execFlowdlExpire]
@[simp] theorem flowCheck_ident (s : State) : s.flowCheck.ident = s.ident := by simp [State.flowCheck]
@[simp] theorem execFlowsig_runs (c : Fin 10) (imm : BitVec 12) (s : State) : Runs s (execFlowsig c imm s) := by
  simp [execFlowsig]
@[simp] theorem execMailboxGo_runs (s : State) : Runs s (execMailboxGo s) := by simp [execMailboxGo]
@[simp] theorem mbxDone_ident (s : State) (result : BitVec 16) : (s.mbxDone result).ident = s.ident := by
  simp [State.mbxDone]
@[simp] theorem mbxDoneFree_ident (s : State) : s.mbxDoneFree.ident = s.ident := by simp [State.mbxDoneFree]
@[simp] theorem execMbxHostStop_runs (t : DWord) (s : State) : Runs s (execMbxHostStop t s) := by
  simp [execMbxHostStop]
@[simp] theorem execMbxHoldEnd_runs (t : DWord) (s : State) : Runs s (execMbxHoldEnd t s) := by simp [execMbxHoldEnd]
@[simp] theorem execMbxEcho_runs (s : State) : Runs s (execMbxEcho s) := by simp [execMbxEcho]
@[simp] theorem execMbxProgram_runs (result : BitVec 16) (r0 r1 r2 r3 : Word) (s : State) :
    Runs s (execMbxProgram result r0 r1 r2 r3 s) := by
  simp [execMbxProgram]
@[simp] theorem execMbxUnknown_runs (s : State) : Runs s (execMbxUnknown s) := by simp [execMbxUnknown]

/-! ### `Machine/Capture.lean` -/

@[simp] theorem modCap_ident (s : State) (f : Cap → Cap) : (s.modCap f).ident = s.ident := by simp [State.modCap]
@[simp] theorem modCapSet_ident (s : State) (k : Fin 4) (f : CapSet → CapSet) :
    (s.modCapSet k f).ident = s.ident := by
  simp [State.modCapSet]

@[simp] theorem capAction_ident (s : State) (k : Fin 4) (index : Byte) : (s.capAction k index).ident = s.ident := by
  unfold State.capAction
  dsimp only
  split <;> simp

@[simp] theorem capTrigger_ident (s : State) (k : Fin 4) (buf : List CapSample) (smp : CapSample) (fired : BitVec 2)
    (forced : Bool) (ttime : Int) : (s.capTrigger k buf smp fired forced ttime).ident = s.ident := by
  unfold State.capTrigger
  dsimp only
  split <;> simp

@[simp] theorem capFilled_ident (s : State) (k : Fin 4) : (s.capFilled k).ident = s.ident := by simp [State.capFilled]

@[simp] theorem capSample_ident (s : State) (k : Fin 4) (forcedTick : Bool) (smp : CapSample) :
    (s.capSample k forcedTick smp).ident = s.ident := by
  unfold State.capSample
  extract_lets c inst
  split
  case h_1 =>
    split
    · simp
    · split <;> simp
  case h_2 =>
    split
    · rfl
    rename_i hit _ s1 _ s2 _ _ _
    have h2 : s2.ident = s.ident := by
      unfold s2
      split
      · simp [s1]
      · cases h : hit <;> simp [s1]
    rw [ident_ite, capFilled_ident, h2, ite_self]

@[simp] theorem forcedFlags_ident (s : State) (k : Fin 4) (smp : CapSample) :
    (s.forcedFlags k smp).ident = s.ident := by
  simp [State.forcedFlags]
@[simp] theorem capSetTick_ident (s : State) (k : Fin 4) (n : Nat) : (s.capSetTick k n).ident = s.ident := by
  simp [State.capSetTick]
@[simp] theorem execCaptureAssembly_runs (s : State) : Runs s (execCaptureAssembly s) := by simp [execCaptureAssembly]

@[simp] theorem execRecordClose_runs (i : Byte) (s : State) : Runs s (execRecordClose i s) := by
  unfold execRecordClose
  dsimp only
  split <;> simp

@[simp] theorem execCapForce_runs (k : Fin 4) (s : State) : Runs s (execCapForce k s) := by simp [execCapForce]

@[simp] theorem capCommit_ident (s : State) : s.capCommit.ident = s.ident := by
  refine foldl_ident (fun st k => ?_) s _
  simp only [ident_ite, modCapSet_ident, ident_mk, ident_fold, ite_self]
  split
  · rfl
  · split <;> simp

@[simp] theorem execReadoutGo_runs (i : Byte) (s : State) : Runs s (execReadoutGo i s) := by simp [execReadoutGo]

@[simp] theorem execReadoutDone_runs (eccErr : Ecc) (t : DWord) (s : State) :
    Runs s (execReadoutDone eccErr t s) := by
  unfold execReadoutDone
  dsimp only
  split
  · simp
  split <;> simp

@[simp] theorem execRecordRelease_runs (i : Byte) (s : State) : Runs s (execRecordRelease i s) := by
  simp [execRecordRelease]

/-! ### `Machine/Lanes.lean` -/

@[simp] theorem modLane_ident (s : State) (l : Fin 32) (f : Lane → Lane) : (s.modLane l f).ident = s.ident := by
  simp [State.modLane]
@[simp] theorem laneFault_ident (s : State) (l : Fin 32) (code : Nat) : (s.laneFault l code).ident = s.ident := by
  simp [State.laneFault]
@[simp] theorem laneGoto_ident (s : State) (l : Fin 32) (pc : Nat) : (s.laneGoto l pc).ident = s.ident := by
  simp [State.laneGoto]
@[simp] theorem laneStep_runs (s : State) (l : Fin 32) (f : Lane → Lane) : Runs s (s.laneStep l f) := by
  simp [State.laneStep]
@[simp] theorem laneInputs_ident (s : State) (l : Fin 32) : (s.laneInputs l).ident = s.ident := by
  simp [State.laneInputs]
@[simp] theorem execLanePass_runs (l : Fin 32) (eccErr : Ecc) (s : State) : Runs s (execLanePass l eccErr s) := by
  simp [execLanePass]
@[simp] theorem execLaneOverrun_runs (l : Fin 32) (s : State) : Runs s (execLaneOverrun l s) := by
  simp [execLaneOverrun]
@[simp] theorem execLaneStart_runs (l : Fin 32) (s : State) : Runs s (execLaneStart l s) := by simp [execLaneStart]
@[simp] theorem execLaneStop_runs (l : Fin 32) (s : State) : Runs s (execLaneStop l s) := by simp [execLaneStop]
@[simp] theorem execLanePatch_runs (s : State) : Runs s (execLanePatch s) := by simp [execLanePatch]
@[simp] theorem execTmpy_runs (l : Fin 32) (ac : Fin 2) (t : TapOp) (s : State) : Runs s (execTmpy l ac t s) := by
  simp [execTmpy]
@[simp] theorem execTmac_runs (l : Fin 32) (ac : Fin 2) (t : TapOp) (s : State) : Runs s (execTmac l ac t s) := by
  simp [execTmac]
@[simp] theorem execTmsu_runs (l : Fin 32) (ac : Fin 2) (t : TapOp) (s : State) : Runs s (execTmsu l ac t s) := by
  simp [execTmsu]
@[simp] theorem execLanePut_runs (l : Fin 32) (ac : Fin 2) (m : MemOp) (sh : Fin 32) (s : State) :
    Runs s (execLanePut l ac m sh s) := by
  simp [execLanePut]
@[simp] theorem execLaneGet_runs (l : Fin 32) (ac : Fin 2) (m : MemOp) (sh : Fin 24) (s : State) :
    Runs s (execLaneGet l ac m sh s) := by
  simp [execLaneGet]
@[simp] theorem execLaneAdd_runs (l : Fin 32) (ac : Fin 2) (m : MemOp) (sh : Fin 24) (s : State) :
    Runs s (execLaneAdd l ac m sh s) := by
  simp [execLaneAdd]
@[simp] theorem execIdx_runs (l : Fin 32) (ac : Fin 2) (a : Fin 8) (sh : Fin 32) (s : State) :
    Runs s (execIdx l ac a sh s) := by
  simp [execIdx]
@[simp] theorem execLaneClr_runs (l : Fin 32) (ac : Fin 2) (s : State) : Runs s (execLaneClr l ac s) := by
  simp [execLaneClr]
@[simp] theorem execLds_runs (l : Fin 32) (m : MemOp) (k : Fin 4) (s : State) : Runs s (execLds l m k s) := by
  simp [execLds]
@[simp] theorem execSeta_runs (l : Fin 32) (r : Fin 8) (v : BitVec 11) (s : State) : Runs s (execSeta l r v s) := by
  simp [execSeta]
@[simp] theorem execSetm_runs (l : Fin 32) (r : Fin 8) (v : BitVec 12) (s : State) : Runs s (execSetm l r v s) := by
  simp [execSetm]
@[simp] theorem execSetl_runs (l : Fin 32) (r : Fin 8) (v : BitVec 12) (s : State) : Runs s (execSetl l r v s) := by
  simp [execSetl]
@[simp] theorem execSets_runs (l : Fin 32) (k : Fin 4) (v : BitVec 16) (s : State) : Runs s (execSets l k v s) := by
  simp [execSets]
@[simp] theorem execRpt_runs (l : Fin 32) (count len : BitVec 11) (s : State) : Runs s (execRpt l count len s) := by
  simp [execRpt]
@[simp] theorem execLaneBr_runs (l : Fin 32) (cond : Fin 5) (ac : Fin 2) (target : BitVec 11) (s : State) :
    Runs s (execLaneBr l cond ac target s) := by
  simp [execLaneBr]
@[simp] theorem execLaneEnd_runs (l : Fin 32) (s : State) : Runs s (execLaneEnd l s) := by simp [execLaneEnd]

/-! ### `Machine/Control.lean` -/

@[simp] theorem modCasc_ident (s : State) (a : Fin 128) (f : Cascade → Cascade) :
    (s.modCasc a f).ident = s.ident := by
  simp [State.modCasc]

@[simp] theorem dynBook_ident (s : State) (a : Fin 128) : (s.dynBook a).ident = s.ident := by
  unfold State.dynBook
  dsimp only
  split <;> simp

@[simp] theorem dynNoted_ident (s : State) (a : Fin 128) : (s.dynNoted a).ident = s.ident := by
  unfold State.dynNoted
  split <;> simp

@[simp] theorem followChecks_ident (s : State) (a : Fin 128) : (s.followChecks a).ident = s.ident := by
  simp [State.followChecks]

@[simp] theorem holdCmd_ident (s : State) (a : Fin 128) : (s.holdCmd a).ident = s.ident := by
  unfold State.holdCmd
  dsimp only
  split <;> simp

@[simp] theorem execAxisCascade_runs (a : Fin 128) (s : State) : Runs s (execAxisCascade a s) := by
  simp [execAxisCascade]
@[simp] theorem execManualEnter_runs (a : Fin 128) (s : State) : Runs s (execManualEnter a s) := by
  simp [execManualEnter]
@[simp] theorem execBumplessTransfer_runs (a : Fin 128) (s : State) : Runs s (execBumplessTransfer a s) := by
  simp [execBumplessTransfer]

@[simp] theorem takeDue_ident (s : State) (off bit : Nat) : (s.takeDue off bit).2.ident = s.ident := by
  unfold State.takeDue
  dsimp only
  split <;> simp

@[simp] theorem execClrInt_runs (a : Fin 128) (s : State) : Runs s (execClrInt a s) := by simp [execClrInt]
@[simp] theorem execCtlClrFault_runs (a : Fin 128) (s : State) : Runs s (execCtlClrFault a s) := by
  simp [execCtlClrFault]

/-! ### `Machine/Lines.lean` -/

@[simp] theorem modLine_ident (s : State) (n : Fin 8) (f : Line → Line) : (s.modLine n f).ident = s.ident := by
  simp [State.modLine]
@[simp] theorem execLineEdge_runs (n : Fin 8) (a b : BitVec 3) (sample : Nat) (s : State) :
    Runs s (execLineEdge n a b sample s) := by
  simp [execLineEdge]

@[simp] theorem indexEvent_ident (s : State) (n : Fin 8) (t : DWord) : (s.indexEvent n t).ident = s.ident := by
  unfold State.indexEvent
  dsimp only
  split <;> simp

@[simp] theorem execLineIndex_runs (n : Fin 8) (z : BitVec 3) (t : DWord) (s : State) :
    Runs s (execLineIndex n z t s) := by
  simp [execLineIndex]
@[simp] theorem execLineLatch_runs (n : Fin 8) (t : DWord) (s : State) : Runs s (execLineLatch n t s) := by
  simp [execLineLatch]
@[simp] theorem execLineIdleLatch_runs (s : State) : Runs s (execLineIdleLatch s) := by simp [execLineIdleLatch]
@[simp] theorem execLineFault_runs (n : Fin 8) (s : State) : Runs s (execLineFault n s) := by simp [execLineFault]
@[simp] theorem execLinClrFault_runs (n : Fin 8) (sample : Nat) (s : State) :
    Runs s (execLinClrFault n sample s) := by
  simp [execLinClrFault]
@[simp] theorem execClrUncert_runs (n : Fin 8) (s : State) : Runs s (execClrUncert n s) := by simp [execClrUncert]
@[simp] theorem execClrQerr_runs (n : Fin 8) (s : State) : Runs s (execClrQerr n s) := by simp [execClrQerr]
@[simp] theorem execLinSiderealRead_runs (path : Path) (t : DWord) (s : State) :
    Runs s (execLinSiderealRead path t s) := by
  simp [execLinSiderealRead]

/-! ### `Machine/MerFrames.lean` -/

@[simp] theorem countDiscard_ident (s : State) (c : Channel) (f : SchedFrame) (d : Discard) :
    (s.countDiscard c f d).ident = s.ident := by
  unfold State.countDiscard
  dsimp only
  split <;> simp

@[simp] theorem receive_ident (s : State) (c : Channel) (f : SchedFrame) : (s.receive c f).2.ident = s.ident := by
  simp [State.receive]

/-! ### `Machine/Feedback.lean` -/

@[simp] theorem modFbk_ident (s : State) (a : Fin 128) (f : AxFbk → AxFbk) : (s.modFbk a f).ident = s.ident := by
  simp [State.modFbk]
@[simp] theorem modSsi_ident (s : State) (p : Fin 16) (f : SsiPort → SsiPort) : (s.modSsi p f).ident = s.ident := by
  simp [State.modSsi]
@[simp] theorem execSsiFrameStart_runs (p : Fin 16) (ts : DWord) (high : Bool) (s : State) :
    Runs s (execSsiFrameStart p ts high s) := by
  simp [execSsiFrameStart]

@[simp] theorem execSsiWord_runs (p : Fin 16) (bits : List Bool) (td : Option Nat) (endLow : Bool) (s : State) :
    Runs s (execSsiWord p bits td endLow s) := by
  unfold execSsiWord
  dsimp only
  split
  · simp
  split
  · simp
  split <;> simp

@[simp] theorem applyFbRec_ident (s : State) (a : Fin 128) (r : FbRec) (t0 : Nat) :
    (s.applyFbRec a r t0).ident = s.ident := by
  simp [State.applyFbRec]

@[simp] theorem execFeedbackFrame_runs (ch : Channel) (f : SchedFrame) (t : DWord) (s : State) :
    Runs s (execFeedbackFrame ch f t s) := by
  unfold execFeedbackFrame
  extract_lets s0 k b node nax nb iolen io t0
  have hk : k.2.ident = s.ident := receive_ident s0 ch f
  rw [runs_next]
  split
  · rfl
  split
  · exact hk
  split
  · simp [hk]
  rename_i s1 s2 _ s3 s4 _ _ _ _
  refine iteInduction (motive := fun st : State => st.ident = s.ident) (fun _ => hk) (fun _ => ?_)
  have h1 : s1.ident = k.2.ident := rfl
  have h2 : s2.ident = k.2.ident := by
    unfold s2
    split <;> simp [h1]
  have h3 : s3.ident = s2.ident := by
    unfold s3
    split
    · exact foldl_ident (fun _ _ => by dsimp only; split <;> simp) _ _
    · rfl
  have h4 : s4.ident = s3.ident := foldl_ident (fun _ _ => by dsimp only; split <;> simp) _ _
  cases hio : io <;> simp [h4, h3, h2, hk]

@[simp] theorem execGatherEnd_runs (s : State) : Runs s (execGatherEnd s) := by
  unfold execGatherEnd
  dsimp only
  split <;> simp

@[simp] theorem execStandstillTimeout_runs (src : EstSrc) (s : State) : Runs s (execStandstillTimeout src s) := by
  unfold execStandstillTimeout
  dsimp only
  split
  · split <;> simp
  simp

@[simp] theorem axisEstimate_ident (s : State) (a : Fin 128) : (s.axisEstimate a).ident = s.ident := by
  simp [State.axisEstimate]

@[simp] theorem execExtrapolatePhase_runs (s : State) : Runs s (execExtrapolatePhase s) := by
  unfold execExtrapolatePhase
  rw [runs_next]
  split
  · rfl
  · extract_lets s1 s2 s3
    have h1 : s1.ident = s.ident := foldl_ident (fun _ _ => by dsimp only; split <;> simp [modLine_ident]) _ _
    have h2 : s2.ident = s1.ident := foldl_ident (fun _ _ => by split <;> simp [axisEstimate_ident]) _ _
    have h3 : s3.ident = s2.ident := foldl_ident armTick_ident _ _
    refine (foldl_ident (fun st a => ?_) _ _).trans (h3.trans (h2.trans h1))
    split <;> simp [auxTick_ident, loadTick_ident]

@[simp] theorem execFbkTimeout_runs (a : Fin 128) (s : State) : Runs s (execFbkTimeout a s) := by
  simp [execFbkTimeout]

/-! ### `Machine/Meridian.lean` -/

@[simp] theorem modMer_ident (s : State) (f : Mer → Mer) : (s.modMer f).ident = s.ident := by simp [State.modMer]
@[simp] theorem modPort_ident (s : State) (c : Channel) (p : LPort) (f : MerPort → MerPort) :
    (s.modPort c p f).ident = s.ident := by
  simp [State.modPort]
@[simp] theorem sendLink_ident (s : State) (c : Channel) (p : LPort) (type scope : Byte) (payload : List Byte) :
    (s.sendLink c p type scope payload).ident = s.ident := by
  simp [State.sendLink]
@[simp] theorem sendColdstart_ident (s : State) : s.sendColdstart.ident = s.ident := by simp [State.sendColdstart]
@[simp] theorem sendEnum_ident (s : State) (c : Channel) (p : LPort) : (s.sendEnum c p).ident = s.ident := by
  simp [State.sendEnum]
@[simp] theorem sendEnums_ident (s : State) : s.sendEnums.ident = s.ident := by simp [State.sendEnums]
@[simp] theorem sendNodeAddrs_ident (s : State) : s.sendNodeAddrs.ident = s.ident := by simp [State.sendNodeAddrs]
@[simp] theorem portFall_ident (s : State) (c : Channel) (p : LPort) : (s.portFall c p).ident = s.ident := by
  simp [State.portFall]
@[simp] theorem execLinkDown_runs (c : Channel) (p : LPort) (t : DWord) (s : State) :
    Runs s (execLinkDown c p t s) := by
  simp [execLinkDown]
@[simp] theorem execTrainSend_runs (c : Channel) (p : LPort) (s : State) : Runs s (execTrainSend c p s) := by
  simp [execTrainSend]

@[simp] theorem execTrainReceive_runs (c : Channel) (p : LPort) (s : State) : Runs s (execTrainReceive c p s) := by
  unfold execTrainReceive
  split <;> simp

@[simp] theorem execLinkMeasure_runs (c : Channel) (p : LPort) (s : State) : Runs s (execLinkMeasure c p s) := by
  simp [execLinkMeasure]
@[simp] theorem execLinkReady_runs (c : Channel) (p : LPort) (t : DWord) (s : State) :
    Runs s (execLinkReady c p t s) := by
  simp [execLinkReady]
@[simp] theorem retrain_ident (s : State) (mask : BitVec 4) : (s.retrain mask).ident = s.ident := by
  simp [State.retrain]
@[simp] theorem execMerRetrain_runs (mask : BitVec 4) (t : DWord) (s : State) : Runs s (execMerRetrain mask t s) := by
  simp [execMerRetrain]
@[simp] theorem portdis_ident (s : State) (mask : BitVec 4) : (s.portdis mask).ident = s.ident := by
  simp [State.portdis]
@[simp] theorem execMerPortdis_runs (mask : BitVec 4) (t : DWord) (s : State) : Runs s (execMerPortdis mask t s) := by
  simp [execMerPortdis]

@[simp] theorem execFrameRepeat_runs (c : Channel) (p : LPort) (f : MerFrame) (s : State) :
    Runs s (execFrameRepeat c p f s) := by
  unfold execFrameRepeat
  dsimp only
  split <;> simp

@[simp] theorem contend_ident (s : State) (t : DWord) : (s.contend t).ident = s.ident := by simp [State.contend]

@[simp] theorem execColdstartListenEnd_runs (t : DWord) (s : State) : Runs s (execColdstartListenEnd t s) := by
  unfold execColdstartListenEnd
  split <;> simp

@[simp] theorem execColdstartReceive_runs (c : Channel) (p : LPort) (f : LinkFrame) (t : DWord) (s : State) :
    Runs s (execColdstartReceive c p f t s) := by
  unfold execColdstartReceive
  dsimp only
  split
  · simp
  split <;> simp

@[simp] theorem execColdstartWindowEnd_runs (t : DWord) (asTime : Option DWord) (s : State) :
    Runs s (execColdstartWindowEnd t asTime s) := by
  unfold execColdstartWindowEnd
  rw [runs_next]
  split
  · refine iteInduction (motive := fun st : State => st.ident = s.ident) (fun _ => ?_) (fun _ => rfl)
    extract_lets coarse
    rw [sendNodeAddrs_ident, sendEnums_ident, modMer_ident]
    rw [ident_mk, ident_fold, crystal_ident]
  · rfl

@[simp] theorem execLodestarBeacon_runs (t : DWord) (s : State) : Runs s (execLodestarBeacon t s) := by
  simp [execLodestarBeacon]

@[simp] theorem execMerNoLodestar_runs (t : DWord) (s : State) : Runs s (execMerNoLodestar t s) := by
  unfold execMerNoLodestar
  split <;> simp

@[simp] theorem execDelayReqSend_runs (c : Channel) (p : LPort) (t1 : DWord) (s : State) :
    Runs s (execDelayReqSend c p t1 s) := by
  simp [execDelayReqSend]
@[simp] theorem execDelayReqReceive_runs (c : Channel) (p : LPort) (f : LinkFrame) (t2 t3 : DWord) (s : State) :
    Runs s (execDelayReqReceive c p f t2 t3 s) := by
  simp [execDelayReqReceive]

@[simp] theorem execDelayRespReceive_runs (c : Channel) (p : LPort) (f : LinkFrame) (t4 : DWord) (s : State) :
    Runs s (execDelayRespReceive c p f t4 s) := by
  unfold execDelayRespReceive
  rw [runs_next]
  split
  · refine iteInduction (motive := fun st : State => st.ident = s.ident) (fun _ => ?_) (fun _ => rfl)
    exact modPort_ident _ _ _ _
  · rfl

@[simp] theorem steer_ident (s : State) (t : DWord) (asTime : Option DWord) : (s.steer t asTime).ident = s.ident := by
  unfold State.steer
  dsimp only
  split <;> simp

@[simp] theorem execSyncSend_runs (t : DWord) (s0 : State) (asTime : Option DWord) :
    Runs s0 (execSyncSend t s0 asTime) := by
  simp [execSyncSend]

@[simp] theorem execSyncReceive_runs (c : Channel) (p : LPort) (f : SchedFrame) (t : DWord) (s : State) :
    Runs s (execSyncReceive c p f t s) := by
  simp only [execSyncReceive, runs_next, ident_ite, countDiscard_ident, raise_ident, modPort_ident, modMer_ident,
    ident_mk, ident_fold, ite_self]

@[simp] theorem execSyncDegraded_runs (s : State) : Runs s (execSyncDegraded s) := by simp [execSyncDegraded]
@[simp] theorem execSiderealHoldover_runs (s : State) : Runs s (execSiderealHoldover s) := by
  simp [execSiderealHoldover]
@[simp] theorem execSiderealLost_runs (s : State) : Runs s (execSiderealLost s) := by simp [execSiderealLost]
@[simp] theorem execSyncRelock_runs (s : State) : Runs s (execSyncRelock s) := by simp [execSyncRelock]
@[simp] theorem merBoundary_ident (s : State) : s.merBoundary.ident = s.ident := by simp [State.merBoundary]
@[simp] theorem execEnumReceive_runs (c : Channel) (p : LPort) (f : LinkFrame) (t : DWord) (s : State) :
    Runs s (execEnumReceive c p f t s) := by
  simp [execEnumReceive]
@[simp] theorem execCtrlReportReceive_runs (c : Channel) (p : LPort) (f : LinkFrame) (t : DWord) (s : State) :
    Runs s (execCtrlReportReceive c p f t s) := by
  simp [execCtrlReportReceive]

@[simp] theorem execControllerAssign_runs (t : DWord) (s : State) : Runs s (execControllerAssign t s) := by
  unfold execControllerAssign
  extract_lets s0 m due
  rw [runs_next]
  split
  · rfl
  rename_i kept fresh pinned free r s1 s2 _
  have h1 : s1.ident = s.ident := foldl_ident (fun _ _ => by simp) s0 r.2
  have h2 : s2.ident = s1.ident := by
    refine foldl_ident (fun st x => ?_) s1 r.1
    split
    · refine (modMer_ident _ _).trans (foldl_ident (fun _ _ => ?_) st _)
      split <;> simp [sendLink_ident]
    · rfl
  exact h2.trans h1

@[simp] theorem execAssignReceive_runs (c : Channel) (p : LPort) (f : LinkFrame) (t : DWord) (s : State) :
    Runs s (execAssignReceive c p f t s) := by
  simp [execAssignReceive]
@[simp] theorem execNodeAddrReceive_runs (uid : BitVec 48) (f : LinkFrame) (s : State) :
    Runs s (execNodeAddrReceive uid f s) := by
  simp [execNodeAddrReceive]
@[simp] theorem execAddrAckReceive_runs (c : Channel) (p : LPort) (f : LinkFrame) (t : DWord) (s : State) :
    Runs s (execAddrAckReceive c p f t s) := by
  simp [execAddrAckReceive]

/-! ### `Machine/MerSchedule.lean` -/

/-- A fold that carries the state beside other data keeps what each of its steps keeps. -/
theorem foldl_snd_ident {α β : Type} {f : β × State → α → β × State} (h : ∀ x a, (f x a).2.ident = x.2.ident)
    (x : β × State) (l : List α) : (l.foldl f x).2.ident = x.2.ident := by
  induction l generalizing x with
  | nil => rfl
  | cons a l ih => rw [List.foldl_cons, ih, h]

@[simp] theorem execSetpointSend_runs (ch : Channel) (s : State) : Runs s (execSetpointSend ch s) := by
  unfold execSetpointSend
  rw [runs_next]
  split
  · rfl
  · refine (foldl_snd_ident (fun x e => ?_) _ _)
    dsimp only
    split
    · exact foldl_ident (fun _ _ => by simp) _ _
    · rfl

@[simp] theorem execSetpointApply_runs (recs : List SptRec) (s : State) : Runs s (execSetpointApply recs s) := by
  simp [execSetpointApply]
@[simp] theorem execSetpointLoss_runs (recs : List SptRec) (s : State) : Runs s (execSetpointLoss recs s) := by
  simp [execSetpointLoss]
@[simp] theorem execEventFrame_runs (ch : Channel) (f : SchedFrame) (t : DWord) (s : State) :
    Runs s (execEventFrame ch f t s) := by
  simp [execEventFrame]
@[simp] theorem pushArb_ident (s : State) (ch : Channel) (f : ArbFrame) : (s.pushArb ch f).ident = s.ident := by
  simp [State.pushArb]

@[simp] theorem execSchedloadSend_runs (node : BitVec 10) (ch : Channel) (s : State) :
    Runs s (execSchedloadSend node ch s) := by
  unfold execSchedloadSend
  dsimp only
  split <;> simp

@[simp] theorem execSchedloadReceive_runs (uid : BitVec 48) (ch : Channel) (f : SchedFrame) (s : State) :
    Runs s (execSchedloadReceive uid ch f s) := by
  simp [execSchedloadReceive]
@[simp] theorem execSchedackReceive_runs (ch : Channel) (f : SchedFrame) (t : DWord) (s : State) :
    Runs s (execSchedackReceive ch f t s) := by
  simp [execSchedackReceive]

@[simp] theorem execMerSchedLoad_runs (node : BitVec 10) (ch : Channel) (s : State) :
    Runs s (execMerSchedLoad node ch s) := by
  unfold execMerSchedLoad
  split <;> simp

@[simp] theorem execArbitratingSend_runs (ch : Channel) (seen : List (Nat × Nat)) (s : State) :
    Runs s (execArbitratingSend ch seen s) := by
  simp [execArbitratingSend]
@[simp] theorem execMerArbLate_runs (ch : Channel) (fid : BitVec 12) (s : State) :
    Runs s (execMerArbLate ch fid s) := by
  simp [execMerArbLate]
@[simp] theorem execMerCrc_runs (ch : Channel) (s : State) : Runs s (execMerCrc ch s) := by simp [execMerCrc]
@[simp] theorem writeCp_ident (s : State) (k : Nat) (v : Word) : (s.writeCp k v).ident = s.ident := by
  simp [State.writeCp]
@[simp] theorem execMerCpWrite_runs (k : Fin 16) (v : Word) (s : State) : Runs s (execMerCpWrite k v s) := by
  simp [execMerCpWrite]
@[simp] theorem execMeridianCyclePoint_runs (k : Fin 16) (s : State) : Runs s (execMeridianCyclePoint k s) := by
  simp [execMeridianCyclePoint]

/-! ### `Machine/Ephemeris.lean` -/

@[simp] theorem modEph_ident (s : State) (f : Eph → Eph) : (s.modEph f).ident = s.ident := by simp [State.modEph]
@[simp] theorem streamGap_ident (s : State) (firstSeq : DWord) : (s.streamGap firstSeq).ident = s.ident := by
  simp [State.streamGap]
@[simp] theorem queueItem_ident (s : State) (it : StreamItem) : (s.queueItem it).ident = s.ident := by
  simp [State.queueItem]

@[simp] theorem ephNote_ident (s : State) (err : Ecc) : (s.ephNote err).ident = s.ident := by
  unfold State.ephNote
  dsimp only
  split <;> simp

@[simp] theorem execStreamCopy_runs (s0 : State) (err : Ecc) : Runs s0 (execStreamCopy s0 err) := by
  unfold execStreamCopy
  dsimp only
  split
  · simp
  split
  · simp
  split
  · simp
  split
  · simp
  split <;> simp

@[simp] theorem execStreamEnable_runs (s : State) : Runs s (execStreamEnable s) := by
  unfold execStreamEnable
  dsimp only
  split
  · simp
  split <;> simp

@[simp] theorem dropOldest_ident (s : State) : s.dropOldest.ident = s.ident := by
  unfold State.dropOldest
  dsimp only
  split <;> simp

@[simp] theorem trimRing_ident (n : Nat) (s : State) : (s.trimRing n).ident = s.ident := by
  induction n generalizing s with
  | zero => rfl
  | succ n ih =>
    unfold State.trimRing
    split <;> simp [ih]

@[simp] theorem checkShort_ident (s : State) : s.checkShort.ident = s.ident := by simp [State.checkShort]
@[simp] theorem closeBlock_ident (s : State) (alm : Almanac) : (s.closeBlock alm).ident = s.ident := by
  simp [State.closeBlock]
@[simp] theorem loadKey_ident (s : State) (f : Keyframe) : (s.loadKey f).ident = s.ident := by simp [State.loadKey]
@[simp] theorem execKeyframeCapture_runs (s : State) : Runs s (execKeyframeCapture s) := by simp [execKeyframeCapture]

@[simp] theorem execKeyframeComplete_runs (bytes : Nat) (s : State) : Runs s (execKeyframeComplete bytes s) := by
  unfold execKeyframeComplete
  dsimp only
  rw [runs_next]
  refine (foldl_ident (fun _ _ => ?_) _ _).trans ?_
  · split <;> simp
  · rfl

@[simp] theorem execEphKfAbandon_runs (t : DWord) (s : State) : Runs s (execEphKfAbandon t s) := by
  unfold execEphKfAbandon
  rw [runs_next]
  refine (foldl_ident (fun _ _ => ?_) _ _).trans ?_
  · split <;> simp
  · rfl

@[simp] theorem pinFault_ident (s : State) (stamp : Nat) : (s.pinFault stamp).ident = s.ident := by
  unfold State.pinFault
  split
  · rfl
  split
  · simp
  split
  · rfl
  split <;> simp

@[simp] theorem execPinComplete_runs (s : State) : Runs s (execPinComplete s) := by simp [execPinComplete]
@[simp] theorem execPinRelease_runs (s : State) : Runs s (execPinRelease s) := by simp [execPinRelease]
@[simp] theorem stopReplay_ident (s : State) (cause : Nat) : (s.stopReplay cause).ident = s.ident := by
  simp [State.stopReplay]

@[simp] theorem nextBlock_ident (s : State) (seq : DWord) (epoch : Nat) :
    (s.nextBlock seq epoch).ident = s.ident := by
  unfold State.nextBlock
  split <;> simp

@[simp] theorem execReplayStart_runs (image : Nat) (revOk profOk resOk : Bool) (s : State) :
    Runs s (execReplayStart image revOk profOk resOk s) := by
  unfold execReplayStart
  dsimp only
  split
  · simp
  split
  · simp
  split
  · simp
  split
  · simp
  split
  · simp
  split <;> simp

@[simp] theorem execReplayTick_runs (s : State) : Runs s (execReplayTick s) := by
  unfold execReplayTick
  dsimp only
  split
  · simp
  split
  · simp
  split
  · split
    · simp
    split
    · simp
    split <;> simp
  simp

/-! ### `Machine/HostIf.lean` -/

@[simp] theorem modHost_ident (s : State) (f : HostIf → HostIf) : (s.modHost f).ident = s.ident := by
  simp [State.modHost]
@[simp] theorem modRing_ident (s : State) (r : Fin 4) (f : Ring → Ring) : (s.modRing r f).ident = s.ident := by
  simp [State.modRing]
@[simp] theorem execRingDoorbell_runs (r : Fin 4) (p : Word) (t : DWord) (s : State) :
    Runs s (execRingDoorbell r p t s) := by
  simp [execRingDoorbell]
@[simp] theorem execRingFetch_runs (r : Fin 4) (bytes : List Byte) (t : DWord) (s : State) :
    Runs s (execRingFetch r bytes t s) := by
  simp [execRingFetch]

@[simp] theorem execPlantCommandDatagram_runs (port : Fin 2) (dstPort : Nat) (srcIp : Word) (bytes : List Byte)
    (t : DWord) (s : State) : Runs s (execPlantCommandDatagram port dstPort srcIp bytes t s) := by
  unfold execPlantCommandDatagram
  split <;> simp

@[simp] theorem postCq_ident (s : State) (r : CqRec) : (s.postCq r).ident = s.ident := by simp [State.postCq]

@[simp] theorem cqWrite_ident (n : Nat) (s : State) : (s.cqWrite n).ident = s.ident := by
  induction n generalizing s with
  | zero => rfl
  | succ n ih =>
    unfold State.cqWrite
    split
    · rfl
    · split <;> simp [ih]

@[simp] theorem cqFlush_ident (s : State) : s.cqFlush.ident = s.ident := by simp [State.cqFlush]
@[simp] theorem execCompletionPost_runs (s : State) : Runs s (execCompletionPost s) := by simp [execCompletionPost]

@[simp] theorem streamSkip_ident (s : State) : s.streamSkip.ident = s.ident := by
  unfold State.streamSkip
  split <;> simp

@[simp] theorem execDmaSuspend_runs (e : Fin 12) (err : Nat) (t : DWord) (s : State) :
    Runs s (execDmaSuspend e err t s) := by
  simp [execDmaSuspend]
@[simp] theorem execDmaResume_runs (mask : BitVec 12) (s : State) : Runs s (execDmaResume mask s) := by
  simp [execDmaResume]
@[simp] theorem execHostReset_runs (linkDown : Bool) (t : DWord) (s : State) :
    Runs s (execHostReset linkDown t s) := by
  simp [execHostReset]
@[simp] theorem sqTake_ident (s : State) (q : Fin 4) : (s.sqTake q).ident = s.ident := by simp [State.sqTake]
@[simp] theorem sqReceive_ident (s : State) (q : Fin 4) (port : Nat) (bytes : List Byte) (addr : DWord) :
    (s.sqReceive q port bytes addr).ident = s.ident := by
  simp [State.sqReceive]
@[simp] theorem sqSent_ident (s : State) (q : Fin 4) : (s.sqSent q).ident = s.ident := by simp [State.sqSent]
@[simp] theorem execPlantFrameReceive_runs (port : Fin 2) (bytes : List Byte) (addr : DWord) (s : State) :
    Runs s (execPlantFrameReceive port bytes addr s) := by
  simp [execPlantFrameReceive]
@[simp] theorem execPlantFrameTransmit_runs (port : Fin 2) (bytes : List Byte) (_addr : DWord) (s : State) :
    Runs s (execPlantFrameTransmit port bytes _addr s) := by
  simp [execPlantFrameTransmit]
@[simp] theorem execServiceFrameReceive_runs (ch : Channel) (f : SchedFrame) (addr t : DWord) (s : State) :
    Runs s (execServiceFrameReceive ch f addr t s) := by
  simp [execServiceFrameReceive]

@[simp] theorem execServiceTransmit_runs (ch : Channel) (payload : List Byte) (_addr : DWord) (s : State) :
    Runs s (execServiceTransmit ch payload _addr s) := by
  unfold execServiceTransmit
  dsimp only
  split
  · simp
  split
  · simp
  split
  · simp
  split <;> simp

@[simp] theorem flashGo_ident (s : State) (key : BitVec 16) (op size : Nat) :
    (s.flashGo key op size).ident = s.ident := by
  simp [State.flashGo]
@[simp] theorem execFlashRead_runs (key : BitVec 16) (s : State) : Runs s (execFlashRead key s) := by
  simp [execFlashRead]
@[simp] theorem execFlashProgram_runs (key : BitVec 16) (s : State) : Runs s (execFlashProgram key s) := by
  simp [execFlashProgram]
@[simp] theorem execFlashErase_runs (key : BitVec 16) (s : State) : Runs s (execFlashErase key s) := by
  simp [execFlashErase]

@[simp] theorem execFlashDone_runs (data : List Byte) (s : State) : Runs s (execFlashDone data s) := by
  unfold execFlashDone
  dsimp only
  split <;> simp

@[simp] theorem modDbg_ident (s : State) (f : Dbg → Dbg) : (s.modDbg f).ident = s.ident := by simp [State.modDbg]
@[simp] theorem newChal_ident (s : State) : s.newChal.ident = s.ident := by simp [State.newChal]
@[simp] theorem execDbgUnlockGo_runs (keyOk sigOk : Bool) (t : DWord) (s : State) :
    Runs s (execDbgUnlockGo keyOk sigOk t s) := by
  simp [execDbgUnlockGo]
@[simp] theorem execTapBypass_runs (s : State) : Runs s (execTapBypass s) := by simp [execTapBypass]
@[simp] theorem execTapIdcode_runs (s : State) : Runs s (execTapIdcode s) := by simp [execTapIdcode]
@[simp] theorem execTapDbgchal_runs (k : Fin 8) (s : State) : Runs s (execTapDbgchal k s) := by simp [execTapDbgchal]
@[simp] theorem execTapDbgunlock_runs (k : Fin 33) (v : Word) (s : State) : Runs s (execTapDbgunlock k v s) := by
  simp [execTapDbgunlock]

/-! ### `Machine/Clocks.lean` -/

@[simp] theorem modClk_ident (s : State) (f : Clk → Clk) : (s.modClk f).ident = s.ident := by simp [State.modClk]
@[simp] theorem execClkStop_runs (d : Fin 9) (t : DWord) (s : State) : Runs s (execClkStop d t s) := by
  simp [execClkStop]
@[simp] theorem execClkFreq_runs (d : Fin 9) (t : DWord) (s : State) : Runs s (execClkFreq d t s) := by
  simp [execClkFreq]
@[simp] theorem execVoltMon_runs (t : DWord) (s : State) : Runs s (execVoltMon t s) := by simp [execVoltMon]
@[simp] theorem execTempWarn_runs (t : DWord) (s : State) : Runs s (execTempWarn t s) := by simp [execTempWarn]
@[simp] theorem execTempMon_runs (t : DWord) (s : State) : Runs s (execTempMon t s) := by simp [execTempMon]
@[simp] theorem execClockSourceSwitch_runs (d : Fin 3) (fallback : Bool) (s : State) :
    Runs s (execClockSourceSwitch d fallback s) := by
  simp [execClockSourceSwitch]
@[simp] theorem execCrossingResync_runs (dropped : Nat) (s : State) : Runs s (execCrossingResync dropped s) := by
  simp [execCrossingResync]

/-! ### `Machine/Halo.lean` -/

@[simp] theorem modHalo_ident (s : State) (f : Halo → Halo) : (s.modHalo f).ident = s.ident := by simp [State.modHalo]
@[simp] theorem keepLatches_ident (s : State) : s.keepLatches.ident = s.ident := by simp [State.keepLatches]

@[simp] theorem grantZone_ident (s : State) (z : Nat) : (s.grantZone z).ident = s.ident := by
  unfold State.grantZone
  dsimp only
  split
  · rfl
  split
  · rfl
  split <;> simp

@[simp] theorem execHaloCompute_runs (pairFail : Bool) (t : DWord) (s : State) :
    Runs s (execHaloCompute pairFail t s) := by
  simp [execHaloCompute]

@[simp] theorem plausAxis_ident (s : State) (a : Fin 128) : (s.plausAxis a).ident = s.ident := by
  unfold State.plausAxis
  dsimp only
  split
  · rfl
  split <;> simp

@[simp] theorem execHaloPeriodStart_runs (s : State) : Runs s (execHaloPeriodStart s) := by simp [execHaloPeriodStart]
@[simp] theorem execEncPlaus_runs (a : Fin 128) (t : DWord) (s : State) : Runs s (execEncPlaus a t s) := by
  simp [execEncPlaus]
@[simp] theorem execHaloTickWindow_runs (interval : Nat) (t : DWord) (s : State) :
    Runs s (execHaloTickWindow interval t s) := by
  simp [execHaloTickWindow]
@[simp] theorem acceptPub_ident (s : State) (core kind : Nat) (recs : List (List Byte)) :
    (s.acceptPub core kind recs).ident = s.ident := by
  simp [State.acceptPub]
@[simp] theorem execHpubCheck_runs (c : Fin 9) (t : DWord) (s : State) : Runs s (execHpubCheck c t s) := by
  simp [execHpubCheck]
@[simp] theorem sendHalo_ident (s0 : State) (ch : Channel) (s : State) : (s0.sendHalo ch s).ident = s.ident := by
  simp [State.sendHalo]
@[simp] theorem execHaloFrameSend_runs (t : DWord) (s : State) : Runs s (execHaloFrameSend t s) := by
  simp [execHaloFrameSend]

@[simp] theorem haloCopy_ident (s : State) (ch : Channel) (cell part : Nat) (f : Option SchedFrame) :
    (s.haloCopy ch cell part f).2.ident = s.ident := by
  unfold State.haloCopy
  dsimp only
  split <;> simp

@[simp] theorem modNbr_ident (s : State) (c : Fin 16) (f : NbrRx → NbrRx) : (s.modNbr c f).ident = s.ident := by
  simp [State.modNbr]

@[simp] theorem execHaloFrameReceive_runs (cell part : Fin 16) (copyA copyB : Option SchedFrame) (t : DWord)
    (s : State) : Runs s (execHaloFrameReceive cell part copyA copyB t s) := by
  unfold execHaloFrameReceive
  dsimp only
  split
  · simp
  split <;> simp

@[simp] theorem execHaloPeriodAccept_runs (cell : Fin 16) (t : DWord) (s : State) :
    Runs s (execHaloPeriodAccept cell t s) := by
  unfold execHaloPeriodAccept
  dsimp only
  split <;> simp

@[simp] theorem execHaloCopyMissing_runs (cell : Fin 16) (t : DWord) (s : State) :
    Runs s (execHaloCopyMissing cell t s) := by
  simp [execHaloCopyMissing]

/-! ### `Machine/SafeComm.lean` -/

@[simp] theorem modConn_ident (s : State) (c : Fin 32) (f : Conn → Conn) : (s.modConn c f).ident = s.ident := by
  simp [State.modConn]

@[simp] theorem volRecord_ident (s : State) (c : Fin 32) (b : List Byte) : (s.volRecord c b).ident = s.ident := by
  unfold State.volRecord
  dsimp only
  split <;> simp

@[simp] theorem usePayload_ident (s : State) (c : Fin 32) (pay : List Byte) :
    (s.usePayload c pay).ident = s.ident := by
  simp [State.usePayload]
@[simp] theorem failSafe_ident (s : State) (c : Fin 32) : (s.failSafe c).ident = s.ident := by simp [State.failSafe]
@[simp] theorem failConn_ident (s : State) (c : Fin 32) (cause : Nat) : (s.failConn c cause).ident = s.ident := by
  simp [State.failConn]
@[simp] theorem connError_ident (s : State) (c : Fin 32) (cause : Nat) : (s.connError c cause).ident = s.ident := by
  simp [State.connError]
@[simp] theorem resync_ident (s : State) (c : Fin 32) (seq : BitVec 16) (age : Word) (pay : List Byte) :
    (s.resync c seq age pay).ident = s.ident := by
  simp [State.resync]

@[simp] theorem execTelegramReceive_runs (bytes : List Byte) (srcIp : Word) (srcPort : Nat) (port : Fin 2) (rx : Word)
    (t : DWord) (s : State) : Runs s (execTelegramReceive bytes srcIp srcPort port rx t s) := by
  unfold execTelegramReceive
  dsimp only
  split <;> simp

@[simp] theorem execSafeConnFail_runs (c : Fin 32) (t : DWord) (s : State) : Runs s (execSafeConnFail c t s) := by
  simp [execSafeConnFail]

@[simp] theorem execTelegramSend_runs (k : Fin 8) (ts : Word) (payload : List Byte) (s : State) :
    Runs s (execTelegramSend k ts payload s) := by
  unfold execTelegramSend
  dsimp only
  split <;> simp

@[simp] theorem execSafeTimeInvalid_runs (port : Fin 2) (t : DWord) (s : State) :
    Runs s (execSafeTimeInvalid port t s) := by
  simp [execSafeTimeInvalid]
@[simp] theorem execPlantTimeValid_runs (port : Fin 2) (s : State) : Runs s (execPlantTimeValid port s) := by
  simp [execPlantTimeValid]

/-! ### `Machine/Boot.lean` -/

@[simp] theorem modBoot_ident (s : State) (f : Boot → Boot) : (s.modBoot f).ident = s.ident := by simp [State.modBoot]
@[simp] theorem writeLastFault_ident (s : State) (cause : Nat) : (s.writeLastFault cause).ident = s.ident := by
  simp [State.writeLastFault]
@[simp] theorem afterReset_ident (s : State) (warm : Bool) (causes : Nat) (slot : Fin 4) :
    (s.afterReset warm causes slot).ident = s.ident := by
  simp [State.afterReset]
@[simp] theorem execPowerOnReset_runs (psel : Fin 4) (standby powerLoss aonLost : Bool) (s : State) :
    Runs s (execPowerOnReset psel standby powerLoss aonLost s) := by
  simp [execPowerOnReset]
@[simp] theorem execWarmReset_runs (pin dbg hold : Bool) (s : State) : Runs s (execWarmReset pin dbg hold s) := by
  simp [execWarmReset]
@[simp] theorem execWarmResetRequest_runs (key : BitVec 16) (s : State) : Runs s (execWarmResetRequest key s) := by
  simp [execWarmResetRequest]
@[simp] theorem execScanEntry_runs (s : State) : Runs s (execScanEntry s) := by simp [execScanEntry]
@[simp] theorem postInterrupted_ident (s : State) (l : List (Nat × JEntry)) :
    (s.postInterrupted l).ident = s.ident := by
  simp [State.postInterrupted]
@[simp] theorem journalScan_ident (s : State) (corrupt : List Nat) : (s.journalScan corrupt).ident = s.ident := by
  simp [State.journalScan]

@[simp] theorem loadLane_ident (s : State) (e : Nat × Nat × Nat × Nat) : (s.loadLane e).ident = s.ident := by
  unfold State.loadLane
  split <;> simp

@[simp] theorem loadProfile_ident (s : State) : s.loadProfile.ident = s.ident := by simp [State.loadProfile]
@[simp] theorem startMeridian_ident (s : State) (t : DWord) : (s.startMeridian t).ident = s.ident := by
  simp [State.startMeridian]
@[simp] theorem tellReplay_ident (s : State) (c : Fin 9) (n : Nat) : (s.tellReplay c n).ident = s.ident := by
  simp [State.tellReplay]
@[simp] theorem execTickSequencerStart_runs (t : DWord) (s : State) : Runs s (execTickSequencerStart t s) := by
  simp [execTickSequencerStart]
@[simp] theorem execProfileSwitch_runs (slot : Fin 4) (key : BitVec 16) (s : State) :
    Runs s (execProfileSwitch slot key s) := by
  simp [execProfileSwitch]
@[simp] theorem refusePower_ident (s : State) : s.refusePower.ident = s.ident := by simp [State.refusePower]
@[simp] theorem execQuietRequest_runs (s : State) : Runs s (execQuietRequest s) := by simp [execQuietRequest]
@[simp] theorem execDawnRequest_runs (s : State) : Runs s (execDawnRequest s) := by simp [execDawnRequest]
@[simp] theorem execStandbyRequest_runs (s : State) : Runs s (execStandbyRequest s) := by simp [execStandbyRequest]
@[simp] theorem execWake_runs (s : State) : Runs s (execWake s) := by simp [execWake]
@[simp] theorem execVbatApply_runs (s : State) : Runs s (execVbatApply s) := by simp [execVbatApply]

@[simp] theorem execCoarseSiderealLoad_runs (t : DWord) (s : State) : Runs s (execCoarseSiderealLoad t s) := by
  unfold execCoarseSiderealLoad
  dsimp only
  rw [runs_next, ident_ite, ident_mk, ident_fold, ite_self, crystal_ident]

/-! ### `Machine/Faults.lean` -/

@[simp] theorem reportOne_ident (t : DWord) (s : State) (r : FaultRep) : (s.reportOne t r).ident = s.ident := by
  simp [State.reportOne]
@[simp] theorem pinDrained_ident (old s : State) (t : DWord) : (old.pinDrained s t).ident = s.ident := by
  simp [State.pinDrained]
@[simp] theorem execFaultReport_runs (n : Nat) (t : DWord) (s : State) : Runs s (execFaultReport n t s) := by
  simp [execFaultReport]
@[simp] theorem execFaultDequeue_runs (s : State) : Runs s (execFaultDequeue s) := by simp [execFaultDequeue]
@[simp] theorem execDuskRest_runs (t : DWord) (s : State) : Runs s (execDuskRest t s) := by simp [execDuskRest]

/-! ### `Machine/Boundary.lean` -/

@[simp] theorem safetyEvent_ident (s : State) : s.safetyEvent.ident = s.ident := by simp [State.safetyEvent]
@[simp] theorem applyDusk_ident (s : State) (counts : Bool) : (s.applyDusk counts).ident = s.ident := by
  simp [State.applyDusk]
@[simp] theorem applyHold_ident (s : State) : s.applyHold.ident = s.ident := by simp [State.applyHold]
@[simp] theorem applySto_ident (s : State) : s.applySto.ident = s.ident := by simp [State.applySto]
@[simp] theorem applyRun_ident (s : State) : s.applyRun.ident = s.ident := by simp [State.applyRun]
@[simp] theorem applyLimits_ident (s : State) (limits seps : List Nat) :
    (s.applyLimits limits seps).ident = s.ident := by
  simp [State.applyLimits]

@[simp] theorem stepOne_ident (s : State) (i : GateItem) : (s.stepOne i).ident = s.ident := by
  unfold State.stepOne
  split <;> simp

@[simp] theorem release_shadow_ident (x : Release) (off : Nat) (v : Word) :
    (x.shadow off v).st.ident = x.st.ident := rfl

/-- Shadow copies that take in several values keep the identity. -/
theorem foldl_release_shadow_ident (l : List (Nat × Word)) (x : Release) :
    (l.foldl (fun (y : Release) e => y.shadow e.1 e.2) x).st.ident = x.st.ident := by
  induction l generalizing x with
  | nil => rfl
  | cons e l ih => rw [List.foldl_cons, ih, release_shadow_ident]

@[simp] theorem release_one_ident (x : Release) (g : GateIn) (rest : List GateIn) :
    (x.one g rest).st.ident = x.st.ident := by
  unfold Release.one
  split
  · simp
  · simp
  · extract_lets st more
    split
    · rfl
    · exact deliver_ident _ _ _ _
  · split
    · split <;> rfl
    · rfl
  · extract_lets mine x1 r
    exact (releaseGo_ident _ _ _).trans (foldl_release_shadow_ident _ _)
  · rfl

@[simp] theorem release_all_ident (l : List GateIn) (x : Release) : (Release.all x l).st.ident = x.st.ident := by
  induction l generalizing x with
  | nil => rfl
  | cons g l ih => rw [Release.all, ih, release_one_ident]

@[simp] theorem feedbackChange_ident (old s : State) : (old.feedbackChange s).ident = s.ident := by
  simp [State.feedbackChange]
@[simp] theorem settleAll_ident (s : State) : s.settleAll.ident = s.ident := by simp [State.settleAll]
@[simp] theorem beginTick_ident (s0 : State) : s0.beginTick.ident = s0.ident := by simp [State.beginTick]
@[simp] theorem crossPubs_ident (s : State) : s.crossPubs.ident = s.ident := by simp [State.crossPubs]

@[simp] theorem execTickBoundary_runs (s : State) : Runs s (execTickBoundary s) := by
  unfold execTickBoundary
  rw [runs_next]
  iterate 3 refine iteInduction (motive := fun st : State => st.ident = s.ident) (fun _ => rfl) (fun _ => ?_)
  extract_lets s0 due _ s1 s2 r s3 s4 s5 s6
  have h1 : s1.ident = s.ident := by
    unfold s1
    rw [ident_mk, ident_fold, beginTick_ident]
  have h2 : s2.ident = s1.ident := foldl_ident (fun _ _ => stepOne_ident _ _) s1 due
  have hr : r.st.ident = s2.ident := by unfold r; rw [release_all_ident]
  have h3 : s3.ident = r.st.ident := by
    unfold s3
    split <;> simp
  have h4 : s4.ident = s3.ident := by unfold s4; rw [feedbackChange_ident, step3_ident]
  have h5 : s5.ident = s4.ident := by
    unfold s5
    rw [foldl_ident]
    exact fun _ _ => rfl
  have h6 : s6.ident = s5.ident := by unfold s6; rw [capCommit_ident]
  rw [ident_mk, ident_fold, crossPubs_ident, h6, h5, h4, h3, hr, h2, h1]

@[simp] theorem pushDone_ident (s : State) : s.pushDone.ident = s.ident := by
  unfold State.pushDone
  dsimp only
  split <;> simp

@[simp] theorem execAlmanacPublish_runs (s : State) : Runs s (execAlmanacPublish s) := by simp [execAlmanacPublish]
@[simp] theorem execAlmanacPush_runs (s : State) (err : Ecc) : Runs s (execAlmanacPush s err) := by
  simp [execAlmanacPush]

@[simp] theorem execJournalCommit_runs (s : State) : Runs s (execJournalCommit s) := by
  unfold execJournalCommit
  dsimp only
  rw [runs_next]
  refine (foldl_ident (fun _ _ => ?_) _ _).trans ?_
  · split <;> simp
  · simp

@[simp] theorem execJdoneCommit_runs (s : State) : Runs s (execJdoneCommit s) := by
  unfold execJdoneCommit
  dsimp only
  rw [runs_next]
  refine (foldl_ident (fun _ _ => ?_) _ _).trans ?_
  · split
    · split <;> simp
    rfl
  · simp

/-! ### `Machine/CoreFp.lean` -/

@[simp] theorem fpRR_runs (s : State) (c : Fin 9) (cls : IssClass) (fd fa fb : Fin 32)
    (f : DWord → DWord → DWord × FFlags) : Runs s (s.fpRR c cls fd fa fb f) := by
  simp [State.fpRR]
@[simp] theorem fpCmp_runs (s : State) (c : Fin 9) (rd fa fb : Fin 32) (f : DWord → DWord → Bool × FFlags) :
    Runs s (s.fpCmp c rd fa fb f) := by
  simp [State.fpCmp]
@[simp] theorem fpFma_runs (s : State) (c : Fin 9) (np na : Bool) (fd fa fb fc : Fin 32) :
    Runs s (s.fpFma c np na fd fa fb fc) := by
  simp [State.fpFma]
@[simp] theorem execFadd_runs (c : Fin 9) (fd fa fb : Fin 32) (s : State) : Runs s (execFadd c fd fa fb s) := by
  simp [execFadd]
@[simp] theorem execFsub_runs (c : Fin 9) (fd fa fb : Fin 32) (s : State) : Runs s (execFsub c fd fa fb s) := by
  simp [execFsub]
@[simp] theorem execFmul_runs (c : Fin 9) (fd fa fb : Fin 32) (s : State) : Runs s (execFmul c fd fa fb s) := by
  simp [execFmul]
@[simp] theorem execFdiv_runs (c : Fin 9) (fd fa fb : Fin 32) (s : State) : Runs s (execFdiv c fd fa fb s) := by
  simp [execFdiv]
@[simp] theorem execFmin_runs (c : Fin 9) (fd fa fb : Fin 32) (s : State) : Runs s (execFmin c fd fa fb s) := by
  simp [execFmin]
@[simp] theorem execFmax_runs (c : Fin 9) (fd fa fb : Fin 32) (s : State) : Runs s (execFmax c fd fa fb s) := by
  simp [execFmax]
@[simp] theorem execFsgnj_runs (c : Fin 9) (fd fa fb : Fin 32) (s : State) : Runs s (execFsgnj c fd fa fb s) := by
  simp [execFsgnj]
@[simp] theorem execFsgnjn_runs (c : Fin 9) (fd fa fb : Fin 32) (s : State) : Runs s (execFsgnjn c fd fa fb s) := by
  simp [execFsgnjn]
@[simp] theorem execFsgnjx_runs (c : Fin 9) (fd fa fb : Fin 32) (s : State) : Runs s (execFsgnjx c fd fa fb s) := by
  simp [execFsgnjx]
@[simp] theorem execFsqrt_runs (c : Fin 9) (fd fa : Fin 32) (s : State) : Runs s (execFsqrt c fd fa s) := by
  simp [execFsqrt]
@[simp] theorem execFeq_runs (c : Fin 9) (rd fa fb : Fin 32) (s : State) : Runs s (execFeq c rd fa fb s) := by
  simp [execFeq]
@[simp] theorem execFlt_runs (c : Fin 9) (rd fa fb : Fin 32) (s : State) : Runs s (execFlt c rd fa fb s) := by
  simp [execFlt]
@[simp] theorem execFle_runs (c : Fin 9) (rd fa fb : Fin 32) (s : State) : Runs s (execFle c rd fa fb s) := by
  simp [execFle]
@[simp] theorem execFclass_runs (c : Fin 9) (rd fa : Fin 32) (s : State) : Runs s (execFclass c rd fa s) := by
  simp [execFclass]
@[simp] theorem execFcvtDL_runs (c : Fin 9) (fd ra : Fin 32) (s : State) : Runs s (execFcvtDL c fd ra s) := by
  simp [execFcvtDL]
@[simp] theorem execFcvtLD_runs (c : Fin 9) (rd fa : Fin 32) (s : State) : Runs s (execFcvtLD c rd fa s) := by
  simp [execFcvtLD]
@[simp] theorem execFcvtLDN_runs (c : Fin 9) (rd fa : Fin 32) (s : State) : Runs s (execFcvtLDN c rd fa s) := by
  simp [execFcvtLDN]
@[simp] theorem execFmvGF_runs (c : Fin 9) (rd fa : Fin 32) (s : State) : Runs s (execFmvGF c rd fa s) := by
  simp [execFmvGF]
@[simp] theorem execFmvFG_runs (c : Fin 9) (fd ra : Fin 32) (s : State) : Runs s (execFmvFG c fd ra s) := by
  simp [execFmvFG]
@[simp] theorem execFmadd_runs (c : Fin 9) (fd fa fb fc : Fin 32) (s : State) :
    Runs s (execFmadd c fd fa fb fc s) := by
  simp [execFmadd]
@[simp] theorem execFmsub_runs (c : Fin 9) (fd fa fb fc : Fin 32) (s : State) :
    Runs s (execFmsub c fd fa fb fc s) := by
  simp [execFmsub]
@[simp] theorem execFnmsub_runs (c : Fin 9) (fd fa fb fc : Fin 32) (s : State) :
    Runs s (execFnmsub c fd fa fb fc s) := by
  simp [execFnmsub]
@[simp] theorem execFnmadd_runs (c : Fin 9) (fd fa fb fc : Fin 32) (s : State) :
    Runs s (execFnmadd c fd fa fb fc s) := by
  simp [execFnmadd]

/-! ### `Machine/CoreInt.lean` -/

@[simp] theorem intRR_runs (s : State) (c : Fin 10) (cls : IssClass) (rd ra rb : Fin 32) (f : DWord → DWord → DWord) :
    Runs s (s.intRR c cls rd ra rb f) := by
  simp [State.intRR]
@[simp] theorem intR_runs (s : State) (c : Fin 10) (rd ra : Fin 32) (f : DWord → DWord) :
    Runs s (s.intR c rd ra f) := by
  simp [State.intR]
@[simp] theorem intDiv_runs (s : State) (c : Fin 10) (rd ra rb : Fin 32) (f : DWord → DWord → DWord × BitVec 2) :
    Runs s (s.intDiv c rd ra rb f) := by
  simp [State.intDiv]
@[simp] theorem intShift_runs (s : State) (c : Fin 10) (rd ra : Fin 32) (opx : Nat) (imm : BitVec 12)
    (f : DWord → Nat → DWord) : Runs s (s.intShift c rd ra opx imm f) := by
  simp [State.intShift]
@[simp] theorem execAdd_runs (c : Fin 10) (rd ra rb : Fin 32) (s : State) : Runs s (execAdd c rd ra rb s) := by
  simp [execAdd]
@[simp] theorem execSub_runs (c : Fin 10) (rd ra rb : Fin 32) (s : State) : Runs s (execSub c rd ra rb s) := by
  simp [execSub]
@[simp] theorem execAndR_runs (c : Fin 10) (rd ra rb : Fin 32) (s : State) : Runs s (execAndR c rd ra rb s) := by
  simp [execAndR]
@[simp] theorem execOrR_runs (c : Fin 10) (rd ra rb : Fin 32) (s : State) : Runs s (execOrR c rd ra rb s) := by
  simp [execOrR]
@[simp] theorem execXorR_runs (c : Fin 10) (rd ra rb : Fin 32) (s : State) : Runs s (execXorR c rd ra rb s) := by
  simp [execXorR]
@[simp] theorem execSll_runs (c : Fin 10) (rd ra rb : Fin 32) (s : State) : Runs s (execSll c rd ra rb s) := by
  simp [execSll]
@[simp] theorem execSrl_runs (c : Fin 10) (rd ra rb : Fin 32) (s : State) : Runs s (execSrl c rd ra rb s) := by
  simp [execSrl]
@[simp] theorem execSra_runs (c : Fin 10) (rd ra rb : Fin 32) (s : State) : Runs s (execSra c rd ra rb s) := by
  simp [execSra]
@[simp] theorem execSlt_runs (c : Fin 10) (rd ra rb : Fin 32) (s : State) : Runs s (execSlt c rd ra rb s) := by
  simp [execSlt]
@[simp] theorem execSltu_runs (c : Fin 10) (rd ra rb : Fin 32) (s : State) : Runs s (execSltu c rd ra rb s) := by
  simp [execSltu]
@[simp] theorem execMin_runs (c : Fin 10) (rd ra rb : Fin 32) (s : State) : Runs s (execMin c rd ra rb s) := by
  simp [execMin]
@[simp] theorem execMax_runs (c : Fin 10) (rd ra rb : Fin 32) (s : State) : Runs s (execMax c rd ra rb s) := by
  simp [execMax]
@[simp] theorem execMinu_runs (c : Fin 10) (rd ra rb : Fin 32) (s : State) : Runs s (execMinu c rd ra rb s) := by
  simp [execMinu]
@[simp] theorem execMaxu_runs (c : Fin 10) (rd ra rb : Fin 32) (s : State) : Runs s (execMaxu c rd ra rb s) := by
  simp [execMaxu]
@[simp] theorem execClz_runs (c : Fin 10) (rd ra : Fin 32) (s : State) : Runs s (execClz c rd ra s) := by
  simp [execClz]
@[simp] theorem execPopc_runs (c : Fin 10) (rd ra : Fin 32) (s : State) : Runs s (execPopc c rd ra s) := by
  simp [execPopc]
@[simp] theorem execMul_runs (c : Fin 10) (rd ra rb : Fin 32) (s : State) : Runs s (execMul c rd ra rb s) := by
  simp [execMul]
@[simp] theorem execMulh_runs (c : Fin 10) (rd ra rb : Fin 32) (s : State) : Runs s (execMulh c rd ra rb s) := by
  simp [execMulh]
@[simp] theorem execMulhu_runs (c : Fin 10) (rd ra rb : Fin 32) (s : State) : Runs s (execMulhu c rd ra rb s) := by
  simp [execMulhu]
@[simp] theorem execDiv_runs (c : Fin 10) (rd ra rb : Fin 32) (s : State) : Runs s (execDiv c rd ra rb s) := by
  simp [execDiv]
@[simp] theorem execDivu_runs (c : Fin 10) (rd ra rb : Fin 32) (s : State) : Runs s (execDivu c rd ra rb s) := by
  simp [execDivu]
@[simp] theorem execRem_runs (c : Fin 10) (rd ra rb : Fin 32) (s : State) : Runs s (execRem c rd ra rb s) := by
  simp [execRem]
@[simp] theorem execRemu_runs (c : Fin 10) (rd ra rb : Fin 32) (s : State) : Runs s (execRemu c rd ra rb s) := by
  simp [execRemu]
@[simp] theorem execAddi_runs (c : Fin 10) (rd ra : Fin 32) (imm : BitVec 12) (s : State) :
    Runs s (execAddi c rd ra imm s) := by
  simp [execAddi]
@[simp] theorem execAndi_runs (c : Fin 10) (rd ra : Fin 32) (imm : BitVec 12) (s : State) :
    Runs s (execAndi c rd ra imm s) := by
  simp [execAndi]
@[simp] theorem execOri_runs (c : Fin 10) (rd ra : Fin 32) (imm : BitVec 12) (s : State) :
    Runs s (execOri c rd ra imm s) := by
  simp [execOri]
@[simp] theorem execXori_runs (c : Fin 10) (rd ra : Fin 32) (imm : BitVec 12) (s : State) :
    Runs s (execXori c rd ra imm s) := by
  simp [execXori]
@[simp] theorem execSlti_runs (c : Fin 10) (rd ra : Fin 32) (imm : BitVec 12) (s : State) :
    Runs s (execSlti c rd ra imm s) := by
  simp [execSlti]
@[simp] theorem execSltiu_runs (c : Fin 10) (rd ra : Fin 32) (imm : BitVec 12) (s : State) :
    Runs s (execSltiu c rd ra imm s) := by
  simp [execSltiu]
@[simp] theorem execSlli_runs (c : Fin 10) (rd ra : Fin 32) (imm : BitVec 12) (s : State) :
    Runs s (execSlli c rd ra imm s) := by
  simp [execSlli]
@[simp] theorem execSrli_runs (c : Fin 10) (rd ra : Fin 32) (imm : BitVec 12) (s : State) :
    Runs s (execSrli c rd ra imm s) := by
  simp [execSrli]
@[simp] theorem execSrai_runs (c : Fin 10) (rd ra : Fin 32) (imm : BitVec 12) (s : State) :
    Runs s (execSrai c rd ra imm s) := by
  simp [execSrai]
@[simp] theorem execLiw_runs (c : Fin 10) (rd : Fin 32) (imm : BitVec 22) (s : State) :
    Runs s (execLiw c rd imm s) := by
  simp [execLiw]
@[simp] theorem execLis_runs (c : Fin 10) (rd : Fin 32) (imm : BitVec 22) (s : State) :
    Runs s (execLis c rd imm s) := by
  simp [execLis]

/-! ### `Machine/Solver.lean` -/

@[simp] theorem execJob_runs (c : Fin 9) (rd ra : Fin 32) (err : Ecc) (s : State) :
    Runs s (execJob c rd ra err s) := by
  refine cell_runs (fun s1 _ => ?_) _ _ _ _
  extract_lets a word raw fused
  refine iteInduction (fun _ => trivial) (fun _ => ?_)
  refine withBytes_keeps (fun b => ?_) _ _ _ _
  dsimp only
  split
  · rfl
  · split
    · rfl
    · exact (request_ident _ _ _).trans (modCore_ident _ _ _)

theorem collect_ident {s : State} {c : Fin 9} {h : Word} {r : BitVec 16 × State} (hr : s.collect c h = some r) :
    r.2.ident = s.ident := by
  unfold State.collect at hr
  split at hr
  · simp at hr
  · obtain ⟨e, -, rfl⟩ := Option.map_eq_some_iff.mp hr
    rfl

theorem evalJob_ident {s : State} {c : Fin 9} {h deadline : DWord} {atIssue : Bool} {r : DWord × State}
    (hr : s.evalJob c h deadline atIssue = some r) : r.2.ident = s.ident := by
  unfold State.evalJob at hr
  dsimp only at hr
  split at hr
  · cases hr
    rfl
  split at hr
  case h_1 x hx =>
    cases hr
    exact collect_ident hx
  case h_2 =>
    split at hr
    · cases hr
      rfl
    split at hr
    · cases hr
      rfl
    · cases hr

@[simp] theorem execJwait_runs (c : Fin 9) (rd ra rb : Fin 32) (s : State) : Runs s (execJwait c rd ra rb s) := by
  refine cell_runs (fun s1 _ => ?_) _ _ _ _
  dsimp only
  split
  · next hr => exact evalJob_ident hr
  · simp

@[simp] theorem execJwaitWake_runs (c : Fin 9) (s : State) : Runs s (execJwaitWake c s) := by
  unfold execJwaitWake
  dsimp only
  rw [runs_next]
  split
  · split
    · split
      · next hr => simpa using evalJob_ident hr
      · rfl
    · rfl
  · rfl

@[simp] theorem execJstat_runs (c : Fin 9) (rd ra : Fin 32) (s : State) : Runs s (execJstat c rd ra s) := by
  refine cell_runs (fun s1 _ => ?_) _ _ _ _
  dsimp only
  split
  · next hr => exact collect_ident hr
  · simp

@[simp] theorem execJcancel_runs (c : Fin 9) (rd ra : Fin 32) (s : State) : Runs s (execJcancel c rd ra s) := by
  simp [execJcancel]
@[simp] theorem execJobAdmit_runs (s : State) : Runs s (execJobAdmit s) := by simp [execJobAdmit]
@[simp] theorem execJobStart_runs (s : State) : Runs s (execJobStart s) := by simp [execJobStart]

@[simp] theorem stopJob_ident (s : State) (h : Word) (code : BitVec 16) (tick cyc : Nat) :
    (s.stopJob h code tick cyc).ident = s.ident := by
  unfold State.stopJob
  dsimp only
  split <;> simp

@[simp] theorem execJobEnd_runs (handle : Word) (eccErr : Ecc) (s0 : State) :
    Runs s0 (execJobEnd handle eccErr s0) := by
  unfold execJobEnd
  dsimp only
  split
  · simp
  split
  · simp
  split <;> simp

@[simp] theorem execJobExpire_runs (handle : Word) (s : State) : Runs s (execJobExpire handle s) := by
  simp [execJobExpire]
@[simp] theorem execJobCancelApply_runs (s : State) : Runs s (execJobCancelApply s) := by simp [execJobCancelApply]
@[simp] theorem deliverJob_ident (s : State) (j : Job) : (s.deliverJob j).ident = s.ident := by
  simp [State.deliverJob]
@[simp] theorem execJobDelivery_runs (s : State) : Runs s (execJobDelivery s) := by simp [execJobDelivery]
@[simp] theorem cleanUp_ident (s : State) (c : Fin 9) : (s.cleanUp c).ident = s.ident := by simp [State.cleanUp]
@[simp] theorem dropRun_ident (s : State) (c : Fin 9) : (s.dropRun c).ident = s.ident := by simp [State.dropRun]
@[simp] theorem tellNow_ident (s : State) (c : Fin 9) : (s.tellNow c).ident = s.ident := by simp [State.tellNow]
@[simp] theorem execCoreStart_runs (c : Fin 9) (s : State) : Runs s (execCoreStart c s) := by simp [execCoreStart]
@[simp] theorem execCoreStop_runs (c : Fin 9) (s : State) : Runs s (execCoreStop c s) := by simp [execCoreStop]
@[simp] theorem execHaltCleanup_runs (c : Fin 9) (s : State) : Runs s (execHaltCleanup c s) := by
  simp [execHaltCleanup]

/-! ### `Machine/Regs.lean` -/

@[simp] theorem stoppedError_ident (s : State) (p : Path) (write : Bool) :
    (s.stoppedError p write).ident = s.ident := by
  unfold State.stoppedError
  dsimp only
  split <;> simp

@[simp] theorem windowTrap_ident (s : State) (off : Nat) : (s.windowTrap off).ident = s.ident := by
  simp [State.windowTrap]

@[simp] theorem badAccess_ident (s : State) (p : Path) (off : Nat) (wrongSize write : Bool) :
    (s.badAccess p off wrongSize write).ident = s.ident := by
  unfold State.badAccess
  dsimp only
  split <;> simp

@[simp] theorem drawn_ident (s : State) (id : RegId) : (s.drawn id).ident = s.ident := by simp [State.drawn]

@[simp] theorem read4_ident (s : State) (p : Path) (off : Nat) (r : RegAt) : (s.read4 p off r).2.ident = s.ident := by
  unfold State.read4
  dsimp only
  split <;> simp

@[simp] theorem readBar0_ident (s : State) (p : Path) (off size : Nat) :
    (s.readBar0 p off size).2.ident = s.ident := by
  unfold State.readBar0
  dsimp only
  split
  · rfl
  split
  · simp
  split <;> simp

@[simp] theorem shadowWrite_ident (s : State) (p : Path) (off : Nat) (r : RegAt) (v : Nat) (t : DWord) :
    (s.shadowWrite p off r v t).ident = s.ident := by
  simp [State.shadowWrite]
@[simp] theorem commitWrite_ident (s : State) (p : Path) (b : CBlock) (v : Nat) (t : DWord) :
    (s.commitWrite p b v t).ident = s.ident := by
  simp [State.commitWrite]
@[simp] theorem setPlain_ident (s : State) (base : Nat) (r : RegAt) (v : Nat) :
    (s.setPlain base r v).ident = s.ident := by
  simp [State.setPlain]
@[simp] theorem setQueueCfg_ident (s : State) (base v : Nat) : (s.setQueueCfg base v).ident = s.ident := by
  simp [State.setQueueCfg]
@[simp] theorem writeMsix_ident (s : State) (base i v : Nat) : (s.writeMsix base i v).ident = s.ident := by
  simp [State.writeMsix]

@[simp] theorem writeGlb_ident (s : State) (base : Nat) (r : RegAt) (v : Nat) (t : DWord) :
    (s.writeGlb base r v t).ident = s.ident := by
  unfold State.writeGlb
  dsimp only
  split
  · simp
  · simp
  · simp
  · simp
  · simp
  · split
    · split <;> simp
    rfl
  · simp
  simp

@[simp] theorem writeClk_ident (s : State) (r : RegAt) (v : Nat) : (s.writeClk r v).ident = s.ident := by
  unfold State.writeClk
  dsimp only
  split
  · simp
  · simp
  · simp
  · simp
  · split <;> simp
  rfl

@[simp] theorem writeStatus_ident (s : State) (r : RegAt) (v : Nat) : (s.writeStatus r v).ident = s.ident := by
  unfold State.writeStatus
  dsimp only
  split <;> simp

@[simp] theorem writeMer_ident (s : State) (base : Nat) (r : RegAt) (v : Nat) (t : DWord) :
    (s.writeMer base r v t).ident = s.ident := by
  unfold State.writeMer
  dsimp only
  split <;> simp

@[simp] theorem writeEph_ident (s : State) (base : Nat) (r : RegAt) (v : Nat) :
    (s.writeEph base r v).ident = s.ident := by
  unfold State.writeEph
  dsimp only
  split <;> simp

@[simp] theorem resetPort_ident (s : State) (p v : Nat) (t : DWord) : (s.resetPort p v t).ident = s.ident := by
  simp [State.resetPort]

@[simp] theorem writeSaf_ident (s : State) (base : Nat) (r : RegAt) (v : Nat) :
    (s.writeSaf base r v).ident = s.ident := by
  unfold State.writeSaf
  dsimp only
  split <;> simp

@[simp] theorem writeDbg_ident (s : State) (r : RegAt) (v : Nat) (t : DWord) :
    (s.writeDbg r v t).ident = s.ident := by
  unfold State.writeDbg
  dsimp only
  split <;> simp

@[simp] theorem writeFull_ident (s : State) (p : Path) (base : Nat) (r : RegAt) (v : Nat) (t : DWord) :
    (s.writeFull p base r v t).ident = s.ident := by
  simp [State.writeFull]
@[simp] theorem write4_ident (s : State) (p : Path) (off : Nat) (r : RegAt) (v : Word) (t : DWord) :
    (s.write4 p off r v t).ident = s.ident := by
  simp [State.write4]

@[simp] theorem writeBar0_ident (s : State) (p : Path) (off size : Nat) (v : DWord) (t : DWord) :
    (s.writeBar0 p off size v t).ident = s.ident := by
  unfold State.writeBar0
  dsimp only
  split
  · rfl
  split
  · simp
  split <;> simp

@[simp] theorem guarded_ident {f : State → State} (hf : ∀ s, (f s).ident = s.ident) (s : State) (p : Path)
    (write : Bool) (off size : Nat) : (s.guarded p write off size f).ident = s.ident :=
  guarded_induction (fun t => t.ident = s.ident) rfl (hf s) (fun _ => badAccess_ident _ _ _ _ _) (windowTrap_ident _ _)
    (stoppedError_ident _ _ _)

@[simp] theorem execRegisterWrite_runs (path : Path) (off : BitVec 25) (v : Word) (t : DWord) (s : State) :
    Runs s (execRegisterWrite path off v t s) := by
  simp [execRegisterWrite]

@[simp] theorem execShadowWrite_runs (path : Path) (off : BitVec 25) (v : Word) (t : DWord) (s : State) :
    Runs s (execShadowWrite path off v t s) := by
  unfold execShadowWrite
  split <;> simp

@[simp] theorem execCommitGo_runs (b : CBlock) (v : Word) (t : DWord) (s : State) :
    Runs s (execCommitGo b v t s) := by
  simp [execCommitGo]

@[simp] theorem execLowWordRead_runs (path : Path) (off : BitVec 25) (s : State) :
    Runs s (execLowWordRead path off s) := by
  simp [execLowWordRead]

@[simp] theorem execLowWordWrite_runs (path : Path) (off : BitVec 25) (v : Word) (s : State) :
    Runs s (execLowWordWrite path off v s) := by
  unfold execLowWordWrite
  split <;> simp

@[simp] theorem execHighWordWrite_runs (path : Path) (off : BitVec 25) (v : Word) (t : DWord) (s : State) :
    Runs s (execHighWordWrite path off v t s) := by
  unfold execHighWordWrite
  split <;> simp

@[simp] theorem execQwordAccess_runs (path : Path) (off : BitVec 25) (w : Option DWord) (t : DWord) (s : State) :
    Runs s (execQwordAccess path off w t s) := by
  unfold execQwordAccess
  cases w <;> simp

@[simp] theorem execUnmappedAccess_runs (path : Path) (off : BitVec 25) (size : Nat) (isWrite : Bool) (s : State) :
    Runs s (execUnmappedAccess path off size isWrite s) := by
  simp [execUnmappedAccess]
@[simp] theorem execBar2Write_runs (off : BitVec 28) (bytes : List Byte) (s : State) :
    Runs s (execBar2Write off bytes s) := by
  simp [execBar2Write]

/-! ### `Machine/CoreMem.lean` -/

@[simp] theorem startShared_ident (s : State) (c : Fin 10) (cyc : Nat) (op : SharedOp) (addr : DWord) (off : Nat) :
    (s.startShared c cyc op addr off).ident = s.ident := by
  simp [State.startShared]

@[simp] theorem access_ident (s : State) (c : Fin 10) (cyc : Nat) (a : DWord) (size : Nat) (op : SharedOp) (err : Ecc)
    : (s.access c cyc a size op err).ident = s.ident := by
  unfold State.access
  dsimp only
  split
  · simp
  split
  · simp
  · simp
  · simp
  · split <;> simp
  · simp
  · split <;> simp
  · split
    · simp
    split
    · simp
    split <;> simp
  simp

@[simp] theorem loadG_runs (s : State) (c : Fin 10) (rd ra : Fin 32) (imm : BitVec 12) (size : Nat) (signed : Bool)
    (err : Ecc) : Runs s (s.loadG c rd ra imm size signed err) := by
  simp [State.loadG]
@[simp] theorem storeG_runs (s : State) (c : Fin 10) (rs ra : Fin 32) (imm : BitVec 12) (size : Nat) (err : Ecc) :
    Runs s (s.storeG c rs ra imm size err) := by
  simp [State.storeG]
@[simp] theorem amo_runs (s : State) (c : Fin 9) (rd ra rb : Fin 32) (func : Nat) (err : Ecc) :
    Runs s (s.amo c rd ra rb func err) := by
  simp [State.amo]
@[simp] theorem branch_runs (s : State) (c : Fin 10) (ra rb : Fin 32) (imm : BitVec 12) (f : DWord → DWord → Bool) :
    Runs s (s.branch c ra rb imm f) := by
  simp [State.branch]
@[simp] theorem execLb_runs (c : Fin 10) (rd ra : Fin 32) (imm : BitVec 12) (err : Ecc) (s : State) :
    Runs s (execLb c rd ra imm err s) := by
  simp [execLb]
@[simp] theorem execLbu_runs (c : Fin 10) (rd ra : Fin 32) (imm : BitVec 12) (err : Ecc) (s : State) :
    Runs s (execLbu c rd ra imm err s) := by
  simp [execLbu]
@[simp] theorem execLh_runs (c : Fin 10) (rd ra : Fin 32) (imm : BitVec 12) (err : Ecc) (s : State) :
    Runs s (execLh c rd ra imm err s) := by
  simp [execLh]
@[simp] theorem execLhu_runs (c : Fin 10) (rd ra : Fin 32) (imm : BitVec 12) (err : Ecc) (s : State) :
    Runs s (execLhu c rd ra imm err s) := by
  simp [execLhu]
@[simp] theorem execLw_runs (c : Fin 10) (rd ra : Fin 32) (imm : BitVec 12) (err : Ecc) (s : State) :
    Runs s (execLw c rd ra imm err s) := by
  simp [execLw]
@[simp] theorem execLwu_runs (c : Fin 10) (rd ra : Fin 32) (imm : BitVec 12) (err : Ecc) (s : State) :
    Runs s (execLwu c rd ra imm err s) := by
  simp [execLwu]
@[simp] theorem execLd_runs (c : Fin 10) (rd ra : Fin 32) (imm : BitVec 12) (err : Ecc) (s : State) :
    Runs s (execLd c rd ra imm err s) := by
  simp [execLd]
@[simp] theorem execFld_runs (c : Fin 9) (fd ra : Fin 32) (imm : BitVec 12) (err : Ecc) (s : State) :
    Runs s (execFld c fd ra imm err s) := by
  simp [execFld]
@[simp] theorem execSb_runs (c : Fin 10) (rs ra : Fin 32) (imm : BitVec 12) (err : Ecc) (s : State) :
    Runs s (execSb c rs ra imm err s) := by
  simp [execSb]
@[simp] theorem execSh_runs (c : Fin 10) (rs ra : Fin 32) (imm : BitVec 12) (err : Ecc) (s : State) :
    Runs s (execSh c rs ra imm err s) := by
  simp [execSh]
@[simp] theorem execSw_runs (c : Fin 10) (rs ra : Fin 32) (imm : BitVec 12) (err : Ecc) (s : State) :
    Runs s (execSw c rs ra imm err s) := by
  simp [execSw]
@[simp] theorem execSd_runs (c : Fin 10) (rs ra : Fin 32) (imm : BitVec 12) (s : State) :
    Runs s (execSd c rs ra imm s) := by
  simp [execSd]
@[simp] theorem execFsd_runs (c : Fin 9) (fs ra : Fin 32) (imm : BitVec 12) (s : State) :
    Runs s (execFsd c fs ra imm s) := by
  simp [execFsd]
@[simp] theorem execAmoswap_runs (c : Fin 9) (rd ra rb : Fin 32) (err : Ecc) (s : State) :
    Runs s (execAmoswap c rd ra rb err s) := by
  simp [execAmoswap]
@[simp] theorem execAmoadd_runs (c : Fin 9) (rd ra rb : Fin 32) (err : Ecc) (s : State) :
    Runs s (execAmoadd c rd ra rb err s) := by
  simp [execAmoadd]
@[simp] theorem execAmoand_runs (c : Fin 9) (rd ra rb : Fin 32) (err : Ecc) (s : State) :
    Runs s (execAmoand c rd ra rb err s) := by
  simp [execAmoand]
@[simp] theorem execAmoor_runs (c : Fin 9) (rd ra rb : Fin 32) (err : Ecc) (s : State) :
    Runs s (execAmoor c rd ra rb err s) := by
  simp [execAmoor]
@[simp] theorem execAmomax_runs (c : Fin 9) (rd ra rb : Fin 32) (err : Ecc) (s : State) :
    Runs s (execAmomax c rd ra rb err s) := by
  simp [execAmomax]
@[simp] theorem execAmomin_runs (c : Fin 9) (rd ra rb : Fin 32) (err : Ecc) (s : State) :
    Runs s (execAmomin c rd ra rb err s) := by
  simp [execAmomin]
@[simp] theorem execAmocas_runs (c : Fin 9) (rd ra rb : Fin 32) (err : Ecc) (s : State) :
    Runs s (execAmocas c rd ra rb err s) := by
  simp [execAmocas]
@[simp] theorem execBeq_runs (c : Fin 10) (ra rb : Fin 32) (imm : BitVec 12) (s : State) :
    Runs s (execBeq c ra rb imm s) := by
  simp [execBeq]
@[simp] theorem execBne_runs (c : Fin 10) (ra rb : Fin 32) (imm : BitVec 12) (s : State) :
    Runs s (execBne c ra rb imm s) := by
  simp [execBne]
@[simp] theorem execBlt_runs (c : Fin 10) (ra rb : Fin 32) (imm : BitVec 12) (s : State) :
    Runs s (execBlt c ra rb imm s) := by
  simp [execBlt]
@[simp] theorem execBge_runs (c : Fin 10) (ra rb : Fin 32) (imm : BitVec 12) (s : State) :
    Runs s (execBge c ra rb imm s) := by
  simp [execBge]
@[simp] theorem execBltu_runs (c : Fin 10) (ra rb : Fin 32) (imm : BitVec 12) (s : State) :
    Runs s (execBltu c ra rb imm s) := by
  simp [execBltu]
@[simp] theorem execBgeu_runs (c : Fin 10) (ra rb : Fin 32) (imm : BitVec 12) (s : State) :
    Runs s (execBgeu c ra rb imm s) := by
  simp [execBgeu]
@[simp] theorem execJal_runs (c : Fin 10) (rd : Fin 32) (imm : BitVec 22) (s : State) :
    Runs s (execJal c rd imm s) := by
  simp [execJal]
@[simp] theorem execJalr_runs (c : Fin 10) (rd ra : Fin 32) (imm : BitVec 12) (s : State) :
    Runs s (execJalr c rd ra imm s) := by
  simp [execJalr]

@[simp] theorem execSharedSlotAccess_runs (c : Fin 9) (s : State) : Runs s (execSharedSlotAccess c s) := by
  unfold execSharedSlotAccess
  split <;> simp

/-! ### `Machine/ProfileCheck.lean` -/

@[simp] theorem execBootStageComplete_runs (cause : Nat) (det : Word) (corrupt : List Nat) (lockH : Bool) (t : DWord)
    (s : State) : Runs s (execBootStageComplete cause det corrupt lockH t s) := by
  simp [execBootStageComplete]

/-! ### Every command -/

/-- Each command is the call of its meaning, and that meaning answers a next state with the same identity. -/
theorem exec_runs (c : Instr) (s : State) : Runs s (exec c s) := by
  cases c <;> simp [exec]

theorem exec_next_ident {c : Instr} {s t : State} (h : exec c s = .next t) : t.ident = s.ident := by
  have hruns := exec_runs c s
  rwa [h, runs_next] at hruns

end Sys2Proof.Machine
end

open Sys2Proof Sys2Proof.Machine

/-- Settles O24: every command keeps the identity of the state, which is the waiting commands and the fused fields. -/
theorem everyCommandRunsAndKeepsTheFuses : Obligations.EveryCommandRunsAndKeepsTheFuses := by
  refine ⟨fun c s => ?_, fun c s t h => ?_⟩
  · obtain ⟨t, ht, hid⟩ := exec_runs c s
    exact ⟨t, ht, congrArg Prod.fst hid⟩
  · have hfused := congrArg Prod.snd (exec_next_ident h)
    exact ⟨congrArg Prod.fst hfused, congrArg Prod.snd hfused⟩

section
/-! The stamp of a gate input, and the commits that the boundary makes (R22, R36, R37, R38). -/

namespace Sys2Proof.Machine

/-! ### Stamps -/

theorem stampAt_early {s : State} {t : DWord} (h : t.toNat + 1000 < (s.epoch + 1) * s.tTick) : s.stampAt t = s.epoch + 1 :=
  if_pos h

theorem stampAt_late {s : State} {t : DWord} (h : (s.epoch + 1) * s.tTick ≤ t.toNat + 1000) : s.stampAt t = s.epoch + 2 :=
  if_neg (Nat.not_lt.mpr h)

/-- In a replay, or from a stopped domain, nothing enters the gate (R470, R491). -/
theorem gatePush_of_closed {s : State} {stamp src : Nat} {i : GateItem}
    (h : s.eph.replay = true ∨ s.stopped (gateDomain src) = true) : s.gatePush stamp src i = s := by
  rw [State.gatePush, if_pos (by simpa using h)]

/-! ### COMMIT_GO -/

theorem modCommit_id (s : State) (b : CBlock) : s.modCommit b (fun c => c) = s := by
  simp [State.modCommit, vmod]

/-- A commit register written with GO alone leaves the status of its block as it is. -/
theorem commitWrite_go {s : State} {b : CBlock} {t : DWord} (hrep : s.eph.replay = false) (hrun : s.stopped 7 = false) :
    s.commitWrite .pcie b 1 t = s.gated t 6 [.commit b] := by
  have hgate := gateIn_of_running (s := s.atTime t) (t := t) (src := 6) (i := .commit b) hrep hrun
  have hstat : (s.atTime t).modCommit b (fun c => { c with
      reject := c.reject && !bitOf 1 3
      reason := if bitOf 1 3 then 0 else c.reason
      merged := c.merged && !bitOf 1 2 }) = s.atTime t := by
    simpa [bitOf] using modCommit_id (s.atTime t) b
  rw [State.commitWrite, hstat, if_pos (by decide)]
  exact hgate

theorem commitGo_of_reaches {s : State} {b : CBlock} {t : DWord} (h : s.Reaches .pcie true (cbBase b + 0xFFC) 4)
    (hrep : s.eph.replay = false) (hrun : s.stopped 7 = false) (hup : s.blockUp (cbBase b) = true) :
    exec (.commitGo b 1 t) s = .next (s.gated t 6 [.commit b]) := by
  show execCommitGo b 1 t s = _
  rw [execCommitGo, guarded_of_reaches h, hrep, hup]
  exact congrArg _ (commitWrite_go hrep hrun)

/-! ### What the entries of a commit leave -/

/-- One entry of a commit put in force. -/
def State.applyReg (s : State) (e : Nat × Word) : State :=
  match regAt e.1 with
  | none => s
  | some r =>
    let v := e.2.toNat
    let s1 := s.setReg e.1 (BitVec.ofNat 32 (Nat.land v (heldMask r)))
    let act := Nat.land v (woMask r.id)
    if r.id == .plnCtrl then { s1 with due := assocSet s1.due e.1 (BitVec.ofNat 32 (v % 2)) }
    else if r.id == .capSet then { s1 with due := assocSet s1.due e.1 (BitVec.ofNat 32 (act + 1)) }
    else if r.id == .flnPatch then { s1 with due := assocSet s1.due e.1 e.2 }
    else if act != 0 then { s1 with due := assocSet s1.due e.1 (BitVec.ofNat 32 act) }
    else s1

theorem applyRegs_cons (s : State) (e : Nat × Word) (snap : Bank) :
    s.applyRegs (e :: snap) = (s.applyReg e).applyRegs snap := rfl

/-- An entry of a commit changes the registers in force and the actions that fall due, and nothing else. -/
theorem applyReg_eq (s : State) (e : Nat × Word) : ∃ due, s.applyReg e = { s with regs := (s.applyReg e).regs, due := due } := by
  unfold State.applyReg
  split
  · exact ⟨s.due, rfl⟩
  · dsimp only
    split_ifs <;> exact ⟨_, rfl⟩

/-- A commit changes the registers in force and the actions that fall due, and nothing else. -/
theorem applyRegs_eq (s : State) (snap : Bank) :
    ∃ due, s.applyRegs snap = { s with regs := (s.applyRegs snap).regs, due := due } := by
  induction snap generalizing s with
  | nil => exact ⟨s.due, rfl⟩
  | cons e snap ih =>
    obtain ⟨d1, h1⟩ := applyReg_eq s e
    obtain ⟨d2, h2⟩ := ih (s.applyReg e)
    exact ⟨d2, by rw [applyRegs_cons]; exact h2.trans (by rw [h1])⟩

theorem reg_setReg (s : State) (off x : Nat) (v : Word) : (s.setReg off v).reg x = if x = off then v else s.reg x := by
  rw [State.reg, setReg_regs, assoc_assocSet]
  rfl

theorem reg_congr {s t : State} (h : t.regs = s.regs) (off : Nat) : t.reg off = s.reg off := by
  rw [State.reg, h]
  rfl

theorem applyReg_regs {s : State} {e : Nat × Word} {r : RegAt} (hr : regAt e.1 = some r) :
    (s.applyReg e).regs = (s.setReg e.1 (BitVec.ofNat 32 (Nat.land e.2.toNat (heldMask r)))).regs := by
  simp only [State.applyReg, hr]
  split_ifs <;> rfl

theorem applyReg_reg {s : State} {e : Nat × Word} {r : RegAt} (hr : regAt e.1 = some r) :
    (s.applyReg e).reg e.1 = BitVec.ofNat 32 (Nat.land e.2.toNat (heldMask r)) := by
  rw [reg_congr (applyReg_regs hr), reg_setReg, if_pos rfl]

theorem applyReg_reg_of_ne {s : State} {e : Nat × Word} {off : Nat} (h : off ≠ e.1) : (s.applyReg e).reg off = s.reg off := by
  cases hr : regAt e.1 with
  | none => simp [State.applyReg, hr]
  | some r => rw [reg_congr (applyReg_regs hr), reg_setReg, if_neg h]

/-- A word that the commit does not carry stays in force. -/
theorem applyRegs_reg_of_notMem {s : State} {snap : Bank} {off : Nat} (h : off ∉ snap.map Prod.fst) :
    (s.applyRegs snap).reg off = s.reg off := by
  induction snap generalizing s with
  | nil => rfl
  | cons e snap ih =>
    rw [List.map_cons, List.mem_cons, not_or] at h
    rw [applyRegs_cons, ih h.2, applyReg_reg_of_ne h.1]

/-- A word that the commit carries holds the written bits of its fields. -/
theorem applyRegs_reg_of_mem {s : State} {snap : Bank} {e : Nat × Word} {r : RegAt} (hnd : (snap.map Prod.fst).Nodup)
    (he : e ∈ snap) (hr : regAt e.1 = some r) :
    (s.applyRegs snap).reg e.1 = BitVec.ofNat 32 (Nat.land e.2.toNat (heldMask r)) := by
  induction snap generalizing s with
  | nil => cases he
  | cons f snap ih =>
    rw [List.map_cons, List.nodup_cons] at hnd
    rw [applyRegs_cons]
    rcases List.mem_cons.mp he with rfl | hmem
    · rw [applyRegs_reg_of_notMem hnd.1, applyReg_reg hr]
    · exact ih hnd.2 hmem

/-! ### The commit of a block -/

theorem commitBlock_rejected {s : State} {b : CBlock} {snap : Bank} {reason : Nat} (h : s.validate snap = some reason) :
    s.commitBlock b snap = s.modCommit b fun c => { c with reason := BitVec.ofNat 8 reason, reject := true } := by
  rw [State.commitBlock, h]

/-- A commit that applies: the registers are those of its entries; beside them the shadow entries that it took in, the
cascades, the push and the actions that fall due change. -/
theorem commitBlock_applied {s : State} {b : CBlock} {snap : Bank} (h : s.validate snap = none) :
    ∃ due cascs host, s.commitBlock b snap = { s with
      regs := (s.applyRegs snap).regs, due := due, cascs := cascs, host := host, comApplied := true
      shadow := s.shadow.filter fun e => !(snap.contains e) } := by
  obtain ⟨due, hs⟩ := applyRegs_eq s snap
  rw [State.commitBlock, h]
  dsimp only
  rw [hs]
  cases b == CBlock.ctl <;> exact ⟨_, _, _, rfl⟩

end Sys2Proof.Machine

open Sys2Proof Sys2Proof.Machine

/-- Settles O29: the stamp by the cut before the next boundary, and the gate closed to a replay and to a stopped domain. -/
theorem stampsNameTheNextBoundary : Obligations.StampsNameTheNextBoundary := by
  unfold Obligations.StampsNameTheNextBoundary
  intro s t src i
  refine ⟨fun hrep hrun ht => ?_, fun hrep hrun ht => ?_, fun h => gatePush_of_closed h⟩
  · rw [gateIn_of_running hrep hrun, stampAt_early ht]
  · rw [gateIn_of_running hrep hrun, stampAt_late ht]

/-- Settles O33: COMMIT_GO by the gate alone, and the commit of a block by the result of its validation. -/
theorem commitsApplyWholeOrNotAtAll : Obligations.CommitsApplyWholeOrNotAtAll := by
  unfold Obligations.CommitsApplyWholeOrNotAtAll
  refine ⟨?go, fun s b snap => ⟨?rejected, ?applied⟩⟩
  case go => exact fun s b t h hrep hrun hup => commitGo_of_reaches h hrep hrun hup
  case rejected => exact fun reason h => commitBlock_rejected h
  case applied =>
    intro h
    obtain ⟨due, cascs, host, hc⟩ := commitBlock_applied (b := b) h
    rw [hc]
    exact ⟨fun hnd e he r hr => applyRegs_reg_of_mem hnd he hr, fun off hoff => applyRegs_reg_of_notMem hoff,
      rfl, rfl, rfl, rfl, rfl, rfl⟩

end

section
/-! What the steps of a tick boundary leave as the beginning of the tick set it (R26): one lemma per operation. -/

namespace Sys2Proof.Machine

/-! ### Vectors mapped with their positions -/

theorem mapFrom_getElem {α β : Type} (f : Nat → α → β) (i : Nat) (l : List α) (j : Nat) (h : j < (mapFrom f i l).length) :
    (mapFrom f i l)[j] = f (i + j) (l[j]'(by rwa [mapFrom_length] at h)) := by
  induction l generalizing i j with
  | nil => exact absurd h (Nat.not_lt_zero j)
  | cons x xs ih =>
    cases j with
    | zero => rfl
    | succ j =>
      simp only [mapFrom, List.getElem_cons_succ, ih]
      congr 1
      omega

@[simp] theorem vmap_getElem {α β : Type} {n : Nat} (f : Nat → α → β) (v : Vector α n) (i : Nat) (h : i < n) :
    (vmap f v)[i] = f i v[i] := by
  have := mapFrom_getElem f 0 v.toList i (by simpa [mapFrom_length] using h)
  simpa [vmap] using this

/-- A fold keeps what each of its steps keeps. -/
theorem foldl_keeps {σ α β : Type} {π : σ → β} {f : σ → α → σ} (h : ∀ s x, π (f s x) = π s) (s : σ) (l : List α) :
    π (l.foldl f s) = π s := by
  induction l generalizing s with
  | nil => rfl
  | cons x l ih => rw [List.foldl_cons, ih, h]

/-! ### The tick in progress -/

/-- What the beginning of a tick sets and the steps of its boundary leave: the epoch, the time, the Almanac published, the
sequencer, the inputs waiting in the gate, and the cycle of each core. -/
def State.tick (s : State) : Nat × DWord × Option Almanac × Bool × List GateIn × Vector Nat 10 :=
  (s.epoch, s.now, s.published, s.running, s.gate, s.cores.map Core.cyc)

@[simp] theorem tick_fold (s : State) :
    (s.epoch, s.now, s.published, s.running, s.gate, s.cores.map Core.cyc) = s.tick := rfl

/-- A state written out field by field, as an update of some of its fields is. -/
@[simp] theorem tick_mk
    (pending outbox free variant prof now paths regs shadow due commits gate reqs cellEvs reports epoch running
    published view push staleTicks pushLate cutFail cutApplied comApplied planGen coreSafety stopAtStep1 haloLimits
    minsep cores data code scode sdata codeLocked hashOk arms aux chans solver cascs mans dyns lanes lanesEccUn
    lanesEccC fbk ssi uid mer mers aonSid outImage host saf halo scomm dbg jrn lines clk boot aon slots cap eph) :
    State.tick ⟨pending, outbox, free, variant, prof, now, paths, regs, shadow, due, commits, gate, reqs, cellEvs,
    reports, epoch, running, published, view, push, staleTicks, pushLate, cutFail, cutApplied, comApplied, planGen,
    coreSafety, stopAtStep1, haloLimits, minsep, cores, data, code, scode, sdata, codeLocked, hashOk, arms, aux,
    chans, solver, cascs, mans, dyns, lanes, lanesEccUn, lanesEccC, fbk, ssi, uid, mer, mers, aonSid, outImage, host,
    saf, halo, scomm, dbg, jrn, lines, clk, boot, aon, slots, cap, eph⟩ =
      (epoch, now, published, running, gate, cores.map Core.cyc) := rfl

@[simp] theorem tick_ite (c : Prop) [Decidable c] (a b : State) :
    (if c then a else b).tick = if c then a.tick else b.tick := apply_ite _ _ _ _

theorem foldl_tick {α : Type} {f : State → α → State} (h : ∀ s x, (f s x).tick = s.tick) (s : State) (l : List α) :
    (l.foldl f s).tick = s.tick := foldl_keeps (π := State.tick) h s l

/-- The update of a core that leaves its cycle leaves the tick. -/
theorem tick_setCore (s : State) (c : Fin 10) {k : Core} (h : k.cyc = (s.core c).cyc) : (s.setCore c k).tick = s.tick := by
  have hcyc : (s.cores.set c k).map Core.cyc = s.cores.map Core.cyc := by
    rw [Vector.map_set, h, State.core]
    exact Vector.ext fun i hi => by
      rw [Vector.getElem_set]
      split_ifs with hc
      · subst hc; simp
      · rfl
  rw [State.setCore, tick_mk, hcyc, tick_fold]

theorem tick_modCore (s : State) (c : Fin 10) {f : Core → Core} (h : ∀ k, (f k).cyc = k.cyc) : (s.modCore c f).tick = s.tick :=
  tick_setCore s c (h _)

/-! ### Events and faults -/

theorem enqueue_cyc (k : Core) (e : EvRec) : (k.enqueue e).1.cyc = k.cyc := by
  unfold Core.enqueue
  extract_lets c merged five ordinary
  clear_value merged five ordinary
  cases merged with
  | some q => rfl
  | none =>
    dsimp only
    split_ifs
    · rfl
    · split <;> rfl
    · rfl
    · rfl

@[simp] theorem raiseAt_tick (s : State) (t : DWord) (code cls : Nat) (hold : Bool) (d : Option Word) :
    (s.raiseAt t code cls hold d).tick = s.tick := by
  cases d <;> rfl

@[simp] theorem raise_tick (s : State) (code cls : Nat) (hold : Bool) (d : Option Word) :
    (s.raise code cls hold d).tick = s.tick := raiseAt_tick _ _ _ _ _ _

@[simp] theorem deliver_tick (s : State) (c : Fin 9) (e : EvRec) (rank : Nat) : (s.deliver c e rank).tick = s.tick := by
  unfold State.deliver
  extract_lets c10 r s1
  have h1 : s1.tick = s.tick := tick_setCore s c10 (enqueue_cyc _ _)
  split_ifs <;> simp [h1]

@[simp] theorem deliverCell_tick (s : State) : s.deliverCell.tick = s.tick := by
  unfold State.deliverCell
  extract_lets now
  rw [foldl_tick fun st (e : Nat × Fin 9 × EvRec) => deliver_tick st e.2.1 e.2.2 2]
  rfl

@[simp] theorem safetyEvent_tick (s : State) : s.safetyEvent.tick = s.tick := by
  refine foldl_tick (fun st c => ?_) _ _
  split_ifs
  · refine (tick_modCore _ _ ?_).trans (deliver_tick _ _ _ _)
    exact fun _ => rfl
  · rfl

/-! ### Step 1 -/

@[simp] theorem modSaf_tick (s : State) (f : Saf → Saf) : (s.modSaf f).tick = s.tick := rfl
@[simp] theorem modArm_tick (s : State) (k : Fin 8) (f : Arm → Arm) : (s.modArm k f).tick = s.tick := rfl
@[simp] theorem modAux_tick (s : State) (a : Fin 128) (f : AuxGen → AuxGen) : (s.modAux a f).tick = s.tick := rfl
@[simp] theorem out_tick (s : State) (o : Out) : (s.out o).tick = s.tick := rfl

@[simp] theorem withholdAll_tick (s : State) (k : Fin 8) : (s.withholdAll k).tick = s.tick := by
  unfold State.withholdAll
  extract_lets a n s1
  rw [modArm_tick]
  exact foldl_tick (fun _ _ => raise_tick _ _ _ _ _) _ _

@[simp] theorem applyDusk_tick (s : State) (counts : Bool) : (s.applyDusk counts).tick = s.tick := by
  unfold State.applyDusk
  extract_lets s1 s2 s3
  have h1 : s1.tick = s.tick := foldl_tick (fun st k => by rw [modArm_tick, withholdAll_tick]) _ _
  have h2 : s2.tick = s.tick := by unfold s2; rw [tick_mk, tick_fold, h1]
  have h3 : s3.tick = s.tick := by unfold s3; split_ifs <;> simp [h2]
  split_ifs <;> simp [h3]

@[simp] theorem applyHold_tick (s : State) : s.applyHold.tick = s.tick := by
  unfold State.applyHold
  extract_lets bad
  split_ifs
  · rfl
  · rw [safetyEvent_tick]; rfl

@[simp] theorem cutBatch_tick (s : State) (c : Fin 16) : (s.cutBatch c).tick = s.tick := by
  unfold State.cutBatch
  split
  · rfl
  · extract_lets n cfg win ns k
    split_ifs <;> rfl

@[simp] theorem cutBatches_tick (s : State) : s.cutBatches.tick = s.tick := foldl_tick cutBatch_tick _ _

@[simp] theorem stoCore_tick (s : State) : s.stoCore.tick = s.tick := by
  unfold State.stoCore
  extract_lets s1
  rw [tick_mk, tick_fold]
  exact foldl_tick (fun st k => by rw [modArm_tick, withholdAll_tick]) _ _

@[simp] theorem applySto_tick (s : State) : s.applySto.tick = s.tick := by
  unfold State.applySto
  extract_lets s1
  have h1 : s1.tick = s.tick := by unfold s1; split_ifs <;> rfl
  split_ifs <;> simp [h1]

@[simp] theorem applyRun_tick (s : State) : s.applyRun.tick = s.tick := by
  unfold State.applyRun
  extract_lets s1
  have h1 : s1.tick = s.tick := by unfold s1; split_ifs <;> rfl
  split_ifs
  · exact h1
  · rw [safetyEvent_tick, ← h1]; rfl

@[simp] theorem stepOne_tick (s : State) (i : GateItem) : (s.stepOne i).tick = s.tick := by
  unfold State.stepOne
  split <;> first | rfl | simp

/-! ### Step 2 -/

theorem release_shadows_tick (l : List (Nat × Word)) (x : Release) :
    (l.foldl (fun (y : Release) e => y.shadow e.1 e.2) x).st.tick = x.st.tick :=
  foldl_keeps (π := fun y : Release => y.st.tick) (f := fun (y : Release) (e : Nat × Word) => y.shadow e.1 e.2) (fun _ _ => rfl) x l

@[simp] theorem releaseGo_tick (s : State) (sn : Snaps) (b : CBlock) : (s.releaseGo sn b).1.tick = s.tick := by
  unfold State.releaseGo
  extract_lets snap
  split_ifs <;> rfl

@[simp] theorem release_one_tick (x : Release) (g : GateIn) (rest : List GateIn) : (x.one g rest).st.tick = x.st.tick := by
  unfold Release.one
  split
  case h_1 => exact deliver_tick _ _ _ _
  case h_2 => rfl
  case h_3 =>
    extract_lets st more
    split_ifs
    · rfl
    · exact deliver_tick _ _ _ _
  case h_4 =>
    split
    · split_ifs <;> rfl
    · rfl
  case h_5 => exact (releaseGo_tick _ _ _).trans (release_shadows_tick _ _)
  case h_6 => rfl

@[simp] theorem release_all_tick (l : List GateIn) (x : Release) : (Release.all x l).st.tick = x.st.tick := by
  induction l generalizing x with
  | nil => rfl
  | cons g l ih => rw [Release.all, ih, release_one_tick]

/-! ### Steps 3 and 6 -/

@[simp] theorem commitBlock_tick (s : State) (b : CBlock) (snap : Bank) : (s.commitBlock b snap).tick = s.tick := by
  cases h : s.validate snap with
  | some reason => rw [commitBlock_rejected h]; rfl
  | none =>
    obtain ⟨due, cascs, host, hc⟩ := commitBlock_applied (b := b) h
    rw [hc]
    rfl

@[simp] theorem step3_tick (s : State) (sn : Snaps) : (s.step3 sn).tick = s.tick := by
  refine foldl_tick (fun st b => ?_) _ _
  split
  · exact commitBlock_tick _ _ _
  · rfl

@[simp] theorem modCap_tick (s : State) (f : Cap → Cap) : (s.modCap f).tick = s.tick := rfl
@[simp] theorem modCapSet_tick (s : State) (k : Fin 4) (f : CapSet → CapSet) : (s.modCapSet k f).tick = s.tick := rfl

@[simp] theorem capCommit_tick (s : State) : s.capCommit.tick = s.tick := by
  refine foldl_tick (fun st k => ?_) _ _
  extract_lets c cfg st2 st3 st1 v st4
  have h2 : st2.tick = st.tick := by unfold st2; split <;> rfl
  have h3 : st3.tick = st.tick := h2
  have h1 : st1.tick = st.tick := by unfold st1; split_ifs <;> simp [h3]
  have h4 : st4.tick = st.tick := by rw [← h1]; rfl
  split_ifs <;> simp [h1, h4]

@[simp] theorem crossPubs_tick (s : State) : s.crossPubs.tick = s.tick := by
  unfold State.crossPubs
  extract_lets t
  split_ifs <;> rfl

/-! ### The beginning of a tick -/

/-- Shared accesses change data SRAM and cores only. -/
theorem doShared_eq (s : State) (c : Fin 10) (a : SharedAcc) :
    ∃ data cores, s.doShared c a = { s with data := data, cores := cores } := by
  unfold State.doShared
  extract_lets s0 r s1
  split <;> exact ⟨_, _, rfl⟩

theorem settleShared_eq (s : State) (c : Fin 10) (cyc : Nat) :
    ∃ data cores, s.settleShared c cyc = { s with data := data, cores := cores } := by
  unfold State.settleShared
  split
  · split_ifs
    · exact doShared_eq s c _
    · exact ⟨_, _, rfl⟩
  · exact ⟨_, _, rfl⟩

theorem settleAll_eq (s : State) : ∃ data cores, s.settleAll = { s with data := data, cores := cores } := by
  unfold State.settleAll
  generalize List.finRange 9 = l
  induction l generalizing s with
  | nil => exact ⟨_, _, rfl⟩
  | cons c l ih =>
    obtain ⟨d1, k1, h1⟩ := settleShared_eq s c.castSucc s.runcyc
    rw [List.foldl_cons, h1]
    obtain ⟨d2, k2, h2⟩ := ih { s with data := d1, cores := k1 }
    exact ⟨d2, k2, h2⟩

@[simp] theorem merBoundary_tick (s : State) : s.merBoundary.tick = s.tick := by
  unfold State.merBoundary
  extract_lets s1
  split_ifs <;> rfl

theorem newTick_cyc (k : Core) (c runcyc : Nat) : (k.newTick c runcyc).cyc = 0 := rfl

/-- A tick begins with the next epoch at its start, and each planner core in cycle 0 (R26, R79). -/
theorem beginTick_tick (s : State) : ∃ cycs : Vector Nat 10, (∀ c : Fin 9, cycs[c.castSucc] = 0) ∧
    s.beginTick.tick = (s.epoch + 1, BitVec.ofNat 64 ((s.epoch + 1) * s.tTick), s.published, s.running, s.gate, cycs) := by
  obtain ⟨data, cores, hs⟩ := settleAll_eq s
  unfold State.beginTick
  rw [hs]
  extract_lets _ n outs _ _ s1
  refine ⟨s1.cores.map Core.cyc, fun c => ?_, ?_⟩
  · simp [s1, newTick_cyc]
  · split_ifs
    · rfl
    · rw [merBoundary_tick]
      rfl

end Sys2Proof.Machine
end

section
/-! TICK_BOUNDARY, and the publication and push of the Almanac (R26, R30 to R34, R46, R492). -/

namespace Sys2Proof.Machine

/-! ### TICK_BOUNDARY -/

/-- Every input of the tick released: the steps after the beginning of a tick leave what it set, but for the inputs
that waited for it. -/
theorem tickBoundary_next {s : State} (hrun : s.running = true) (hclk : s.stopped 1 = false) (hq : s.boot.power ≠ .quiet)
    (hrp : s.eph.replay = true → s.eph.rpRun = true) : ∃ (t : State) (cycs : Vector Nat 10), exec .tickBoundary s = .next t
      ∧ (∀ c : Fin 9, cycs[c.castSucc] = 0) ∧ t.view = s.published
      ∧ t.tick = (s.epoch + 1, BitVec.ofNat 64 ((s.epoch + 1) * s.tTick), s.published, true,
          s.gate.filter (fun g => !decide (g.stamp ≤ s.epoch + 1)), cycs) := by
  have hreplay : (s.eph.replay && !s.eph.rpRun) = false := by
    cases h : s.eph.replay <;> simp [h] at hrp ⊢
    exact hrp
  obtain ⟨cycs, hcycs, hbegin⟩ := beginTick_tick s
  show ∃ t c, execTickBoundary s = _ ∧ _
  unfold execTickBoundary
  rw [if_neg (by simp [hrun, hclk]), if_neg (by simpa using hq), if_neg (by simp [hreplay])]
  extract_lets s0 due _ s1 s2 r s3 s4 s5 s6
  have h0 : s0.tick = _ := hbegin
  obtain ⟨hepoch, hnow, hpub, hrunning, hgate, hcyc⟩ : s0.epoch = s.epoch + 1 ∧ s0.now = BitVec.ofNat 64 ((s.epoch + 1) * s.tTick)
      ∧ s0.published = s.published ∧ s0.running = s.running ∧ s0.gate = s.gate ∧ s0.cores.map Core.cyc = cycs := by
    simpa only [State.tick, Prod.mk.injEq] using h0
  have h1 : s1.tick = (s.epoch + 1, BitVec.ofNat 64 ((s.epoch + 1) * s.tTick), s.published, true,
      s.gate.filter (fun g => !decide (g.stamp ≤ s.epoch + 1)), cycs) := by
    unfold s1
    rw [tick_mk, hepoch, hnow, hpub, hrunning, hgate, hcyc, hrun]
  have h2 : s2.tick = s1.tick := by
    unfold s2
    rw [foldl_tick fun st (g : GateIn) => stepOne_tick st g.item]
  have hr : r.st.tick = s2.tick := by unfold r; rw [release_all_tick]
  have h3 : s3.tick = r.st.tick := by unfold s3; split_ifs <;> simp
  have h4 : s4.tick = s3.tick := by
    unfold s4 State.feedbackChange
    rw [tick_mk, tick_fold, step3_tick]
  have h5 : s5.tick = s4.tick := by
    unfold s5
    rw [foldl_tick]
    exact fun _ _ => rfl
  have h6 : s6.tick = s1.tick := by unfold s6; rw [capCommit_tick, h5, h4, h3, hr, h2]
  rw [h1] at h6
  clear_value s6
  refine ⟨_, cycs, rfl, hcycs, ?_, ?_⟩
  · exact (congrArg (fun x => x.2.2.1) h6 : s6.published = s.published)
  · rw [tick_mk, tick_fold, crossPubs_tick, h6]

theorem tickBoundary_quiet {s : State} (hrun : s.running = true) (hclk : s.stopped 1 = false) (hq : s.boot.power = .quiet) :
    exec .tickBoundary s = .next { s with running := false } := by
  show execTickBoundary s = _
  rw [execTickBoundary, if_neg (by simp [hrun, hclk]), if_pos (by simp [hq])]

theorem tickBoundary_stopped {s : State} (hclk : s.stopped 1 = true) : exec .tickBoundary s = .next s := by
  show execTickBoundary s = _
  rw [execTickBoundary, if_pos (by simp [hclk])]

/-! ### The push of an Almanac -/

/-- Raising a vector sends it or makes it pend (R517). -/
theorem msix_eq (s : State) (v : Nat) :
    ∃ outbox pba, s.msix v = { s with outbox := outbox, host := { s.host with pba := pba } } := by
  unfold State.msix
  split_ifs
  · exact ⟨s.outbox, _, rfl⟩
  · exact ⟨_, s.host.pba, rfl⟩

/-- The end of a push sends its slot and its vector. -/
theorem pushDone_eq (s : State) : ∃ push outbox pba,
    s.pushDone = { s with push := push, outbox := outbox, host := { s.host with pba := pba } } := by
  unfold State.pushDone
  split
  · exact ⟨s.push, s.outbox, s.host.pba, rfl⟩
  · extract_lets s1
    split_ifs
    · obtain ⟨outbox, pba, h⟩ := msix_eq s1 2
      exact ⟨none, outbox, pba, h⟩
    · exact ⟨none, _, s.host.pba, rfl⟩

theorem fld_toNat_eq_extractLsb' (w : Word) (hi lo : Nat) :
    fld w.toNat hi lo = (w.extractLsb' lo (hi - lo + 1)).toNat := by
  rw [BitVec.extractLsb'_toNat, Nat.shiftRight_eq_div_pow, fld]

theorem bitOf_toNat_eq_getLsbD {n : Nat} (w : BitVec n) (i : Nat) : bitOf w.toNat i = w.getLsbD i := by
  rw [bitOf, BitVec.getLsbD, Nat.testBit_eq_decide_div_mod_eq]
  exact beq_eq_decide _ _

/-- The two words of a register spell its doubleword. -/
theorem ofNat_words (hi lo : Word) (n : Nat) :
    BitVec.ofNat 64 (hi.toNat * 2 ^ 32 + lo.toNat + n) = (hi ++ lo) + BitVec.ofNat 64 n := by
  rw [BitVec.ofNat_add]
  congr 1
  apply BitVec.eq_of_toNat_eq
  have hhi := hi.isLt
  have hlo := lo.isLt
  rw [BitVec.toNat_append, BitVec.toNat_ofNat, Nat.mod_eq_of_lt (by omega), Nat.mul_comm, Nat.two_pow_add_eq_or_of_lt hlo,
    Nat.shiftLeft_eq, Nat.mul_comm]

/-- The push that a publication begins (R34, R511, R527). -/
theorem pushStart_eq (s : State) (a : Almanac) : s.pushStart a =
    if (s.reg 0x20010).getLsbD 0 = true ∧ s.host.pushOff = false ∧ s.host.susp.getLsbD 0 = false then
      let slot := a.epoch.toNat % 2 ^ ((s.reg 0x20010).extractLsb' 4 4).toNat
      some ⟨slot, (s.reg 0x2001C ++ s.reg 0x20018) + BitVec.ofNat 64 (slot * 0x2000), a⟩
    else none := by
  unfold State.pushStart State.pushSlot State.regN
  simp only [bitOf_toNat_eq_getLsbD, fld_toNat_eq_extractLsb', ofNat_words]
  by_cases h : (s.reg 0x20010).getLsbD 0 = true ∧ s.host.pushOff = false ∧ s.host.susp.getLsbD 0 = false
  · simp [h]
  · have hno : ((s.reg 0x20010).getLsbD 0 && !s.host.pushOff && !s.host.susp.getLsbD 0) = false := by
      by_contra hc
      simp only [Bool.not_eq_false, Bool.and_eq_true, Bool.not_eq_true', and_assoc] at hc
      exact h hc
    rw [if_neg h, hno]
    rfl

/-! ### The tick block -/

/-- Between s and t nothing changed but the Ephemeris, the faults on their way, what is sent and the host interface. -/
def State.OnlyStream (s t : State) : Prop :=
  ∃ eph reports free outbox host, t = { s with eph := eph, reports := reports, free := free, outbox := outbox, host := host }

theorem State.OnlyStream.refl (s : State) : s.OnlyStream s := ⟨_, _, _, _, _, rfl⟩

theorem State.OnlyStream.trans {s t u : State} (h : s.OnlyStream t) (h' : t.OnlyStream u) : s.OnlyStream u := by
  obtain ⟨_, _, _, _, _, rfl⟩ := h
  obtain ⟨_, _, _, _, _, rfl⟩ := h'
  exact ⟨_, _, _, _, _, rfl⟩

theorem modEph_onlyStream (s : State) (f : Eph → Eph) : s.OnlyStream (s.modEph f) := ⟨_, _, _, _, _, rfl⟩

theorem raise_onlyStream (s : State) (code cls : Nat) (hold : Bool) (d : Option Word) : s.OnlyStream (s.raise code cls hold d) := by
  cases d <;> exact ⟨_, _, _, _, _, rfl⟩

theorem msix_onlyStream (s : State) (v : Nat) : s.OnlyStream (s.msix v) := by
  obtain ⟨outbox, pba, h⟩ := msix_eq s v
  exact ⟨_, _, _, _, _, h⟩

theorem streamGap_onlyStream (s : State) (seq : DWord) : s.OnlyStream (s.streamGap seq) := by
  unfold State.streamGap
  split_ifs
  · exact .refl s
  · exact ((modEph_onlyStream s _).trans (raise_onlyStream _ _ _ _ _)).trans (msix_onlyStream _ _)

theorem queueItem_onlyStream (s : State) (it : StreamItem) : s.OnlyStream (s.queueItem it) := by
  unfold State.queueItem
  split_ifs
  · exact .refl s
  · exact streamGap_onlyStream s _
  · exact modEph_onlyStream s _

theorem dropOldest_onlyStream (s : State) : s.OnlyStream s.dropOldest := by
  unfold State.dropOldest
  split
  · exact .refl s
  · extract_lets s1
    split_ifs
    · exact (modEph_onlyStream s _).trans (streamGap_onlyStream _ _)
    · exact modEph_onlyStream s _

theorem trimRing_onlyStream (n : Nat) (s : State) : s.OnlyStream (State.trimRing n s) := by
  induction n generalizing s with
  | zero => exact .refl s
  | succ n ih =>
    unfold State.trimRing
    split_ifs
    · exact .refl s
    · exact (dropOldest_onlyStream s).trans (ih _)

theorem checkShort_onlyStream (s : State) : s.OnlyStream s.checkShort := by
  unfold State.checkShort
  extract_lets short s1
  split_ifs
  · exact (modEph_onlyStream s _).trans (raise_onlyStream _ _ _ _ _)
  · exact modEph_onlyStream s _

theorem closeBlock_onlyStream (s : State) (a : Almanac) : s.OnlyStream (s.closeBlock a) := by
  unfold State.closeBlock
  extract_lets sum kf recs b s1 s2
  split_ifs
  · exact .refl s
  · have h1 : s.OnlyStream s1 := ⟨_, _, _, _, _, rfl⟩
    have h2 : s1.OnlyStream s2 := (modEph_onlyStream s1 _).trans (queueItem_onlyStream _ _)
    exact (((h1.trans h2).trans (modEph_onlyStream s2 _)).trans (trimRing_onlyStream _ _)).trans (checkShort_onlyStream _)

/-! ### ALMANAC_PUBLISH -/

/-- The Almanac of a tick: its records, and the areas of the cores (R30). -/
theorem almanac_records (s : State) : s.almanac.epoch = BitVec.ofNat 64 s.epoch ∧ s.almanac.t0 = BitVec.ofNat 64 (s.epoch * s.tTick)
    ∧ s.almanac.planGen = s.planGen ∧ s.almanac.axes.length = 128 ∧ s.almanac.arms.length = 8 ∧ s.almanac.lines.length = 8
    ∧ ∀ c : Fin 9, nth s.almanac.areas c.val [] = bytesAt (s.core c.castSucc).area 0 256 := by
  refine ⟨rfl, rfl, rfl, by simp [State.almanac], by simp [State.almanac], by simp [State.almanac], fun c => ?_⟩
  simp [State.almanac, nth]

theorem publishArea_area (k : Core) : k.publishArea.area = k.areaNow.getD k.area := by
  unfold Core.publishArea
  cases k.areaNow <;> rfl

/-- The state as the program areas take what was published for this tick (R137). -/
def State.areasTaken (s : State) : State := { s with cores := vmap (fun _ k => Core.publishArea k) s.cores }

theorem areasTaken_core (s : State) (c : Fin 10) : s.areasTaken.core c = (s.core c).publishArea := by
  simp [State.areasTaken, State.core]

/-- A push that still ran is finished before the next one starts, and LATE_PUSH tells of it. -/
theorem finishPush_eq (s : State) : ∃ push outbox pba,
    (if s.push.isSome then ({ s.pushDone with pushLate := true } : State) else s) =
      { s with push := push, outbox := outbox, host := { s.host with pba := pba }, pushLate := s.pushLate || s.push.isSome } := by
  split_ifs with h
  · obtain ⟨push, outbox, pba, hd⟩ := pushDone_eq s
    exact ⟨push, outbox, pba, by rw [hd, h, Bool.or_true]⟩
  · exact ⟨s.push, s.outbox, s.host.pba, by simp [h]⟩

/-- What a publication leaves: the Almanac of the tick, and its push. -/
theorem almanacPublish_next {s : State} (hrun : s.running = true) :
    let a := s.areasTaken.almanac
    ∃ t : State, exec .almanacPublish s = .next t ∧ t.published = some a ∧ t.pushLate = (s.pushLate || s.push.isSome)
      ∧ t.push = s.pushStart a ∧ t.epoch = s.epoch ∧ t.regs = s.regs ∧ t.data = s.data ∧ t.arms = s.arms ∧ t.view = s.view := by
  intro a
  show ∃ t, execAlmanacPublish s = _ ∧ _
  unfold execAlmanacPublish
  rw [if_neg (by simp [hrun])]
  extract_lets s0 alm stale _ s1 s2
  obtain ⟨push, outbox, pba, h1⟩ : ∃ push outbox pba, s1 = { s0 with
      push := push, outbox := outbox, host := { s0.host with pba := pba }, pushLate := s0.pushLate || s0.push.isSome } := by
    unfold s1
    exact finishPush_eq s0
  have hstart : s1.pushStart alm = s.pushStart a := by rw [h1]; rfl
  obtain ⟨eph, reports, free, outbox', host, h⟩ := closeBlock_onlyStream s2 alm
  rw [h]
  unfold s2
  rw [hstart, h1]
  exact ⟨_, rfl, rfl, rfl, rfl, rfl, rfl, rfl, rfl, rfl⟩

/-! ### ALMANAC_PUSH -/

theorem almanacPush_next {s : State} {p : PushDma} (e : Ecc) (h : s.push = some p) :
    exec (.almanacPush e) s = .next ((if p.slot = 0 then
      ({ s with push := none, outbox := s.outbox ++ p.writes } : State).msix 2
      else { s with push := none, outbox := s.outbox ++ p.writes }).eccNote 6 e) := by
  show execAlmanacPush s e = _
  rw [execAlmanacPush, State.pushDone, h]
  rfl

end Sys2Proof.Machine

open Sys2Proof Sys2Proof.Machine

/-- Settles O36: the boundary by what its steps leave of the tick that it begins, the publication by the Almanac that it
closes, and the push by its writes. -/
theorem tickBoundaryAndAlmanac : Obligations.TickBoundaryAndAlmanac := by
  unfold Obligations.TickBoundaryAndAlmanac
  refine ⟨?boundary, fun s => tickBoundary_quiet, fun s => tickBoundary_stopped, ?publish, ?push⟩
  case boundary =>
    intro s hrun hclk hq hrp
    obtain ⟨t, cycs, ht, hcycs, hview, htick⟩ := tickBoundary_next hrun hclk hq hrp
    obtain ⟨hepoch, hnow, hpub, hrunning, hgate, hcyc⟩ : t.epoch = _ ∧ t.now = _ ∧ t.published = _ ∧ t.running = true
        ∧ t.gate = _ ∧ t.cores.map Core.cyc = cycs := by
      simpa only [State.tick, Prod.mk.injEq] using htick
    refine ⟨t, ht, hepoch, hnow, hview, hrunning, fun c => ?_, hpub, hgate⟩
    rw [← hcycs c, ← hcyc]
    simp [State.core]
  case publish =>
    intro s hrun
    obtain ⟨t, ht, hpub, hlate, hpush, hrest⟩ := almanacPublish_next hrun
    obtain ⟨hepoch, ht0, hgen, haxes, harms, hlines, hareas⟩ := almanac_records s.areasTaken
    refine ⟨t, _, ht, hpub, hepoch, ht0, hgen, haxes, harms, hlines, fun c => ?_, hlate, ?_, hrest⟩
    · rw [hareas, areasTaken_core, publishArea_area]
      cases (s.core c.castSucc).areaNow <;> rfl
    · rw [hpush, pushStart_eq, hepoch, BitVec.toNat_ofNat]
      rfl
  case push => exact fun s p e h => almanacPush_next e h

end

section
/-! CUTOVER and SEGA_APPLY (R42 to R45, R122, R125, R126, R144, R169 to R171). -/

namespace Sys2Proof.Machine

/-! ### The requests that are due -/

section
variable (s : State) (p : Req → Bool)

theorem dropDue_of_none (h : s.dueReqs p = []) : s.dropDue p = s := by
  have hkeep : (s.reqs.filter fun e => !(p e.req && decide (e.epoch < s.epoch))) = s.reqs := by
    rw [List.filter_eq_self]
    intro e he
    rw [Bool.not_eq_true', ← Bool.not_eq_true]
    exact List.filter_eq_nil_iff.mp h e he
  rw [State.dropDue, hkeep]

theorem dropDue_stagedArms : (s.dropDue p).stagedArms = s.stagedArms := rfl
theorem dropDue_cutCause (k : Fin 8) (a : ArmProf) : (s.dropDue p).cutCause k a = s.cutCause k a := rfl

end

theorem mem_reqInsert {x e : ReqEntry} {l : List ReqEntry} : x ∈ reqInsert e l ↔ x = e ∨ x ∈ l := by
  induction l with
  | nil => simp [reqInsert]
  | cons y l ih =>
    unfold reqInsert
    split_ifs
    · rw [List.mem_cons, ih, List.mem_cons]
      tauto
    · rw [List.mem_cons]

theorem mem_foldl_reqInsert {x : ReqEntry} {l acc : List ReqEntry} :
    x ∈ l.foldl (fun l e => reqInsert e l) acc ↔ x ∈ l ∨ x ∈ acc := by
  induction l generalizing acc with
  | nil => simp
  | cons e l ih =>
    rw [List.foldl_cons, ih, mem_reqInsert, List.mem_cons]
    tauto

/-- The cores with a due request of a kind, each once, in the order in which the requests are taken. -/
def State.askers (s : State) (p : Req → Bool) : List (Fin 9) := ((s.takeReqs p).1.map fun (e : ReqEntry) => e.core).eraseDups

theorem mem_askers {s : State} {p : Req → Bool} {c : Fin 9} : c ∈ s.askers p ↔ ∃ x ∈ s.dueReqs p, x.core = c := by
  rw [State.askers, List.mem_eraseDups, List.mem_map]
  simp only [State.takeReqs, mem_foldl_reqInsert, List.not_mem_nil, or_false]

theorem askers_isEmpty {s : State} {p : Req → Bool} : (s.askers p).isEmpty = true ↔ s.dueReqs p = [] := by
  rw [List.isEmpty_iff, List.eq_nil_iff_forall_not_mem, List.eq_nil_iff_forall_not_mem]
  constructor
  · exact fun h x hx => h x.core (mem_askers.mpr ⟨x, hx, rfl⟩)
  · intro h c hc
    obtain ⟨x, hx, -⟩ := mem_askers.mp hc
    exact h x hx

/-! ### What each asking core is told -/

/-- Several cores told of one cell event. -/
def State.tellAll (s : State) (cores : List (Fin 9)) (cls source data : Nat) : State :=
  cores.foldl (fun st c => st.cellEvent c cls source data) s

theorem tellAll_eq (s : State) (cores : List (Fin 9)) (cls source data : Nat) : s.tellAll cores cls source data =
    { s with cellEvs := s.cellEvs ++ cores.map fun c => (s.epoch + 1, c, mkEv cls source data) } := by
  induction cores generalizing s with
  | nil => simp [State.tellAll]
  | cons c cores ih =>
    refine (ih (s.cellEvent c cls source data)).trans ?_
    simp [State.cellEvent]

/-- Telling the askers tells exactly the cores with a due request. -/
theorem told_askers {s t : State} {p : Req → Bool} {e : EvRec}
    (h : t.cellEvs = s.cellEvs ++ (s.askers p).map fun c => (s.epoch + 1, c, e)) : s.Told t p e := by
  refine ⟨_, h, fun x hx => ?_, fun c => ?_⟩
  · obtain ⟨c, -, rfl⟩ := List.mem_map.mp hx
    exact ⟨rfl, rfl⟩
  · rw [← mem_askers]
    simp

/-! ### The plan of one arm put in force -/

/-- Several faults raised, one after another. -/
theorem foldl_raise_eq {α : Type} (s : State) (l : List α) (code cls : Nat) :
    ∃ reports free, l.foldl (fun st _ => st.raise code cls) s = { s with reports := reports, free := free } := by
  induction l generalizing s with
  | nil => exact ⟨_, _, rfl⟩
  | cons x l ih => exact ih _

/-- The unfired actions of an arm are withheld: its plan keeps its segments. -/
theorem withholdAll_eq (s : State) (k : Fin 8) : ∃ reports free, s.withholdAll k = { s with
    reports := reports, free := free
    arms := s.arms.set k { s.arms[k] with active := s.arms[k].active.map fun x => { x with actDone := true }, late := [] } } := by
  unfold State.withholdAll
  extract_lets a n s1
  obtain ⟨reports, free, h⟩ : ∃ reports free, s1 = { s with reports := reports, free := free } := foldl_raise_eq s _ _ _
  exact ⟨reports, free, by rw [h]; rfl⟩

/-- What the cut-over leaves of an arm whose staged plan it puts in force (R170). -/
def Arm.CutTo (a b : Arm) : Prop :=
  b.staged = [] ∧ b.gen = a.gen + 1 ∧ b.active = a.staged.map (fun d => ({ d := d } : ActSeg))
    ∧ b.stopping = .no ∧ b.stopped = false ∧ b.s = 0 ∧ b.handK = 0

/-- The staged plan of one arm put in force. -/
def State.cutArm (s : State) (e : Fin 8 × ArmProf) : State :=
  let s1 := s.withholdAll e.1
  (s1.startPlan e.1 e.2 (s1.arms[e.1]).staged).modArm e.1 fun a => { a with staged := [], gen := a.gen + 1 }

/-- A plan started changes its arm alone. -/
theorem startPlan_eq (s : State) (k : Fin 8) (p : ArmProf) (d : SegDesc) (l : List SegDesc) : ∃ run sigma handE,
    s.startPlan k p (d :: l) = { s with arms := s.arms.set k { s.arms[k] with
      active := (d :: l).map fun d => ({ d := d } : ActSeg), run := run
      s := 0, sigma := sigma, acc := 0, stopping := .no, stopped := false, handE := handE, handK := 0 } } :=
  ⟨_, _, _, rfl⟩

theorem cutArm_eq {s : State} {e : Fin 8 × ArmProf} (h : s.arms[e.1].staged ≠ []) : ∃ a reports free,
    s.arms[e.1].CutTo a ∧ s.cutArm e = { s with arms := s.arms.set e.1 a, reports := reports, free := free } := by
  obtain ⟨d, l, hdl⟩ := List.exists_cons_of_ne_nil h
  obtain ⟨reports, free, hw⟩ := withholdAll_eq s e.1
  unfold State.cutArm
  extract_lets s1
  have hstaged : (s1.arms[e.1]).staged = d :: l := by
    unfold s1
    rw [hw]
    simpa using hdl
  obtain ⟨run, sigma, handE, hp⟩ := startPlan_eq s1 e.1 e.2 d l
  rw [hstaged, hp]
  unfold s1
  rw [hw, State.modArm]
  simp only [vmod, Fin.getElem_fin, Vector.getElem_set_self, Vector.set_set]
  exact ⟨_, reports, free, ⟨rfl, rfl, congrArg (List.map fun d => ({ d := d } : ActSeg)) hdl.symm, rfl, rfl, rfl, rfl⟩, rfl⟩

/-! ### The arms that a cut-over takes in -/

/-- The arm of a number, if it has a profile and a staged plan. -/
def State.stagedArm (s : State) (k : Nat) : Option (Fin 8 × ArmProf) :=
  if h : k < 8 then
    match s.armProf k with
    | some p => if s.arms[k].staged.isEmpty then none else some (⟨k, h⟩, p)
    | none => none
  else none

theorem stagedArms_eq (s : State) : s.stagedArms = (List.range 8).filterMap s.stagedArm := rfl

theorem stagedArm_some {s : State} {k : Nat} {x : Fin 8 × ArmProf} (h : s.stagedArm k = some x) :
    x.1.val = k ∧ s.arms[x.1].staged ≠ [] := by
  unfold State.stagedArm at h
  split at h
  · split at h
    · split_ifs at h with hempty
      cases h
      exact ⟨rfl, by simpa using hempty⟩
    · cases h
  · cases h

theorem staged_of_mem {s : State} {x : Fin 8 × ArmProf} (h : x ∈ s.stagedArms) : s.arms[x.1].staged ≠ [] := by
  obtain ⟨k, -, hk⟩ := List.mem_filterMap.mp h
  exact (stagedArm_some hk).2

/-- Each arm is taken in once. -/
theorem stagedArms_pairwise (s : State) : s.stagedArms.Pairwise fun x y => x.1 ≠ y.1 := by
  rw [stagedArms_eq, List.pairwise_filterMap]
  refine List.nodup_range.imp fun hne x hx y hy heq => hne ?_
  rw [← (stagedArm_some hx).1, ← (stagedArm_some hy).1, heq]

theorem arms_set_of_ne {v : Vector Arm 8} {j k : Fin 8} (h : j ≠ k) (a : Arm) : (v.set j a)[k] = v[k] :=
  Vector.getElem_set_ne _ _ fun e => h (Fin.ext e)

/-- Plans put in force on several arms change those arms, each by its own staged plan, and beside them faults alone. -/
theorem foldl_cutArm {s : State} {l : List (Fin 8 × ArmProf)} (hl : l.Pairwise fun x y => x.1 ≠ y.1)
    (hs : ∀ x ∈ l, s.arms[x.1].staged ≠ []) : ∃ arms reports free,
      l.foldl State.cutArm s = { s with arms := arms, reports := reports, free := free }
      ∧ (∀ x ∈ l, s.arms[x.1].CutTo arms[x.1]) ∧ ∀ k : Fin 8, (∀ x ∈ l, x.1 ≠ k) → arms[k] = s.arms[k] := by
  induction l generalizing s with
  | nil => exact ⟨_, _, _, rfl, fun x hx => absurd hx List.not_mem_nil, fun k _ => rfl⟩
  | cons e l ih =>
    obtain ⟨hne, hl⟩ := List.pairwise_cons.mp hl
    obtain ⟨he, hs⟩ := List.forall_mem_cons.mp hs
    obtain ⟨a, reports, free, hcut, h1⟩ := cutArm_eq he
    rw [List.foldl_cons, h1]
    obtain ⟨arms, reports', free', h2, hin, hout⟩ := ih (s := { s with arms := s.arms.set e.1 a, reports := reports, free := free })
      hl fun x hx => by rw [arms_set_of_ne (hne x hx)]; exact hs x hx
    refine ⟨arms, reports', free', h2, List.forall_mem_cons.mpr ⟨?_, fun x hx => ?_⟩, fun k hk => ?_⟩
    · have heq : arms[e.1] = a := (hout e.1 fun x hx heq => hne x hx heq.symm).trans (Vector.getElem_set_self _)
      rwa [heq]
    · have := hin x hx
      rwa [arms_set_of_ne (hne x hx)] at this
    · obtain ⟨hek, hk⟩ := List.forall_mem_cons.mp hk
      exact (hout k hk).trans (arms_set_of_ne hek a)

/-! ### CUTOVER, by its cases -/

theorem cutover_eq (s : State) : exec .cutover s = .next (
    let s1 := s.dropDue Req.isCut
    if (s.askers Req.isCut).isEmpty then s1
    else if s1.coreSafety != .run then s1.tellAll (s.askers Req.isCut) 0x10 0xFF 0x02
    else
      match s1.stagedArms.findSome? fun e => (s1.cutCause e.1 e.2).map fun c => (e.1.val, c) with
      | some (arm, cause) => { s1.tellAll (s.askers Req.isCut) 0x10 arm (0x09 + cause * 256) with cutFail := true }
      | none =>
        let s2 := s1.stagedArms.foldl State.cutArm s1
        { s2.tellAll (s.askers Req.isCut) 0x10 0xFF 0 with planGen := s2.planGen + 1, cutApplied := true }) := rfl

/-- The events of a cut-over: each asking core is told of one. -/
def State.cutEvs (s : State) (source data : Nat) : List (Nat × Fin 9 × EvRec) :=
  s.cellEvs ++ (s.askers Req.isCut).map fun c => (s.epoch + 1, c, mkEv 0x10 source data)

section
variable {s : State}

theorem cutover_none (h : s.dueReqs Req.isCut = []) : exec .cutover s = .next s := by
  rw [cutover_eq]
  dsimp only
  rw [if_pos (askers_isEmpty.mpr h), dropDue_of_none s _ h]

variable (hreq : s.dueReqs Req.isCut ≠ [])
include hreq

theorem cutover_dusk (hrun : s.coreSafety ≠ .run) :
    exec .cutover s = .next { s.dropDue Req.isCut with cellEvs := s.cutEvs 0xFF 0x02 } := by
  have hsafe : ((s.dropDue Req.isCut).coreSafety != .run) = true := bne_iff_ne.mpr hrun
  rw [cutover_eq]
  dsimp only
  rw [if_neg (mt askers_isEmpty.mp hreq), if_pos hsafe, tellAll_eq]
  rfl

theorem cutover_fails (hrun : s.coreSafety = .run) {pre post : List (Fin 8 × ArmProf)} {k : Fin 8} {p : ArmProf} {cause : Nat}
    (harms : s.stagedArms = pre ++ (k, p) :: post) (hpre : ∀ x ∈ pre, s.cutCause x.1 x.2 = none)
    (hk : s.cutCause k p = some cause) :
    exec .cutover s = .next { s.dropDue Req.isCut with cellEvs := s.cutEvs k.val (0x09 + cause * 256), cutFail := true } := by
  have hsafe : ¬ ((s.dropDue Req.isCut).coreSafety != .run) = true := fun h => bne_iff_ne.mp h hrun
  have hfirst : (s.dropDue Req.isCut).stagedArms.findSome?
      (fun e => ((s.dropDue Req.isCut).cutCause e.1 e.2).map fun c => (e.1.val, c)) = some (k.val, cause) := by
    have hnone : pre.findSome? (fun e => (s.cutCause e.1 e.2).map fun c => (e.1.val, c)) = none :=
      List.findSome?_eq_none_iff.mpr fun x hx => by rw [hpre x hx]; rfl
    rw [dropDue_stagedArms, harms, List.findSome?_append]
    simp only [dropDue_cutCause, hnone, Option.none_or, List.findSome?_cons, hk, Option.map_some]
  rw [cutover_eq]
  dsimp only
  rw [if_neg (mt askers_isEmpty.mp hreq), if_neg hsafe, hfirst]
  dsimp only
  rw [tellAll_eq]
  rfl

theorem cutover_applies (hrun : s.coreSafety = .run) (hok : ∀ x ∈ s.stagedArms, s.cutCause x.1 x.2 = none) :
    ∃ arms reports free, exec .cutover s = .next { s.dropDue Req.isCut with
        cellEvs := s.cutEvs 0xFF 0, planGen := s.planGen + 1, cutApplied := true, arms := arms, reports := reports, free := free }
      ∧ (∀ x ∈ s.stagedArms, s.arms[x.1].CutTo arms[x.1])
      ∧ ∀ k : Fin 8, (∀ x ∈ s.stagedArms, x.1 ≠ k) → arms[k] = s.arms[k] := by
  have hsafe : ¬ ((s.dropDue Req.isCut).coreSafety != .run) = true := fun h => bne_iff_ne.mp h hrun
  have hnone : (s.dropDue Req.isCut).stagedArms.findSome?
      (fun e => ((s.dropDue Req.isCut).cutCause e.1 e.2).map fun c => (e.1.val, c)) = none :=
    List.findSome?_eq_none_iff.mpr fun x hx => by rw [dropDue_cutCause, hok x hx]; rfl
  obtain ⟨arms, reports, free, hfold, hin, hout⟩ := foldl_cutArm (s := s.dropDue Req.isCut) (l := s.stagedArms)
    (stagedArms_pairwise s) fun x hx => staged_of_mem hx
  refine ⟨arms, reports, free, ?_, hin, hout⟩
  rw [cutover_eq]
  dsimp only
  rw [if_neg (mt askers_isEmpty.mp hreq), if_neg hsafe, hnone]
  dsimp only
  rw [dropDue_stagedArms, hfold, tellAll_eq]
  rfl

end

/-! ### SEGA_APPLY -/

/-- One waiting append: the core is told of it, or its segment joins the plan of its arm. -/
theorem segaApply_one {s : State} {k : Fin 8} {e : Nat} {d : SegDesc} {p : ArmProf}
    (hreq : s.dueReqs Req.isSega = [⟨k.castSucc, e, .sega d⟩]) (hp : s.armProf k.val = some p) :
    exec .segaApply s = .next (
      let s1 := s.dropDue Req.isSega
      if s1.coreSafety != .run then s1.cellEvent k.castSucc 0x13 k.val 0x02
      else if 64 ≤ (s1.arms[k]).active.length then s1.cellEvent k.castSucc 0x13 k.val 0x01
      else
        match s1.appendCause k p d with
        | some cause => s1.cellEvent k.castSucc 0x13 k.val (0x09 + cause * 256)
        | none =>
          if (s1.arms[k]).active.isEmpty then s1.startPlan k p [d]
          else s1.modArm k fun a => { a with active := a.active ++ [({ d := d } : ActSeg)] }) := by
  have hp1 : (s.dropDue Req.isSega).armProf k.val = some p := hp
  show execSegaApply s = _
  rw [execSegaApply, State.takeReqs, hreq]
  obtain ⟨i, hi⟩ := k
  simp only [List.foldl_cons, List.foldl_nil, reqInsert, Fin.castSucc_mk, hi, dite_true, hp1] <;> rfl

end Sys2Proof.Machine

open Sys2Proof Sys2Proof.Machine

/-- Settles O37: the cut-over by its four cases, the append by what its core is told or its arm takes in. -/
theorem cutoverAndAppendResults : Obligations.CutoverAndAppendResults := by
  unfold Obligations.CutoverAndAppendResults
  refine ⟨fun s => cutover_none, ?applies, ?fails, ?dusk, ?append⟩
  case applies =>
    intro s hreq hrun hok
    obtain ⟨arms, reports, free, ht, hin, hout⟩ := cutover_applies hreq hrun hok
    refine ⟨_, ht, rfl, rfl, ⟨rfl, rfl, rfl, rfl, rfl, rfl, rfl, rfl⟩, rfl, told_askers rfl, fun x hx => ?_, hout⟩
    obtain ⟨hstaged, hgen, hactive, hrest⟩ := hin x hx
    exact ⟨hstaged, hgen, hactive, hrest⟩
  case fails =>
    intro s pre post k p cause hreq hrun harms hpre hk
    exact ⟨_, cutover_fails hreq hrun harms hpre hk, rfl, rfl, rfl, ⟨rfl, rfl, rfl, rfl, rfl, rfl, rfl, rfl⟩, told_askers rfl⟩
  case dusk =>
    intro s hreq hrun
    exact ⟨_, cutover_dusk hreq hrun, rfl, rfl, rfl, ⟨rfl, rfl, rfl, rfl, rfl, rfl, rfl, rfl⟩, told_askers rfl⟩
  case append =>
    intro s k e d p hreq hp s1 tell
    rw [segaApply_one hreq hp]
    simp only [bne_iff_ne, List.isEmpty_iff]
    rfl

end

section
/-! The end of the gather window, and the standstill and feedback timeouts (R28, R298, R302 to R304, R307). -/

namespace Sys2Proof.Machine

/-! ### Folds that deal with each item once -/

/-- A fold over items that are all different deals with each of them once: `Q b` says that item `b` is still to come, `R b` that it
is done, and `I` is what every step keeps. -/
theorem foldl_each {σ ι : Type} {f : σ → ι → σ} {I : σ → Prop} {Q R : ι → σ → Prop} (hI : ∀ st a, I st → I (f st a))
    (hdone : ∀ st a, I st → Q a st → R a (f st a)) (hQ : ∀ st a b, a ≠ b → I st → Q b st → Q b (f st a))
    (hR : ∀ st a b, a ≠ b → I st → R b st → R b (f st a)) {l : List ι} (hl : l.Nodup) {st : σ} (hst : I st)
    (hto : ∀ b ∈ l, Q b st) : I (l.foldl f st) ∧ (∀ b ∈ l, R b (l.foldl f st)) ∧ ∀ b ∉ l, R b st → R b (l.foldl f st) := by
  induction l generalizing st with
  | nil => exact ⟨hst, fun b hb => absurd hb List.not_mem_nil, fun b _ hb => hb⟩
  | cons a l ih =>
    obtain ⟨ha, hl⟩ := List.nodup_cons.mp hl
    obtain ⟨hqa, hto⟩ := List.forall_mem_cons.mp hto
    have hne : ∀ b ∈ l, a ≠ b := fun b hb hab => ha (hab ▸ hb)
    obtain ⟨hinv, hin, hout⟩ := ih hl (hI st a hst) fun b hb => hQ st a b (hne b hb) hst (hto b hb)
    refine ⟨hinv, List.forall_mem_cons.mpr ⟨hout a ha (hdone st a hst hqa), hin⟩, fun b hb hrb => ?_⟩
    obtain ⟨hba, hb⟩ := not_or.mp (mt List.mem_cons.mpr hb)
    exact hout b hb (hR st a b (Ne.symm hba) hst hrb)

/-- The fold over all indexes. -/
theorem foldl_finRange_each {σ : Type} {n : Nat} {f : σ → Fin n → σ} {I : σ → Prop} {Q R : Fin n → σ → Prop}
    (hI : ∀ st a, I st → I (f st a)) (hdone : ∀ st a, I st → Q a st → R a (f st a))
    (hQ : ∀ st a b, a ≠ b → I st → Q b st → Q b (f st a)) (hR : ∀ st a b, a ≠ b → I st → R b st → R b (f st a))
    {st : σ} (hst : I st) (hto : ∀ b, Q b st) : I ((List.finRange n).foldl f st) ∧ ∀ b, R b ((List.finRange n).foldl f st) := by
  obtain ⟨hinv, hin, -⟩ := foldl_each hI hdone hQ hR (List.nodup_finRange n) hst fun b _ => hto b
  exact ⟨hinv, fun b => hin b (List.mem_finRange b)⟩

/-! ### GATHER_END -/

theorem modFbk_fbk_self (s : State) (a : Fin 128) (f : AxFbk → AxFbk) : (s.modFbk a f).fbk[a] = f s.fbk[a] :=
  Vector.getElem_set_self _

/-- One axis at the end of the gather window. -/
def State.gatherAxis (s : State) (a : Fin 128) : State :=
  let src := s.fbkSrc a.val
  let f := s.fbk[a]
  let ok := match f.latch with | .valid _ _ => true | _ => false
  let noFrame := src == 2 && f.latch == .none
  if !s.axisPresent a.val || src = 0 then s
  else
    let s1 := s.modFbk a fun f => { f with
      valid := ok, stale := !ok
      latch := if noFrame then .invalid causeNoFrame else f.latch
      cause := if noFrame then causeNoFrame else f.cause
      drvArmed := if noFrame then false else f.drvArmed }
    if noFrame && f.drvArmed then s1.raise 0x0C03 1 else s1

theorem gatherEnd_eq {s : State} (h : s.eph.rpNow = none) :
    exec .gatherEnd s = .next ((List.finRange 128).foldl State.gatherAxis s) := by
  show execGatherEnd s = _
  rw [execGatherEnd, h]
  rfl

/-- Between s and t only feedback changed, and faults were raised. -/
def State.OnlyFeedback (s t : State) : Prop :=
  ∃ fbk reports free, t = { s with fbk := fbk, reports := reports, free := free }

theorem gatherAxis_eq (s : State) (a : Fin 128) : ∃ f l free, s.gatherAxis a =
    { s with fbk := s.fbk.set a f, reports := s.reports ++ l, free := free } := by
  unfold State.gatherAxis
  extract_lets src f ok noFrame s1
  split_ifs
  · exact ⟨s.fbk[a], [], s.free, by simp⟩
  · exact ⟨_, _, _, rfl⟩
  · exact ⟨_, [], s.free, by rw [List.append_nil]; rfl⟩

/-- What the end of the gather window makes of the feedback of an axis (R298, R304, R307). -/
def State.Gathered (s : State) (a : Fin 128) (t : State) : Prop :=
  let src := s.fbkSrc a.val
  let f := s.fbk[a]
  (s.axisPresent a.val = false ∨ src = 0 → t.fbk[a] = f)
  ∧ (s.axisPresent a.val = true → src ≠ 0 → t.fbk[a].pos = f.pos ∧ t.fbk[a].time = f.time
      ∧ (t.fbk[a].stale = false ↔ ∃ p q : Int, f.latch = .valid p q) ∧ t.fbk[a].valid = !t.fbk[a].stale
      ∧ (src = 2 → f.latch = .none → t.fbk[a].latch = .invalid 6 ∧ t.fbk[a].cause = 6
          ∧ (f.drvArmed = true → ∃ r ∈ t.reports, r.code = 0x0C03 ∧ r.cls = 1))
      ∧ (src ≠ 2 ∨ f.latch ≠ .none → t.fbk[a].latch = f.latch ∧ t.fbk[a].cause = f.cause))

/-- Other axes leave what the window's end made of one. -/
theorem Gathered.mono {s t u : State} {a : Fin 128} (h : s.Gathered a t) (hf : u.fbk[a] = t.fbk[a]) (hr : t.reports ⊆ u.reports) :
    s.Gathered a u := by
  unfold State.Gathered at h ⊢
  rw [hf]
  refine ⟨h.1, fun hp hs => ?_⟩
  obtain ⟨hpos, htime, hstale, hvalid, hnone, hsome⟩ := h.2 hp hs
  refine ⟨hpos, htime, hstale, hvalid, fun h2 hl => ?_, hsome⟩
  obtain ⟨hlatch, hcause, hraised⟩ := hnone h2 hl
  exact ⟨hlatch, hcause, fun hd => (hraised hd).imp fun r hr' => ⟨hr hr'.1, hr'.2⟩⟩

/-- The feedback of an axis with a source at the end of the gather window. -/
def AxFbk.gathered (f : AxFbk) (drive : Bool) : AxFbk :=
  let ok := match f.latch with | .valid _ _ => true | _ => false
  let noFrame := drive && f.latch == .none
  { f with
    valid := ok, stale := !ok
    latch := if noFrame then .invalid causeNoFrame else f.latch
    cause := if noFrame then causeNoFrame else f.cause
    drvArmed := if noFrame then false else f.drvArmed }

section
variable {s : State} {a : Fin 128}

theorem gatherAxis_skip (h : s.axisPresent a.val = false ∨ s.fbkSrc a.val = 0) : s.gatherAxis a = s := by
  rw [State.gatherAxis, if_pos (by simpa using h)]

variable (hp : s.axisPresent a.val = true) (hs : s.fbkSrc a.val ≠ 0)
include hp hs

theorem gatherAxis_present : s.gatherAxis a =
    let s1 := s.modFbk a fun f => f.gathered (s.fbkSrc a.val == 2)
    if s.fbkSrc a.val == 2 && s.fbk[a].latch == .none && s.fbk[a].drvArmed then s1.raise 0x0C03 1 else s1 := by
  rw [State.gatherAxis, if_neg (by simp [hp, hs])]
  rfl

theorem gatherAxis_fbk : (s.gatherAxis a).fbk[a] = s.fbk[a].gathered (s.fbkSrc a.val == 2) := by
  rw [gatherAxis_present hp hs]
  dsimp only
  split_ifs
  · exact modFbk_fbk_self s a _
  · exact modFbk_fbk_self s a _

theorem gatherAxis_raised (h2 : s.fbkSrc a.val = 2) (hl : s.fbk[a].latch = .none) (hd : s.fbk[a].drvArmed = true) :
    ∃ r ∈ (s.gatherAxis a).reports, r.code = 0x0C03 ∧ r.cls = 1 := by
  rw [gatherAxis_present hp hs]
  dsimp only
  rw [if_pos (by rw [h2, hl, hd]; rfl)]
  exact ⟨_, List.mem_append_right _ (List.mem_singleton_self _), rfl, rfl⟩

end

theorem gathered_stale (f : AxFbk) (drive : Bool) : (f.gathered drive).stale = false ↔ ∃ p q : Int, f.latch = .valid p q := by
  cases h : f.latch <;> simp [AxFbk.gathered, h]

theorem gathered_noFrame {f : AxFbk} (h : f.latch = .none) :
    (f.gathered true).latch = .invalid 6 ∧ (f.gathered true).cause = 6 := by
  simp [AxFbk.gathered, h, causeNoFrame]

theorem gathered_frame {f : AxFbk} {drive : Bool} (h : (drive && f.latch == .none) = false) :
    (f.gathered drive).latch = f.latch ∧ (f.gathered drive).cause = f.cause := by
  simp [AxFbk.gathered, h]

theorem gatherAxis_gathered (s : State) (a : Fin 128) : s.Gathered a (s.gatherAxis a) := by
  refine ⟨fun h => by rw [gatherAxis_skip h], fun hp hs => ?_⟩
  rw [gatherAxis_fbk hp hs]
  refine ⟨rfl, rfl, gathered_stale _ _, (Bool.not_not _).symm, fun h2 hl => ?_, fun h => gathered_frame ?_⟩
  · obtain ⟨hlatch, hcause⟩ := gathered_noFrame hl
    rw [h2]
    exact ⟨hlatch, hcause, fun hd => gatherAxis_raised hp hs h2 hl hd⟩
  · rw [Bool.and_eq_false_iff, beq_eq_false_iff_ne, beq_eq_false_iff_ne]
    exact h

/-- The end of the gather window, axis by axis. -/
theorem gatherEnd_next {s : State} (h : s.eph.rpNow = none) : ∃ t, exec .gatherEnd s = .next t ∧ s.OnlyFeedback t ∧
    ∀ a, s.Gathered a t := by
  refine ⟨_, gatherEnd_eq h, ?_⟩
  refine foldl_finRange_each (I := s.OnlyFeedback) (Q := fun a st => st.fbk[a] = s.fbk[a]) ?_ ?_ ?_ ?_ ⟨_, _, _, rfl⟩ fun _ => rfl
  · rintro st a ⟨fbk, reports, free, rfl⟩
    obtain ⟨f, l, free', hf⟩ := gatherAxis_eq { s with fbk := fbk, reports := reports, free := free } a
    exact ⟨_, _, _, hf⟩
  · rintro st a ⟨fbk, reports, free, rfl⟩ hq
    have := gatherAxis_gathered { s with fbk := fbk, reports := reports, free := free } a
    unfold State.Gathered at this
    rw [hq] at this
    exact this
  · intro st a b hab _ hq
    obtain ⟨f, l, free', hf⟩ := gatherAxis_eq st a
    rw [hf, ← hq]
    exact Vector.getElem_set_ne a.isLt b.isLt fun e => hab (Fin.ext e)
  · intro st a b hab _ hr
    obtain ⟨f, l, free', hf⟩ := gatherAxis_eq st a
    rw [hf]
    exact Gathered.mono hr (Vector.getElem_set_ne a.isLt b.isLt fun e => hab (Fin.ext e)) (List.subset_append_left _ _)

/-! ### STANDSTILL_TIMEOUT and FBK_TIMEOUT -/

/-- The estimator of a source that has repeated its position for the standstill time stands still (R303). -/
theorem estim_run_still {e : Estim} {win : Nat} {tStill p t : Int} (hfirst : e.first = false) (hstill : e.still = false)
    (hp : p = e.pPrev) (ht : tStill ≤ t - e.tChg) : e.run win tStill p t =
      { e with ran := true, starting := false, reversed := false, still := true, v := 0, dir := 0, hist := [(p, t)]
               pPrev := p, tPrev := t } := by
  simp [Estim.run, hfirst, hstill, hp, ht]

theorem estim_stillDue {e : Estim} {tStill p t : Int} (hran : e.ran = false) (hfirst : e.first = false) (hstill : e.still = false)
    (hp : p = e.pPrev) (ht : tStill ≤ t - e.tChg) : e.stillDue tStill p t = true := by
  simp [Estim.stillDue, hran, hfirst, hstill, hp, ht]

theorem standstillTimeout_axis {s : State} {a : Fin 128} {p t : Int} (hl : s.fbk[a].latch = .valid p t)
    (hdue : s.fbk[a].est.stillDue (s.axStill a.val) p t = true) : exec (.standstillTimeout (.axis a)) s =
      .next (s.modFbk a fun f => { f with est := f.est.run (s.axWin a.val) (s.axStill a.val) p t }) := by
  show execStandstillTimeout (.axis a) s = _
  simp only [execStandstillTimeout, hl, hdue, if_true]

theorem standstillTimeout_line {s : State} {n : Fin 8} (hen : (s.lineProf n.val).en = true)
    (hdue : s.lines[n].est.stillDue (s.lineStill n.val) s.lines[n].latch.count s.lines[n].latch.time.toNat = true) :
    exec (.standstillTimeout (.line n)) s = .next (s.modLine n fun x => { x with
      est := x.est.run (s.lineWin n.val) (s.lineStill n.val) s.lines[n].latch.count s.lines[n].latch.time.toNat }) := by
  show execStandstillTimeout (.line n) s = _
  simp only [execStandstillTimeout, hen, hdue, Bool.and_self, if_true]

theorem fbkTimeout_of_outage {s : State} {a : Fin 128} (hsrc : s.fbkSrc a.val ≠ 0) (ht : s.fbk[a].timeout = true)
    (ho : s.fbk[a].outage = true) : exec (.fbkTimeout a) s = .next (if s.fbk[a].toRaised then s
      else (s.modFbk a fun f => { f with toRaised := true }).raise 0x0C04 (if s.runsCascade a.val then 3 else 1)) := by
  have hdue : (s.fbkSrc a.val != 0 && s.fbk[a].timeout && s.fbk[a].outage && !s.fbk[a].toRaised) = !s.fbk[a].toRaised := by
    rw [ht, ho, bne_iff_ne.mpr hsrc]
    simp
  show execFbkTimeout a s = _
  rw [execFbkTimeout, hdue]
  cases s.fbk[a].toRaised <;> rfl

end Sys2Proof.Machine
end

section
/-! EXTRAPOLATE_PHASE (R26, R300 to R302): the estimators and the extrapolation, and what the generators of the arms and
axes leave (R156 to R168, R186 to R195). -/

namespace Sys2Proof.Machine

/-! ### What the generators change -/

/-- Between s and t nothing changed but the generators of arms and axes, the faults on their way and the cell events. -/
def State.OnlyGenerators (s t : State) : Prop :=
  ∃ arms aux reports free cellEvs, t = { s with arms := arms, aux := aux, reports := reports, free := free, cellEvs := cellEvs }

theorem State.OnlyGenerators.refl (s : State) : s.OnlyGenerators s := ⟨_, _, _, _, _, rfl⟩

theorem State.OnlyGenerators.trans {s t u : State} (h : s.OnlyGenerators t) (h' : t.OnlyGenerators u) : s.OnlyGenerators u := by
  obtain ⟨_, _, _, _, _, rfl⟩ := h
  obtain ⟨_, _, _, _, _, rfl⟩ := h'
  exact ⟨_, _, _, _, _, rfl⟩

theorem onlyGenerators_ite {s a b : State} {p : Prop} [Decidable p] (ha : s.OnlyGenerators a) (hb : s.OnlyGenerators b) :
    s.OnlyGenerators (if p then a else b) := by
  split <;> assumption

theorem foldl_onlyGenerators {α : Type} {f : State → α → State} (h : ∀ (s : State) (x : α), s.OnlyGenerators (f s x)) (s : State) (l : List α) :
    s.OnlyGenerators (l.foldl f s) := by
  induction l generalizing s with
  | nil => exact .refl s
  | cons x l ih => exact (h s x).trans (ih _)

theorem modArm_onlyGenerators (s : State) (k : Fin 8) (f : Arm → Arm) : s.OnlyGenerators (s.modArm k f) := ⟨_, _, _, _, _, rfl⟩

theorem modAux_onlyGenerators (s : State) (a : Fin 128) (f : AuxGen → AuxGen) : s.OnlyGenerators (s.modAux a f) :=
  ⟨_, _, _, _, _, rfl⟩

theorem raise_onlyGenerators (s : State) (code cls : Nat) : s.OnlyGenerators (s.raise code cls) := ⟨_, _, _, _, _, rfl⟩

theorem auxEvent_onlyGenerators (s : State) (a : Nat) (id : Word) (status cause : Nat) :
    s.OnlyGenerators (s.auxEvent a id status cause) := ⟨_, _, _, _, _, rfl⟩

theorem fireAction_onlyGenerators (s : State) (k : Fin 8) (d : SegDesc) : s.OnlyGenerators (s.fireAction k d) := by
  unfold State.fireAction
  extract_lets b ax
  exact onlyGenerators_ite (onlyGenerators_ite ⟨_, _, _, _, _, rfl⟩ (raise_onlyGenerators s _ _))
    (onlyGenerators_ite (modArm_onlyGenerators s _ _) (onlyGenerators_ite (modArm_onlyGenerators s _ _) (.refl s)))

theorem windowAndAction_onlyGenerators (s : State) (k : Fin 8) (retiring : Bool) : s.OnlyGenerators (s.windowAndAction k retiring) := by
  unfold State.windowAndAction
  extract_lets a
  split
  · refine onlyGenerators_ite (.refl s) ?_
    extract_lets d chk ok s1 due
    have h1 : s.OnlyGenerators s1 :=
      onlyGenerators_ite ((raise_onlyGenerators s _ _).trans (modArm_onlyGenerators _ _ _)) (.refl s)
    refine h1.trans (onlyGenerators_ite (.refl s1) (onlyGenerators_ite (.refl s1) (onlyGenerators_ite ?_ ?_)))
    · exact (modArm_onlyGenerators s1 _ _).trans (fireAction_onlyGenerators _ _ _)
    · exact (raise_onlyGenerators s1 _ _).trans (modArm_onlyGenerators _ _ _)
  · exact .refl s

theorem openGate_onlyGenerators (s : State) (k : Fin 8) : s.OnlyGenerators (s.openGate k) := by
  unfold State.openGate
  extract_lets a
  split
  · exact onlyGenerators_ite (modArm_onlyGenerators s _ _) (.refl s)
  · exact .refl s

theorem settleArm_onlyGenerators (k : Fin 8) (fuel : Nat) (s : State) : s.OnlyGenerators (State.settleArm k fuel s) := by
  induction fuel generalizing s with
  | zero => exact .refl s
  | succ fuel ih =>
    have retire (u : State) : u.OnlyGenerators (State.settleArm k fuel (u.retireHead k)) :=
      (modArm_onlyGenerators u k _).trans (ih _)
    unfold State.settleArm
    extract_lets s0 a stopping
    have h0 : s.OnlyGenerators s0 := (modArm_onlyGenerators s k _).trans (openGate_onlyGenerators _ _)
    refine h0.trans ?_
    split
    · extract_lets d li passed done s1 zero done' last s2 s3
      have h1 : s0.OnlyGenerators s1 := windowAndAction_onlyGenerators s0 k done
      have h2 : s0.OnlyGenerators s2 :=
        onlyGenerators_ite (modArm_onlyGenerators s0 k _) (onlyGenerators_ite (modArm_onlyGenerators s0 k _) (.refl s0))
      have h3 : s0.OnlyGenerators s3 := h2.trans (windowAndAction_onlyGenerators s2 k done')
      exact onlyGenerators_ite (onlyGenerators_ite (h1.trans (retire s1)) h1) (onlyGenerators_ite (h3.trans (retire s3)) h3)
    · exact .refl s0

theorem lateActions_onlyGenerators (s : State) (k : Fin 8) : s.OnlyGenerators (s.lateActions k) := by
  unfold State.lateActions
  extract_lets a due s1
  refine onlyGenerators_ite (.refl s) ((modArm_onlyGenerators s k _).trans (foldl_onlyGenerators (fun st d => ?_) _ _))
  exact onlyGenerators_ite (fireAction_onlyGenerators _ _ _) (raise_onlyGenerators _ _ _)

theorem armTick_onlyGenerators (s : State) (k : Fin 8) : s.OnlyGenerators (s.armTick k) := by
  unfold State.armTick
  split
  · exact .refl s
  · refine onlyGenerators_ite (modArm_onlyGenerators s k _) ?_
    extract_lets s0 s1 a s2 s3
    have h1 : s.OnlyGenerators s1 :=
      ((modArm_onlyGenerators s k _).trans (modArm_onlyGenerators _ k _)).trans (openGate_onlyGenerators _ _)
    have h2 : s1.OnlyGenerators s2 := by
      unfold s2
      split
      · exact onlyGenerators_ite (modArm_onlyGenerators s1 k _) (modArm_onlyGenerators s1 k _)
      · exact .refl s1
    have h3 : s2.OnlyGenerators s3 := settleArm_onlyGenerators k 65 s2
    exact (((h1.trans h2).trans h3).trans (lateActions_onlyGenerators s3 k)).trans (modArm_onlyGenerators _ k _)

theorem auxTick_onlyGenerators (s : State) (p : AuxProf) : s.OnlyGenerators (s.auxTick p) := by
  unfold State.auxTick
  extract_lets a done stall _ g0 velEnds s1 g1 r id s2
  have hdone (u : State) (f : AuxGen → AuxGen) : u.OnlyGenerators (done u f) := modAux_onlyGenerators u a _
  have h1 : s.OnlyGenerators s1 := by
    refine onlyGenerators_ite ?_ (.refl s)
    split
    · exact auxEvent_onlyGenerators s _ _ _ _
    · exact .refl s
  have h2 : s1.OnlyGenerators s2 := by
    unfold s2
    split
    · exact auxEvent_onlyGenerators s1 _ _ _ _
    · exact auxEvent_onlyGenerators s1 _ _ _ _
    · exact .refl s1
  exact onlyGenerators_ite (hdone s _) (onlyGenerators_ite (hdone s _) ((h1.trans h2).trans (hdone s2 _)))

theorem loadTick_onlyGenerators (s : State) (p : AuxProf) : s.OnlyGenerators (s.loadTick p) := by
  unfold State.loadTick
  extract_lets a g cur ad l8 ipeak base lth icur peak cnt s1
  have h1 : s.OnlyGenerators s1 := onlyGenerators_ite (raise_onlyGenerators s _ _) (.refl s)
  exact onlyGenerators_ite (.refl s)
    (onlyGenerators_ite (modAux_onlyGenerators s _ _) (h1.trans (modAux_onlyGenerators s1 _ _)))

/-! ### The estimators -/

/-- The feedback of one axis brought to the control instant (R301 to R304). -/
def State.estimated (s : State) (a : Fin 128) (f : AxFbk) : AxFbk :=
  let f1 : AxFbk := match f.latch with
    | .valid p t =>
      let e0 := if f.timeout && f.have1 then { f.est with first := true } else f.est
      if f.est.ran && !f.timeout then f
      else { f with est := e0.run (s.axWin a.val) (s.axStill a.val) p t }
    | _ => { f with est := { f.est with starting := false, reversed := false } }
  if s.fbkLate f1 then { f1 with
      act := if f1.have1 then f1.pos else 0, act1 := f.act, speed := 0, timeout := true, outage := f1.have1 }
  else { f1 with
      act1 := f.act, act := f1.pos + rndDiv (f1.est.v * ((s.t0 s.epoch : Int) - f1.time)) (10 ^ 9), speed := f1.est.v
      timeout := false, outage := false, toRaised := false }

theorem axisEstimate_eq (s : State) (a : Fin 128) : s.axisEstimate a = s.modFbk a (s.estimated a) := rfl

/-- The estimator of an axis changes no position. -/
theorem estimated_eq (s : State) (a : Fin 128) (f : AxFbk) : ∃ est, s.estimated a f =
    if s.fbkLate f then { f with est := est, act := if f.have1 then f.pos else 0, act1 := f.act, speed := 0, timeout := true, outage := f.have1 }
    else { f with est := est, act1 := f.act, act := f.pos + rndDiv (est.v * ((s.t0 s.epoch : Int) - f.time)) (10 ^ 9), speed := est.v
                  timeout := false, outage := false, toRaised := false } := by
  unfold State.estimated
  extract_lets _ e0 f1
  obtain ⟨est, h1⟩ : ∃ est, f1 = { f with est := est } := by
    unfold f1
    split
    · split
      · exact ⟨f.est, rfl⟩
      · exact ⟨_, rfl⟩
    · exact ⟨_, rfl⟩
  exact ⟨est, by rw [h1]; rfl⟩

/-- The estimators of the lines change lines alone. -/
theorem foldl_lineEstimates (s : State) (l : List (Fin 8)) : ∃ lines, l.foldl (fun st n =>
    let l := (st.lines[n]).latch
    if (st.lineProf n.val).en && !(st.lines[n]).est.ran then
      st.modLine n fun x => { x with est := x.est.run (st.lineWin n.val) (st.lineStill n.val) l.count l.time.toNat }
    else st) s = { s with lines := lines } := by
  induction l generalizing s with
  | nil => exact ⟨_, rfl⟩
  | cons n l ih =>
    rw [List.foldl_cons]
    dsimp only
    split_ifs
    · exact ih _
    · exact ih s

/-- One axis in the extrapolate phase. -/
def State.estimateAxis (s : State) (a : Fin 128) : State :=
  if s.axisPresent a.val && s.fbkSrc a.val != 0 then s.axisEstimate a else s

/-- The feedback of an axis after its estimator. -/
def State.feedbackAt (s : State) (a : Fin 128) (f : AxFbk) : AxFbk :=
  if s.axisPresent a.val && s.fbkSrc a.val != 0 then s.estimated a f else f

theorem estimateAxis_eq (s : State) (a : Fin 128) :
    s.estimateAxis a = { s with fbk := s.fbk.set a (s.feedbackAt a s.fbk[a]) } := by
  unfold State.estimateAxis State.feedbackAt
  split_ifs
  · exact axisEstimate_eq s a
  · simp

/-- Every axis is brought to the control instant by its own estimator. -/
theorem foldl_estimateAxis (s : State) : ∃ fbk, (List.finRange 128).foldl State.estimateAxis s = { s with fbk := fbk }
    ∧ ∀ a : Fin 128, fbk[a] = s.feedbackAt a s.fbk[a] := by
  have hother (st : State) {a b : Fin 128} (hab : a ≠ b) : (st.estimateAxis a).fbk[b] = st.fbk[b] := by
    rw [estimateAxis_eq]
    exact Vector.getElem_set_ne a.isLt b.isLt fun e => hab (Fin.ext e)
  have heach := foldl_finRange_each (f := State.estimateAxis) (I := fun st => ∃ fbk, st = { s with fbk := fbk })
    (Q := fun a st => st.fbk[a] = s.fbk[a]) (R := fun a st => st.fbk[a] = s.feedbackAt a s.fbk[a]) (st := s)
    (by rintro st a ⟨fbk, rfl⟩; exact ⟨_, estimateAxis_eq _ a⟩)
    (by
      rintro st a ⟨fbk, rfl⟩ hq
      rw [estimateAxis_eq, ← hq]
      exact Vector.getElem_set_self a.isLt)
    (fun st a b hab _ hq => (hother st hab).trans hq) (fun st a b hab _ hr => (hother st hab).trans hr)
    ⟨_, rfl⟩ fun _ => rfl
  obtain ⟨⟨fbk, h⟩, hin⟩ := heach
  refine ⟨fbk, h, fun a => ?_⟩
  rw [← hin a, h]

/-! ### EXTRAPOLATE_PHASE -/

/-- What the phase leaves: the feedback of each axis at the control instant; lines and generators advance (R26). -/
theorem extrapolatePhase_next {s : State} (hrun : s.running = true) : ∃ lines fbk t, exec .extrapolatePhase s = .next t
    ∧ ({ s with lines := lines, fbk := fbk } : State).OnlyGenerators t ∧ ∀ a : Fin 128, fbk[a] = s.feedbackAt a s.fbk[a] := by
  show ∃ lines fbk t, execExtrapolatePhase s = _ ∧ _
  unfold execExtrapolatePhase
  rw [if_neg (by simp [hrun])]
  extract_lets s1 s2 s3
  obtain ⟨lines, h1⟩ : ∃ lines, s1 = { s with lines := lines } := foldl_lineEstimates s _
  obtain ⟨fbk, h2, hfbk⟩ := foldl_estimateAxis s1
  have hs2 : s2 = { s with lines := lines, fbk := fbk } := h2.trans (by rw [h1])
  have h3 : s2.OnlyGenerators s3 := foldl_onlyGenerators armTick_onlyGenerators s2 _
  refine ⟨lines, fbk, _, rfl, ?_, fun a => ?_⟩
  · rw [← hs2]
    refine h3.trans (foldl_onlyGenerators (fun st a => ?_) s3 _)
    split
    · exact (auxTick_onlyGenerators st _).trans (loadTick_onlyGenerators _ _)
    · exact .refl st
  · rw [hfbk a, h1]
    rfl

theorem extrapolatePhase_stopped {s : State} (hrun : s.running = false) : exec .extrapolatePhase s = .next s := by
  show execExtrapolatePhase s = _
  rw [execExtrapolatePhase, if_pos (by simp [hrun])]

/-- An axis with a valid latch that is not too old (R301). -/
theorem fbkLate_of_recent {s : State} {f : AxFbk} (hv : f.have1 = true)
    (ht : (s.epoch * s.tTick : Nat) - f.time ≤ (s.tTick : Int) + 2000) : s.fbkLate f = false := by
  simpa [State.fbkLate, hv, State.t0] using ht

/-- An axis without a latch newer than a tick and 2 µs (R302). -/
theorem fbkLate_of_old {s : State} {f : AxFbk}
    (h : f.have1 = false ∨ (s.tTick : Int) + 2000 < (s.epoch * s.tTick : Nat) - f.time) : s.fbkLate f = true := by
  simpa [State.fbkLate, State.t0] using h

end Sys2Proof.Machine

open Sys2Proof Sys2Proof.Machine

/-- Settles O45: the window's end and the extrapolation axis by axis, the two timeouts by the estimator and the outage. -/
theorem gatherAndExtrapolateResults : Obligations.GatherAndExtrapolateResults := by
  unfold Obligations.GatherAndExtrapolateResults
  refine ⟨?gather, fun s => extrapolatePhase_stopped, ?extrapolate, ?axis, ?line, ?timeout⟩
  case gather =>
    intro s h
    obtain ⟨t, ht, ⟨fbk, reports, free, rfl⟩, hall⟩ := gatherEnd_next h
    exact ⟨_, ht, rfl, rfl, rfl, rfl, hall⟩
  case extrapolate =>
    intro s hrun
    obtain ⟨lines, fbk, t, ht, ⟨arms, aux, reports, free, cellEvs, rfl⟩, hfbk⟩ := extrapolatePhase_next hrun
    refine ⟨_, ht, rfl, rfl, rfl, rfl, rfl, fun a => ⟨fun h => ?_, fun hp hs => ?_⟩⟩
    · refine (hfbk a).trans (if_neg ?_)
      rcases h with h | h <;> simp [h]
    · obtain ⟨est, hest⟩ := estimated_eq s a s.fbk[a]
      have ha : fbk[a] = _ := ((hfbk a).trans (if_pos (by simp [hp, hs]))).trans hest
      dsimp only
      rw [ha]
      refine ⟨?_, ?_, ?_, fun hv hlate => ?_, fun hlate => ?_⟩
      iterate 3 · split <;> rfl
      · rw [fbkLate_of_recent hv hlate]
        exact ⟨rfl, rfl, rfl⟩
      · rw [fbkLate_of_old hlate]
        exact ⟨rfl, rfl, rfl, rfl⟩
  case axis =>
    intro s a p t hl hran hfirst hstill hp ht
    rw [standstillTimeout_axis hl (estim_stillDue hran hfirst hstill hp ht), State.modFbk, vmod]
    dsimp only
    rw [estim_run_still hfirst hstill hp ht]
  case line =>
    intro s n hen hran hfirst hstill hp ht
    refine ⟨_, standstillTimeout_line hen (estim_stillDue hran hfirst hstill hp ht), ?_, ?_, rfl, rfl⟩
    all_goals rw [estim_run_still hfirst hstill hp ht]
  case timeout =>
    intro s a hsrc ht ho
    rw [fbkTimeout_of_outage hsrc ht ho]
    rfl

end

section
/-! A Halo period: its start, the checks of an axis and of the markers, and its limits (R21, R306, R341, R354 to R363). -/

namespace Sys2Proof.Machine

/-! ### HALO_PERIOD_START -/

/-- Between s and t nothing changed but the cores, the feedback, the gate, and the Halo engine but for its period. -/
def State.OnlyHalo (s t : State) : Prop :=
  ∃ cores fbk gate halo, t = { s with cores := cores, fbk := fbk, gate := gate, halo := halo } ∧ halo.period = s.halo.period

theorem State.OnlyHalo.refl (s : State) : s.OnlyHalo s := ⟨_, _, _, _, rfl, rfl⟩

theorem State.OnlyHalo.trans {s t u : State} (h : s.OnlyHalo t) (h' : t.OnlyHalo u) : s.OnlyHalo u := by
  obtain ⟨_, _, _, _, rfl, hp⟩ := h
  obtain ⟨_, _, _, _, rfl, hp'⟩ := h'
  exact ⟨_, _, _, _, rfl, hp'.trans hp⟩

theorem foldl_onlyHalo {α : Type} {f : State → α → State} (h : ∀ (s : State) (x : α), s.OnlyHalo (f s x)) (s : State) (l : List α) :
    s.OnlyHalo (l.foldl f s) := by
  induction l generalizing s with
  | nil => exact .refl s
  | cons x l ih => exact (h s x).trans (ih _)

theorem modCore_onlyHalo (s : State) (c : Fin 10) (f : Core → Core) : s.OnlyHalo (s.modCore c f) := ⟨_, _, _, _, rfl, rfl⟩

theorem gatePush_onlyHalo (s : State) (stamp src : Nat) (i : GateItem) : s.OnlyHalo (s.gatePush stamp src i) := by
  unfold State.gatePush
  split
  · exact .refl s
  · exact ⟨_, _, _, _, rfl, rfl⟩

theorem wakeCore_onlyHalo (s : State) (c : Fin 10) : s.OnlyHalo (s.wakeCore c) := by
  unfold State.wakeCore
  split
  · exact modCore_onlyHalo s _ _
  · exact .refl s

theorem plausAxis_onlyHalo (s : State) (a : Fin 128) : s.OnlyHalo (s.plausAxis a) := by
  unfold State.plausAxis
  extract_lets r ptol num den f
  split
  · exact .refl s
  · split
    · exact ⟨_, _, _, _, rfl, rfl⟩
    · exact .refl s

theorem grantZone_onlyHalo (s : State) (z : Nat) : s.OnlyHalo (s.grantZone z) := by
  unfold State.grantZone
  split
  · exact .refl s
  · extract_lets lower blocked s1
    have h1 : s.OnlyHalo s1 := ⟨_, _, _, _, rfl, rfl⟩
    split
    · exact .refl s
    · split
      · exact h1.trans (gatePush_onlyHalo s1 _ _ _)
      · exact h1

/-- The SAFE domain as a Halo period starts (R313, R341, R347). -/
def Saf.periodStart (f : Saf) (seed : Word) (march halo : Bool) : Saf :=
  { f with f3Prev := f.f3Now, f3Now := none, flowSig := seed, flowDone := false, mbx := { f.mbx with seen := f.mbx.busy }
           marchRes := march, haloRes := halo }

theorem haloPeriodStart_due {s : State} (hrun : s.running = true) (hdue : s.epoch % s.prof.haloDiv = 0) :
    ∃ march halo nbrs t, exec .haloPeriodStart s = .next t ∧ ({ s with
      saf := s.saf.periodStart s.prof.saf.flowSeed march halo
      halo := { s.halo with period := s.halo.period + 1, nbrs := nbrs } } : State).OnlyHalo t := by
  show ∃ march halo nbrs t, execHaloPeriodStart s = _ ∧ _
  unfold execHaloPeriodStart
  rw [if_neg (by simp [hrun, hdue])]
  extract_lets s1 s2 s3 s4
  have h3 : s2.OnlyHalo s3 := (modCore_onlyHalo s2 _ _).trans (wakeCore_onlyHalo _ _)
  obtain ⟨march, halo, nbrs, h2⟩ : ∃ march halo nbrs, s2 = { s with
      saf := s.saf.periodStart s.prof.saf.flowSeed march halo
      halo := { s.halo with period := s.halo.period + 1, nbrs := nbrs } } := ⟨_, _, _, rfl⟩
  refine ⟨march, halo, nbrs, _, rfl, ?_⟩
  rw [← h2]
  refine h3.trans ?_
  split
  · exact .refl s3
  · have hkeep : s3.OnlyHalo s3.keepLatches := ⟨_, _, _, _, rfl, rfl⟩
    have h4 : s3.OnlyHalo s4 := hkeep.trans (foldl_onlyHalo plausAxis_onlyHalo _ _)
    exact h4.trans (foldl_onlyHalo grantZone_onlyHalo s4 _)

theorem haloPeriodStart_notDue {s : State} (hdue : s.epoch % s.prof.haloDiv ≠ 0) (hq : s.boot.power ≠ .quiet) :
    exec .haloPeriodStart s = .next s := by
  show execHaloPeriodStart s = _
  rw [execHaloPeriodStart, if_pos (by simp [hdue, hq])]

/-! ### ENC_PLAUS and HALO_TICK_WINDOW -/

theorem encPlaus_eq (s : State) (a : Fin 128) (t : DWord) : exec (.encPlaus a t) s = .next (
    let n := fld (s.regN (0xC2004 + 8 * a.val)) 7 0
    if fld (s.regN (0xC2000 + 8 * a.val)) 31 16 ≠ 0 ∧ n ≠ 0 ∧ s.fbk[a].plCnt = n then
      ({ s with now := t, fbk := s.fbk.set a { s.fbk[a] with plaus := true } } : State).raise 0x0C05 3 else s) := by
  show execEncPlaus a t s = _
  unfold execEncPlaus
  extract_lets n
  simp only [Bool.and_eq_true, bne_iff_ne, beq_iff_eq, and_assoc]
  rfl

theorem haloTickWindow_eq {s : State} (interval : Nat) (t : DWord) (hq : s.boot.power ≠ .quiet) :
    exec (.haloTickWindow interval t) s = .next (
      let h := s.prof.haloDiv * s.tTick
      if 10 * interval < 9 * h ∨ 11 * h < 10 * interval then ({ s with now := t } : State).raise 0x1803 3 else s) := by
  show execHaloTickWindow interval t s = _
  unfold execHaloTickWindow State.tHalo
  extract_lets h
  rw [bne_iff_ne.mpr hq, Bool.and_true]
  simp only [Bool.or_eq_true, decide_eq_true_eq]
  rfl

/-! ### Faults raised -/

/-- Between s and t the faults of a list were raised, and nothing else changed. -/
def State.RaisedAll (s t : State) (l : List FaultRep) : Prop := ∃ free, t = { s with reports := s.reports ++ l, free := free }

theorem raisedAll_nil (s : State) : s.RaisedAll s [] := ⟨s.free, by rw [List.append_nil]⟩

theorem State.RaisedAll.trans {s t u : State} {l l' : List FaultRep} (h : s.RaisedAll t l) (h' : t.RaisedAll u l') :
    s.RaisedAll u (l ++ l') := by
  obtain ⟨_, rfl⟩ := h
  obtain ⟨_, rfl⟩ := h'
  exact ⟨_, by rw [← List.append_assoc]⟩

theorem raise_raisedAll (s : State) (code cls : Nat) :
    s.RaisedAll (s.raise code cls) [⟨code, cls, false, s.now, Config.faultDetail code s.free⟩] := ⟨_, rfl⟩

theorem foldl_raise_raisedAll {α : Type} (s : State) (l : List α) (code cls : Nat) :
    ∃ reps, s.RaisedAll (l.foldl (fun st _ => st.raise code cls) s) reps := by
  induction l generalizing s with
  | nil => exact ⟨[], raisedAll_nil s⟩
  | cons x l ih =>
    obtain ⟨reps, h⟩ := ih (s.raise code cls)
    exact ⟨_, (raise_raisedAll s code cls).trans h⟩

/-- A fault raised under a condition. -/
theorem raise_if (s : State) (b : Bool) (code cls : Nat) :
    ∃ l, s.RaisedAll (if b then s.raise code cls else s) l ∧ (b = true → ∃ r ∈ l, r.code = code ∧ r.cls = cls) := by
  cases b with
  | true => exact ⟨_, raise_raisedAll s code cls, fun _ => ⟨_, List.mem_singleton_self _, rfl, rfl⟩⟩
  | false => exact ⟨[], raisedAll_nil s, fun h => nomatch h⟩

/-! ### One capsule in one period (R361, R363) -/

section
variable (s : State) (c : Placed) (pairs : List PairRes)

theorem capPeriod_overspeed : (s.capPeriod c pairs).2 = ((s.capPeriod c pairs).1.overs == 2) := rfl

theorem capPeriod_hold (h : s.saf.state = .hold) : (s.capPeriod c pairs).1.lim ≤ s.prof.slsMm := by
  unfold State.capPeriod
  extract_lets o lim0 lim
  have hlim : lim = min lim0 s.prof.slsMm := by
    unfold lim
    rw [h]
    rfl
  exact hlim ▸ Nat.min_le_right _ _

theorem capPeriod_first (h : s.halo.first = true) :
    (s.capPeriod c pairs).1.env = (s.capPeriod c pairs).1.lim ∧ (s.capPeriod c pairs).1.overs = 0 := by
  simp [State.capPeriod, h]

theorem capPeriod_sto (h : s.saf.state = .sto) : (s.capPeriod c pairs).1.overs = 0 := by
  simp [State.capPeriod, h]

end

/-! ### HALO_COMPUTE -/

/-- The capsules of the arms in their places, each with its pairs (R355 to R360). -/
def State.haloPairs (s : State) : List (Placed × List PairRes) :=
  let all := (List.range 8).flatMap s.placeArm
  all.map fun c => (c, s.capPairs all c)

/-- The capsules of a period, and whether each raises the overspeed fault. -/
def State.haloCaps (s : State) : List (CapState × Bool) := s.haloPairs.map fun e => s.capPeriod e.1 e.2

/-- The limit of an arm (R361). -/
def State.haloLim (s : State) (k : Nat) : Nat :=
  if (s.armProf k).isNone then 0
  else match (s.haloCaps.filter fun c => c.1.arm == k).map fun c => c.1.lim with
    | [] => nth s.prof.saf.vmaxc k 0
    | x :: xs => xs.foldl min x

/-- The least separation of an arm. -/
def State.haloSep (s : State) (k : Nat) : Nat :=
  if (s.armProf k).isNone then 0
  else ((s.haloPairs.filter fun e => e.1.arm == k).flatMap Prod.snd).foldl
    (fun m (p : PairRes) => min m (p.d * 15625 / 1024).toNat) 65535000

/-- The limit set and the separations of a period. -/
def State.haloLims (s : State) : List Nat := (List.range 8).map s.haloLim
def State.haloSeps (s : State) : List Nat := (List.range 8).map s.haloSep

theorem gatePush_gate_of_running {s : State} {stamp src : Nat} {i : GateItem} (hreplay : s.eph.replay = false)
    (hrun : s.stopped (gateDomain src) = false) : (s.gatePush stamp src i).gate = s.gate ++ [⟨stamp, src, i⟩] := by
  simp [State.gatePush, hreplay, hrun]

/-- What a computed period leaves: the capsules, the limits and the faults of its checks; the limit set goes to the gate. -/
theorem haloCompute_due {s : State} (bad : Bool) (t : DWord) (h : s.haloTick = true) :
    ∃ latches overlaps conflict l free diag, exec (.haloCompute bad t) s = .next (({ s with
        now := t, reports := s.reports ++ l, free := free, saf := { s.saf with diagFail := diag }
        halo := { s.halo with latches := latches, caps := s.haloCaps.map Prod.fst, lims := s.haloLims, seps := s.haloSeps
                              overlaps := overlaps, conflict := conflict, first := false } } : State).gatePush
          (s.epoch + 1) 1 (.haloLimits s.haloLims s.haloSeps))
      ∧ (s.haloCaps.any Prod.snd = true → ∃ r ∈ l, r.code = 0x1901 ∧ r.cls = 3)
      ∧ (bad = true → diag = true ∧ ∃ r ∈ l, r.code = 0x1805 ∧ r.cls = 3) := by
  show ∃ latches overlaps conflict l free diag, execHaloCompute bad t s = _ ∧ _
  unfold execHaloCompute
  rw [if_neg (by simp [h])]
  extract_lets s0 all res caps limOf sepOf lims seps overlaps raised both s1 s2 s3 s4 s5
  obtain ⟨l2, h2, hover⟩ := raise_if s1 (caps.any Prod.snd) 0x1901 3
  obtain ⟨l3, h3⟩ : ∃ l, s2.RaisedAll s3 l := by
    unfold s3
    split
    · exact ⟨[], raisedAll_nil s2⟩
    · exact foldl_raise_raisedAll s2 raised 0x1903 2
  obtain ⟨l4, h4, -⟩ := raise_if s3 (both && !s.halo.conflict) 0x1904 2
  obtain ⟨free4, h14⟩ : s1.RaisedAll s4 (l2 ++ l3 ++ l4) := (h2.trans h3).trans h4
  obtain ⟨l5, free, diag, h5, hbad⟩ : ∃ l5 free diag, s5 = { s1 with
      reports := s1.reports ++ (l2 ++ l3 ++ l4 ++ l5), free := free, saf := { s1.saf with diagFail := diag } }
      ∧ (bad = true → diag = true ∧ ∃ r ∈ l5, r.code = 0x1805 ∧ r.cls = 3) := by
    unfold s5
    cases bad with
    | false => exact ⟨[], free4, s.saf.diagFail, by rw [List.append_nil]; exact h14, fun h => nomatch h⟩
    | true =>
      rw [if_pos rfl, h14]
      refine ⟨[⟨0x1805, 3, false, s1.now, Config.faultDetail 0x1805 free4⟩], free4 + 1, true, ?_, fun _ => ?_⟩
      · rw [← List.append_assoc s1.reports (l2 ++ l3 ++ l4)]
        rfl
      · exact ⟨rfl, _, List.mem_singleton_self _, rfl, rfl⟩
  rw [h5]
  refine ⟨_, _, _, _, _, _, rfl, fun hc => ?_, fun hb => ?_⟩
  · obtain ⟨r, hr, hcode⟩ := hover hc
    exact ⟨r, List.mem_append_left _ (List.mem_append_left _ (List.mem_append_left _ hr)), hcode⟩
  · obtain ⟨hd, r, hr, hcode⟩ := hbad hb
    exact ⟨hd, r, List.mem_append_right _ hr, hcode⟩

theorem haloCompute_notDue {s : State} (bad : Bool) (t : DWord) (h : s.haloTick = false) :
    exec (.haloCompute bad t) s = .next s := by
  show execHaloCompute bad t s = _
  rw [execHaloCompute, h]
  rfl

/-! ### The limit set -/

theorem nth_map_range {α : Type} (f : Nat → α) (n k : Nat) (d : α) : nth ((List.range n).map f) k d = if k < n then f k else d := by
  unfold nth
  split_ifs with h
  · simp [h]
  · simp [Nat.not_lt.mp h]

theorem foldl_min_le (l : List Nat) (m : Nat) : l.foldl min m ≤ m ∧ ∀ x ∈ l, l.foldl min m ≤ x := by
  induction l generalizing m with
  | nil => exact ⟨le_rfl, fun x hx => absurd hx List.not_mem_nil⟩
  | cons y l ih =>
    obtain ⟨hm, hl⟩ := ih (min m y)
    rw [List.foldl_cons]
    exact ⟨hm.trans (min_le_left _ _), List.forall_mem_cons.mpr ⟨hm.trans (min_le_right _ _), hl⟩⟩

section
variable {s : State} {k : Nat}

theorem haloLim_noProfile (h : s.armProf k = none) : s.haloLim k = 0 := by
  simp [State.haloLim, h]

theorem haloSep_noProfile (h : s.armProf k = none) : s.haloSep k = 0 := by
  simp [State.haloSep, h]

theorem isNone_of_profile (h : s.armProf k ≠ none) : ¬ (s.armProf k).isNone = true := by
  rwa [Option.isNone_iff_eq_none]

/-- An arm without capsules has the limit of its profile. -/
theorem haloLim_noCapsules (h : s.armProf k ≠ none) (hc : ∀ c ∈ s.haloCaps.map Prod.fst, c.arm ≠ k) :
    s.haloLim k = nth s.prof.saf.vmaxc k 0 := by
  have hnone : (s.haloCaps.filter fun c => c.1.arm == k) = [] := by
    rw [List.filter_eq_nil_iff]
    exact fun c hmem => by simpa using hc c.1 (List.mem_map_of_mem hmem)
  rw [State.haloLim, if_neg (isNone_of_profile h), hnone]
  rfl

/-- The limit of an arm is at most that of each of its capsules. -/
theorem haloLim_le {c : CapState} (hc : c ∈ s.haloCaps.map Prod.fst) : s.haloLim c.arm ≤ c.lim := by
  obtain ⟨e, he, rfl⟩ := List.mem_map.mp hc
  have hmem : e.1.lim ∈ (s.haloCaps.filter fun c => c.1.arm == e.1.arm).map fun c => c.1.lim :=
    List.mem_map_of_mem (List.mem_filter.mpr ⟨he, beq_self_eq_true _⟩)
  unfold State.haloLim
  split_ifs
  · exact Nat.zero_le _
  · generalize (s.haloCaps.filter fun c => c.1.arm == e.1.arm).map (fun c => c.1.lim) = l at hmem
    cases l with
    | nil => exact absurd hmem List.not_mem_nil
    | cons x xs =>
      obtain ⟨hx, hxs⟩ := foldl_min_le xs x
      exact (List.mem_cons.mp hmem).elim (fun h => h ▸ hx) (hxs _)

theorem haloLims_le {c : CapState} (hc : c ∈ s.haloCaps.map Prod.fst) : nth s.haloLims c.arm 0 ≤ c.lim := by
  rw [State.haloLims, nth_map_range]
  split_ifs
  · exact haloLim_le hc
  · exact Nat.zero_le _

/-- Each capsule of a period comes from the frame stage. -/
theorem mem_haloCaps {c : CapState} (hc : c ∈ s.haloCaps.map Prod.fst) :
    ∃ p pairs, (c, c.overs == 2) ∈ s.haloCaps ∧ c = (s.capPeriod p pairs).1 := by
  obtain ⟨e, he, rfl⟩ := List.mem_map.mp hc
  obtain ⟨x, hx, rfl⟩ := List.mem_map.mp he
  exact ⟨x.1, x.2, by rw [← capPeriod_overspeed]; exact he, rfl⟩

theorem haloCaps_overspeed (h : ∃ c ∈ s.haloCaps.map Prod.fst, c.overs = 2) : s.haloCaps.any Prod.snd = true := by
  obtain ⟨c, hc, ho⟩ := h
  obtain ⟨-, -, hmem, -⟩ := mem_haloCaps hc
  exact List.any_eq_true.mpr ⟨_, hmem, beq_iff_eq.mpr ho⟩

end

end Sys2Proof.Machine
end

section
/-! What cores publish to Halo, and the frames exchanged with neighbour cells (R369, R374 to R378). -/

namespace Sys2Proof.Machine

/-- By computation this also holds of a state with other fields updated. -/
theorem sameCore_refl (s : State) : s.SameCore s := ⟨rfl, rfl, rfl, rfl, rfl, rfl, rfl, rfl⟩

/-! ### HPUB_CHECK -/

theorem hpubCheck_one {s : State} {c : Fin 9} {kind : Nat} {recs : List (List Byte)} (t : DWord) (hdue : s.haloTick = true)
    (hpubs : s.halo.pubs = [(c, kind, recs)]) : exec (.hpubCheck c t) s = .next (
      let s0 : State := { s with now := t, halo := { s.halo with pubs := [] } }
      let code := if kind = 0 then s.toolCheck c.val recs else s.claimCheck c.val recs
      (if code = 0 then s0.acceptPub c.val kind recs else s0.raise 0x1905 0 false (some (BitVec.ofNat 32 code))).gatePush
        (s.epoch + 1) 1 (.event (some c) (mkEv 0x12 kind code))) := by
  show execHpubCheck c t s = _
  unfold execHpubCheck
  rw [if_neg (by simp [hdue])]
  simp only [State.modHalo, State.atTime, hpubs, List.filter_cons, List.filter_nil, beq_self_eq_true, bne_self_eq_false, if_true,
    Bool.false_eq_true, if_false, List.foldl_cons, List.foldl_nil]
  rfl

/-! ### HALO_FRAME_SEND (R374, R429) -/

theorem haloFrameSend_off {s : State} (t : DWord) (h : s.maySend = false) : exec (.haloFrameSend t) s = .next s := by
  show execHaloFrameSend t s = _
  rw [execHaloFrameSend, h]
  rfl

theorem haloFrameSend_on {s : State} (t : DWord) (h : s.maySend = true) (hrun : s.running = true) :
    exec (.haloFrameSend t) s = .next (State.sendHalo s .b (State.sendHalo s .a (s.atTime t))) := by
  show execHaloFrameSend t s = _
  rw [execHaloFrameSend, h, hrun]
  rfl

/-- One entry of a channel takes its frames of the parts that are left. -/
def haloSlotStep (x : List Nat × List (Nat × Nat)) (e : MEntry) : List Nat × List (Nat × Nat) :=
  (x.1.drop (e.nfr + 1), x.2 ++ mapFrom (fun i o => (e.fid + i, 8 * e.start + o)) 0 (backToBack (x.1.take (e.nfr + 1))))

theorem haloSlots_eq (s : State) (ch : Channel) (lens : List Nat) :
    s.haloSlots ch lens = ((s.haloEntries ch).foldl haloSlotStep (lens, [])).2 := rfl

/-- Once every part has its slot, the entries that follow take nothing. -/
theorem foldl_haloSlotStep_nil (l : List MEntry) (acc : List (Nat × Nat)) : l.foldl haloSlotStep ([], acc) = ([], acc) := by
  induction l with
  | nil => rfl
  | cons e l ih => simpa [haloSlotStep, backToBack, mapFrom] using ih

/-- The slots of one part: the window of the channel's first entry (R427, R429). -/
theorem haloSlots_one {s : State} {ch : Channel} {e : MEntry} {r : List MEntry} (h : s.haloEntries ch = e :: r) (n : Nat) :
    s.haloSlots ch [n] = [(e.fid, 8 * e.start)] := by
  have hfirst : haloSlotStep ([n], []) e = ([], [(e.fid, 8 * e.start)]) := by simp [haloSlotStep, backToBack, mapFrom]
  rw [haloSlots_eq, h, List.foldl_cons, hfirst, foldl_haloSlotStep_nil]

/-- A channel without a HALO entry sends nothing. -/
theorem sendHalo_noEntries {s : State} {ch : Channel} (h : s.haloEntries ch = []) (u : State) : State.sendHalo s ch u = u := by
  unfold State.sendHalo
  extract_lets parts
  rw [haloSlots_eq, h, List.foldl_nil, List.zip_nil_right, List.foldl_nil]

/-- The one part of a Halo period begins with the number of its cell (R374). -/
theorem haloParts_one {s : State} (h : s.prof.saf.npart = 1) :
    ∃ b, s.haloParts = [b] ∧ b.take 1 = [BitVec.ofNat 8 s.prof.saf.cellNo.val] := by
  unfold State.haloParts
  rw [h]
  exact ⟨_, rfl, rfl⟩

/-- The one part of a Halo period leaves in the first window of the channel. -/
theorem sendHalo_one {s : State} {ch : Channel} {e : MEntry} {r : List MEntry} {b : List Byte} (hb : s.haloParts = [b])
    (h : s.haloEntries ch = e :: r) (u : State) : State.sendHalo s ch u =
      u.out (.sched ch (s.mkFrame 3 (BitVec.ofNat 12 e.fid) (BitVec.ofNat 64 (s.t0 s.epoch + 8 * e.start)) b)) := by
  unfold State.sendHalo
  extract_lets parts
  have hparts : parts = [b] := hb
  rw [hparts, List.map_singleton, haloSlots_one h]
  rfl

/-! ### HALO_FRAME_RECEIVE (R375) -/

/-- What is counted of a frame that is discarded. -/
theorem haloCopy_eq (s : State) (ch : Channel) (cell part : Nat) (f : Option SchedFrame) : ∃ mers reports free,
    (s.haloCopy ch cell part f).2 = { s with mers := mers, reports := s.reports ++ reports, free := free } := by
  have hnone : ∃ mers reports free, s = { s with mers := mers, reports := s.reports ++ reports, free := free } :=
    ⟨s.mers, [], s.free, by rw [List.append_nil]⟩
  cases f with
  | none => exact hnone
  | some f =>
    show ∃ mers reports free, s.countDiscard ch f (s.frameDiscard ch f) = _
    unfold State.countDiscard
    extract_lets m s1
    split
    · exact hnone
    · exact ⟨_, [], _, by rw [List.append_nil]⟩
    · exact ⟨_, [], _, by rw [List.append_nil]⟩
    · split
      · exact ⟨_, [], _, by rw [List.append_nil]⟩
      · exact ⟨_, _, _, rfl⟩

/-- A part of a sender kept, or dropped, with the copies that are missing. -/
def State.keepPart (s : State) (cell part : Fin 16) (x : Option (List Byte)) (miss : BitVec 2) (n : Nat) : State :=
  s.modNbr cell fun r => { r with
    parts := r.parts.filter (fun e => e.1 != part.val) ++ [(part.val, x)]
    missNow := r.missNow ||| miss, missed := satAdd 65535 r.missed n }

theorem modNbr_self (s : State) (c : Fin 16) (f : NbrRx → NbrRx) : (s.modNbr c f).halo.nbrs[c] = f s.halo.nbrs[c] :=
  Vector.getElem_set_self c.isLt

theorem modNbr_of_ne (s : State) {c d : Fin 16} (h : c ≠ d) (f : NbrRx → NbrRx) : (s.modNbr c f).halo.nbrs[d] = s.halo.nbrs[d] :=
  Vector.getElem_set_ne c.isLt d.isLt fun e => h (Fin.ext e)

theorem keepPart_part (s : State) (cell part : Fin 16) (x : Option (List Byte)) (miss : BitVec 2) (n : Nat) :
    (part.val, x) ∈ (s.keepPart cell part x miss n).halo.nbrs[cell].parts
      ∧ (s.keepPart cell part x miss n).halo.nbrs[cell].missNow = s.halo.nbrs[cell].missNow ||| miss := by
  rw [State.keepPart, modNbr_self]
  exact ⟨List.mem_append_right _ (List.mem_singleton_self _), rfl⟩

section
variable {s : State} {cell part : Fin 16} {ca cb : Option SchedFrame} {t : DWord}
  (hcell : s.nbrCells.contains cell = true)
include hcell

theorem haloFrameReceive_both {x y : List Byte}
    (hx : ((s.atTime t).haloCopy .a cell.val part.val ca).1 = some x)
    (hy : (((s.atTime t).haloCopy .a cell.val part.val ca).2.haloCopy .b cell.val part.val cb).1 = some y) :
    exec (.haloFrameReceive cell part ca cb t) s = .next (
      let u := (((s.atTime t).haloCopy .a cell.val part.val ca).2.haloCopy .b cell.val part.val cb).2
      if x = y then u.keepPart cell part (some x) 0 0
      else ((u.keepPart cell part none 0 0).modNbr cell fun r => { r with mismatch := satAdd 65535 r.mismatch 1 }).raise 0x1081 2) := by
  show execHaloFrameReceive cell part ca cb t s = _
  unfold execHaloFrameReceive
  rw [hcell]
  simp only [hx, hy, beq_iff_eq]
  rfl

theorem haloFrameReceive_onlyA {x : List Byte}
    (hx : ((s.atTime t).haloCopy .a cell.val part.val ca).1 = some x) :
    exec (.haloFrameReceive cell part ca none t) s =
      .next (((s.atTime t).haloCopy .a cell.val part.val ca).2.keepPart cell part (some x) 2 1) := by
  show execHaloFrameReceive cell part ca none t s = _
  unfold execHaloFrameReceive
  rw [hcell]
  simp only [hx]
  rfl

theorem haloFrameReceive_onlyB {y : List Byte}
    (hy : ((s.atTime t).haloCopy .b cell.val part.val cb).1 = some y) :
    exec (.haloFrameReceive cell part none cb t) s =
      .next (((s.atTime t).haloCopy .b cell.val part.val cb).2.keepPart cell part (some y) 1 1) := by
  have hy' : (((s.atTime t).haloCopy .a cell.val part.val none).2.haloCopy .b cell.val part.val cb).1 = some y := hy
  show execHaloFrameReceive cell part none cb t s = _
  unfold execHaloFrameReceive
  rw [hcell]
  simp only [hy']
  rfl

theorem haloFrameReceive_none : exec (.haloFrameReceive cell part none none t) s =
    .next ((s.atTime t).keepPart cell part none 3 2) := by
  show execHaloFrameReceive cell part none none t s = _
  unfold execHaloFrameReceive
  rw [hcell]
  rfl

end

/-! ### HALO_PERIOD_ACCEPT (R376) -/

/-- Every part of a period came and was kept. -/
def NbrRx.whole (r : NbrRx) (nparts : Nat) : Bool :=
  ((List.range nparts).map fun i => ((r.parts.find? fun e => e.1 == i).map Prod.snd).getD none).all Option.isSome

theorem partKept_iff (r : NbrRx) (i : Nat) : (((r.parts.find? fun e => e.1 == i).map Prod.snd).getD none).isSome = true ↔
    ∃ b, (r.parts.find? fun e => e.1 == i) = some (i, some b) := by
  cases h : r.parts.find? fun e => e.1 == i with
  | none => simp
  | some e =>
    obtain ⟨j, x⟩ := e
    have hj : j = i := by simpa using List.find?_some h
    simp [hj, Option.isSome_iff_exists]

theorem whole_iff (r : NbrRx) (n : Nat) : r.whole n = true ↔
    ∀ i : Nat, i < n → ∃ b, (r.parts.find? fun e => e.1 == i) = some (i, some b) := by
  rw [NbrRx.whole, List.all_map, List.all_eq_true]
  simp only [List.mem_range, Function.comp_apply, partKept_iff]

/-- What the end of a period leaves of a sender: no part waits, and the period is accepted exactly where it came whole. -/
theorem haloPeriodAccept_eq {s : State} {cell : Fin 16} {n : NbrProf} (t : DWord)
    (h : s.prof.saf.nbrs.find? (fun x => x.cell == cell) = some n) :
    let r := s.halo.nbrs[cell]
    let ok := r.whole n.nparts
    ∃ f : NbrRx → NbrRx, exec (.haloPeriodAccept cell t) s = .next (if !ok && r.lostArmed
        then ((s.atTime t).modNbr cell f).raise 0x1083 1 false (some (BitVec.ofNat 32 cell.val)) else (s.atTime t).modNbr cell f)
      ∧ (f r).parts = [] ∧ (f r).accepted = ok ∧ (f r).staged = ok ∧ (f r).lostRun = if ok then 0 else r.lostRun + 1 := by
  intro r ok
  show ∃ f : NbrRx → NbrRx, execHaloPeriodAccept cell t s = _ ∧ _
  unfold execHaloPeriodAccept
  rw [h]
  exact ⟨_, rfl, rfl, rfl, rfl, rfl⟩

/-! ### HALO_COPY_MISSING (R377) -/

/-- The channels whose run of misses is over the limit m and not yet raised. -/
def NbrRx.missDue (r : NbrRx) (m : Nat) : BitVec 2 :=
  BitVec.ofNat 2 (bnat (decide (m < r.missA)) + 2 * bnat (decide (m < r.missB))) &&& ~~~r.raised

theorem dueBits : ∀ (a b : Bool) (raised : BitVec 2), let due := BitVec.ofNat 2 (bnat a + 2 * bnat b) &&& ~~~raised
    due.getLsbD 0 = (a && !raised.getLsbD 0) ∧ due.getLsbD 1 = (b && !raised.getLsbD 1) := by
  decide

theorem bv2_eq_zero_iff : ∀ d : BitVec 2, d = 0 ↔ d.getLsbD 0 = false ∧ d.getLsbD 1 = false := by decide

theorem bv2_eq_three_iff : ∀ d : BitVec 2, d = 3 ↔ d.getLsbD 0 = true ∧ d.getLsbD 1 = true := by decide

section
variable (r : NbrRx) (m : Nat)

theorem missDue_bit0 : (r.missDue m).getLsbD 0 = true ↔ m < r.missA ∧ r.raised.getLsbD 0 = false := by
  rw [NbrRx.missDue, (dueBits _ _ _).1]
  simp

theorem missDue_bit1 : (r.missDue m).getLsbD 1 = true ↔ m < r.missB ∧ r.raised.getLsbD 1 = false := by
  rw [NbrRx.missDue, (dueBits _ _ _).2]
  simp

/-- A run over the limit is marked as raised, now or from before. -/
theorem raised_or_missDue_bit0 (h : m < r.missA) : (r.raised ||| r.missDue m).getLsbD 0 = true := by
  cases hr : r.raised.getLsbD 0 <;> simp [hr, missDue_bit0 r m, h]

theorem raised_or_missDue_bit1 (h : m < r.missB) : (r.raised ||| r.missDue m).getLsbD 1 = true := by
  cases hr : r.raised.getLsbD 1 <;> simp [hr, missDue_bit1 r m, h]

end

/-- The state with the due channels of a sender marked as raised. -/
def State.markMisses (s : State) (cell : Fin 16) (t : DWord) : State :=
  (s.atTime t).modNbr cell fun r => { r with raised := r.raised ||| s.halo.nbrs[cell].missDue s.prof.saf.missMax }

theorem markMisses_raised (s : State) (cell : Fin 16) (t : DWord) : (s.markMisses cell t).halo.nbrs[cell].raised =
    s.halo.nbrs[cell].raised ||| s.halo.nbrs[cell].missDue s.prof.saf.missMax := by
  rw [State.markMisses, modNbr_self]
  rfl

theorem haloCopyMissing_eq (s : State) (cell : Fin 16) (t : DWord) : exec (.haloCopyMissing cell t) s = .next (
    let due := s.halo.nbrs[cell].missDue s.prof.saf.missMax
    if due = 0 then s
    else if due = 3 then ((s.markMisses cell t).raise 0x1082 2 true).raise 0x1082 2 true
    else (s.markMisses cell t).raise 0x1082 2 true) := by
  show execHaloCopyMissing cell t s = _
  unfold execHaloCopyMissing
  extract_lets r m due s1
  simp only [beq_iff_eq]
  rfl

end Sys2Proof.Machine

open Sys2Proof Sys2Proof.Machine


theorem haloPeriodStart_results {s : State} (hrun : s.running = true) (hdue : s.epoch % s.prof.haloDiv = 0) :
    ∃ t : State, exec .haloPeriodStart s = .next t ∧ t.halo.period = s.halo.period + 1 ∧ t.saf.flowSig = s.prof.saf.flowSeed
      ∧ t.saf.flowDone = false ∧ t.saf.f3Prev = s.saf.f3Now ∧ t.saf.f3Now = none ∧ t.saf.mbx.seen = s.saf.mbx.busy
      ∧ t.saf.state = s.saf.state ∧ t.regs = s.regs ∧ t.data = s.data ∧ t.arms = s.arms := by
  obtain ⟨march, halo, nbrs, t, hexec, _, _, _, _, rfl, hperiod⟩ := haloPeriodStart_due hrun hdue
  exact ⟨_, hexec, hperiod, rfl, rfl, rfl, rfl, rfl, rfl, rfl, rfl, rfl⟩

theorem haloCompute_results {s : State} (bad : Bool) (t : DWord) (hdue : s.haloTick = true) :
    ∃ u : State, exec (.haloCompute bad t) s = .next u ∧ u.halo.lims.length = 8 ∧ u.halo.seps.length = 8 ∧ u.halo.first = false
      ∧ u.regs = s.regs ∧ u.data = s.data ∧ u.arms = s.arms ∧ u.saf.state = s.saf.state ∧ u.halo.period = s.halo.period
      ∧ (s.eph.replay = false → s.stopped 3 = false → u.gate = s.gate ++ [⟨s.epoch + 1, 1, .haloLimits u.halo.lims u.halo.seps⟩])
      ∧ (∀ k : Nat, k < 8 → s.armProf k = none → nth u.halo.lims k 0 = 0 ∧ nth u.halo.seps k 0 = 0)
      ∧ (∀ k : Nat, k < 8 → s.armProf k ≠ none → (∀ c ∈ u.halo.caps, c.arm ≠ k) → nth u.halo.lims k 0 = nth s.prof.saf.vmaxc k 0)
      ∧ (∀ c ∈ u.halo.caps, nth u.halo.lims c.arm 0 ≤ c.lim ∧ (s.saf.state = .hold → c.lim ≤ s.prof.slsMm)
          ∧ (s.halo.first = true → c.env = c.lim ∧ c.overs = 0) ∧ (s.saf.state = .sto → c.overs = 0))
      ∧ ((∃ c ∈ u.halo.caps, c.overs = 2) → ∃ r ∈ u.reports, r.code = 0x1901 ∧ r.cls = 3)
      ∧ (bad = true → u.saf.diagFail = true ∧ ∃ r ∈ u.reports, r.code = 0x1805 ∧ r.cls = 3) := by
  obtain ⟨latches, overlaps, conflict, l, free, diag, hexec, hover, hbad⟩ := haloCompute_due bad t hdue
  refine ⟨_, hexec, ?_⟩
  rw [gatePush_halo, gatePush_regs, gatePush_data, gatePush_arms, gatePush_saf, gatePush_reports]
  refine ⟨by simp [State.haloLims], by simp [State.haloSeps], rfl, rfl, rfl, rfl, rfl, rfl, ?gate, ?noProfile, ?noCapsules, ?caps,
    ?overspeed, ?injected⟩
  case gate =>
    intro hreplay hstopped
    refine gatePush_gate_of_running ?_ ?_
    · exact hreplay
    · exact hstopped
  case noProfile =>
    intro k hk hprof
    simp [State.haloLims, State.haloSeps, nth_map_range, hk, haloLim_noProfile hprof, haloSep_noProfile hprof]
  case noCapsules =>
    intro k hk hprof hnone
    rw [State.haloLims, nth_map_range, if_pos hk, haloLim_noCapsules hprof hnone]
  case caps =>
    intro c hc
    obtain ⟨p, pairs, -, rfl⟩ := mem_haloCaps hc
    exact ⟨haloLims_le hc, capPeriod_hold s p pairs, capPeriod_first s p pairs, capPeriod_sto s p pairs⟩
  case overspeed =>
    intro h
    obtain ⟨r, hr, hcode⟩ := hover (haloCaps_overspeed h)
    exact ⟨r, List.mem_append_right _ hr, hcode⟩
  case injected =>
    intro hb
    obtain ⟨hd, r, hr, hcode⟩ := hbad hb
    exact ⟨hd, r, List.mem_append_right _ hr, hcode⟩

theorem haloFrameSend_onePart {s : State} {ea eb : MEntry} {ra rb : List MEntry} (t : DWord) (hmay : s.maySend = true)
    (hrun : s.running = true) (hpart : s.prof.saf.npart = 1) (ha : s.haloEntries .a = ea :: ra) (hb : s.haloEntries .b = eb :: rb) :
    let at8 (e : MEntry) : DWord := BitVec.ofNat 64 (s.t0 s.epoch + 8 * e.start)
    ∃ (u : State) (fa fb : SchedFrame), exec (.haloFrameSend t) s = .next u ∧ u.outbox = s.outbox ++ [.sched .a fa, .sched .b fb]
      ∧ fa.cls = 3 ∧ fb.cls = 3 ∧ fa.fid = BitVec.ofNat 12 ea.fid ∧ fb.fid = BitVec.ofNat 12 eb.fid ∧ fa.start = at8 ea ∧ fb.start = at8 eb
      ∧ s.haloParts = [fa.payload] ∧ fb.payload = fa.payload ∧ fa.payload.take 1 = [BitVec.ofNat 8 s.prof.saf.cellNo.val]
      ∧ u.halo = s.halo ∧ s.SameCore u := by
  obtain ⟨b, hparts, hcell⟩ := haloParts_one hpart
  have hexec := haloFrameSend_on t hmay hrun
  rw [sendHalo_one hparts ha, sendHalo_one hparts hb] at hexec
  refine ⟨_, s.mkFrame 3 (BitVec.ofNat 12 ea.fid) _ b, s.mkFrame 3 (BitVec.ofNat 12 eb.fid) _ b, hexec, ?_,
    rfl, rfl, rfl, rfl, rfl, rfl, hparts, rfl, hcell, rfl, sameCore_refl s⟩
  exact List.append_assoc s.outbox [_] [_]

theorem haloFrameSend_noEntries {s : State} (t : DWord) (ha : s.haloEntries .a = []) (hb : s.haloEntries .b = []) :
    ∃ u : State, exec (.haloFrameSend t) s = .next u ∧ u.outbox = s.outbox := by
  by_cases hmay : s.maySend = true
  · by_cases hrun : s.running = true
    · refine ⟨_, haloFrameSend_on t hmay hrun, ?_⟩
      rw [sendHalo_noEntries ha, sendHalo_noEntries hb]
      rfl
    · exact ⟨s, by simp [exec, execHaloFrameSend, hrun], rfl⟩
  · exact ⟨s, haloFrameSend_off t (Bool.not_eq_true _ ▸ hmay), rfl⟩

theorem haloFrameReceive_twoCopies {s : State} {cell part : Fin 16} {ca cb : Option SchedFrame} (t : DWord) {x y : List Byte}
    (hcell : s.nbrCells.contains cell = true) (hx : ((s.atTime t).haloCopy .a cell.val part.val ca).1 = some x)
    (hy : (((s.atTime t).haloCopy .a cell.val part.val ca).2.haloCopy .b cell.val part.val cb).1 = some y) :
    ∃ u : State, exec (.haloFrameReceive cell part ca cb t) s = .next u ∧ s.SameCore u
      ∧ (x = y → (part.val, some x) ∈ u.halo.nbrs[cell].parts ∧ u.halo.nbrs[cell].missNow = s.halo.nbrs[cell].missNow)
      ∧ (x ≠ y → (part.val, none) ∈ u.halo.nbrs[cell].parts ∧ (∃ r ∈ u.reports, r.code = 0x1081 ∧ r.cls = 2)) := by
  have hexec := haloFrameReceive_both hcell hx hy
  obtain ⟨_, _, _, ha⟩ := haloCopy_eq (s.atTime t) .a cell.val part.val ca
  obtain ⟨_, _, _, hb⟩ := haloCopy_eq ((s.atTime t).haloCopy .a cell.val part.val ca).2 .b cell.val part.val cb
  rw [ha] at hb
  rw [ha, hb] at hexec
  dsimp only at hexec
  by_cases h : x = y
  · rw [if_pos h] at hexec
    obtain ⟨hpart, hmiss⟩ := keepPart_part _ cell part (some x) 0 0
    exact ⟨_, hexec, sameCore_refl s, fun _ => ⟨hpart, hmiss.trans BitVec.or_zero⟩, fun hne => absurd h hne⟩
  · rw [if_neg h] at hexec
    refine ⟨_, hexec, sameCore_refl s, fun e => absurd e h, fun _ => ⟨?_, ?_⟩⟩
    · show _ ∈ (State.modNbr _ cell _).halo.nbrs[cell].parts
      rw [modNbr_self]
      exact (keepPart_part _ cell part none 0 0).1
    · exact ⟨_, List.mem_append_right _ (List.mem_singleton_self _), rfl, rfl⟩

/-- What is kept of a part of which one copy came, whatever the frames that were discarded counted. -/
theorem keepPart_afterCopy {s : State} (t : DWord) (ch : Channel) (cell part : Fin 16) (f : Option SchedFrame) (x : List Byte)
    (miss : BitVec 2) (n : Nat) : let u := ((s.atTime t).haloCopy ch cell.val part.val f).2.keepPart cell part (some x) miss n
    s.SameCore u ∧ (part.val, some x) ∈ u.halo.nbrs[cell].parts
      ∧ u.halo.nbrs[cell].missNow = s.halo.nbrs[cell].missNow ||| miss := by
  obtain ⟨_, _, _, h⟩ := haloCopy_eq (s.atTime t) ch cell.val part.val f
  rw [h]
  exact ⟨sameCore_refl s, keepPart_part _ _ _ _ _ _⟩

theorem haloPeriodAccept_results {s : State} {cell : Fin 16} {n : NbrProf} (t : DWord)
    (h : s.prof.saf.nbrs.find? (fun x => x.cell == cell) = some n) :
    let r := s.halo.nbrs[cell]
    let whole := ∀ i : Nat, i < n.nparts → ∃ b, (r.parts.find? fun e => e.1 == i) = some (i, some b)
    ∃ u : State, exec (.haloPeriodAccept cell t) s = .next u ∧ s.SameCore u ∧ u.halo.nbrs[cell].parts = []
      ∧ (∀ c : Fin 16, c ≠ cell → u.halo.nbrs[c] = s.halo.nbrs[c])
      ∧ (whole → u.halo.nbrs[cell].accepted = true ∧ u.halo.nbrs[cell].staged = true ∧ u.halo.nbrs[cell].lostRun = 0 ∧ u.reports = s.reports)
      ∧ (¬ whole → u.halo.nbrs[cell].accepted = false ∧ u.halo.nbrs[cell].staged = false ∧ u.halo.nbrs[cell].lostRun = r.lostRun + 1
          ∧ u.reports = s.reports ++ (if r.lostArmed then [⟨0x1083, 1, false, t, BitVec.ofNat 32 cell.val⟩] else [])) := by
  intro r whole
  obtain ⟨f, hexec, hparts, hacc, hstaged, hrun⟩ := haloPeriodAccept_eq t h
  refine ⟨_, hexec, ?_⟩
  have hself : ((s.atTime t).modNbr cell f).halo.nbrs[cell] = f r := modNbr_self _ cell f
  have hother (c : Fin 16) (hc : c ≠ cell) : ((s.atTime t).modNbr cell f).halo.nbrs[c] = s.halo.nbrs[c] := modNbr_of_ne _ hc.symm f
  by_cases hw : whole
  · have hok : r.whole n.nparts = true := (whole_iff r n.nparts).mpr hw
    rw [hok] at hacc hstaged hrun ⊢
    refine ⟨sameCore_refl s, ?_, hother, fun _ => ?_, fun hn => absurd hw hn⟩
    · exact (congrArg NbrRx.parts hself).trans hparts
    · exact ⟨(congrArg NbrRx.accepted hself).trans hacc, (congrArg NbrRx.staged hself).trans hstaged,
        (congrArg NbrRx.lostRun hself).trans hrun, rfl⟩
  · have hok : r.whole n.nparts = false := Bool.eq_false_iff.mpr fun e => hw ((whole_iff r n.nparts).mp e)
    rw [hok] at hacc hstaged hrun ⊢
    have hall : (f r).accepted = false ∧ (f r).staged = false ∧ (f r).lostRun = r.lostRun + 1 := ⟨hacc, hstaged, hrun⟩
    rw [← hself] at hall hparts
    obtain ⟨hacc', hstaged', hrun'⟩ := hall
    cases harm : r.lostArmed with
    | true => exact ⟨sameCore_refl s, hparts, hother, fun e => absurd e hw, fun _ =>
        ⟨hacc', hstaged', hrun', rfl⟩⟩
    | false => exact ⟨sameCore_refl s, hparts, hother, fun e => absurd e hw, fun _ =>
        ⟨hacc', hstaged', hrun', (List.append_nil _).symm⟩⟩

theorem haloCopyMissing_none {s : State} {cell : Fin 16} (t : DWord) (ha : s.halo.nbrs[cell].missA ≤ s.prof.saf.missMax)
    (hb : s.halo.nbrs[cell].missB ≤ s.prof.saf.missMax) : exec (.haloCopyMissing cell t) s = .next s := by
  have hdue : s.halo.nbrs[cell].missDue s.prof.saf.missMax = 0 := (bv2_eq_zero_iff _).mpr
    ⟨Bool.eq_false_iff.mpr fun h => absurd ((missDue_bit0 _ _).mp h).1 ha.not_gt,
      Bool.eq_false_iff.mpr fun h => absurd ((missDue_bit1 _ _).mp h).1 hb.not_gt⟩
  rw [haloCopyMissing_eq]
  exact congrArg _ (if_pos hdue)

theorem haloCopyMissing_due {s : State} {cell : Fin 16} (t : DWord) : let r := s.halo.nbrs[cell]
    let m := s.prof.saf.missMax
    (m < r.missA ∧ r.raised.getLsbD 0 = false) ∨ (m < r.missB ∧ r.raised.getLsbD 1 = false) →
      ∃ u : State, exec (.haloCopyMissing cell t) s = .next u ∧ s.SameCore u
        ∧ (if (m < r.missA ∧ r.raised.getLsbD 0 = false) ∧ (m < r.missB ∧ r.raised.getLsbD 1 = false) then
            ∃ d1 d2 : Word, u.reports = s.reports ++ [⟨0x1082, 2, true, t, d1⟩, ⟨0x1082, 2, true, t, d2⟩]
          else s.Raised u 0x1082 2 true)
        ∧ (m < r.missA → u.halo.nbrs[cell].raised.getLsbD 0 = true) ∧ (m < r.missB → u.halo.nbrs[cell].raised.getLsbD 1 = true) := by
  intro r m hone
  have hmark : (m < r.missA → (s.markMisses cell t).halo.nbrs[cell].raised.getLsbD 0 = true)
      ∧ (m < r.missB → (s.markMisses cell t).halo.nbrs[cell].raised.getLsbD 1 = true) := by
    rw [markMisses_raised]
    exact ⟨raised_or_missDue_bit0 r m, raised_or_missDue_bit1 r m⟩
  have hexec := haloCopyMissing_eq s cell t
  have hne : r.missDue m ≠ 0 := fun h => by
    obtain ⟨h0, h1⟩ := (bv2_eq_zero_iff _).mp h
    rw [← missDue_bit0, ← missDue_bit1, h0, h1] at hone
    simp at hone
  rw [if_neg hne] at hexec
  have hboth : r.missDue m = 3 ↔ (m < r.missA ∧ r.raised.getLsbD 0 = false) ∧ (m < r.missB ∧ r.raised.getLsbD 1 = false) := by
    rw [bv2_eq_three_iff, missDue_bit0, missDue_bit1]
  by_cases h : r.missDue m = 3
  · rw [if_pos h] at hexec
    refine ⟨_, hexec, sameCore_refl s, ?_, hmark⟩
    rw [if_pos (hboth.mp h)]
    exact ⟨_, _, List.append_assoc s.reports [_] [_]⟩
  · rw [if_neg h] at hexec
    refine ⟨_, hexec, sameCore_refl s, ?_, hmark⟩
    rw [if_neg fun e => h (hboth.mpr e)]
    exact ⟨_, rfl⟩

/-- Settles O52: each operation of a Halo period by its case; a period is whole, or a run of misses due, as its sender's record says. -/
theorem haloResults : Obligations.HaloResults := by
  unfold Obligations.HaloResults
  refine ⟨fun s => haloPeriodStart_results, fun s => haloPeriodStart_notDue, encPlaus_eq, fun s => haloTickWindow_eq,
    fun s => haloCompute_results, fun s => haloCompute_notDue, fun s c kind recs t => hpubCheck_one t,
    fun s => haloFrameSend_off, fun s t ea eb ra rb => haloFrameSend_onePart t, fun s => haloFrameSend_noEntries, ?noCopies,
    ?twoCopies, ?oneCopy, fun s cell t n => haloPeriodAccept_results t, fun s cell t => ⟨haloCopyMissing_none t, haloCopyMissing_due t⟩⟩
  case noCopies => exact fun s cell part t hcell => haloFrameReceive_none hcell
  case twoCopies => exact fun s cell part ca cb t x y hcell => haloFrameReceive_twoCopies t hcell
  case oneCopy =>
    intro s cell part f t x hcell
    exact ⟨fun hx => ⟨_, haloFrameReceive_onlyA hcell hx, keepPart_afterCopy t .a cell part (some f) x 2 1⟩,
      fun hx => ⟨_, haloFrameReceive_onlyB hcell hx, keepPart_afterCopy t .b cell part (some f) x 1 1⟩⟩

end

section
/-! The quadrature decoder of a line and its index events (R56, R57, R59, R60, R63, R64). -/

namespace Sys2Proof.Machine

theorem modLine_self (s : State) (n : Fin 8) (f : Line → Line) : (s.modLine n f).lines[n] = f s.lines[n] :=
  Vector.getElem_set_self n.isLt

theorem modLine_of_ne (s : State) {n m : Fin 8} (h : m ≠ n) (f : Line → Line) : (s.modLine n f).lines[m] = s.lines[m] :=
  Vector.getElem_set_ne n.isLt m.isLt fun e => h (Fin.ext e.symm)

/-! ### The quadrature table (R57) -/

theorem quadStep_up : ∀ ab : BitVec 2, quadStep ab (upOf ab) = some 1 := by decide

theorem quadStep_down : ∀ ab : BitVec 2, quadStep (upOf ab) ab = some (-1) := by decide

theorem quadStep_both : ∀ old new : BitVec 2, new ^^^ old = 3 → quadStep old new = none := by decide

/-! ### A sample of the pair -/

/-- What the pair of a sample makes the decoder count (R57, R59). -/
def Line.counted (l : Line) (dir : Bool) (new : BitVec 2) (sample : Nat) : Line :=
  match quadStep l.ab new with
  | none => l.addQerr sample
  | some d => if d = 0 then l else l.addStep (if dir then -d else d)

/-- A line after a sample of its pair. -/
def Line.edge (l : Line) (p : LineProf) (new : BitVec 2) (sample : Nat) : Line :=
  { l.counted p.dir new sample with
    ab := new, zCond := (l.counted p.dir new sample).zCond && (p.idxMode != 2 || new == p.zqual) }

theorem lineEdge_eq (s : State) (n : Fin 8) (a b : BitVec 3) (sample : Nat) : exec (.lineEdge n a b sample) s =
    .next (s.modLine n fun _ => s.lines[n].edge (s.lineProf n.val) (abOf (majority a) (majority b)) sample) := rfl

section
variable {l : Line} {new : BitVec 2} (dir : Bool) (sample : Nat)

theorem counted_same (h : new = l.ab) : l.counted dir new sample = l := by
  simp [Line.counted, h, quadStep]

theorem counted_up (h : new = upOf l.ab) : l.counted dir new sample = l.addStep (if dir then -1 else 1) := by
  simp [Line.counted, h, quadStep_up]

theorem counted_down (h : l.ab = upOf new) : l.counted dir new sample = l.addStep (-(if dir then -1 else 1)) := by
  rw [Line.counted, h, quadStep_down]
  cases dir <;> rfl

theorem counted_both (h : new ^^^ l.ab = 3) : l.counted dir new sample = l.addQerr sample := by
  simp [Line.counted, quadStep_both _ _ h]

/-- A sample moves no latch and no latched fault. -/
theorem counted_latches (l : Line) (dir : Bool) (new : BitVec 2) (sample : Nat) :
    let l' := l.counted dir new sample
    l'.ext = l.ext ∧ l'.hwLatch = l.hwLatch ∧ l'.latch = l.latch ∧ l'.idxCnt = l.idxCnt ∧ l'.fault = l.fault := by
  unfold Line.counted
  split
  · exact ⟨rfl, rfl, rfl, rfl, rfl⟩
  · split <;> exact ⟨rfl, rfl, rfl, rfl, rfl⟩

end

/-- A QERR joins the window of R60, and brings nothing else into it. -/
theorem addQerr_window (l : Line) (sample : Nat) :
    sample ∈ (l.addQerr sample).window ∧ ∀ x, x ∈ (l.addQerr sample).window → x = sample ∨ x ∈ l.window :=
  ⟨List.mem_cons_self, fun _ hx => (List.mem_cons.mp hx).imp_right fun h => (List.mem_filter.mp h).1⟩

/-! ### Index events (R63, R64) -/

/-- A line after an index event, ahead of its period check. -/
def Line.indexed (l : Line) (t : DWord) : Line :=
  { l with idxSeen := true, idxCnt := l.liveCount, idxTime := t, idxRef := some (l.liveCount, l.dirLast, false) }

/-- An index event touches its own line, apart from a fault that it may raise. -/
theorem indexEvent_frame (s : State) (n : Fin 8) (t : DWord) :
    let u := s.indexEvent n t
    (∃ uncert, u.lines[n] = { s.lines[n].indexed t with uncert := uncert })
      ∧ (∀ m : Fin 8, m ≠ n → u.lines[m] = s.lines[m])
      ∧ u.now = s.now ∧ u.regs = s.regs ∧ u.arms = s.arms ∧ u.data = s.data := by
  have heq : ∃ uncert reports free, s.indexEvent n t =
      { s.modLine n fun l => { l.indexed t with uncert := uncert } with reports := reports, free := free } := by
    unfold State.indexEvent
    extract_lets p l c l1
    split
    · extract_lets delta off
      split_ifs <;> exact ⟨_, _, _, rfl⟩
    · exact ⟨_, _, _, rfl⟩
  obtain ⟨uncert, reports, free, heq⟩ := heq
  rw [heq]
  exact ⟨⟨uncert, modLine_self _ _ _⟩, fun m h => modLine_of_ne _ h _, rfl, rfl, rfl, rfl⟩

section
variable {s : State} {n : Fin 8} (t : DWord) {c0 : Int} {rev : Bool}
  (href : s.lines[n].idxRef = some (c0, s.lines[n].dirLast, rev))
include href

/-- The period check of an index event (R64) against the one before it, in the direction of the last step. -/
theorem indexEvent_of_ref : s.indexEvent n t = (
    let l := s.lines[n]
    let p := s.lineProf n.val
    let off := (((l.liveCount - c0).natAbs : Int) - p.period).natAbs
    if p.period = 0 ∨ rev = true ∨ l.dirLast = 0 then s.modLine n fun _ => l.indexed t
    else if off ≤ p.tol then s.modLine n fun _ => { l.indexed t with uncert := 0 }
    else (s.modLine n fun _ => { l.indexed t with uncert := min 65535 (max l.uncert off) }).raise 0x0E02 1) := by
  unfold State.indexEvent
  simp only [href, bne_self_eq_false, Bool.or_false, Bool.or_eq_true, decide_eq_true_eq, or_assoc]
  rfl

theorem indexEvent_verdict :
    let u := s.indexEvent n t
    let l := s.lines[n]
    let p := s.lineProf n.val
    let off := (((l.liveCount - c0).natAbs : Int) - p.period).natAbs
    (p.period = 0 ∨ rev = true ∨ l.dirLast = 0 → u.lines[n].uncert = l.uncert ∧ u.reports = s.reports)
      ∧ (p.period ≠ 0 → rev = false → l.dirLast ≠ 0 → off ≤ p.tol → u.lines[n].uncert = 0 ∧ u.reports = s.reports)
      ∧ (p.period ≠ 0 → rev = false → l.dirLast ≠ 0 → p.tol < off →
          u.lines[n].uncert = min 65535 (max l.uncert off)
            ∧ ∃ r ∈ u.reports, r.code = 0x0E02 ∧ r.cls = 1 ∧ r.stamp = s.now) := by
  rw [indexEvent_of_ref t href]
  have hchecked (hp : (s.lineProf n.val).period ≠ 0) (hrev : rev = false) (hdir : s.lines[n].dirLast ≠ 0) :
      ¬ ((s.lineProf n.val).period = 0 ∨ rev = true ∨ s.lines[n].dirLast = 0) :=
    not_or.mpr ⟨hp, not_or.mpr ⟨Bool.eq_false_iff.mp hrev, hdir⟩⟩
  refine ⟨fun h => ?unchecked, fun hp hrev hdir h => ?within, fun hp hrev hdir h => ?outside⟩
  case unchecked =>
    rw [if_pos h, modLine_self]
    exact ⟨rfl, rfl⟩
  case within =>
    rw [if_neg (hchecked hp hrev hdir), if_pos h, modLine_self]
    exact ⟨rfl, rfl⟩
  case outside =>
    rw [if_neg (hchecked hp hrev hdir), if_neg (Nat.not_le.mpr h), raise_lines, modLine_self]
    exact ⟨rfl, _, List.mem_append_right _ (List.mem_singleton_self _), rfl, rfl, rfl⟩

end

/-- The index condition of a sample (R63): the filtered index, qualified by the pair where the line says so. -/
def State.indexCond (s : State) (n : Fin 8) (z : BitVec 3) : Bool :=
  majority z && ((s.lineProf n.val).idxMode == 1 || ((s.lineProf n.val).idxMode == 2 && s.lines[n].ab == (s.lineProf n.val).zqual))

theorem lineIndex_eq (s : State) (n : Fin 8) (z : BitVec 3) (t : DWord) : exec (.lineIndex n z t) s = .next
    ((if s.indexCond n z && !s.lines[n].zCond then (s.atTime t).indexEvent n t else s.atTime t).modLine n fun l =>
      { l with zCond := s.indexCond n z }) := rfl

theorem lineIndex_event {s : State} {n : Fin 8} {z : BitVec 3} {t : DWord} (hc : s.indexCond n z = true)
    (hz : s.lines[n].zCond = false) : exec (.lineIndex n z t) s = .next
    (((s.atTime t).indexEvent n t).modLine n fun l => { l with zCond := s.indexCond n z }) := by
  rw [lineIndex_eq, hc, hz]
  rfl

theorem lineIndex_quiet {s : State} {n : Fin 8} {z : BitVec 3} {t : DWord}
    (h : ¬ (s.indexCond n z = true ∧ s.lines[n].zCond = false)) : exec (.lineIndex n z t) s = .next
    ((s.atTime t).modLine n fun l => { l with zCond := s.indexCond n z }) := by
  rw [lineIndex_eq, if_neg (by simpa using h)]

end Sys2Proof.Machine

open Sys2Proof Sys2Proof.Machine

/-- Settles O42: a sample of the pair by the quadrature table, and an index event by its period check. -/
theorem lineDecoderResults : Obligations.LineDecoderResults := by
  unfold Obligations.LineDecoderResults
  refine ⟨fun s n a b sample => ?edge, fun s n z t => ?index⟩
  case edge =>
    intro l new one
    obtain ⟨hext, hhwLatch, hlatch, hidxCnt, hfault⟩ := counted_latches l (s.lineProf n.val).dir new sample
    refine ⟨l.edge (s.lineProf n.val) new sample, lineEdge_eq s n a b sample, rfl, hext, hhwLatch, hlatch, hidxCnt, hfault,
      fun h => ?same, fun h => ?up, fun h => ?down, ?counts, fun h => ?qerr⟩
    case same => simp only [Line.edge, counted_same _ _ h]
    case up => simp only [Line.edge, counted_up _ _ h, Line.addStep, one]
    case down =>
      simp only [Line.edge, counted_down _ _ h, Line.addStep, one, BitVec.sub_eq_add_neg, BitVec.ofInt_neg]
    case counts =>
      rintro (h | h | h)
      · simp [Line.edge, counted_same _ _ h]
      · simp [Line.edge, counted_up _ _ h, Line.addStep]
      · simp [Line.edge, counted_down _ _ h, Line.addStep]
    case qerr =>
      obtain ⟨hmem, hold⟩ := addQerr_window l sample
      simp only [Line.edge, counted_both _ _ h]
      exact ⟨rfl, rfl, rfl, hmem, hold, rfl⟩
  case index =>
    intro l p cond
    by_cases hevent : cond = true ∧ l.zCond = false
    · obtain ⟨hc, hz⟩ := hevent
      obtain ⟨⟨uncert, hline⟩, hother, hnow, hregs, harms, hdata⟩ := indexEvent_frame (s.atTime t) n t
      refine ⟨_, lineIndex_event hc hz, hnow, ?zCond, ?hw, ?others, hregs, harms, hdata, ?quiet, fun _ _ => ?event⟩
      case zCond => rw [modLine_self]; rfl
      case hw => rw [modLine_self, hline]; rfl
      case others => exact fun m h => (modLine_of_ne _ h _).trans (hother m h)
      case quiet => exact fun h => by simp [hc, hz] at h
      case event =>
        intro c
        rw [modLine_self]
        exact ⟨by rw [hline]; rfl, by rw [hline]; rfl, by rw [hline]; rfl, fun c0 rev href =>
          indexEvent_verdict (s := s.atTime t) t href⟩
    · refine ⟨_, lineIndex_quiet hevent, rfl, ?zCond, ?hw, ?others, rfl, rfl, rfl, ?quiet,
        fun hc hz => absurd ⟨hc, hz⟩ hevent⟩
      case zCond => rw [modLine_self]; rfl
      case hw => rw [modLine_self]; rfl
      case others => exact fun m h => modLine_of_ne _ h _
      case quiet => exact fun _ => ⟨modLine_self _ _ _, rfl⟩

end

section
/-! The latch of a line, its fault, and the committed clears (R52, R60 to R62, R65, R66, R69, R70). -/

namespace Sys2Proof.Machine

/-! ### The latch of a tick -/

/-- Whether a line meets the fault condition at its latch: since the latch before, or in the window that a clear left (R60, R61). -/
def Line.faultsNow (l : Line) : Bool :=
  l.faultDue || match l.clrSample with | some x => decide (8 ≤ windowCount l.window x) | none => false

/-- A line after its latch at time t, shown where the line is enabled (R60, R69). -/
def Line.latched (l : Line) (en : Bool) (t : DWord) : Line :=
  { l.extend with
    fault := l.fault || l.faultsNow, faultDue := false, clrSample := none
    raised := if l.faultsNow && !l.fault then false else l.raised
    est := { l.est with ran := false }
    latch := if en then ⟨l.liveCount, t, l.uncert, l.qerr, l.fault || l.faultsNow, l.idxCnt, l.idxTime, l.idxSeen⟩ else {} }

section
variable {s : State} (n : Fin 8) (t : DWord)

theorem lineLatch_stopped (hrun : s.running = false) : exec (.lineLatch n t) s = .next s := by
  show execLineLatch n t s = _
  rw [execLineLatch, hrun]
  rfl

theorem lineLatch_replay (hrun : s.running = true) (hreplay : s.eph.replay = true) :
    exec (.lineLatch n t) s = .next (s.modLine n Line.extend) := by
  show execLineLatch n t s = _
  rw [execLineLatch, hrun, hreplay]
  rfl

theorem lineLatch_live (hrun : s.running = true) (hreplay : s.eph.replay = false) : exec (.lineLatch n t) s =
    .next (({ s with now := t } : State).modLine n fun _ => s.lines[n].latched (s.lineProf n.val).en t) := by
  show execLineLatch n t s = _
  rw [execLineLatch, hrun, hreplay]
  rfl

end

theorem lineIdleLatch_running {s : State} (h : s.running = true) : exec .lineIdleLatch s = .next s :=
  congrArg Host.Outcome.next (if_pos h)

theorem lineIdleLatch_stopped {s : State} (h : s.running = false) :
    exec .lineIdleLatch s = .next { s with lines := vmap (fun _ l => l.extend) s.lines } :=
  congrArg Host.Outcome.next (if_neg (Bool.eq_false_iff.mp h))

/-! ### LINE_FAULT -/

theorem lineFault_due {s : State} {n : Fin 8} (hfault : s.lines[n].fault = true) (hlatch : s.lines[n].latch.fault = true)
    (hraised : s.lines[n].raised = false) : exec (.lineFault n) s = .next
      ((s.modLine n fun l => { l with raised := true }).raiseAt s.lines[n].latch.time 0x0E01
        (if s.lineNamed n.val then 2 else 1) (s.lineNamed n.val) none) := by
  show execLineFault n s = _
  unfold execLineFault
  simp only [hfault, hlatch, hraised]
  rfl

theorem lineFault_raised {s : State} {n : Fin 8} (h : s.lines[n].raised = true) : exec (.lineFault n) s = .next s := by
  show execLineFault n s = _
  rw [execLineFault, h, Bool.not_true, Bool.and_false]
  rfl

/-! ### The committed clears (R61, R62) -/

theorem takeDue_waiting {s : State} {off bit : Nat} (h : bitOf (assoc 0 s.due off).toNat bit = true) :
    ∃ due, s.takeDue off bit = (true, { s with due := due }) :=
  ⟨_, if_pos h⟩

theorem takeDue_none {s : State} {off bit : Nat} (h : bitOf (assoc 0 s.due off).toNat bit = false) :
    s.takeDue off bit = (false, s) :=
  if_neg (Bool.eq_false_iff.mp h)

/-- A committed clear takes its bit away and, outside a replay, acts on its line; without the bit it does nothing. -/
theorem committedClear_eq (s : State) (n : Fin 8) (bit : Nat) (f : Line → Line) :
    let t := s.takeDue (linCtrlOff n.val) bit
    (if t.1 && !s.eph.replay then t.2.modLine n f else t.2) =
      if bitOf (assoc 0 s.due (linCtrlOff n.val)).toNat bit = true then
        (if s.eph.replay then t.2 else { t.2 with lines := s.lines.set n (f s.lines[n]) })
      else s := by
  cases h : bitOf (assoc 0 s.due (linCtrlOff n.val)).toNat bit with
  | false => rw [takeDue_none h]; rfl
  | true =>
    obtain ⟨due, ht⟩ := takeDue_waiting h
    rw [ht]
    cases s.eph.replay <;> rfl

end Sys2Proof.Machine

open Sys2Proof Sys2Proof.Machine

/-- Settles O43: the latch by the state of the sequencer and of the replay, the fault once, and the three clears by one rule. -/
theorem lineLatchAndClearResults : Obligations.LineLatchAndClearResults := by
  unfold Obligations.LineLatchAndClearResults
  refine ⟨fun s n t hrun hreplay => ?latch, fun s n t => lineLatch_stopped n t, fun s n t => lineLatch_replay n t,
    fun s hrun => ?idle, fun s => lineIdleLatch_running, fun s n => lineFault_due, fun s n => lineFault_raised,
    fun s n sample => congrArg Host.Outcome.next (committedClear_eq s n 0 _),
    fun s n => congrArg Host.Outcome.next (committedClear_eq s n 1 _),
    fun s n => congrArg Host.Outcome.next (committedClear_eq s n 2 _), fun s p t => ?sidereal⟩
  case latch =>
    intro l again ext fault
    have hfault : (l.fault || l.faultsNow) = fault := (Bool.or_assoc _ _ _).symm
    refine ⟨_, lineLatch_live n t hrun hreplay, rfl, rfl, rfl, hfault, rfl, rfl, ?_⟩
    rw [← hfault]
    rfl
  case idle => exact ⟨_, lineIdleLatch_stopped hrun, rfl, rfl, fun n => vmap_getElem _ _ _ n.isLt⟩
  case sidereal =>
    have hpath : ((s.atTime t).modPath p fun l => { l with readHigh := t.extractLsb' 32 32 }).pathOf p =
      { s.pathOf p with readHigh := t.extractLsb' 32 32 } := modPath_pathOf _ _ _
    exact ⟨_, rfl, rfl, rfl, congrArg PathLatch.readHigh hpath, (congrArg PathLatch.stagedLow hpath :), rfl, rfl, rfl⟩

end

section
/-! The laws of the fabric side of the MER block: its ports, the link frames it sends, and the bytes of their payloads
(R398, R409). -/

namespace Sys2Proof.Machine

/-! ### What a command of the fabric leaves alone -/

theorem State.SameCore.trans {s t u : State} (h : s.SameCore t) (h' : t.SameCore u) : s.SameCore u := by
  obtain ⟨hregs, hcores, hdata, harms, haux, hcascs, hsafety, hepoch⟩ := h
  obtain ⟨hregs', hcores', hdata', harms', haux', hcascs', hsafety', hepoch'⟩ := h'
  exact ⟨hregs'.trans hregs, hcores'.trans hcores, hdata'.trans hdata, harms'.trans harms, haux'.trans haux,
    hcascs'.trans hcascs, hsafety'.trans hsafety, hepoch'.trans hepoch⟩

/-! ### Ports -/

theorem modPort_port (s : State) (c : Channel) (p : LPort) (f : MerPort → MerPort) :
    (s.modPort c p f).port c p = f (s.port c p) :=
  Vector.getElem_set_self (portIdx c p).isLt

theorem modPort_of_ne (s : State) {c : Channel} {p : LPort} {i : Fin 4} (h : i ≠ portIdx c p) (f : MerPort → MerPort) :
    (s.modPort c p f).mer.ports[i] = s.mer.ports[i] :=
  Vector.getElem_set_ne (portIdx c p).isLt i.isLt fun e => h (Fin.ext e.symm)

theorem modPort_congr {s : State} {c : Channel} {p : LPort} {f g : MerPort → MerPort} (h : f (s.port c p) = g (s.port c p)) :
    s.modPort c p f = s.modPort c p g :=
  congrArg (fun x => { s with mer := { s.mer with ports := s.mer.ports.set (portIdx c p) x } }) h

theorem portIdx_mem_allPorts (i : Fin 4) : ∃ e ∈ allPorts, portIdx e.1 e.2 = i := by
  revert i
  decide

theorem portIdx_inj {e e' : Channel × LPort} (h : portIdx e.1 e.2 = portIdx e'.1 e'.2) : e = e' := by
  obtain ⟨c, p⟩ := e
  obtain ⟨c', p'⟩ := e'
  revert h
  cases c <;> cases p <;> cases c' <;> cases p' <;> decide

/-- A fold over the four ports that changes each port in its own step leaves every port so changed. -/
theorem foldl_allPorts {f : State → Channel × LPort → State} {g : Fin 4 → MerPort → MerPort}
    (hself : ∀ st e, (f st e).port e.1 e.2 = g (portIdx e.1 e.2) (st.port e.1 e.2))
    (hother : ∀ st e (i : Fin 4), i ≠ portIdx e.1 e.2 → (f st e).mer.ports[i] = st.mer.ports[i]) (s : State) (i : Fin 4) :
    (allPorts.foldl f s).mer.ports[i] = g i s.mer.ports[i] := by
  have hne {a b : Channel × LPort} (h : a ≠ b) : portIdx b.1 b.2 ≠ portIdx a.1 a.2 := fun e => h (portIdx_inj e.symm)
  obtain ⟨-, hdone, -⟩ := foldl_each (f := f) (I := fun _ => True) (Q := fun e st => st.port e.1 e.2 = s.port e.1 e.2)
    (R := fun e st => st.port e.1 e.2 = g (portIdx e.1 e.2) (s.port e.1 e.2)) (fun _ _ _ => trivial)
    (fun st e _ h => by rw [hself, h]) (fun st a b h _ hb => (hother st a _ (hne h)).trans hb)
    (fun st a b h _ hb => (hother st a _ (hne h)).trans hb) (l := allPorts) (by decide) (st := s) trivial (fun _ _ => rfl)
  obtain ⟨e, he, rfl⟩ := portIdx_mem_allPorts i
  exact hdone e he

/-! ### Bytes -/

theorem bytesAt_length (l : List Byte) (off n : Nat) : (bytesAt l off n).length = n := by
  simp [bytesAt]

theorem bytesAt_append_left {a b : List Byte} {off n : Nat} (h : off + n ≤ a.length) :
    bytesAt (a ++ b) off n = bytesAt a off n :=
  List.map_congr_left fun i hi => List.getD_append _ _ _ _ (by have := List.mem_range.mp hi; omega)

theorem bytesAt_append_right {a : List Byte} {k : Nat} (h : a.length = k) (b : List Byte) (n : Nat) :
    bytesAt (a ++ b) k n = bytesAt b 0 n :=
  List.map_congr_left fun i _ => by
    rw [nth, List.getD_append_right _ _ _ _ (by omega), h, Nat.add_sub_cancel_left, nth, Nat.zero_add]

theorem bytesAt_self (l : List Byte) : bytesAt l 0 l.length = l := by
  refine List.ext_getElem (bytesAt_length _ _ _) fun i h _ => ?_
  simp only [bytesAt, List.getElem_map, List.getElem_range, Nat.zero_add, nth]
  exact List.getD_eq_getElem _ _ _

@[simp] theorem leBytes_length (v n : Nat) : (leBytes v n).length = n := by
  induction n generalizing v with
  | zero => rfl
  | succ n ih => simp [leBytes, ih]

theorem leVal_leBytes (v n : Nat) : leVal (leBytes v n) = v % 256 ^ n := by
  induction n generalizing v with
  | zero => simp [leBytes, leVal, Nat.mod_one]
  | succ n ih =>
    rw [leBytes, leVal, ih, BitVec.toNat_ofNat, show 256 ^ (n + 1) = 256 * 256 ^ n from Nat.pow_succ', Nat.mod_mul]

/-- A number laid out little-endian after k bytes is read back there. -/
theorem valAt_leBytes {a : List Byte} {k : Nat} (h : a.length = k) (v n : Nat) (b : List Byte) :
    valAt (a ++ (leBytes v n ++ b)) k n = v % 256 ^ n := by
  rw [valAt, bytesAt_append_right h, bytesAt_append_left (by simp), ← leVal_leBytes]
  congr 1
  simpa using bytesAt_self (leBytes v n)

theorem valAt_pad20 (b : List Byte) {off n : Nat} (h : off + n ≤ 20) : valAt (pad20 b) off n = valAt b off n := by
  refine congrArg leVal (List.map_congr_left fun i hi => ?_)
  have hi' := List.mem_range.mp hi
  rw [nth, List.getD_eq_getElem _ _ (by rw [pad20, bytesAt_length]; omega)]
  simp [pad20, bytesAt]

/-! ### Link frames (R398) -/

/-- The link frame that `sendLink` puts on a port: the next SEQ of its type, the own UID and address, and its check value. -/
def State.linkFrame (s : State) (type scope : Byte) (payload : List Byte) : LinkFrame :=
  let f : LinkFrame := ⟨type, scope, assoc (0 : Byte) s.mer.seqs type.toNat, 0, s.uid,
    (match s.mer.addr with | some a => BitVec.ofNat 16 a | none => 0xFFFF), pad20 payload, 0⟩
  { f with crc := crc32c 0xFFFFFFFF (LinkFrame.body f) }

theorem linkFrame_ok (s : State) {type : Byte} (h : 1 ≤ type.toNat ∧ type.toNat ≤ 8) (scope : Byte) (payload : List Byte) :
    LinkFrame.ok (s.linkFrame type scope payload) = true := by
  have hlen : (s.linkFrame type scope payload).payload.length = 20 := bytesAt_length _ _ _
  have hcrc : (s.linkFrame type scope payload).crc = crc32c 0xFFFFFFFF (LinkFrame.body (s.linkFrame type scope payload)) := rfl
  have htype : (s.linkFrame type scope payload).type = type := rfl
  rw [LinkFrame.ok, hlen, ← hcrc, htype]
  simp [h.1, h.2]

/-- Between s and t link frames were sent, and nothing changed but the counts of the types. -/
def State.Sends (s t : State) (l : List Out) : Prop :=
  ∃ seqs, t = { s with outbox := s.outbox ++ l, mer := { s.mer with seqs := seqs } }

theorem sends_nil (s : State) : s.Sends s [] := ⟨s.mer.seqs, by rw [List.append_nil]⟩

theorem State.Sends.trans {s t u : State} {l l' : List Out} (h : s.Sends t l) (h' : t.Sends u l') : s.Sends u (l ++ l') := by
  obtain ⟨_, rfl⟩ := h
  obtain ⟨_, rfl⟩ := h'
  exact ⟨_, by rw [← List.append_assoc]⟩

theorem State.Sends.sameCore {s t : State} {l : List Out} (h : s.Sends t l) : s.SameCore t := by
  obtain ⟨_, rfl⟩ := h
  exact sameCore_refl s

theorem State.Sends.now {s t : State} {l : List Out} (h : s.Sends t l) : t.now = s.now := by
  obtain ⟨_, rfl⟩ := h
  rfl

theorem State.Sends.outbox {s t : State} {l : List Out} (h : s.Sends t l) : t.outbox = s.outbox ++ l := by
  obtain ⟨_, rfl⟩ := h
  rfl

theorem State.Sends.mer {s t : State} {l : List Out} (h : s.Sends t l) : ∃ seqs, t.mer = { s.mer with seqs := seqs } := by
  obtain ⟨seqs, rfl⟩ := h
  exact ⟨seqs, rfl⟩

theorem State.Sends.port {s t : State} {l : List Out} (h : s.Sends t l) (c : Channel) (p : LPort) : t.port c p = s.port c p := by
  obtain ⟨_, rfl⟩ := h
  rfl

theorem foldl_sends {α : Type} {f : State → α → State} (h : ∀ (s : State) (x : α), ∃ l, s.Sends (f s x) l)
    (s : State) (xs : List α) : ∃ l, s.Sends (xs.foldl f s) l := by
  induction xs generalizing s with
  | nil => exact ⟨[], sends_nil s⟩
  | cons x xs ih =>
    obtain ⟨l, hl⟩ := h s x
    obtain ⟨l', hl'⟩ := ih (f s x)
    exact ⟨_, hl.trans hl'⟩

theorem sendLink_sends (s : State) (c : Channel) (p : LPort) (type scope : Byte) (payload : List Byte) :
    s.Sends (s.sendLink c p type scope payload) [.link c p (s.linkFrame type scope payload)] := ⟨_, rfl⟩

/-- COLDSTART goes out on each of the four ports (R400, R401). -/
theorem sendColdstart_sends (s : State) : ∃ l, s.Sends s.sendColdstart l ∧ l.length = 4 := by
  let step (st : State) (e : Channel × LPort) : State :=
    st.sendLink e.1 e.2 1 1 (leBytes st.ownKey 8 ++ [BitVec.ofNat 8 st.prof.mer.csaddr])
  have h (st : State) (e : Channel × LPort) : st.Sends (step st e) [_] := sendLink_sends st e.1 e.2 _ _ _
  exact ⟨_, (((h s _).trans (h _ _)).trans (h _ _)).trans (h _ _), rfl⟩

theorem sendEnum_sends (s : State) (c : Channel) (p : LPort) : ∃ l, s.Sends (s.sendEnum c p) l := by
  unfold State.sendEnum
  extract_lets m path block
  split_ifs
  · exact ⟨_, sendLink_sends _ _ _ _ _ _⟩
  · exact ⟨_, sends_nil s⟩

theorem sendEnums_sends (s : State) : ∃ l, s.Sends s.sendEnums l := by
  unfold State.sendEnums
  refine foldl_sends (fun st e => ?_) s allPorts
  exact sendEnum_sends st e.1 e.2

theorem sendNodeAddrs_sends (s : State) : ∃ l, s.Sends s.sendNodeAddrs l := by
  unfold State.sendNodeAddrs
  split_ifs
  · exact ⟨_, sends_nil s⟩
  refine foldl_sends (fun st e => ?_) s allPorts
  split_ifs
  · exact foldl_sends (fun st n => ⟨_, sendLink_sends st _ _ _ _ _⟩) st _
  · exact ⟨_, sends_nil st⟩

theorem enumsAndNodeAddrs_sends (s : State) : ∃ l, s.Sends s.sendEnums.sendNodeAddrs l := by
  obtain ⟨l, hl⟩ := sendEnums_sends s
  obtain ⟨l', hl'⟩ := sendNodeAddrs_sends s.sendEnums
  exact ⟨_, hl.trans hl'⟩

end Sys2Proof.Machine

end

section
/-! Port states and repeated frames (R392, R393, R409). -/

namespace Sys2Proof.Machine

theorem foldl_sameCore {α : Type} {f : State → α → State} (h : ∀ (s : State) (x : α), s.SameCore (f s x))
    (s : State) (l : List α) : s.SameCore (l.foldl f s) := by
  induction l generalizing s with
  | nil => exact sameCore_refl s
  | cons x l ih => exact (h s x).trans (ih (f s x))

/-! ### The fall to DOWN -/

/-- A port that has fallen to DOWN. -/
def MerPort.fallen (x : MerPort) : MerPort :=
  { x with state := .down, downs := min 255 (x.downs + 1), peerTrain := false, samples := [], req := none }

/-- A port after a loss of its link: fallen, unless it is DOWN or BLOCKED. -/
def MerPort.fall (x : MerPort) : MerPort := if x.state = .down ∨ x.state = .blocked then x else x.fallen

theorem fall_state {x : MerPort} (h : x.state ≠ .blocked) : x.fall.state = .down := by
  by_cases hd : x.state = .down <;> simp [MerPort.fall, MerPort.fallen, h, hd]

theorem portFall_eq (s : State) (c : Channel) (p : LPort) : s.portFall c p =
    if (s.port c p).state = .down ∨ (s.port c p).state = .blocked then s
    else { s.modPort c p MerPort.fallen with
      reports := s.reports ++ [⟨0x1001, 1, false, s.now, BitVec.ofNat 32 ((chanIdx c).val * 256 + portNo p)⟩] } := by
  unfold State.portFall
  simp only [Bool.or_eq_true, beq_iff_eq]
  rfl

theorem portFall_sameCore (s : State) (c : Channel) (p : LPort) : s.SameCore (s.portFall c p) := by
  rw [portFall_eq]
  split_ifs <;> exact sameCore_refl s

theorem portFall_port (s : State) (c : Channel) (p : LPort) : (s.portFall c p).port c p = (s.port c p).fall := by
  rw [portFall_eq, MerPort.fall]
  split_ifs
  · rfl
  · exact modPort_port s c p _

theorem portFall_of_ne (s : State) {c : Channel} {p : LPort} {i : Fin 4} (h : i ≠ portIdx c p) :
    (s.portFall c p).mer.ports[i] = s.mer.ports[i] := by
  rw [portFall_eq]
  split_ifs
  · rfl
  · exact modPort_of_ne s h _

/-! ### Retrains and blocked ports -/

theorem merRetrain_eq (s : State) (mask : BitVec 4) (t : DWord) : exec (.merRetrain mask t) s =
    .next ((s.atTime t).retrain mask) := rfl

theorem merPortdis_eq (s : State) (mask : BitVec 4) (t : DWord) : exec (.merPortdis mask t) s =
    .next ((s.atTime t).portdis mask) := rfl

theorem retrain_sameCore (s : State) (mask : BitVec 4) : s.SameCore (s.retrain mask) := by
  refine foldl_sameCore (fun st e => ?_) s allPorts
  split_ifs
  · exact portFall_sameCore st e.1 e.2
  · exact sameCore_refl st

theorem retrain_ports (s : State) (mask : BitVec 4) (i : Fin 4) : (s.retrain mask).mer.ports[i] =
    if mask.getLsbD i.val then s.mer.ports[i].fall else s.mer.ports[i] := by
  refine foldl_allPorts (g := fun i x => if mask.getLsbD i.val then x.fall else x) (fun st e => ?self) (fun st e i hi => ?other) s i
  case self =>
    split_ifs
    · exact portFall_port st e.1 e.2
    · rfl
  case other =>
    split_ifs
    · exact portFall_of_ne st hi
    · rfl

/-- What a write of PORTDIS makes of a port, by its bit: blocked, or released from it. -/
def MerPort.dis (x : MerPort) (bit : Bool) : MerPort :=
  if bit then { x with state := .blocked, peerTrain := false, samples := [], req := none }
  else if x.state == .blocked then { x with state := .down } else x

theorem portdis_sameCore (s : State) (mask : BitVec 4) :
    (s.setReg 0x100030 (BitVec.ofNat 32 mask.toNat)).SameCore (s.portdis mask) :=
  foldl_sameCore (fun st _ => sameCore_refl st) _ allPorts

theorem portdis_ports (s : State) (mask : BitVec 4) (i : Fin 4) :
    (s.portdis mask).mer.ports[i] = s.mer.ports[i].dis (mask.getLsbD i.val) :=
  foldl_allPorts (g := fun i x => x.dis (mask.getLsbD i.val)) (fun st e => modPort_port st e.1 e.2 _)
    (fun st _ _ hi => modPort_of_ne st hi _) (s.setReg 0x100030 (BitVec.ofNat 32 mask.toNat)) i

theorem dis_state (x : MerPort) (bit : Bool) :
    (x.dis bit).state = if bit = true then .blocked else if x.state = .blocked then .down else x.state := by
  cases bit
  · by_cases h : x.state = .blocked <;> simp [MerPort.dis, h]
  · rfl

/-! ### Training and the READY port -/

theorem trainSend_eq (s : State) (c : Channel) (p : LPort) : exec (.trainSend c p) s =
    .next (if (s.port c p).state = .down then s.out (.train c p) else s) := by
  show execTrainSend c p s = _
  simp only [execTrainSend, beq_iff_eq]

theorem trainReceive_down {s : State} {c : Channel} {p : LPort} (h : (s.port c p).state = .down) : exec (.trainReceive c p) s =
    .next (if s.boot.stage < 7 then s else
      s.modPort c p fun x => { x with state := .train, peerTrain := true, retrains := min 255 (x.retrains + 1) }) := by
  show execTrainReceive c p s = _
  rw [execTrainReceive, h]
  rfl

theorem trainReceive_train {s : State} {c : Channel} {p : LPort} (h : (s.port c p).state = .train) : exec (.trainReceive c p) s =
    .next (s.modPort c p fun x => { x with peerTrain := true }) := by
  show execTrainReceive c p s = _
  rw [execTrainReceive, h]

theorem linkMeasure_eq (s : State) (c : Channel) (p : LPort) : exec (.linkMeasure c p) s =
    .next (if (s.port c p).state = .train ∧ (s.port c p).peerTrain = true then
      s.modPort c p fun x => { x with state := .measure, samples := [], req := none } else s) := by
  show execLinkMeasure c p s = _
  simp only [execLinkMeasure, Bool.and_eq_true, beq_iff_eq]

/-- A port becomes READY (R409): it is due with 16 samples at basic cycle 0. -/
def State.readyDue (s : State) (c : Channel) (p : LPort) (t : DWord) : Prop :=
  (s.port c p).state = .measure ∧ (s.port c p).samples.length = 16 ∧ t.toNat / s.tTick % 64 = 0

theorem readyDue_iff (s : State) (c : Channel) (p : LPort) (t : DWord) : s.readyDue c p t ↔
    ((s.port c p).state == .measure && (s.port c p).samples.length == 16 && s.cycleOf t % 64 == 0) = true := by
  simp [State.readyDue, State.cycleOf, and_assoc]

theorem linkReady_notDue {s : State} {c : Channel} {p : LPort} {t : DWord} (h : ¬ s.readyDue c p t) :
    exec (.linkReady c p t) s = .next (s.atTime t) :=
  congrArg Host.Outcome.next (if_neg ((readyDue_iff s c p t).not.mp h))

theorem linkReady_due {s : State} {c : Channel} {p : LPort} {t : DWord} (h : s.readyDue c p t) : exec (.linkReady c p t) s = .next (
    let s1 := (s.atTime t).modPort c p fun x => { x with state := .ready }
    if s.mer.addr.isSome || s.isLodestar then
      (if s.mer.number.isSome then (s1.sendEnum c p).sendNodeAddrs else s1.sendEnum c p)
    else s1) :=
  congrArg Host.Outcome.next (if_pos ((readyDue_iff s c p t).mp h))

/-- Where a port becomes READY, only link frames follow. -/
theorem linkReady_sends {s : State} {c : Channel} {p : LPort} {t : DWord} (h : s.readyDue c p t) :
    ∃ u l, exec (.linkReady c p t) s = .next u ∧ ((s.atTime t).modPort c p fun x => { x with state := .ready }).Sends u l := by
  rw [linkReady_due h]
  obtain ⟨l, hl⟩ := sendEnum_sends ((s.atTime t).modPort c p fun x => { x with state := .ready }) c p
  split_ifs
  · obtain ⟨l', hl'⟩ := sendNodeAddrs_sends (((s.atTime t).modPort c p fun x => { x with state := .ready }).sendEnum c p)
    exact ⟨_, _, rfl, hl.trans hl'⟩
  · exact ⟨_, _, rfl, hl⟩
  · exact ⟨_, _, rfl, sends_nil _⟩

/-! ### Repeating (R392, R393) -/

/-- A schedule frame that ends in ABORT is counted at the port that received it. -/
def State.countAbort (s : State) (c : Channel) (p : LPort) (abort : Bool) : State :=
  if abort then s.modPort c p fun x => { x with aborts := min 65535 (x.aborts + 1) } else s

theorem countAbort_aborts (s : State) (c : Channel) (p : LPort) (abort : Bool) : ((s.countAbort c p abort).port c p).aborts =
    if abort then min 65535 ((s.port c p).aborts + 1) else (s.port c p).aborts := by
  cases abort
  · rfl
  · exact congrArg MerPort.aborts (modPort_port s c p _)

theorem countAbort_sameCore (s : State) (c : Channel) (p : LPort) (abort : Bool) : s.SameCore (s.countAbort c p abort) := by
  cases abort <;> exact sameCore_refl s

theorem countAbort_outbox (s : State) (c : Channel) (p : LPort) (abort : Bool) : (s.countAbort c p abort).outbox = s.outbox := by
  cases abort <;> rfl

section
variable {s : State} {c : Channel} {p : LPort}

section
variable (h : (s.port c p).state ≠ .ready ∨ (s.port c (otherPort p)).state ≠ .ready)
include h

theorem notBothReady : ((s.port c p).state == .ready && (s.port c (otherPort p)).state == .ready) = false := by
  simpa [or_iff_not_imp_left] using h

theorem frameRepeat_sched_notReady (g : SchedFrame) :
    exec (.frameRepeat c p (.sched g)) s = .next (s.countAbort c p g.abort) := by
  show execFrameRepeat c p (.sched g) s = _
  simp only [execFrameRepeat, notBothReady h]
  rfl

theorem frameRepeat_link_notReady (g : LinkFrame) : exec (.frameRepeat c p (.link g)) s = .next s := by
  show execFrameRepeat c p (.link g) s = _
  simp only [execFrameRepeat, notBothReady h]
  rfl

end

section
variable (hp : (s.port c p).state = .ready) (hq : (s.port c (otherPort p)).state = .ready)
include hp hq

theorem frameRepeat_sched_ready (g : SchedFrame) : exec (.frameRepeat c p (.sched g)) s =
    .next ((s.countAbort c p g.abort).out (.repeated c (otherPort p) (.sched g) 92 (g.abort || !SchedFrame.crcOk g))) := by
  show execFrameRepeat c p (.sched g) s = _
  simp only [execFrameRepeat, hp, hq]
  rfl

theorem frameRepeat_link_ready (g : LinkFrame) : exec (.frameRepeat c p (.link g)) s =
    .next (if g.scope ≠ 1 ∨ (g.type, g.uid, g.seq) ∈ s.mer.flood then s
    else (s.out (.repeated c (otherPort p) (.link g) 92 (g.crc != crc32c 0xFFFFFFFF (LinkFrame.body g)))).modMer fun m =>
      { m with flood := ((g.type, g.uid, g.seq) :: m.flood).take 8 }) := by
  show execFrameRepeat c p (.link g) s = _
  simp only [execFrameRepeat, hp, hq, beq_self_eq_true, Bool.and_self, Bool.not_true, Bool.false_or, Bool.or_eq_true, bne_iff_ne,
    List.contains_iff_mem]
  rfl

end

end

end Sys2Proof.Machine

end

section
/-! The cold-start contest, and the link delay samples (R48, R400 to R403). -/

namespace Sys2Proof.Machine

/-! ### What a cold start changes -/

/-- Between s and t nothing changed but the time, what is sent, the faults on their way, and the fabric beside its ports. -/
def State.OnlyContest (s t : State) : Prop :=
  ∃ now outbox free reports mer, t = { s with now := now, outbox := outbox, free := free, reports := reports, mer := mer }
    ∧ mer.ports = s.mer.ports

theorem State.OnlyContest.refl (s : State) : s.OnlyContest s := ⟨_, _, _, _, _, rfl, rfl⟩

theorem State.OnlyContest.trans {s t u : State} (h : s.OnlyContest t) (h' : t.OnlyContest u) : s.OnlyContest u := by
  obtain ⟨_, _, _, _, _, rfl, hp⟩ := h
  obtain ⟨_, _, _, _, _, rfl, hp'⟩ := h'
  exact ⟨_, _, _, _, _, rfl, hp'.trans hp⟩

theorem State.OnlyContest.sameCore {s t : State} (h : s.OnlyContest t) : s.SameCore t := by
  obtain ⟨_, _, _, _, _, rfl, _⟩ := h
  exact sameCore_refl s

theorem State.OnlyContest.ports {s t : State} (h : s.OnlyContest t) : t.mer.ports = s.mer.ports := by
  obtain ⟨_, _, _, _, _, rfl, hp⟩ := h
  exact hp

theorem State.Sends.onlyContest {s t : State} {l : List Out} (h : s.Sends t l) : s.OnlyContest t := by
  obtain ⟨_, rfl⟩ := h
  exact ⟨_, _, _, _, _, rfl, rfl⟩

theorem atTime_onlyContest (s : State) (t : DWord) : s.OnlyContest (s.atTime t) := ⟨_, _, _, _, _, rfl, rfl⟩

theorem modMer_onlyContest (s : State) {f : Mer → Mer} (h : (f s.mer).ports = s.mer.ports) : s.OnlyContest (s.modMer f) :=
  ⟨_, _, _, _, _, rfl, h⟩

theorem raise_onlyContest (s : State) (code cls : Nat) (hold : Bool) (d : Option Word) :
    s.OnlyContest (s.raise code cls hold d) := by
  cases d <;> exact ⟨_, _, _, _, _, rfl, rfl⟩

theorem contend_onlyContest (s : State) (t : DWord) : s.OnlyContest (s.contend t) := by
  obtain ⟨l, hsend, -⟩ := sendColdstart_sends s
  exact hsend.onlyContest.trans (modMer_onlyContest _ rfl)

/-- A contender has sent COLDSTART on its four ports and waits out its window (R400). -/
theorem contend_results (s : State) (t : DWord) : (s.contend t).mer.cold = .contend (t.toNat + 50000)
    ∧ (s.contend t).mer.contests = s.mer.contests ∧ (s.contend t).outbox.length = s.outbox.length + 4 := by
  obtain ⟨l, hsend, hl⟩ := sendColdstart_sends s
  obtain ⟨seqs, hmer⟩ := hsend.mer
  refine ⟨rfl, (congrArg Mer.contests hmer :), ?_⟩
  show s.sendColdstart.outbox.length = _
  rw [hsend.outbox, List.length_append, hl]

/-! ### COLDSTART_LISTEN_END and COLDSTART_RECEIVE (R400, R401) -/

theorem coldstartListenEnd_eq {s : State} {stop : Nat} (h : s.mer.cold = .listen stop) (t : DWord) :
    exec (.coldstartListenEnd t) s = .next (if stop ≤ t.toNat then (s.atTime t).contend t else s) := by
  show execColdstartListenEnd t s = _
  rw [execColdstartListenEnd, h]
  rfl

theorem coldstartReceive_onlyContest (s : State) (c : Channel) (p : LPort) (f : LinkFrame) (t : DWord) :
    ∃ u, exec (.coldstartReceive c p f t) s = .next u ∧ s.OnlyContest u := by
  show ∃ u, execColdstartReceive c p f t s = .next u ∧ _
  unfold execColdstartReceive
  extract_lets s0 key own beacon clash
  refine ⟨_, rfl, (atTime_onlyContest s t).trans ?_⟩
  have hclash (st : State) : st.OnlyContest (clash st) := (modMer_onlyContest st rfl).trans (raise_onlyContest _ _ _ _ _)
  have hcontest {u : State} (h : (s0.modMer fun m => { m with contests := satAdd 255 m.contests 1 }).OnlyContest u) :
      s0.OnlyContest u := (modMer_onlyContest s0 rfl).trans h
  split
  · exact .refl _
  split
  case h_1 => -- a listener
    split_ifs
    · exact modMer_onlyContest s0 rfl
    · exact hcontest (modMer_onlyContest _ rfl)
    · exact hcontest (hclash _)
    · exact hcontest (contend_onlyContest _ t)
  case h_2 => -- a contender
    split_ifs
    · exact modMer_onlyContest s0 rfl
    · exact hcontest (modMer_onlyContest _ rfl)
    · exact hcontest (hclash _)
    · exact hcontest (.refl _)
  case h_3 => -- a lodestar, which may meet the beacon of a second one
    have hdual : s0.OnlyContest (if s.mer.dual then s0 else (s0.modMer fun m => { m with dual := true }).raise 0x1003 1) := by
      split_ifs
      · exact .refl s0
      · exact (modMer_onlyContest s0 rfl).trans (raise_onlyContest _ _ _ _ _)
    split
    · split
      · exact hdual
      · exact hdual.trans (modMer_onlyContest _ rfl)
    · split
      · exact hclash s0
      · exact .refl s0
  case h_4 => -- a follower
    split_ifs
    · exact modMer_onlyContest s0 rfl
    · exact .refl s0
  case h_5 => exact .refl s0

/-- A state at time t with one more contest counted. -/
def State.contestCounted (s : State) (t : DWord) : State :=
  (s.atTime t).modMer fun m => { m with contests := min 255 (m.contests + 1) }

/-- A contest against the key of another COLDSTART (R400): the lower key wins it, equal keys clash, and a listener that holds the
lower key contends in its turn. -/
def State.contest (s : State) (key : Nat) (listens : Bool) (t : DWord) : State :=
  if key < s.ownKey then (s.contestCounted t).modMer fun m => m.follow 2
  else if key = s.ownKey then ((s.contestCounted t).modMer fun m => { m with cold := .clash, result := 4 }).raise 0x1002 1
  else if listens then (s.contestCounted t).contend t else s.contestCounted t

theorem coldstartReceive_contest {s : State} {c : Channel} {p : LPort} {f : LinkFrame} {t : DWord} {stop : Nat}
    (hok : LinkFrame.ok f = true) (htype : f.type = 1) (hport : (s.port c p).state ≠ .blocked) (hbeacon : s.isBeacon t = false)
    (hcold : s.mer.cold = .listen stop ∨ s.mer.cold = .contend stop) : exec (.coldstartReceive c p f t) s =
      .next (s.contest (valAt f.payload 0 8 % 2 ^ 52) (s.mer.cold == .listen stop) t) := by
  show execColdstartReceive c p f t s = _
  unfold execColdstartReceive
  extract_lets s0 key own beacon clash
  have htaken : (!LinkFrame.ok f || f.type != 1 || (s.port c p).state == .blocked) = false := by simp [hok, htype, hport]
  have hb : beacon = false := hbeacon
  rcases hcold with h | h
  · simp only [htaken, hb, h, Bool.false_eq_true, if_false, State.contest, beq_self_eq_true, if_true]
    rfl
  · have hne : (ColdStart.contend stop == .listen stop) = false := rfl
    simp only [htaken, hb, h, hne, Bool.false_eq_true, if_false, State.contest]
    rfl

theorem contest_results (s : State) (key : Nat) (listens : Bool) (t : DWord) :
    let u := s.contest key listens t
    u.mer.contests = min 255 (s.mer.contests + 1)
      ∧ (key < s.ownKey → u.mer.cold = .follower ∧ (s.mer.result = 0 → u.mer.result = 2))
      ∧ (key = s.ownKey → u.mer.cold = .clash ∧ u.mer.result = 4 ∧ s.Raised u 0x1002 1 false)
      ∧ (s.ownKey < key → u.mer.cold = if listens then .contend (t.toNat + 50000) else s.mer.cold) := by
  rcases Nat.lt_trichotomy key s.ownKey with h | h | h
  · rw [State.contest, if_pos h]
    exact ⟨rfl, fun _ => ⟨rfl, fun hr => if_pos hr⟩, fun e => absurd e h.ne, fun hgt => absurd hgt h.asymm⟩
  · rw [State.contest, if_neg h.not_lt, if_pos h]
    exact ⟨rfl, fun hlt => absurd h hlt.ne, fun _ => ⟨rfl, rfl, _, rfl⟩, fun hgt => absurd h hgt.ne'⟩
  · rw [State.contest, if_neg h.asymm, if_neg h.ne']
    refine ⟨?_, fun hlt => absurd hlt h.asymm, fun e => absurd e h.ne', fun _ => ?_⟩
    · obtain ⟨-, hcount, -⟩ := contend_results (s.contestCounted t) t
      cases listens
      · rfl
      · exact hcount
    · cases listens <;> rfl

/-! ### COLDSTART_WINDOW_END, LODESTAR_BEACON and MER_NO_LODESTAR (R48, R401, R402) -/

/-- A contender that held its claim to the end of its window, ahead of what it then sends. -/
def State.claimed (s : State) : State :=
  ({ s.crystal with now := BitVec.ofNat 64 (coldSidereal s.coarseNow.toNat) } : State).modMer fun m => { m with
    cold := .lodestar, result := 1, sync := .locked, joining := false, addr := some 0, number := some 0
    hops := 0, path := Vector.replicate 2 (some 0), lsKey := s.ownKey, mask := 1 }

theorem coldSidereal_eq (n : Nat) : coldSidereal n = (n + 3999999999) / 2000000000 * 2000000000 := by
  simp only [coldSidereal, Nat.add_assoc, Nat.reduceAdd]

theorem claimed_now (s : State) :
    s.claimed.now = BitVec.ofNat 64 ((s.coarseNow.toNat + 3999999999) / 2000000000 * 2000000000) :=
  congrArg (BitVec.ofNat 64) (coldSidereal_eq s.coarseNow.toNat)

theorem coldstartWindowEnd_eq {s : State} {stop : Nat} (h : s.mer.cold = .contend stop) (t : DWord) :
    exec (.coldstartWindowEnd t none) s = .next (if stop ≤ t.toNat then s.claimed.sendEnums.sendNodeAddrs else s) := by
  show execColdstartWindowEnd t none s = _
  rw [execColdstartWindowEnd, h]
  rfl

theorem lodestarBeacon_due {s : State} {t : DWord} (h : s.isLodestar = true) (ht : t.toNat / s.tTick % 64 = 0) :
    exec (.lodestarBeacon t) s = .next (s.atTime t).sendColdstart :=
  congrArg Host.Outcome.next (if_pos (by simp [h, State.cycleOf, ht]))

theorem merNoLodestar_eq {s : State} {b : Nat} (t : DWord) (hb : s.mer.stage7 = some b) (hpermit : s.prof.mer.permit = false)
    (hsync : s.mer.syncCycle = none) : exec (.merNoLodestar t) s = .next (
      if s.mer.noLode = false ∧ b + 1000000000 ≤ t.toNat then
        ((s.atTime t).modMer fun m => { m with noLode := true }).raise 0x1009 1
      else s) := by
  show execMerNoLodestar t s = _
  rw [execMerNoLodestar, hb, hpermit, hsync]
  simp
  rfl

/-! ### Link delay (R403) -/

theorem delayReqSend_notLinked {s : State} {c : Channel} {p : LPort} (t1 : DWord) (h : (s.port c p).linked = false) :
    exec (.delayReqSend c p t1) s = .next s :=
  congrArg Host.Outcome.next (if_neg (Bool.eq_false_iff.mp h))

theorem delayReqSend_linked {s : State} {c : Channel} {p : LPort} (t1 : DWord) (h : (s.port c p).linked = true) :
    exec (.delayReqSend c p t1) s = .next (((s.atTime t1).sendLink c p 2 0 []).modPort c p fun x =>
      { x with req := some ((s.linkFrame 2 0 []).seq, t1) }) :=
  congrArg Host.Outcome.next (if_pos h)

/-- The payload of DELAY_RESP: T2, T3, RPTLAT and the SEQ of the request. -/
def delayResp (t2 t3 : DWord) (seq : Byte) : List Byte :=
  leBytes t2.toNat 8 ++ leBytes t3.toNat 8 ++ leBytes (16 * rptlatNs) 2 ++ [seq]

theorem delayReqReceive_linked {s : State} {c : Channel} {p : LPort} {f : LinkFrame} (t2 t3 : DWord) (hok : LinkFrame.ok f = true)
    (htype : f.type = 2) (h : (s.port c p).linked = true) :
    exec (.delayReqReceive c p f t2 t3) s = .next ((s.atTime t3).sendLink c p 3 0 (delayResp t2 t3 f.seq)) :=
  congrArg Host.Outcome.next (if_pos (by simp [hok, htype, h]))

theorem delayResp_fields (t2 t3 : DWord) (seq : Byte) :
    valAt (pad20 (delayResp t2 t3 seq)) 0 8 = t2.toNat ∧ valAt (pad20 (delayResp t2 t3 seq)) 8 8 = t3.toNat
      ∧ valAt (pad20 (delayResp t2 t3 seq)) 16 2 = 1472 ∧ valAt (pad20 (delayResp t2 t3 seq)) 18 1 = seq.toNat := by
  have hword (v : DWord) : v.toNat % 256 ^ 8 = v.toNat := Nat.mod_eq_of_lt v.isLt
  rw [valAt_pad20 _ (by decide), valAt_pad20 _ (by decide), valAt_pad20 _ (by decide), valAt_pad20 _ (by decide)]
  refine ⟨?_, ?_, ?_, ?_⟩
  · rw [delayResp, List.append_assoc, List.append_assoc, ← List.nil_append (leBytes t2.toNat 8 ++ _),
      valAt_leBytes (a := []) (k := 0) rfl, hword]
  · rw [delayResp, List.append_assoc, List.append_assoc, valAt_leBytes (leBytes_length _ _), hword]
  · rw [delayResp, List.append_assoc, valAt_leBytes (by simp)]
    rfl
  · rw [delayResp, valAt, bytesAt_append_right (by simp)]
    simp [bytesAt, nth, leVal]

theorem delayRespReceive_sample {s : State} {c : Channel} {p : LPort} {f : LinkFrame} {t4 t1 : DWord} {seq : Byte}
    (hreq : (s.port c p).req = some (seq, t1)) (hlinked : (s.port c p).linked = true) (hok : LinkFrame.ok f = true)
    (htype : f.type = 3) (hseq : valAt f.payload 18 1 = seq.toNat) : exec (.delayRespReceive c p f t4) s = .next (
      let x : Int := 8 * (((t4.toNat : Int) - t1.toNat) - ((valAt f.payload 8 8 : Int) - valAt f.payload 0 8))
        - nth s.prof.mer.asym (portIdx c p).val 0
      (s.atTime t4).modPort c p fun q => { q with
        samples := execDelayRespReceive.keepLast16 (q.samples ++ [x]), req := none, rptlat := valAt f.payload 16 2 }) := by
  show execDelayRespReceive c p f t4 s = _
  rw [execDelayRespReceive, hreq]
  exact congrArg Host.Outcome.next (if_pos (by simp [hlinked, hok, htype, hseq]))

theorem keepLast16_of_le {l : List Int} (h : l.length ≤ 16) : execDelayRespReceive.keepLast16 l = l := by
  rw [execDelayRespReceive.keepLast16, Nat.sub_eq_zero_of_le h]
  rfl

end Sys2Proof.Machine

open Sys2Proof Sys2Proof.Machine

/-- Settles O57: each command of a port by its state, and each outcome of the cold start by the keys of R400. -/
theorem linkAndColdStartResults : Obligations.LinkAndColdStartResults := by
  unfold Obligations.LinkAndColdStartResults
  refine ⟨fun s c p t => congrArg Host.Outcome.next (portFall_eq (s.atTime t) c p),
    fun s c p => ⟨trainSend_eq s c p, trainReceive_down, trainReceive_train, linkMeasure_eq s c p⟩,
    fun s c p t => ?ready, fun s mask t => ?ports, fun s c p => ?repeated, fun s stop t hcold => ?listen,
    fun s c p f t stop hok htype hport hbeacon => ?contest, fun s t stop hcold => ?claim, fun s t hlode ht => ?beacon,
    fun s t b hb hpermit hsync => ?noLodestar, fun s c p t1 => ⟨delayReqSend_notLinked t1, fun h => ?request⟩,
    fun s c p f t2 t3 hok htype h => ?response, fun s c p f t4 t1 seq hreq hlinked hlen hok htype hseq => ?sample⟩
  case ready =>
    refine ⟨linkReady_notDue, fun hdue haddr hlode => ?_, fun hdue => ?_⟩
    · rw [linkReady_due hdue, haddr, hlode]
      rfl
    · obtain ⟨u, l, hexec, hsend⟩ := linkReady_sends hdue
      exact ⟨u, hexec, hsend.sameCore, by rw [hsend.port, modPort_port]⟩
  case ports =>
    refine ⟨_, _, merRetrain_eq s mask t, merPortdis_eq s mask t, retrain_sameCore (s.atTime t) mask, ?_⟩
    obtain ⟨hregs, hcores, hdata, -⟩ := portdis_sameCore (s.atTime t) mask
    refine ⟨hdata, hcores, (reg_congr hregs _).trans (by rw [reg_setReg, if_pos rfl]), fun i => ?_⟩
    have hr := retrain_ports (s.atTime t) mask i
    have hd : ((s.atTime t).portdis mask).mer.ports[i].state = _ :=
      (congrArg MerPort.state (portdis_ports (s.atTime t) mask i)).trans (dis_state _ _)
    refine ⟨fun h => ?_, fun h hb => ?_, fun h => ?_, fun h => ?_⟩
    · rw [hr, h]; rfl
    · rw [hr, h]; exact fall_state hb
    · rw [hd, h]; rfl
    · rw [hd, h]; rfl
  case repeated =>
    refine ⟨fun h => ⟨frameRepeat_link_notReady h, frameRepeat_sched_notReady h⟩, fun hp hq =>
      ⟨fun g => ?_, fun g => ?_⟩⟩
    · exact ⟨_, frameRepeat_sched_ready hp hq g, countAbort_sameCore s c p g.abort,
        congrArg (· ++ _) (countAbort_outbox s c p g.abort), countAbort_aborts s c p g.abort⟩
    · rw [frameRepeat_link_ready hp hq g]
      exact ⟨fun h => by rw [if_pos h], fun hscope hnew =>
        ⟨_, congrArg Host.Outcome.next (if_neg (not_or.mpr ⟨not_not.mpr hscope, hnew⟩)), sameCore_refl s, rfl, rfl⟩⟩
  case listen =>
    obtain ⟨hcontend, -, houtbox⟩ := contend_results (s.atTime t) t
    rw [coldstartListenEnd_eq hcold]
    exact ⟨fun h => by rw [if_neg (Nat.not_le.mpr h)], fun h => ⟨_, congrArg Host.Outcome.next (if_pos h), hcontend, houtbox,
      (contend_onlyContest (s.atTime t) t).sameCore⟩⟩
  case contest =>
    intro key
    obtain ⟨u, hexec, honly⟩ := coldstartReceive_onlyContest s c p f t
    refine ⟨u, hexec, honly.sameCore, honly.ports, fun hcold => ?_⟩
    have hcontest := coldstartReceive_contest hok htype hport hbeacon hcold
    rw [Host.Outcome.next.inj (hexec.symm.trans hcontest)]
    obtain ⟨hcount, hlower, hequal, hhigher⟩ := contest_results s key (s.mer.cold == .listen stop) t
    exact ⟨hcount, hlower, hequal, fun h => (hhigher h).trans (if_congr beq_iff_eq rfl rfl)⟩
  case claim =>
    obtain ⟨l, hl⟩ := enumsAndNodeAddrs_sends s.claimed
    obtain ⟨seqs, hmer⟩ := hl.mer
    have hcore : s.SameCore s.claimed := sameCore_refl s
    rw [coldstartWindowEnd_eq hcold]
    refine ⟨fun h => by rw [if_neg (Nat.not_le.mpr h)], fun h => ⟨_, congrArg Host.Outcome.next (if_pos h), ?_⟩⟩
    rw [hmer]
    exact ⟨rfl, rfl, rfl, rfl, rfl, rfl, hl.now.trans (claimed_now s), hcore.trans hl.sameCore⟩
  case beacon =>
    obtain ⟨l, hsend, hl⟩ := sendColdstart_sends (s.atTime t)
    exact ⟨_, lodestarBeacon_due hlode ht, by rw [hsend.outbox, List.length_append, hl]; rfl, hsend.sameCore⟩
  case noLodestar =>
    rw [merNoLodestar_eq t hb hpermit hsync]
    refine ⟨fun h => ?_, fun hno h => ⟨_, congrArg Host.Outcome.next (if_pos ⟨hno, h⟩), ?_⟩⟩
    · rw [if_neg fun hall => h.elim (fun e => by simp [hall.1] at e) (Nat.not_lt.mpr hall.2)]
    · exact ⟨rfl, ⟨_, rfl⟩, sameCore_refl s⟩
  case request =>
    refine ⟨_, s.linkFrame 2 0 [], delayReqSend_linked t1 h, sameCore_refl s, rfl, rfl, rfl,
      linkFrame_ok s (by decide) 0 [], ?_⟩
    rw [modPort_port]
  case response =>
    obtain ⟨ht2, ht3, hrptlat, hseq⟩ := delayResp_fields t2 t3 f.seq
    exact ⟨_, s.linkFrame 3 0 (delayResp t2 t3 f.seq), delayReqReceive_linked t2 t3 hok htype h, sameCore_refl s,
      rfl, rfl, ht2, ht3, hrptlat, hseq⟩
  case sample =>
    intro x
    rw [delayRespReceive_sample hreq hlinked hok htype hseq]
    have hkept := keepLast16_of_le (l := (s.port c p).samples ++ [x]) (by rw [List.length_append]; exact hlen)
    exact congrArg Host.Outcome.next (modPort_congr (congrArg
      (fun l => { s.port c p with samples := l, req := none, rptlat := valAt f.payload 16 2 }) hkept))

end

section
/-! Sync frames, the clock correction, and the states of synchronisation (R49 to R51, R404, R405, R410, R420, R421). -/

namespace Sys2Proof.Machine

/-! ### SYNC_SEND (R49, R421) -/

theorem mkFrame_crcOk (s : State) (cls : BitVec 4) (fid : BitVec 12) (t : DWord) (payload : List Byte) :
    SchedFrame.crcOk (s.mkFrame cls fid t payload) = true :=
  beq_self_eq_true _

/-- The payload of the sync frame of a basic cycle. -/
def State.syncPayload (s : State) (t : DWord) : List Byte :=
  let n := s.cycleOf t
  let pr := s.prof
  leBytes (n * s.tTick) 8 ++ leBytes (n / 64) 4
    ++ [BitVec.ofNat 8 (n % 64), BitVec.ofNat 8 (rateCode pr.rate), BitVec.ofNat 8 (bnat pr.mer.asSteer), 0]
    ++ leBytes pr.guard 2 ++ leBytes pr.arbStart 2 ++ leBytes pr.arbEnd 2 ++ leBytes pr.msLen 2

theorem syncPayload_length (s : State) (t : DWord) : (s.syncPayload t).length = 24 := by
  simp [State.syncPayload]

theorem syncPayload_take (s : State) (t : DWord) : (s.syncPayload t).take 8 = leBytes (t.toNat / s.tTick * s.tTick) 8 := by
  unfold State.syncPayload
  simp only [List.append_assoc]
  exact List.take_left' (leBytes_length _ _)

theorem syncSend_notLodestar {s : State} (t : DWord) (plant : Option DWord) (h : s.isLodestar = false) :
    exec (.syncSend t plant) s = .next s := by
  show execSyncSend t s plant = _
  rw [execSyncSend, h]
  rfl

theorem syncSend_lodestar {s : State} (t : DWord) (plant : Option DWord) (h : s.isLodestar = true)
    (hreplay : s.eph.replay = false) : exec (.syncSend t plant) s = .next (
      let u := s.steer t plant
      let f := u.mkFrame 0 0 t (u.syncPayload t)
      ((u.atTime t).out (.sched .a f)).out (.sched .b f)) := by
  show execSyncSend t s plant = _
  rw [execSyncSend, h, hreplay]
  rfl

/-- A clamp about 0 moves a value no further from one that lies within it. -/
theorem clampAbs_near {b r x k : Int} (hr : -b ≤ r ∧ r ≤ b) (hx : -k ≤ x - r ∧ x - r ≤ k) :
    (-k ≤ clampAbs b x - r ∧ clampAbs b x - r ≤ k) ∧ -b ≤ clampAbs b x ∧ clampAbs b x ≤ b := by
  unfold clampAbs clampInt
  omega

/-- A rate steered by a step toward the time a, seen at the time t. -/
def steered (r step : Int) (t a : Nat) : Int := if t < a then r + step else if a < t then r - step else r

theorem steered_near {step : Int} (h : 0 ≤ step) (r : Int) (t a : Nat) :
    -step ≤ steered r step t a - r ∧ steered r step t a - r ≤ step := by
  unfold steered
  split_ifs <;> omega

/-- Steering (R49) touches the rate alone, where it is enabled and the plant time is there, and no further than 1 ppm per second. -/
theorem steer_eq (s : State) (t : DWord) (plant : Option DWord) :
    ∃ free rate, s.steer t plant = { s with free := free, mer := { s.mer with rate := rate } }
      ∧ (s.prof.mer.asSteer = false ∨ plant = none → rate = s.mer.rate)
      ∧ (s.mer.rate.natAbs ≤ 13107200 →
        (rate - s.mer.rate).natAbs * 1000000000 ≤ 65536 * s.tTick ∧ rate.natAbs ≤ 13107200) := by
  unfold State.steer
  split
  next a hsteer =>
    extract_lets d step
    refine ⟨_, clampAbs (200 * 65536) (steered s.mer.rate step t.toNat a.toNat), rfl, fun h => by simp [hsteer] at h,
      fun hr => ?_⟩
    have hlo : 0 ≤ step := Int.emod_nonneg _ (by omega)
    have hhi : step < 65536 * s.tTick / 1000000000 + 1 := Int.emod_lt_of_pos _ (by omega)
    obtain ⟨⟨hdown, hup⟩, hmin, hmax⟩ := clampAbs_near (b := 200 * 65536) (r := s.mer.rate) (by omega)
      (steered_near hlo s.mer.rate t.toNat a.toNat)
    omega
  next =>
    exact ⟨s.free, s.mer.rate, rfl, fun _ => rfl, fun hr => ⟨by simp, hr⟩⟩

/-! ### SYNC_RECEIVE (R394, R404, R405, R410, R420, R431) -/

/-- A frame of the format of a sync frame (R420, R421). -/
def SchedFrame.isSync (f : SchedFrame) : Prop := f.cls = 0 ∧ f.fid = 0 ∧ f.payload.length = 24 ∧ f.rsv = 0

theorem isSync_iff (f : SchedFrame) :
    SchedFrame.isSync f ↔ ¬ ((f.cls != 0 || f.fid != 0 || f.payload.length != 24 || f.rsv != 0) = true) := by
  simp [SchedFrame.isSync, and_assoc]

section
variable {s : State} {c : Channel} {p : LPort} {f : SchedFrame} (t : DWord)

theorem syncReceive_bad (h : (f.abort || !SchedFrame.crcOk f) = true) :
    exec (.syncReceive c p f t) s = .next ((s.atTime t).countDiscard c f .crc) :=
  congrArg Host.Outcome.next (if_pos h)

variable (hgood : (f.abort || !SchedFrame.crcOk f) = false)
include hgood

theorem syncReceive_format (h : ¬ SchedFrame.isSync f) :
    exec (.syncReceive c p f t) s = .next ((s.atTime t).countDiscard c f .format) :=
  congrArg Host.Outcome.next ((if_neg (Bool.eq_false_iff.mp hgood)).trans (if_pos (not_not.mp ((isSync_iff f).not.mp h))))

variable (hsync : SchedFrame.isSync f)
include hsync

theorem syncReceive_blocked (h : (s.port c p).state = .blocked) : exec (.syncReceive c p f t) s = .next (s.atTime t) :=
  congrArg Host.Outcome.next ((if_neg (Bool.eq_false_iff.mp hgood)).trans
    ((if_neg ((isSync_iff f).mp hsync)).trans (if_pos (beq_iff_eq.mpr h))))

variable (hopen : (s.port c p).state ≠ .blocked)
include hopen

/-- The same basic cycle's window on both ports of a channel (R394): a ring, which blocks the second port. -/
theorem syncReceive_ring (h : (s.port c (otherPort p)).syncCycle = some (valAt f.payload 0 8 / s.tTick)) :
    exec (.syncReceive c p f t) s = .next (
      (((s.atTime t).modPort c p fun x => { x with state := .blocked }).raise 0x1007 1).modPort c p fun x =>
        { x with syncCycle := some (valAt f.payload 0 8 / s.tTick) }) := by
  show execSyncReceive c p f t s = _
  unfold execSyncReceive
  extract_lets s0 b ts n ring s1 s2
  have hring : ring = true := beq_iff_eq.mpr h
  rw [if_neg (Bool.eq_false_iff.mp hgood), if_neg ((isSync_iff f).mp hsync),
    if_neg (fun e => hopen (beq_iff_eq.mp e)), if_pos hring]
  have hs1 : s1 = _ := if_pos hring
  simp only [s2, hs1]
  rfl

/-- A window that counts on a joined follower corrects its clock (R404, R405). -/
theorem syncReceive_corrects (hring : (s.port c (otherPort p)).syncCycle ≠ some (valAt f.payload 0 8 / s.tTick))
    (hlode : s.isLodestar = false) (hcold : s.mer.cold = .follower) (hjoin : s.mer.joining = false)
    (hsame : s.syncDiffers f.payload = false)
    (huse : c = .a ∨ s.mer.syncCycle ≠ some (valAt f.payload 0 8 / s.tTick) ∨ s.mer.syncFrom ≠ 1) :
    ∃ ports src, exec (.syncReceive c p f t) s = .next (
      let n := valAt f.payload 0 8 / s.tTick
      let off : Int := 16 * ((t.toNat : Int) - valAt f.payload 0 8) - s.mer.path[chanIdx c].getD 0
      { s with now := t, mer := (Mer.correct { s.mer with ports := ports, syncCycle := some n, syncFrom := src } n off) }) := by
  show ∃ ports src, execSyncReceive c p f t s = _
  unfold execSyncReceive
  extract_lets s0 b ts n ring s1 s2 up s3 s4 mers s5 use off s6 s7
  have hring' : ¬ ring = true := fun e => hring (beq_iff_eq.mp e)
  have hs1 : s1 = s0 := if_neg hring'
  have hs3 : ∃ ports, s3 = { s with now := t, mer := { s.mer with ports := ports } } := by
    simp only [s3, s2, hs1]
    split_ifs <;> exact ⟨_, rfl⟩
  obtain ⟨ports, hs3⟩ := hs3
  have hs4 : s4 = s3 := by
    simp only [s4, hs3, State.modMer, hcold]
  have hdiff : s4.syncDiffers b = false := by
    rw [hs4, hs3]
    exact hsame
  have hs5 : s5 = s3 := (if_neg (by simp [hdiff])).trans hs4
  have huse' : use = true := by
    simp only [use, hs5, hs3]
    simpa [or_assoc] using huse
  have hs7 : ∃ src, s7 = { s with now := t, mer := { s.mer with ports := ports, syncCycle := some n, syncFrom := src } } := by
    simp only [s7, s6, hs5, hs3]
    exact ⟨_, rfl⟩
  obtain ⟨src, hs7⟩ := hs7
  have hoff : off = 16 * ((t.toNat : Int) - valAt f.payload 0 8) - s.mer.path[chanIdx c].getD 0 := by
    simp only [off, hs5, hs3]
    rfl
  have hstays : ¬ (!use || s6.mer.cold == .clash || s6.mer.cold == .rejoin) = true := by
    simp [huse', s6, hs5, hs3, hcold]
  have hjoined : ¬ s7.mer.joining = true := by simp [hs7, hjoin]
  refine ⟨ports, src, congrArg Host.Outcome.next ?_⟩
  rw [if_neg (Bool.eq_false_iff.mp hgood), if_neg ((isSync_iff f).mp hsync),
    if_neg (fun e => hopen (beq_iff_eq.mp e)), if_neg hring', if_neg (Bool.eq_false_iff.mp hlode), if_neg hstays,
    if_neg hjoined, hs7, hoff]
  rfl

end

end Sys2Proof.Machine

end

section
/-! The clock correction and the states of synchronisation (R50, R51, R404). -/

namespace Sys2Proof.Machine

/-! ### The correction (R404) -/

/-- What the offset of basic cycle n leaves of the runs and of the clock's correction. -/
theorem correct_results (m : Mer) (n : Nat) (off : Int) :
    let u := m.correct n off
    (off.natAbs ≤ 320 → u.good = (if m.measured = some n then m.good0 else if m.measured = some (n - 1) then m.good else 0) + 1)
      ∧ (3200 < off.natAbs → u.bad = (if m.measured = some n then m.bad0 else m.bad) + 1)
      ∧ (320 < off.natAbs → u.good = 0) ∧ (off.natAbs ≤ 3200 → u.bad = 0)
      ∧ u.acc = clampInt (-32000000) 32000000 ((if m.measured = some n then m.acc0 else m.acc) + off)
      ∧ u.rate = clampInt (-13107200) 13107200 (m.rate0 - off * 256 - u.acc)
      ∧ (m.sync = .unsync → off.natAbs ≤ 320 → u.sync = .locked)
      ∧ (m.sync ≠ .unsync ∨ 320 < off.natAbs → u.sync = m.sync) := by
  simp only [Mer.correct, beq_iff_eq, decide_eq_true_eq, Bool.and_eq_true]
  refine ⟨fun h => if_pos h, fun h => if_pos h, fun h => if_neg (Nat.not_le.mpr h), fun h => if_neg (Nat.not_lt.mpr h), ?_, ?_,
    fun h h' => if_pos ⟨h, h'⟩, fun h => if_neg fun h' => h.elim (· h'.1) (Nat.not_lt.mpr h'.2)⟩
  · rfl
  · rfl

/-! ### The states (R50, R51) -/

section
variable {s : State}

theorem syncDegraded_due (h : s.mer.sync = .locked) (hbad : 8 ≤ s.mer.bad) : exec .syncDegraded s =
    .next ((s.modMer fun m => { m with sync := .degraded, good := 0, good0 := 0 }).raise 0x0E10 1) :=
  congrArg Host.Outcome.next (if_pos (by simp [h, hbad]))

theorem syncDegraded_notDue (h : s.mer.sync ≠ .locked ∨ s.mer.bad < 8) : exec .syncDegraded s = .next s :=
  congrArg Host.Outcome.next (if_neg (by simpa [or_iff_not_imp_left] using h))

theorem siderealHoldover_due (h : s.mer.sync = .locked ∨ s.mer.sync = .degraded) (hmissed : 4 ≤ s.missedCycles) :
    exec .siderealHoldover s = .next ((s.modMer fun m => { m with sync := .holdover, holdFrom := s.cycleNow }).raise 0x0E11 1) :=
  congrArg Host.Outcome.next (if_pos (by simp [h, hmissed]))

theorem siderealHoldover_notDue (h : s.missedCycles < 4) : exec .siderealHoldover s = .next s :=
  congrArg Host.Outcome.next (if_neg (by simp [Nat.not_le.mpr h]))

theorem siderealLost_due (h : s.mer.sync = .holdover) (hheld : 64 ≤ s.heldCycles) :
    exec .siderealLost s = .next ((s.modMer fun m => { m with sync := .lost }).raise 0x0E12 2 true) :=
  congrArg Host.Outcome.next (if_pos (by simp [h, hheld]))

theorem siderealLost_notDue (h : s.mer.sync ≠ .holdover ∨ s.heldCycles < 64) : exec .siderealLost s = .next s :=
  congrArg Host.Outcome.next (if_neg (by simpa [or_iff_not_imp_left] using h))

theorem syncRelock_due (h : (s.mer.sync = .degraded ∧ 64 ≤ s.mer.good)
    ∨ (s.mer.sync = .holdover ∧ s.missedCycles = 0 ∧ s.mer.offset16.natAbs ≤ 16000)) :
    exec .syncRelock s = .next (s.modMer fun m => { m with sync := .locked, rate0 := m.rate }) :=
  congrArg Host.Outcome.next (if_pos (by simpa [and_assoc] using h))

theorem syncRelock_degraded (h : s.mer.sync = .degraded) (hgood : s.mer.good < 64) : exec .syncRelock s = .next s :=
  congrArg Host.Outcome.next (if_neg (by simp [h, hgood]))

end

end Sys2Proof.Machine

end

section
/-! Enumeration and addresses (R407, R408, R411, R430). -/

namespace Sys2Proof.Machine

/-! ### ENUM_RECEIVE and CTRL_REPORT_RECEIVE (R407) -/

/-- The path delay that ENUM gives a controller, by its hops (R404). -/
def State.enumPath (s : State) (c : Channel) (p : LPort) (f : LinkFrame) : Int :=
  (valAt f.payload 4 4 : Nat) + (s.port c p).delay + (if valAt f.payload 0 1 + 1 = 1 then 0 else ((s.port c p).rptlat : Int))

/-- A controller that has taken its hops and path delay from ENUM. -/
def State.enumerated (s : State) (c : Channel) (p : LPort) (f : LinkFrame) : State :=
  s.modMer fun m => { m with hops := valAt f.payload 0 1 + 1, path := m.path.set (chanIdx c) (some (s.enumPath c p f)) }

theorem enumerated_path (s : State) (c : Channel) (p : LPort) (f : LinkFrame) :
    (s.enumerated c p f).mer.path[chanIdx c] = some (s.enumPath c p f) :=
  Vector.getElem_set_self (chanIdx c).isLt

section
variable {s : State} {c : Channel} {p : LPort} {f : LinkFrame} (t : DWord)

section
variable (hok : LinkFrame.ok f = true) (htype : f.type = 4) (hlode : s.isLodestar = false) (hlinked : (s.port c p).linked = true)
include hok htype hlode hlinked

theorem enumReceive_far (h : 255 < valAt f.payload 0 1 + 1 ∨ 640000 < s.enumPath c p f) :
    ∃ d : Word, exec (.enumReceive c p f t) s =
      .next ((((s.atTime t).enumerated c p f).modMer fun m => { m with addr := none }).raise 0x1006 1 false (some d)) := by
  show ∃ d : Word, execEnumReceive c p f t s = _
  unfold execEnumReceive
  extract_lets s0 hops q path s1 d pin s2
  have hq : q.linked = true := hlinked
  have hfar : (decide (255 < hops) || decide (640000 < path)) = true :=
    (Bool.or_eq_true _ _).mpr (h.imp decide_eq_true decide_eq_true)
  rw [if_neg (by simp [hok, htype, hlode, hq]), if_pos hfar]
  exact ⟨_, rfl⟩

theorem enumReceive_near (h : ¬ (255 < valAt f.payload 0 1 + 1 ∨ 640000 < s.enumPath c p f)) :
    ∃ u g l, exec (.enumReceive c p f t) s = .next u ∧ g.type = 5
      ∧ (((s.atTime t).enumerated c p f).draw.2).Sends u (.link c p g :: l) := by
  show ∃ u g l, execEnumReceive c p f t s = _ ∧ _
  unfold execEnumReceive
  extract_lets s0 hops q path s1 d pin s2
  have hq : q.linked = true := hlinked
  have hnear : ¬ (decide (255 < hops) || decide (640000 < path)) = true :=
    fun e => h (((Bool.or_eq_true _ _).mp e).imp of_decide_eq_true of_decide_eq_true)
  rw [if_neg (by simp [hok, htype, hlode, hq]), if_neg hnear]
  obtain ⟨l, hl⟩ := sendEnum_sends s2 c (otherPort p)
  exact ⟨_, _, l, rfl, rfl, (sendLink_sends _ _ _ _ _ _).trans hl⟩

end

/-- The lodestar replaces what it knew of a controller by what its report says. -/
theorem ctrlReportReceive_recorded (hok : LinkFrame.ok f = true) (htype : f.type = 5) (hlode : s.isLodestar = true)
    (hlinked : (s.port c p).linked = true) : ∃ r lastRep, r.uid = f.uid ∧ r.hops = valAt f.payload 1 1
      ∧ exec (.ctrlReportReceive c p f t) s = .next ((s.atTime t).modMer fun m =>
        { m with reports := m.reports.filter (fun x => x.uid != f.uid) ++ [r], lastRep := lastRep }) :=
  ⟨_, _, rfl, rfl, congrArg Host.Outcome.next (if_neg (by simp [hok, htype, hlode, hlinked]))⟩

end

/-! ### CONTROLLER_ASSIGN and ASSIGN_RECEIVE (R407, R408) -/

/-- The first controller of a fabric takes the number it is pinned to. -/
theorem assignOne_first {r : CtrlRep} {k : Fin 16} (hpin : r.pin = some k) (hk : k ≠ 0) :
    assignOne ([], []) r = ([{ r with number := some k.val }], []) := by
  have hk' : k.val ≠ 0 := fun e => hk (Fin.ext e)
  simp [assignOne, hpin, hk']

/-- ASSIGN goes down every downstream port. -/
def State.sendAssign (s : State) (payload : List Byte) : State :=
  allPorts.foldl (fun st e => if st.isDownstream e.1 e.2 then st.sendLink e.1 e.2 6 1 payload else st) s

theorem sendAssign_sends (s : State) (payload : List Byte) : ∃ l, s.Sends (s.sendAssign payload) l := by
  refine foldl_sends (fun st e => ?_) s allPorts
  split_ifs
  · exact ⟨_, sendLink_sends st _ _ _ _ _⟩
  · exact ⟨_, sends_nil st⟩

/-- The lodestar numbers the one controller that has reported itself, and tells it. -/
theorem controllerAssign_one {s : State} {t : DWord} {x : CtrlRep} {k : Fin 16} {b : Nat} (hlode : s.isLodestar = true)
    (hreports : s.mer.reports = [x]) (hnumber : x.number = none) (hpin : x.pin = some k) (hk : k ≠ 0)
    (hlast : s.mer.lastRep = some b) (hdue : b + 128 * s.tTick ≤ t.toNat) :
    ∃ u l, (s.atTime t).Sends u l ∧ exec (.controllerAssign t) s = .next (u.modMer fun m => { m with
      reports := [{ x with number := some k.val }], numbered := true, lastRep := none, mask := m.mask ||| (1#16 <<< k.val) }) := by
  show ∃ u l, _ ∧ execControllerAssign t s = _
  unfold execControllerAssign
  extract_lets s0 m due kept fresh pinned free r s1 s2
  have hdue' : due = true := by
    have h : b + 2 * s.matrixNs ≤ t.toNat := by unfold State.matrixNs; omega
    simp [due, m, hlast, h]
  have hr : r = ([{ x with number := some k.val }], []) := by
    simp only [r, pinned, free, fresh, kept, m, hreports]
    simp [hnumber, hpin, assignOne_first hpin hk]
  have hs1 : s1 = s0 := by simp only [s1, hr]; rfl
  obtain ⟨l, hl⟩ := sendAssign_sends s0 (leBytes x.uid.toNat 6 ++ [BitVec.ofNat 8 k.val])
  have hs2 : s2 = (s0.sendAssign (leBytes x.uid.toNat 6 ++ [BitVec.ofNat 8 k.val])).modMer fun m =>
      { m with mask := m.mask ||| (1#16 <<< k.val) } := by
    simp only [s2, hr, hs1, List.foldl_cons, List.foldl_nil, State.sendAssign]
  refine ⟨_, l, hl, congrArg Host.Outcome.next ?_⟩
  rw [if_neg (by simp [hlode, hdue']), hs2, hr]
  generalize s0.sendAssign (leBytes x.uid.toNat 6 ++ [BitVec.ofNat 8 k.val]) = u
  rfl

section
variable {s : State} {c : Channel} {p : LPort} {f : LinkFrame} (t : DWord) (hok : LinkFrame.ok f = true) (htype : f.type = 6)
  (hlode : s.isLodestar = false) (hlinked : (s.port c p).linked = true) (hk : valAt f.payload 6 1 < 16)
include hok htype hlode hlinked hk

/-- ASSIGN for another controller (R408): the number is taken, and the own number and address stay. -/
theorem assignReceive_other (huid : BitVec.ofNat 48 (valAt f.payload 0 6) ≠ s.uid) :
    ∃ free reports, exec (.assignReceive c p f t) s = .next { s with
      now := t, free := free, reports := reports
      mer := { s.mer with mask := s.mer.mask ||| (1#16 <<< valAt f.payload 6 1) } } := by
  show ∃ free reports, execAssignReceive c p f t s = _
  unfold execAssignReceive
  extract_lets s0 uid k s1 moved s2
  rw [if_neg (by simp [hok, htype, hlode, hlinked, k, hk]), if_neg (fun e => huid (beq_iff_eq.mp e))]
  split_ifs <;> exact ⟨_, _, rfl⟩

/-- ASSIGN for this controller (R408, R411): it takes the number and the address of its segment, and a change of
address is a fault. -/
theorem assignReceive_own (huid : BitVec.ofNat 48 (valAt f.payload 0 6) = s.uid) :
    let k := valAt f.payload 6 1
    ∃ u, exec (.assignReceive c p f t) s = .next u ∧ s.SameCore u ∧ u.mer.mask = s.mer.mask ||| (1#16 <<< k)
      ∧ (s.mer.number ≠ some k → u.mer.number = some k ∧ u.mer.addr = some (64 * k))
      ∧ ∀ a : Nat, s.mer.addr = some a → a ≠ 64 * k → ∃ x ∈ u.reports, x.code = 0x1008 ∧ x.cls = 1 := by
  intro k
  show ∃ u, execAssignReceive c p f t s = _ ∧ _
  unfold execAssignReceive
  extract_lets s0 uid s1 moved s2
  have hs2 : ∃ reports, s2 = { s1 with reports := reports }
      ∧ ∀ a : Nat, s.mer.addr = some a → a ≠ 64 * k → ∃ x ∈ reports, x.code = 0x1008 ∧ x.cls = 1 := by
    simp only [s2]
    split_ifs with hm
    · exact ⟨_, rfl, fun _ _ _ => ⟨_, List.mem_append_right _ (List.mem_singleton_self _), rfl, rfl⟩⟩
    · exact ⟨_, rfl, fun a ha hne => absurd (by simp [moved, ha, hne]) hm⟩
  obtain ⟨reports, hs2, hmoved⟩ := hs2
  rw [if_neg (by simp [hok, htype, hlode, hlinked, k, hk]), if_pos (beq_iff_eq.mpr huid), hs2]
  split_ifs with hnumber
  · exact ⟨_, rfl, sameCore_refl s, rfl, fun h => absurd (beq_iff_eq.mp hnumber) h, hmoved⟩
  · obtain ⟨l, seqs, hu⟩ := enumsAndNodeAddrs_sends (({ s1 with reports := reports } : State).modMer fun m =>
      { m with number := some k, addr := some (64 * k) })
    refine ⟨_, rfl, ?_⟩
    rw [hu]
    exact ⟨sameCore_refl s, rfl, fun _ => ⟨rfl, rfl⟩, hmoved⟩

end

end Sys2Proof.Machine

end

section
/-! The addresses of the nodes of a pinned segment, and the statement on synchronisation and numbering (R408, R411, R430). -/

namespace Sys2Proof.Machine

/-- The nodes of a segment after one of them has taken an address. -/
def nodesAddressed (nodes : List FabNode) (uid : BitVec 48) (addr : Nat) : List FabNode :=
  match nodes.find? (fun n => n.uid == uid) with
  | some n => nodes.map fun x => if x.uid == uid then
      { x with addr := some addr, loads := if n.addr == some addr then x.loads else [] } else x
  | none => nodes ++ [({ uid := uid, addr := some addr } : FabNode)]

theorem mem_nodesAddressed (nodes : List FabNode) (uid : BitVec 48) (addr : Nat) :
    ∃ n ∈ nodesAddressed nodes uid addr, n.uid = uid ∧ n.addr = some addr := by
  unfold nodesAddressed
  split
  next n h =>
    have huid : n.uid = uid := by simpa using List.find?_some h
    exact ⟨_, List.mem_map.mpr ⟨n, List.mem_of_find?_eq_some h, if_pos (beq_iff_eq.mpr huid)⟩, huid, rfl⟩
  next => exact ⟨_, List.mem_append_right _ (List.mem_singleton_self _), rfl, rfl⟩

section
variable {s : State} {uid : BitVec 48} {f : LinkFrame} (hok : LinkFrame.ok f = true) (htype : f.type = 7)
  (hpin : s.prof.mer.pinMode = true)
include hok htype hpin

theorem nodeAddrReceive_unknown (h : (s.prof.mer.nodeAddrs.any fun e => e.1 == uid) = false) : exec (.nodeAddrReceive uid f) s =
    .next ((s.modMer fun m => { m with unaddr := satAdd 255 m.unaddr 1 }).raise 0x1005 1 false (some (uid.setWidth 32))) := by
  show execNodeAddrReceive uid f s = _
  exact congrArg Host.Outcome.next ((if_neg (by simp [hok, htype, hpin])).trans (if_pos (by simp [h])))

theorem nodeAddrReceive_taken (h : (s.prof.mer.nodeAddrs.any fun e => e.1 == uid) = true)
    (huid : BitVec.ofNat 48 (valAt f.payload 0 6) = uid) : exec (.nodeAddrReceive uid f) s =
    .next (s.modMer fun m => { m with nodes := nodesAddressed m.nodes uid (valAt f.payload 6 2 % 1024) }) := by
  show execNodeAddrReceive uid f s = _
  exact congrArg Host.Outcome.next ((if_neg (by simp [hok, htype, hpin])).trans
    ((if_neg (by simp [h])).trans (if_neg (by simp [huid]))))

end

/-- ADDR_ACK of a node of this controller's segment (R408, R411, R430): the first one starts a schedule load on both channels. -/
theorem addrAckReceive_eq {s : State} {c : Channel} {p : LPort} {f : LinkFrame} (t : DWord) (hok : LinkFrame.ok f = true)
    (htype : f.type = 8) (hlinked : (s.port c p).linked = true) (hnumber : s.mer.number = some (valAt f.payload 0 2 / 64))
    (ha : valAt f.payload 0 2 < 1024) (hnode : valAt f.payload 0 2 % 64 ≠ 0) :
    ∃ nodes, exec (.addrAckReceive c p f t) s = .next (
      let a := valAt f.payload 0 2
      if a ∈ s.mer.acks then s.atTime t
      else (s.atTime t).modMer fun m => { m with
        acks := m.acks ++ [a], nodes := nodes
        loads := m.loads ++ [⟨a, false, m.tags, 0, false, false⟩, ⟨a, true, m.tags + 1, 0, false, false⟩]
        tags := m.tags + 2 }) := by
  refine ⟨_, congrArg Host.Outcome.next (if_congr ?_ rfl rfl)⟩
  simp [hok, htype, hlinked, hnumber, hnode, Nat.not_le.mpr ha]

end Sys2Proof.Machine

open Sys2Proof Sys2Proof.Machine

/-- Settles O58: the sync frame on both sides, the states by their counts, and each frame of the enumeration by its receiver. -/
theorem syncAndNumberingResults : Obligations.SyncAndNumberingResults := by
  unfold Obligations.SyncAndNumberingResults
  refine ⟨fun s t plant => ⟨syncSend_notLodestar t plant, fun hlode hreplay => ?send⟩,
    fun s c p f t => ⟨syncReceive_bad t, syncReceive_format t, fun hgood => syncReceive_blocked t hgood,
      fun hgood hsync hopen hring => ?ring, fun hgood hsync hopen hring hlode hcold hjoin hsame huse => ?corrects⟩,
    fun s => ?states, fun s c p f t hok htype hlode hlinked => ?enum, fun s c p f t hok htype hlode hlinked => ?report,
    fun s t r k hlode hreports hnumber hpin hk b hlast hdue => ?assign,
    fun s c p f t hok htype hlode hlinked hk => ?assigned,
    fun s uid f hok htype hpin => ⟨fun h => ?unpinned, fun h huid => ?addressed⟩,
    fun s c p f t hok htype hlinked => ?ack⟩
  case send =>
    obtain ⟨free, rate, hsteer, hsame, hbound⟩ := steer_eq s t plant
    refine ⟨_, (s.steer t plant).mkFrame 0 0 t ((s.steer t plant).syncPayload t), syncSend_lodestar t plant hlode hreplay, ?_⟩
    rw [hsteer]
    exact ⟨sameCore_refl s, List.append_assoc s.outbox [_] [_], rfl, rfl, syncPayload_length _ t, syncPayload_take _ t,
      mkFrame_crcOk _ _ _ _ _, hsame, hbound⟩
  case ring =>
    refine ⟨_, syncReceive_ring t hgood hsync hopen hring, ?_, ⟨_, rfl⟩, sameCore_refl s, rfl, rfl⟩
    rw [modPort_port]
    exact congrArg MerPort.state (modPort_port (s.atTime t) c p _)
  case corrects =>
    intro off
    obtain ⟨ports, src, hexec⟩ := syncReceive_corrects t hgood hsync hopen hring hlode hcold hjoin hsame huse
    exact ⟨_, hexec, sameCore_refl s, rfl, rfl, rfl, correct_results _ _ off⟩
  case states =>
    exact ⟨fun h hbad => ⟨_, syncDegraded_due h hbad, rfl, ⟨_, rfl⟩, sameCore_refl s⟩, syncDegraded_notDue,
      fun h hmissed => ⟨_, siderealHoldover_due h hmissed, rfl, Nat.sub_self _, ⟨_, rfl⟩, sameCore_refl s⟩,
      siderealHoldover_notDue, fun h hheld => ⟨_, siderealLost_due h hheld, rfl, ⟨_, rfl⟩, sameCore_refl s⟩,
      siderealLost_notDue, fun h => ⟨_, syncRelock_due h, rfl, rfl, rfl, sameCore_refl s⟩, syncRelock_degraded⟩
  case enum =>
    intro hops path
    by_cases h : 255 < hops ∨ 640000 < path
    · obtain ⟨d, hexec⟩ := enumReceive_far t hok htype hlode hlinked h
      exact ⟨_, hexec, sameCore_refl s, rfl, enumerated_path (s.atTime t) c p f, fun _ => ⟨rfl, ⟨_, rfl⟩, rfl⟩,
        fun hhops hpath => absurd h (not_or.mpr ⟨Nat.not_lt.mpr hhops, Int.not_lt.mpr hpath⟩)⟩
    · obtain ⟨u, g, l, hexec, hg, seqs, rfl⟩ := enumReceive_near t hok htype hlode hlinked h
      exact ⟨_, hexec, sameCore_refl s, rfl, enumerated_path (s.atTime t) c p f, fun hfar => absurd hfar h,
        fun _ _ => ⟨rfl, g, List.mem_append_right _ List.mem_cons_self, hg⟩⟩
  case report =>
    obtain ⟨r, lastRep, huid, hhops, hexec⟩ := ctrlReportReceive_recorded t hok htype hlode hlinked
    exact ⟨_, r, hexec, sameCore_refl s, huid, hhops, rfl⟩
  case assign =>
    obtain ⟨u, l, hsend, hexec⟩ := controllerAssign_one hlode hreports hnumber hpin hk hlast hdue
    obtain ⟨seqs, rfl⟩ := hsend
    exact ⟨_, hexec, rfl, rfl, rfl, rfl, rfl, sameCore_refl s⟩
  case assigned =>
    intro k
    by_cases huid : BitVec.ofNat 48 (valAt f.payload 0 6) = s.uid
    · obtain ⟨u, hexec, hcore, hmask, htaken, hmoved⟩ := assignReceive_own t hok htype hlode hlinked hk huid
      exact ⟨u, hexec, hcore, hmask, fun _ hnew => ⟨(htaken hnew).1, (htaken hnew).2, hmoved⟩, fun hne => absurd huid hne⟩
    · obtain ⟨free, reports, hexec⟩ := assignReceive_other t hok htype hlode hlinked hk huid
      exact ⟨_, hexec, sameCore_refl s, rfl, fun h => absurd h huid, fun _ => ⟨rfl, rfl⟩⟩
  case unpinned => exact ⟨_, nodeAddrReceive_unknown hok htype hpin h, ⟨_, rfl⟩, rfl, sameCore_refl s⟩
  case addressed => exact ⟨_, nodeAddrReceive_taken hok htype hpin h huid, sameCore_refl s, mem_nodesAddressed _ _ _⟩
  case ack =>
    intro a hnumber ha hnode
    obtain ⟨nodes, hexec⟩ := addrAckReceive_eq t hok htype hlinked hnumber ha hnode
    rw [hexec]
    exact ⟨fun h => congrArg Host.Outcome.next (if_pos h),
      fun h => ⟨_, congrArg Host.Outcome.next (if_neg h), sameCore_refl s, rfl, rfl⟩⟩

end

section
/-! No step spoils a memory or overfills an event queue (R74, R85, R87, R114, R466): what each operation of the model
leaves of the memories, the event queues and the keyframes, in the model's order, and from that each command. -/

namespace Sys2Proof.Machine

/-! ### What holds memories and event queues -/

/-- The keyframe of a slot. -/
def slotKey : KfSlot → Option Keyframe
  | .empty => none
  | .capturing f => some f
  | .complete f => some f
  | .pinned f => some f

/-- The keyframe that an item of the stream is. -/
def itemKey : StreamItem → Option Keyframe
  | .key f => some f
  | .block _ => none

/-- The keyframes in slots, in the stream queue and in the stream. -/
def keyframesIn (slots : Vector KfSlot 2) (queue copied : List StreamItem) : List Keyframe :=
  slots.toList.filterMap slotKey ++ (queue ++ copied).filterMap itemKey

/-- The event queues of the ten cores. -/
def queuesOf (cores : Vector Core 10) : Vector (List EvRec) 10 := cores.map Core.evq

/-- The memories in the order code, data, safety code, safety data and staging; the event queues; the keyframes. -/
abbrev Stored := (Memory × Memory × Memory × Memory × Memory) × Vector (List EvRec) 10 × List Keyframe

/-- What the two invariants of this part read. -/
def State.stored (s : State) : Stored :=
  ((s.code, s.data, s.scode, s.sdata, s.host.staging), queuesOf s.cores, keyframesIn s.eph.slots s.eph.queue s.eph.copied)

@[simp] theorem stored_fold (s : State) :
    ((s.code, s.data, s.scode, s.sdata, s.host.staging), queuesOf s.cores,
      keyframesIn s.eph.slots s.eph.queue s.eph.copied) = s.stored := (rfl)

/-- A state written out field by field, as an update of some of its fields is. -/
@[simp] theorem stored_mk
    (pending outbox free variant prof now paths regs shadow due commits gate reqs cellEvs reports epoch running
    published view push staleTicks pushLate cutFail cutApplied comApplied planGen coreSafety stopAtStep1 haloLimits
    minsep cores data code scode sdata codeLocked hashOk arms aux chans solver cascs mans dyns lanes lanesEccUn
    lanesEccC fbk ssi uid mer mers aonSid outImage host saf halo scomm dbg jrn lines clk boot aon slots cap eph) :
    State.stored ⟨pending, outbox, free, variant, prof, now, paths, regs, shadow, due, commits, gate, reqs, cellEvs,
    reports, epoch, running, published, view, push, staleTicks, pushLate, cutFail, cutApplied, comApplied, planGen,
    coreSafety, stopAtStep1, haloLimits, minsep, cores, data, code, scode, sdata, codeLocked, hashOk, arms, aux,
    chans, solver, cascs, mans, dyns, lanes, lanesEccUn, lanesEccC, fbk, ssi, uid, mer, mers, aonSid, outImage, host,
    saf, halo, scomm, dbg, jrn, lines, clk, boot, aon, slots, cap, eph⟩ =
      ((code, data, scode, sdata, host.staging), queuesOf cores, keyframesIn eph.slots eph.queue eph.copied) := (rfl)

@[simp] theorem stored_ite (c : Prop) [Decidable c] (a b : State) :
    (if c then a else b).stored = if c then a.stored else b.stored := apply_ite _ _ _ _

/-- A fold keeps what each of its steps keeps. -/
@[simp] theorem foldl_stored {α : Type} {f : State → α → State} (h : ∀ s x, (f s x).stored = s.stored) (s : State)
    (l : List α) : (l.foldl f s).stored = s.stored := foldl_keeps (π := State.stored) h s l

/-- The memories are canonical, those of the keyframes too. -/
def Stored.Canonical (x : Stored) : Prop :=
  (x.1.1.wf = true ∧ x.1.2.1.wf = true ∧ x.1.2.2.1.wf = true ∧ x.1.2.2.2.1.wf = true ∧ x.1.2.2.2.2.wf = true)
    ∧ ∀ f ∈ x.2.2, f.state.data.wf = true

/-- The event queues hold at most 64 records, those of the keyframes too. -/
def Stored.Bounded (x : Stored) : Prop :=
  (∀ c : Fin 10, x.2.1[c].length ≤ 64) ∧ ∀ f ∈ x.2.2, ∀ c : Fin 10, (f.state.cores[c]).evq.length ≤ 64

theorem keyframes_eq (s : State) : s.keyframes = s.stored.2.2 := by
  refine congrArg₂ (· ++ ·) (List.filterMap_congr fun k _ => ?_) (List.filterMap_congr fun i _ => ?_)
  · cases k <;> rfl
  · cases i <;> rfl

theorem memoriesCanonical_iff (s : State) : s.MemoriesCanonical ↔ s.stored.Canonical := by
  simp only [State.MemoriesCanonical, Stored.Canonical, and_assoc, keyframes_eq]
  rfl

theorem queuesBounded_iff (s : State) : s.QueuesBounded ↔ s.stored.Bounded := by
  rw [State.QueuesBounded, keyframes_eq]
  simp only [Stored.Bounded, State.stored, queuesOf, Fin.getElem_fin, Vector.getElem_map]
  rfl

/-- From x to y, canonical memories stay canonical and bounded queues stay bounded. -/
def Stored.Spares (x y : Stored) : Prop := (x.Canonical → y.Canonical) ∧ (x.Bounded → y.Bounded)

@[simp, refl] theorem spares_refl (x : Stored) : x.Spares x := ⟨id, id⟩

theorem spares_of_eq {x y : Stored} (h : y = x) : x.Spares y := h ▸ spares_refl y

theorem Stored.Spares.trans {x y z : Stored} (h : x.Spares y) (h' : y.Spares z) : x.Spares z :=
  ⟨h'.1 ∘ h.1, h'.2 ∘ h.2⟩

@[simp] theorem spares_ite (x : Stored) (c : Prop) [Decidable c] (a b : Stored) :
    x.Spares (if c then a else b) ↔ if c then x.Spares a else x.Spares b := by
  split_ifs <;> rfl

/-- A fold spares what each of its steps spares. -/
@[simp] theorem foldl_spares {α : Type} {f : State → α → State} (hf : ∀ (s : State) a, s.stored.Spares (f s a).stored) {x : Stored}
    {s : State} (h : x.Spares s.stored) (l : List α) : x.Spares (l.foldl f s).stored := by
  induction l generalizing s with
  | nil => exact h
  | cons a l ih => exact ih (h.trans (hf s a))

/-- An outcome is no state that spoils a memory or overfills a queue. -/
def Leaves (s : State) (o : Res) : Prop := ∀ t : State, o = .next t → s.stored.Spares t.stored

@[simp] theorem leaves_next (s t : State) : Leaves s (.next t) ↔ s.stored.Spares t.stored := by
  constructor
  · exact fun h => h t rfl
  · rintro h u ⟨⟩
    exact h

@[simp] theorem leaves_ite (c : Prop) [Decidable c] (s : State) (a b : Res) :
    Leaves s (if c then a else b) ↔ if c then Leaves s a else Leaves s b := by
  split_ifs <;> rfl

/-! ### The event queue of a core -/

@[simp] theorem core_evq_ite (p : Prop) [Decidable p] (a b : Core) :
    (if p then a else b).evq = if p then a.evq else b.evq := apply_ite _ _ _ _
@[simp] theorem wg_evq (k : Core) (i : Fin 32) (v : DWord) : (k.wg i v).evq = k.evq := by unfold Core.wg; split <;> rfl
@[simp] theorem wf_evq (k : Core) (i : Fin 32) (v : DWord) : (k.wf i v).evq = k.evq := (rfl)
@[simp] theorem wreg_evq (k : Core) (r : CReg) (v : DWord) : (k.wreg r v).evq = k.evq := by
  cases r with
  | g i => exact wg_evq k i v
  | f i => rfl

@[simp] theorem adv_evq (k : Core) : k.adv.evq = k.evq := (rfl)
@[simp] theorem orFF_evq (k : Core) (fl : FFlags) : (k.orFF fl).evq = k.evq := (rfl)
@[simp] theorem orIF_evq (k : Core) (fl : BitVec 2) : (k.orIF fl).evq = k.evq := (rfl)
@[simp] theorem issued_evq (k : Core) (cls : IssClass) (dst : Option CReg) (cyc : Nat) (p : Bool) :
    (k.issued cls dst cyc p).evq = k.evq := (rfl)
@[simp] theorem idle_evq (k : Core) (n : Nat) : (k.idle n).evq = k.evq := (rfl)
@[simp] theorem freeze_evq (k : Core) (n : Nat) : (k.freeze n).evq = k.evq := (rfl)
@[simp] theorem sleep_evq (k : Core) (n : Nat) (w : Wait) : (k.sleep n w).evq = k.evq := (rfl)
@[simp] theorem returnTrap_evq (k : Core) : k.returnTrap.evq = k.evq := (rfl)
@[simp] theorem newPeriod_evq (k : Core) : k.newPeriod.evq = k.evq := (rfl)
@[simp] theorem wake_evq (k : Core) (n : Nat) (rd : Fin 32) (v : DWord) : (k.wake n rd v).evq = k.evq := wg_evq k rd v
@[simp] theorem endWait_evq (k : Core) (n : Nat) (rd : Fin 32) (v : DWord) : (k.endWait n rd v).evq = k.evq := wake_evq k n rd v
@[simp] theorem lengthen_evq (k : Core) (rd : Fin 32) (cyc n : Nat) : (k.lengthen rd cyc n).evq = k.evq := (rfl)
@[simp] theorem markLate_evq (k : Core) (n : Nat) : (k.markLate n).evq = k.evq := by
  unfold Core.markLate
  dsimp only
  split_ifs <;> rfl

@[simp] theorem pendMem_evq (k : Core) (op : SharedOp) (cyc : Nat) : (k.pendMem op cyc).evq = k.evq := by
  cases op with
  | store => rfl
  | load | amo =>
    unfold Core.pendMem
    dsimp only
    split_ifs <;> rfl

@[simp] theorem csrWrite_evq (k : Core) (n : Nat) (v : DWord) : (k.csrWrite n v).evq = k.evq := by
  simp only [Core.csrWrite, apply_ite Core.evq, ite_self]

theorem evInsert_length (e : EvRec) (q : List EvRec) : (evInsert e q).length = q.length + 1 := by
  induction q with
  | nil => rfl
  | cons r q ih =>
    unfold evInsert
    split <;> simp [ih]

theorem mergeInto_length {e : EvRec} {same : Bool} {q q' : List EvRec} (h : mergeInto e same q = some q') :
    q'.length = q.length := by
  induction q generalizing q' with
  | nil => cases h
  | cons r q ih =>
    unfold mergeInto at h
    split at h
    next rs hrs =>
      cases h
      simp [ih hrs]
    next =>
      split at h
      · cases h
        rfl
      · cases h

/-- An event that joins a queue of at most 64 records leaves at most 64 (R87). -/
theorem enqueue_length {k : Core} (e : EvRec) (h : k.evq.length ≤ 64) : (k.enqueue e).1.evq.length ≤ 64 := by
  cases hm : (if e.cls.toNat == 1 || e.cls.toNat == 2 || e.cls.toNat == 3 then mergeInto e true k.evq else none) with
  | some q =>
    have hq : mergeInto e true k.evq = some q := by
      split at hm
      · exact hm
      · cases hm
    simpa only [Core.enqueue, hm] using (mergeInto_length hq).trans_le h
  | none =>
    simp only [Core.enqueue, hm]
    split_ifs with h5 hlt hlt
    · exact (evInsert_length e k.evq).trans_le hlt
    · cases hq : mergeInto e false k.evq with
      | some q => exact (mergeInto_length hq).trans_le h
      | none => exact h
    · simp only [Bool.and_eq_true, decide_eq_true_eq] at hlt
      exact (evInsert_length e k.evq).trans_le hlt.2
    · exact h

/-! ### One core of the state -/

theorem queuesOf_set {cores : Vector Core 10} {c : Fin 10} {k : Core} (h : k.evq = cores[c].evq) :
    queuesOf (cores.set c k) = queuesOf cores := by
  refine Vector.ext fun i hi => ?_
  simp only [queuesOf, Vector.getElem_map, Vector.getElem_set]
  split
  next hc => subst hc; exact h
  next => rfl

@[simp] theorem setCore_stored {s : State} {c : Fin 10} {k : Core} (h : k.evq = (s.core c).evq) :
    (s.setCore c k).stored = s.stored := by
  simp only [State.setCore, stored_mk, queuesOf_set (cores := s.cores) h, stored_fold]

@[simp] theorem modCore_stored {s : State} {c : Fin 10} {f : Core → Core} (h : (f (s.core c)).evq = (s.core c).evq) :
    (s.modCore c f).stored = s.stored := setCore_stored h

@[simp] theorem queuesOf_set_core {s : State} {c : Fin 10} {k : Core} (h : k.evq = (s.core c).evq) :
    queuesOf (s.cores.set c k) = queuesOf s.cores := queuesOf_set h

@[simp] theorem queuesOf_set_castSucc {s : State} {c : Fin 9} {k : Core} (h : k.evq = (s.core c.castSucc).evq) :
    queuesOf (s.cores.set c.val k) = queuesOf s.cores := queuesOf_set (c := c.castSucc) h

theorem Stored.Spares.setCore {x : Stored} {s : State} (h : x.Spares s.stored) {c : Fin 10} {k : Core}
    (hk : (s.core c).evq.length ≤ 64 → k.evq.length ≤ 64) : x.Spares (s.setCore c k).stored := by
  refine h.trans ⟨id, fun ⟨hq, hkeys⟩ => ⟨fun d => ?_, hkeys⟩⟩
  have hd := hq d
  simp only [State.stored, State.setCore, queuesOf, Fin.getElem_fin, Vector.getElem_map, Vector.getElem_set] at hd ⊢
  split
  next hc =>
    obtain rfl : c = d := Fin.ext hc
    exact hk hd
  next => exact hd

/-- A cell instruction's answer spares what it was; an exception leaves the state to the trap. -/
def CellAns.Spares (x : Stored) : CellAns → Prop
  | .trap _ _ => True
  | .done _ _ st => x.Spares st.stored
  | .sleep st => x.Spares st.stored

@[simp] theorem cellSpares_trap (x : Stored) (n : Nat) (v : DWord) : (CellAns.trap n v).Spares x := trivial

@[simp] theorem cellSpares_done (x : Stored) (st : State) (n : Nat) (v : DWord) :
    (CellAns.done n v st).Spares x ↔ x.Spares st.stored := Iff.rfl

@[simp] theorem cellSpares_sleep (x : Stored) (st : State) : (CellAns.sleep st).Spares x ↔ x.Spares st.stored := Iff.rfl

@[simp] theorem cellSpares_ite (x : Stored) (p : Prop) [Decidable p] (a b : CellAns) :
    (if p then a else b).Spares x ↔ if p then a.Spares x else b.Spares x := by
  split_ifs <;> rfl

/-- Bytes written to data SRAM, all else as it was. -/
@[simp] theorem spares_data {x : Stored} {s : State} (h : x.Spares s.stored) (off : Nat) (bs : List Byte) :
    x.Spares ((s.code, s.data.writeN off bs, s.scode, s.sdata, s.host.staging), queuesOf s.cores,
      keyframesIn s.eph.slots s.eph.queue s.eph.copied) :=
  h.trans ⟨fun ⟨⟨h1, h2, h3⟩, hkeys⟩ => ⟨⟨h1, Memory.wf_writeN bs off h2, h3⟩, hkeys⟩, id⟩

/-- Another data SRAM, canonical if the old one was. -/
theorem Stored.Spares.withData {x : Stored} {s : State} (h : x.Spares s.stored) {m : Memory}
    (hm : s.data.wf = true → m.wf = true) : x.Spares { s with data := m }.stored :=
  h.trans ⟨fun ⟨⟨h1, h2, h3⟩, hkeys⟩ => ⟨⟨h1, hm h2, h3⟩, hkeys⟩, id⟩

/-- Another data memory of the safety core, canonical if the old one was. -/
theorem Stored.Spares.withSdata {x : Stored} {s : State} (h : x.Spares s.stored) {m : Memory}
    (hm : s.sdata.wf = true → m.wf = true) : x.Spares { s with sdata := m }.stored :=
  h.trans ⟨fun ⟨⟨h1, h2, h3, h4, h5⟩, hkeys⟩ => ⟨⟨h1, h2, h3, hm h4, h5⟩, hkeys⟩, id⟩

/-! ### Keyframes -/

theorem mem_keyframesIn {f : Keyframe} {slots : Vector KfSlot 2} {queue copied : List StreamItem} :
    f ∈ keyframesIn slots queue copied ↔
      (∃ i : Fin 2, slotKey slots[i] = some f) ∨ .key f ∈ queue ∨ .key f ∈ copied := by
  have hitem : ∀ i : StreamItem, itemKey i = some f ↔ i = .key f := fun i => by cases i <;> simp [itemKey]
  simp only [keyframesIn, List.mem_append, List.mem_filterMap, Vector.mem_toList_iff, hitem, exists_eq_right]
  refine or_congr_left ⟨?_, fun ⟨i, hi⟩ => ⟨_, Vector.getElem_mem i.isLt, hi⟩⟩
  rintro ⟨k, hk, hkey⟩
  obtain ⟨i, hi, rfl⟩ := Vector.mem_iff_getElem.mp hk
  exact ⟨⟨i, hi⟩, hkey⟩

/-- A keyframe with the state of one that is held. -/
def State.HasKey (s : State) (f : Keyframe) : Prop :=
  ∃ g ∈ keyframesIn s.eph.slots s.eph.queue s.eph.copied, f.state = g.state

theorem hasKey_slot {s : State} {f g : Keyframe} (i : Fin 2) (h : slotKey s.eph.slots[i] = some g) (hstate : f.state = g.state) :
    s.HasKey f := ⟨g, mem_keyframesIn.mpr (Or.inl ⟨i, h⟩), hstate⟩

theorem hasKey_queue {s : State} {f g : Keyframe} (h : .key g ∈ s.eph.queue) (hstate : f.state = g.state) : s.HasKey f :=
  ⟨g, mem_keyframesIn.mpr (Or.inr (Or.inl h)), hstate⟩

theorem hasKey_copied {s : State} {f : Keyframe} (h : .key f ∈ s.eph.copied) : s.HasKey f :=
  ⟨f, mem_keyframesIn.mpr (Or.inr (Or.inr h)), rfl⟩

/-- A change of what Ephemeris holds, where each keyframe after it has the state of one before it, or is one of the
present state. -/
theorem Stored.Spares.modEph {x : Stored} {s : State} (h : x.Spares s.stored) {f : Eph → Eph}
    (hslots : ∀ i : Fin 2, ∀ k, slotKey (f s.eph).slots[i] = some k →
      s.HasKey k ∨ (k.state.data = s.data ∧ k.state.cores = s.cores) := by exact fun i _ hk => Or.inl (hasKey_slot i hk rfl))
    (hqueue : ∀ k, .key k ∈ (f s.eph).queue → s.HasKey k := by exact fun _ hk => hasKey_queue hk rfl)
    (hcopied : ∀ k, .key k ∈ (f s.eph).copied → s.HasKey k := by exact fun _ hk => hasKey_copied hk) :
    x.Spares (s.modEph f).stored := by
  have hkeys : ∀ k ∈ keyframesIn (f s.eph).slots (f s.eph).queue (f s.eph).copied,
      s.HasKey k ∨ (k.state.data = s.data ∧ k.state.cores = s.cores) := fun k hk => by
    obtain ⟨i, hi⟩ | hq | hc := mem_keyframesIn.mp hk
    exacts [hslots i k hi, Or.inl (hqueue k hq), Or.inl (hcopied k hc)]
  refine h.trans ⟨fun ⟨hmem, hold⟩ => ⟨hmem, fun k hk => ?_⟩, fun ⟨hq, hold⟩ => ⟨hq, fun k hk c => ?_⟩⟩
  · obtain ⟨g, hg, hstate⟩ | ⟨hdata, -⟩ := hkeys k hk
    · exact hstate ▸ hold g hg
    · exact hdata ▸ hmem.2.1
  · obtain ⟨g, hg, hstate⟩ | ⟨-, hcores⟩ := hkeys k hk
    · exact hstate ▸ hold g hg c
    · rw [hcores]
      simpa only [State.stored, queuesOf, Fin.getElem_fin, Vector.getElem_map] using hq c

@[simp] theorem modEph_stored {s : State} {f : Eph → Eph} (hslots : (f s.eph).slots = s.eph.slots)
    (hqueue : (f s.eph).queue = s.eph.queue) (hcopied : (f s.eph).copied = s.eph.copied) : (s.modEph f).stored = s.stored := by
  simp only [State.modEph, stored_mk, hslots, hqueue, hcopied, stored_fold]

@[simp] theorem modHost_stored {s : State} {f : HostIf → HostIf} (h : (f s.host).staging = s.host.staging) :
    (s.modHost f).stored = s.stored := by
  simp only [State.modHost, stored_mk, h, stored_fold]

/-! ### `Machine/Ops.lean` -/

@[simp] theorem draw_stored (s : State) : s.draw.2.stored = s.stored := by simp [State.draw]

@[simp] theorem pulse_stored (s : State) (b : Fin 6) (bound : Nat) : (s.pulse b bound).2.stored = s.stored := by
  unfold State.pulse
  dsimp only
  split
  · split <;> simp
  simp

@[simp] theorem crystal_stored (s : State) : s.crystal.stored = s.stored := by simp [State.crystal]
@[simp] theorem gatePush_stored (s : State) (stamp src : Nat) (i : GateItem) :
    (s.gatePush stamp src i).stored = s.stored := by
  simp [State.gatePush]

@[simp] theorem gateIn_stored (s : State) (t : DWord) (src : Nat) (i : GateItem) :
    (s.gateIn t src i).stored = s.stored := by
  simp [State.gateIn]

@[simp] theorem raiseAt_stored (s : State) (t : DWord) (code cls : Nat) (hold : Bool) (detail : Option Word) :
    (s.raiseAt t code cls hold detail).stored = s.stored := by
  unfold State.raiseAt
  split <;> simp

@[simp] theorem raise_stored (s : State) (code cls : Nat) (hold : Bool) (detail : Option Word) :
    (s.raise code cls hold detail).stored = s.stored := by
  simp [State.raise]

@[simp] theorem eccUp_stored (s : State) (k : Fin 8) : (s.eccUp k).stored = s.stored := by simp [State.eccUp]
@[simp] theorem eccCorrected_stored (s : State) (k : Fin 8) : (s.eccCorrected k).stored = s.stored := by
  simp [State.eccCorrected]

@[simp] theorem eccNote_stored (s : State) (k : Fin 8) (ec : Ecc) : (s.eccNote k ec).stored = s.stored := by
  unfold State.eccNote
  split <;> simp

@[simp] theorem solverNote_stored (s : State) (e : Ecc) : (s.solverNote e).stored = s.stored := by
  simp [State.solverNote]
@[simp] theorem out_stored (s : State) (o : Out) : (s.out o).stored = s.stored := by simp [State.out]
@[simp] theorem modPath_stored (s : State) (p : Path) (f : PathLatch → PathLatch) :
    (s.modPath p f).stored = s.stored := by
  simp [State.modPath]

@[simp] theorem deliver_spares {x : Stored} {s : State} (h : x.Spares s.stored) (c : Fin 9) (e : EvRec) (rank : Nat) :
    x.Spares (s.deliver c e rank).stored := by
  have hset := h.setCore (c := c.castSucc) (enqueue_length (k := s.core c.castSucc) { e with tick := s.epoch, rank := rank })
  unfold State.deliver
  dsimp only
  split_ifs
  · exact hset
  · rwa [raiseAt_stored]
  · exact h

@[simp] theorem cellEvent_stored (s : State) (c : Fin 9) (cls source data : Nat) :
    (s.cellEvent c cls source data).stored = s.stored := by
  simp [State.cellEvent]

@[simp] theorem deliverCell_spares {x : Stored} {s : State} (h : x.Spares s.stored) : x.Spares s.deliverCell.stored :=
  foldl_spares (α := Nat × Fin 9 × EvRec) (fun st e => deliver_spares (spares_refl st.stored) e.2.1 e.2.2 2)
    (s := { s with cellEvs := s.cellEvs.filter fun e => !decide (e.1 ≤ s.epoch) }) h _

@[simp] theorem haltCore_stored (s : State) (c : Fin 10) (cyc : Nat) : (s.haltCore c cyc).stored = s.stored := by
  simp [State.haltCore]
@[simp] theorem takeTrap_stored (s : State) (c : Fin 10) (cyc : Nat) (isInt : Bool) (code : Nat) (tval epc : DWord) :
    (s.takeTrap c cyc isInt code tval epc).stored = s.stored := by
  have hraise : (if c.val = 9 && !isInt then s.raise 0x1801 3 else s).core c = s.core c := by split_ifs <;> rfl
  unfold State.takeTrap
  dsimp only
  rw [stored_ite, haltCore_stored, ite_self, setCore_stored (by rw [hraise]), stored_ite, raise_stored, ite_self]

@[simp] theorem setReg_stored (s : State) (off : Nat) (v : Word) : (s.setReg off v).stored = s.stored := by
  simp [State.setReg]
@[simp] theorem msix_stored (s : State) (v : Nat) : (s.msix v).stored = s.stored := by simp [State.msix]

/-! ### `Machine/Commit.lean` -/

@[simp] theorem applyRegs_stored (s : State) (snap : Bank) : (s.applyRegs snap).stored = s.stored := by
  unfold State.applyRegs
  dsimp only
  refine foldl_stored (fun _ _ => ?_) _ _
  split <;> simp

@[simp] theorem spmodeReset_stored (old s : State) : (old.spmodeReset s).stored = s.stored := by simp [State.spmodeReset]
@[simp] theorem modCommit_stored (s : State) (b : CBlock) (f : CommitStat → CommitStat) :
    (s.modCommit b f).stored = s.stored := by
  simp [State.modCommit]

@[simp] theorem commitBlock_stored (s : State) (b : CBlock) (snap : Bank) :
    (s.commitBlock b snap).stored = s.stored := by
  unfold State.commitBlock
  dsimp only
  split <;> simp

@[simp] theorem releaseGo_stored (s : State) (sn : Snaps) (b : CBlock) : (s.releaseGo sn b).1.stored = s.stored := by
  unfold State.releaseGo
  dsimp only
  split <;> simp

@[simp] theorem step3_stored (s : State) (sn : Snaps) : (s.step3 sn).stored = s.stored := by
  unfold State.step3
  refine foldl_stored (fun _ _ => ?_) _ _
  split <;> simp

/-! ### `Machine/ArmGen.lean` -/

@[simp] theorem modArm_stored (s : State) (k : Fin 8) (f : Arm → Arm) : (s.modArm k f).stored = s.stored := by
  simp [State.modArm]
@[simp] theorem fireAction_stored (s : State) (k : Fin 8) (d : SegDesc) : (s.fireAction k d).stored = s.stored := by
  simp [State.fireAction]
@[simp] theorem withholdAll_stored (s : State) (k : Fin 8) : (s.withholdAll k).stored = s.stored := by
  simp [State.withholdAll]

@[simp] theorem windowAndAction_stored (s : State) (k : Fin 8) (retiring : Bool) :
    (s.windowAndAction k retiring).stored = s.stored := by
  unfold State.windowAndAction
  dsimp only
  split <;> simp

@[simp] theorem retireHead_stored (s : State) (k : Fin 8) : (s.retireHead k).stored = s.stored := by
  simp [State.retireHead]

@[simp] theorem openGate_stored (s : State) (k : Fin 8) : (s.openGate k).stored = s.stored := by
  unfold State.openGate
  dsimp only
  split <;> simp

@[simp] theorem settleArm_stored (k : Fin 8) (fuel : Nat) (s : State) : (s.settleArm k fuel).stored = s.stored := by
  induction fuel generalizing s with
  | zero => rfl
  | succ fuel ih =>
    unfold State.settleArm
    dsimp only
    split
    · simp [ih]
    · simp

@[simp] theorem lateActions_stored (s : State) (k : Fin 8) : (s.lateActions k).stored = s.stored := by
  simp [State.lateActions]
@[simp] theorem armOutputs_stored (s : State) (k : Fin 8) (p : ArmProf) : (s.armOutputs k p).stored = s.stored := by
  simp [State.armOutputs]

@[simp] theorem armTick_stored (s : State) (k : Fin 8) : (s.armTick k).stored = s.stored := by
  unfold State.armTick
  dsimp only
  split
  · rfl
  split
  · simp
  split <;> simp

/-! ### `Machine/Plans.lean` -/

@[simp] theorem startPlan_stored (s : State) (k : Fin 8) (p : ArmProf) (segs : List SegDesc) :
    (s.startPlan k p segs).stored = s.stored := by
  unfold State.startPlan
  dsimp only
  split <;> simp

@[simp] theorem dropDue_stored (s : State) (p : Req → Bool) : (s.dropDue p).stored = s.stored := by simp [State.dropDue]
@[simp] theorem takeReqs_stored (s : State) (p : Req → Bool) : (s.takeReqs p).2.stored = s.stored := by
  simp [State.takeReqs]

@[simp] theorem execCutover_leaves (s : State) : Leaves s (execCutover s) := by
  unfold execCutover
  dsimp only
  split
  · simp
  split
  · simp
  split <;> simp

@[simp] theorem execSegaApply_leaves (s : State) : Leaves s (execSegaApply s) := by
  unfold execSegaApply
  rw [leaves_next]
  refine (foldl_spares (fun st e => ?_) ((takeReqs_stored s _).symm ▸ spares_refl _) _)
  split
  case h_2 => rfl
  split
  case isFalse => rfl
  dsimp only
  split
  case h_1 => rfl
  split
  case isTrue => simp
  split
  case isTrue => simp
  split <;> simp

@[simp] theorem rampStop_stored (s : State) (k : Fin 8) : (s.rampStop k).stored = s.stored := by simp [State.rampStop]
@[simp] theorem execRampStopApply_leaves (s : State) : Leaves s (execRampStopApply s) := by simp [execRampStopApply]
@[simp] theorem execHandoverEnd_leaves (k : Fin 8) (s : State) : Leaves s (execHandoverEnd k s) := by
  simp [execHandoverEnd]

@[simp] theorem execDwellExpire_leaves (k : Fin 8) (s : State) : Leaves s (execDwellExpire k s) := by
  unfold execDwellExpire
  split <;> simp

@[simp] theorem execRampStopRest_leaves (k : Fin 8) (s : State) : Leaves s (execRampStopRest k s) := by
  simp [execRampStopRest]

/-! ### `Machine/AuxAxes.lean` -/

@[simp] theorem modAux_stored (s : State) (a : Fin 128) (f : AuxGen → AuxGen) : (s.modAux a f).stored = s.stored := by
  simp [State.modAux]
@[simp] theorem auxEvent_stored (s : State) (a : Nat) (id : Word) (status cause : Nat) :
    (s.auxEvent a id status cause).stored = s.stored := by
  simp [State.auxEvent]

@[simp] theorem auxStop_stored (s : State) (a : Fin 128) (m : AuxMove) : (s.auxStop a m).stored = s.stored := by
  unfold State.auxStop
  dsimp only
  split
  · split <;> simp
  split <;> simp

@[simp] theorem execAuxqApply_leaves (s : State) : Leaves s (execAuxqApply s) := by
  unfold execAuxqApply
  dsimp only
  rw [leaves_next, foldl_stored (s := List.foldl _ _ _), foldl_stored, takeReqs_stored]
  all_goals
    intro st e
    repeat' split
    all_goals simp

@[simp] theorem auxTick_stored (s : State) (p : AuxProf) : (s.auxTick p).stored = s.stored := by
  unfold State.auxTick
  dsimp only
  split
  · simp
  split
  · simp
  split
  · split
    · split <;> simp
    simp
  · split
    · split <;> simp
    simp
  split
  · split <;> simp
  simp

@[simp] theorem loadTick_stored (s : State) (p : AuxProf) : (s.loadTick p).stored = s.stored := by simp [State.loadTick]
@[simp] theorem execAuxStall_leaves (a : Fin 128) (s : State) : Leaves s (execAuxStall a s) := by simp [execAuxStall]
@[simp] theorem execAuxStopDone_leaves (a : Fin 128) (s : State) : Leaves s (execAuxStopDone a s) := by
  simp [execAuxStopDone]
@[simp] theorem execClrStall_leaves (a : Fin 128) (s : State) : Leaves s (execClrStall a s) := by simp [execClrStall]

@[simp] theorem execStepBatch_leaves (c : Fin 16) (s : State) : Leaves s (execStepBatch c s) := by
  unfold execStepBatch
  dsimp only
  split <;> simp

@[simp] theorem cutBatch_stored (s : State) (c : Fin 16) : (s.cutBatch c).stored = s.stored := by
  unfold State.cutBatch
  dsimp only
  split <;> simp

@[simp] theorem cutBatches_stored (s : State) : s.cutBatches.stored = s.stored := by simp [State.cutBatches]

/-! ### `Machine/Timing.lean` -/

theorem memEffect_wf {m : Memory} (h : m.wf = true) (off : Nat) (op : SharedOp) : (memEffect m off op).1.wf = true := by
  cases op with
  | load dst size signed => exact h
  | store size v => exact Memory.wf_writeN _ off h
  | amo dst func v cmp => exact Memory.wf_writeN _ off h

theorem Stored.Spares.memEffect {x : Stored} {s : State} (h : x.Spares s.stored) (off : Nat) (op : SharedOp) :
    x.Spares { s with data := (memEffect s.data off op).1 }.stored :=
  h.trans ⟨fun ⟨⟨h1, h2, h3⟩, hkeys⟩ => ⟨⟨h1, memEffect_wf h2 off op, h3⟩, hkeys⟩, id⟩

@[simp] theorem doShared_spares {x : Stored} {s : State} (h : x.Spares s.stored) (c : Fin 10) (a : SharedAcc) :
    x.Spares (s.doShared c a).stored := by
  have hmod : (s.modCore c fun k => { k with shared := none }).stored = s.stored := modCore_stored rfl
  have hmem : x.Spares ({ s.modCore c (fun k => { k with shared := none }) with data := (memEffect s.data a.off a.op).1 } : State).stored :=
    (hmod ▸ h).memEffect a.off a.op
  unfold State.doShared
  dsimp only
  split
  · rwa [modCore_stored (wreg_evq ..)]
  · exact hmem

@[simp] theorem settleShared_spares {x : Stored} {s : State} (h : x.Spares s.stored) (c : Fin 10) (cyc : Nat) :
    x.Spares (s.settleShared c cyc).stored := by
  unfold State.settleShared
  split <;> simp [h]

@[simp] theorem issue_spares {x : Stored} {s : State} (h : x.Spares s.stored) (c : Fin 10) (cls : IssClass) (srcs : List CReg)
    (dst : Option CReg) : x.Spares (s.issue c cls srcs dst).st.stored := by
  unfold State.issue
  dsimp only
  split_ifs <;> simp [h]

theorem exec1_leaves_bounded {f : Core → Core} (hf : ∀ k, k.evq.length ≤ 64 → (f k).evq.length ≤ 64) (s : State) (c : Fin 10)
    (cls : IssClass) (srcs : List CReg) (dst : Option CReg) : Leaves s (s.exec1 c cls srcs dst f) := by
  have h := issue_spares (spares_refl s.stored) c cls srcs dst
  unfold State.exec1
  rw [leaves_next]
  split
  · exact h.setCore (hf _)
  · exact h

@[simp] theorem exec1_leaves {f : Core → Core} (hf : ∀ k, (f k).evq = k.evq) (s : State) (c : Fin 10) (cls : IssClass)
    (srcs : List CReg) (dst : Option CReg) : Leaves s (s.exec1 c cls srcs dst f) :=
  exec1_leaves_bounded (fun k h => hf k ▸ h) s c cls srcs dst

@[simp] theorem execWith_leaves {f : State → Nat → State} (hf : ∀ (s : State) n, s.stored.Spares (f s n).stored) (s : State)
    (c : Fin 10) (cls : IssClass) (srcs : List CReg) (dst : Option CReg) : Leaves s (s.execWith c cls srcs dst f) := by
  have h := issue_spares (spares_refl s.stored) c cls srcs dst
  unfold State.execWith
  rw [leaves_next]
  split
  · exact h.trans (hf _ _)
  · exact h

@[simp] theorem except_stored (s : State) (c : Fin 10) (cyc code : Nat) (tval : DWord) :
    (s.except c cyc code tval).stored = s.stored := by
  simp [State.except]

/-! ### `Machine/CoreSys.lean` -/

@[simp] theorem takePoint_stored (s : State) (c : Fin 10) (cyc i : Nat) : (s.takePoint c cyc i).stored = s.stored := by
  simp [State.takePoint]

@[simp] theorem takePending_stored (s : State) (c : Fin 10) (cyc : Nat) : (s.takePending c cyc).stored = s.stored := by
  unfold State.takePending
  dsimp only
  split <;> simp

@[simp] theorem csrOp_leaves (s : State) (c : Fin 10) (rd ra : Fin 32) (csr : BitVec 12) (opx : Nat) (writes : Bool)
    (upd : DWord → DWord → DWord) : Leaves s (s.csrOp c rd ra csr opx writes upd) := by
  simp [State.csrOp]

@[simp] theorem execCsrr_leaves (c : Fin 10) (rd : Fin 32) (csr : BitVec 12) (s : State) :
    Leaves s (execCsrr c rd csr s) := by
  simp [execCsrr]

@[simp] theorem execCsrw_leaves (c : Fin 10) (rd ra : Fin 32) (csr : BitVec 12) (s : State) :
    Leaves s (execCsrw c rd ra csr s) := by
  simp [execCsrw]

@[simp] theorem execCsrs_leaves (c : Fin 10) (rd ra : Fin 32) (csr : BitVec 12) (s : State) :
    Leaves s (execCsrs c rd ra csr s) := by
  simp [execCsrs]

@[simp] theorem execCsrc_leaves (c : Fin 10) (rd ra : Fin 32) (csr : BitVec 12) (s : State) :
    Leaves s (execCsrc c rd ra csr s) := by
  simp [execCsrc]

@[simp] theorem execWaitt_leaves (c : Fin 9) (rd : Fin 32) (s : State) : Leaves s (execWaitt c rd s) := by
  simp [execWaitt]
@[simp] theorem execWaitp_leaves (c : Fin 10) (rd : Fin 32) (s : State) : Leaves s (execWaitp c rd s) := by
  simp [execWaitp]
@[simp] theorem execWaite_leaves (c : Fin 9) (rd : Fin 32) (s : State) : Leaves s (execWaite c rd s) := by
  simp [execWaite]
@[simp] theorem execPoll_leaves (c : Fin 9) (rd : Fin 32) (s : State) : Leaves s (execPoll c rd s) := by
  refine exec1_leaves_bounded (fun k h => ?_) s _ _ _ _
  cases hq : k.evq with
  | nil => simp [hq]
  | cons e q =>
    rw [hq, List.length_cons] at h
    simpa using Nat.le_of_succ_le h

@[simp] theorem execSignal_leaves (c : Fin 9) (ra : Fin 32) (imm : BitVec 12) (s : State) :
    Leaves s (execSignal c ra imm s) := by
  unfold execSignal
  dsimp only
  refine execWith_leaves (fun _ _ => ?_) _ _ _ _ _
  split
  · simp
  split <;> simp

@[simp] theorem execEret_leaves (c : Fin 10) (s : State) : Leaves s (execEret c s) := by simp [execEret]
@[simp] theorem execTrap_leaves (c : Fin 10) (imm : BitVec 12) (fetchErr : Ecc) (s : State) :
    Leaves s (execTrap c imm fetchErr s) := by
  simp [execTrap]

@[simp] theorem wakeCore_stored (s : State) (c : Fin 10) : (s.wakeCore c).stored = s.stored := by
  unfold State.wakeCore
  split <;> simp

@[simp] theorem execWaitWake_leaves (c : Fin 10) (s : State) : Leaves s (execWaitWake c s) := by simp [execWaitWake]

@[simp] theorem execPlanPeriodStart_leaves (s : State) : Leaves s (execPlanPeriodStart s) := by
  unfold execPlanPeriodStart
  rw [leaves_next, stored_ite, foldl_stored, ite_self]
  intro st c
  dsimp only
  repeat' split
  all_goals simp

@[simp] theorem execSignalDeliver_leaves (s : State) : Leaves s (execSignalDeliver s) := by
  unfold execSignalDeliver
  dsimp only
  rw [leaves_next]
  refine deliverCell_spares (foldl_spares (fun st e => ?_) ?_ _)
  case refine_2 => exact spares_refl s.stored
  split
  · split_ifs <;> simp
  · exact spares_refl _

@[simp] theorem firePoint_stored (s : State) (c : Fin 10) (k : Fin 4) (off : Nat) :
    (s.firePoint c k off).stored = s.stored := by
  simp [State.firePoint]

@[simp] theorem execCyclePointFire_leaves (c : Fin 9) (k : Fin 4) (s : State) : Leaves s (execCyclePointFire c k s) := by
  unfold execCyclePointFire
  dsimp only
  split
  · simp
  split
  next w _ _ => cases w <;> simp
  next => simp

@[simp] theorem execBudgetOverrun_leaves (c : Fin 9) (s : State) : Leaves s (execBudgetOverrun c s) := by
  simp [execBudgetOverrun]
@[simp] theorem scrub_stored (s : State) (m : Fin 3) (e : Ecc) : (s.scrub m e).stored = s.stored := by simp [State.scrub]

@[simp] theorem execCoreFreeze_leaves (c : Fin 9) (s : State) (scrub : Option (Fin 3 × Ecc)) :
    Leaves s (execCoreFreeze c s scrub) := by
  unfold execCoreFreeze
  dsimp only
  split <;> simp

/-! ### `Machine/Cell.lean` -/

@[simp] theorem cell_leaves {f : State → Nat → CellAns} (hf : ∀ s n, (f s n).Spares s.stored) (s : State) (c : Fin 9)
    (rd : Fin 32) (srcs : List CReg) : Leaves s (s.cell c rd srcs f) := by
  unfold State.cell
  refine execWith_leaves (fun s1 cyc => ?_) s _ _ _ _
  have h := hf s1 cyc
  cases ha : f s1 cyc with
  | trap code v => simp
  | done n v st =>
    rw [ha] at h
    exact h.setCore fun hk => by simpa using hk
  | sleep st => rwa [ha] at h

@[simp] theorem noting_spares (x : Stored) (a : CellAns) (err : Ecc) : (a.noting err).Spares x ↔ a.Spares x := by
  cases a <;> simp [CellAns.noting]

@[simp] theorem withBytes_spares {f : List Byte → CellAns} {s : State} (hf : ∀ b, (f b).Spares s.stored) (c : Fin 9)
    (a len : Nat) (err : Ecc) : (s.withBytes c a len err f).Spares s.stored := by
  unfold State.withBytes
  split <;> simp [hf]

@[simp] theorem request_stored (s : State) (c : Fin 9) (r : Req) : (s.request c r).stored = s.stored := by
  simp [State.request]

@[simp] theorem withSeg_spares {f : SegDesc → CellAns} {s : State} (hf : ∀ d, (f d).Spares s.stored) (c : Fin 9) (word : DWord)
    (a : Nat) (err : Ecc) : (s.withSeg c word a err f).Spares s.stored := by
  refine withBytes_spares (fun b => ?_) c a 128 _
  dsimp only
  split_ifs <;> simp [hf]

@[simp] theorem execSegq_leaves (c : Fin 9) (rd ra : Fin 32) (err : Ecc) (s : State) :
    Leaves s (execSegq c rd ra err s) := by
  unfold execSegq
  refine cell_leaves (fun s1 _ => ?_) _ _ _ _
  split
  · trivial
  · refine withSeg_spares (fun d => ?_) _ _ _ _
    repeat' split
    all_goals simp

@[simp] theorem execSega_leaves (c : Fin 9) (rd ra : Fin 32) (err : Ecc) (s : State) :
    Leaves s (execSega c rd ra err s) := by
  unfold execSega
  refine cell_leaves (fun s1 _ => ?_) _ _ _ _
  split
  · trivial
  · refine withSeg_spares (fun d => ?_) _ _ _ _
    repeat' split
    all_goals simp

@[simp] theorem execSegclr_leaves (c : Fin 9) (rd : Fin 32) (s : State) : Leaves s (execSegclr c rd s) := by
  unfold execSegclr
  split <;> simp

@[simp] theorem execCut_leaves (c : Fin 9) (rd : Fin 32) (s : State) : Leaves s (execCut c rd s) := by simp [execCut]

@[simp] theorem execSegstat_leaves (c : Fin 9) (rd : Fin 32) (s : State) : Leaves s (execSegstat c rd s) := by
  unfold execSegstat
  split <;> simp

@[simp] theorem execStop_leaves (c : Fin 9) (rd ra : Fin 32) (s : State) : Leaves s (execStop c rd ra s) := by
  simp [execStop]

@[simp] theorem execAuxq_leaves (c : Fin 9) (rd ra rb : Fin 32) (err : Ecc) (s : State) :
    Leaves s (execAuxq c rd ra rb err s) := by
  unfold execAuxq
  refine cell_leaves (fun s1 _ => ?_) _ _ _ _
  dsimp only
  iterate 3 refine iteInduction (fun _ => trivial) (fun _ => ?_)
  refine withBytes_spares (fun b => ?_) _ _ _ _
  split
  · simp
  split
  · simp
  split
  · simp
  split <;> simp

@[simp] theorem execWaitl_leaves (c : Fin 9) (rd ra rb : Fin 32) (func : BitVec 12) (s : State) :
    Leaves s (execWaitl c rd ra rb func s) := by
  unfold execWaitl
  dsimp only
  refine cell_leaves (fun _ _ => ?_) _ _ _ _
  split
  · simp
  split
  · simp
  split <;> simp

@[simp] theorem execWaitlWake_leaves (c : Fin 9) (s : State) : Leaves s (execWaitlWake c s) := by
  unfold execWaitlWake
  dsimp only
  split
  · split
    · split <;> simp
    simp
  simp

@[simp] theorem execHpub_leaves (c : Fin 9) (rd ra rb : Fin 32) (func : BitVec 12) (err : Ecc) (s : State) :
    Leaves s (execHpub c rd ra rb func err s) := by
  simp [execHpub]

@[simp] theorem execApub_leaves (c : Fin 9) (rd ra rb : Fin 32) (func : BitVec 12) (err : Ecc) (s : State) :
    Leaves s (execApub c rd ra rb func err s) := by
  refine cell_leaves (fun s1 cyc => ?_) _ _ _ _
  dsimp only
  split
  · trivial
  split
  · trivial
  refine withBytes_spares (fun b => ?_) _ _ _ _
  refine (cellSpares_done ..).mpr (spares_of_eq (modCore_stored ?_))
  split_ifs <;> rfl

@[simp] theorem execRtake_leaves (c : Fin 9) (rd ra rb : Fin 32) (s : State) : Leaves s (execRtake c rd ra rb s) := by
  unfold execRtake
  dsimp only
  refine cell_leaves (fun _ _ => ?_) _ _ _ _
  split
  · simp
  split
  · simp
  split
  · simp
  split
  · simp
  split <;> simp

@[simp] theorem execJrec_leaves (c : Fin 9) (rd ra rb : Fin 32) (err : Ecc) (s : State) :
    Leaves s (execJrec c rd ra rb err s) := by
  simp [execJrec]

@[simp] theorem execJdone_leaves (c : Fin 9) (rd ra rb : Fin 32) (s : State) : Leaves s (execJdone c rd ra rb s) := by
  simp [execJdone]

@[simp] theorem execJnext_leaves (c : Fin 9) (rd ra : Fin 32) (s : State) : Leaves s (execJnext c rd ra s) := by
  unfold execJnext
  dsimp only
  refine cell_leaves (fun _ _ => ?_) _ _ _ _
  split
  · simp
  split <;> simp

@[simp] theorem execProfq_leaves (c : Fin 9) (rd : Fin 32) (imm : BitVec 12) (s : State) :
    Leaves s (execProfq c rd imm s) := by
  unfold execProfq
  refine cell_leaves (fun _ _ => ?_) _ _ _ _
  split <;> simp

@[simp] theorem execCapq_leaves (c : Fin 9) (rd : Fin 32) (imm : BitVec 12) (s : State) :
    Leaves s (execCapq c rd imm s) := by
  simp [execCapq]

/-! ### `Machine/SafeDomain.lean` -/

@[simp] theorem modSaf_stored (s : State) (f : Saf → Saf) : (s.modSaf f).stored = s.stored := by simp [State.modSaf]
@[simp] theorem atTime_stored (s : State) (t : DWord) : (s.atTime t).stored = s.stored := by simp [State.atTime]
@[simp] theorem signalFault_stored (s : State) (r : FaultRep) : (s.signalFault r).stored = s.stored := by
  simp [State.signalFault]
@[simp] theorem takeFault_stored (s : State) (t : DWord) (q : QFault) : (s.takeFault t q).stored = s.stored := by
  simp [State.takeFault]

@[simp] theorem drainQueue_stored (n : Nat) (s : State) : (s.drainQueue n).stored = s.stored := by
  induction n generalizing s with
  | zero => rfl
  | succ n ih =>
    unfold State.drainQueue
    split <;> simp [ih]

@[simp] theorem settleFaults_stored (s : State) : s.settleFaults.stored = s.stored := by simp [State.settleFaults]

@[simp] theorem intake_stored (s : State) (t : DWord) (r0 : FaultRep) : (s.intake t r0).stored = s.stored := by
  unfold State.intake
  dsimp only
  split
  · simp
  split <;> simp

@[simp] theorem execFaultQueuePop_leaves (s : State) : Leaves s (execFaultQueuePop s) := by simp [execFaultQueuePop]
@[simp] theorem execProgramFaultRaise_leaves (i : Fin 128) (cls : Fin 4) (hold : Bool) (t : DWord) (s : State) :
    Leaves s (execProgramFaultRaise i cls hold t s) := by
  simp [execProgramFaultRaise]

@[simp] theorem stoCore_stored (s : State) : s.stoCore.stored = s.stored := by simp [State.stoCore]
@[simp] theorem execStoEntry_leaves (t : DWord) (s : State) : Leaves s (execStoEntry t s) := by simp [execStoEntry]
@[simp] theorem duskRest_stored (t : DWord) (s : State) : (s.duskRest t).stored = s.stored := by simp [State.duskRest]
@[simp] theorem execDuskTimeout_leaves (t : DWord) (s : State) : Leaves s (execDuskTimeout t s) := by
  simp [execDuskTimeout]
@[simp] theorem endHold_stored (s : State) (t : DWord) : (s.endHold t).stored = s.stored := by simp [State.endHold]
@[simp] theorem execHoldEnd_leaves (t : DWord) (s : State) : Leaves s (execHoldEnd t s) := by simp [execHoldEnd]
@[simp] theorem wdogExpire_stored (s : State) (t : DWord) : (s.wdogExpire t).stored = s.stored := by
  simp [State.wdogExpire]
@[simp] theorem execWdogService_leaves (since : Nat) (t : DWord) (s : State) : Leaves s (execWdogService since t s) := by
  simp [execWdogService]
@[simp] theorem execWdogExpired_leaves (t : DWord) (s : State) : Leaves s (execWdogExpired t s) := by
  simp [execWdogExpired]
@[simp] theorem execWdogStoDelay_leaves (s : State) : Leaves s (execWdogStoDelay s) := by simp [execWdogStoDelay]
@[simp] theorem execStoReadback_leaves (t : DWord) (s : State) : Leaves s (execStoReadback t s) := by
  simp [execStoReadback]
@[simp] theorem execResetEdge_leaves (released pressed : Nat) (t : DWord) (s : State) :
    Leaves s (execResetEdge released pressed t s) := by
  simp [execResetEdge]

@[simp] theorem execResetStuck_leaves (t : DWord) (s : State) : Leaves s (execResetStuck t s) := by simp [execResetStuck]

@[simp] theorem execResetEdgeEvaluate_leaves (t : DWord) (s : State) : Leaves s (execResetEdgeEvaluate t s) := by
  unfold execResetEdgeEvaluate
  dsimp only
  split
  · simp
  split
  · simp
  split <;> simp

@[simp] theorem execSafeInputChange_leaves (i : Fin 16) (level : Bool) (s : State) :
    Leaves s (execSafeInputChange i level s) := by
  unfold execSafeInputChange
  dsimp only
  split <;> simp

@[simp] theorem execSinDisc_leaves (i : Fin 16) (t : DWord) (s : State) : Leaves s (execSinDisc i t s) := by
  unfold execSinDisc
  split <;> simp

@[simp] theorem execTestPulse_leaves (k : Fin 4) (lows : BitVec 16) (estLow : Bool) (t : DWord) (s : State) :
    Leaves s (execTestPulse k lows estLow t s) := by
  simp [execTestPulse]

@[simp] theorem execEstopChange_leaves (a b : Bool) (t : DWord) (s : State) : Leaves s (execEstopChange a b t s) := by
  simp [execEstopChange]
@[simp] theorem execEstopDisc_leaves (t : DWord) (s : State) : Leaves s (execEstopDisc t s) := by simp [execEstopDisc]
@[simp] theorem execSoutWrite_leaves (v : Byte) (s : State) : Leaves s (execSoutWrite v s) := by simp [execSoutWrite]
@[simp] theorem execDarkPulse_leaves (k : Fin 8) (s : State) : Leaves s (execDarkPulse k s) := by simp [execDarkPulse]
@[simp] theorem execSoutReadback_leaves (k : Fin 8) (rb : Bool) (t : DWord) (s : State) :
    Leaves s (execSoutReadback k rb t s) := by
  simp [execSoutReadback]

@[simp] theorem execMarchSegment_leaves (fail : Bool) (t : DWord) (s : State) : Leaves s (execMarchSegment fail t s) := by
  simp [execMarchSegment]
@[simp] theorem execHaloChunk_leaves (fail : Bool) (t : DWord) (s : State) : Leaves s (execHaloChunk fail t s) := by
  simp [execHaloChunk]
@[simp] theorem execDiagLate_leaves (march : Bool) (t : DWord) (s : State) : Leaves s (execDiagLate march t s) := by
  simp [execDiagLate]
@[simp] theorem diagReserve_stored (s : State) : s.diagReserve.stored = s.stored := by simp [State.diagReserve]
@[simp] theorem execFlowdlExpire_leaves (t : DWord) (s : State) : Leaves s (execFlowdlExpire t s) := by
  simp [execFlowdlExpire]
@[simp] theorem flowCheck_stored (s : State) : s.flowCheck.stored = s.stored := by simp [State.flowCheck]
@[simp] theorem execFlowsig_leaves (c : Fin 10) (imm : BitVec 12) (s : State) : Leaves s (execFlowsig c imm s) := by
  simp [execFlowsig]
@[simp] theorem execMailboxGo_leaves (s : State) : Leaves s (execMailboxGo s) := by simp [execMailboxGo]
@[simp] theorem mbxDone_stored (s : State) (result : BitVec 16) : (s.mbxDone result).stored = s.stored := by
  simp [State.mbxDone]
@[simp] theorem mbxDoneFree_stored (s : State) : s.mbxDoneFree.stored = s.stored := by simp [State.mbxDoneFree]
@[simp] theorem execMbxHostStop_leaves (t : DWord) (s : State) : Leaves s (execMbxHostStop t s) := by
  simp [execMbxHostStop]
@[simp] theorem execMbxHoldEnd_leaves (t : DWord) (s : State) : Leaves s (execMbxHoldEnd t s) := by simp [execMbxHoldEnd]
@[simp] theorem execMbxEcho_leaves (s : State) : Leaves s (execMbxEcho s) := by simp [execMbxEcho]
@[simp] theorem execMbxProgram_leaves (result : BitVec 16) (r0 r1 r2 r3 : Word) (s : State) :
    Leaves s (execMbxProgram result r0 r1 r2 r3 s) := by
  simp [execMbxProgram]

@[simp] theorem execMbxUnknown_leaves (s : State) : Leaves s (execMbxUnknown s) := by simp [execMbxUnknown]

/-! ### `Machine/Capture.lean` -/

@[simp] theorem modCap_stored (s : State) (f : Cap → Cap) : (s.modCap f).stored = s.stored := by simp [State.modCap]
@[simp] theorem modCapSet_stored (s : State) (k : Fin 4) (f : CapSet → CapSet) :
    (s.modCapSet k f).stored = s.stored := by
  simp [State.modCapSet]

@[simp] theorem capAction_stored (s : State) (k : Fin 4) (index : Byte) : (s.capAction k index).stored = s.stored := by
  unfold State.capAction
  dsimp only
  split <;> simp

@[simp] theorem capTrigger_stored (s : State) (k : Fin 4) (buf : List CapSample) (smp : CapSample) (fired : BitVec 2)
    (forced : Bool) (ttime : Int) : (s.capTrigger k buf smp fired forced ttime).stored = s.stored := by
  unfold State.capTrigger
  dsimp only
  split <;> simp

@[simp] theorem capFilled_stored (s : State) (k : Fin 4) : (s.capFilled k).stored = s.stored := by simp [State.capFilled]

@[simp] theorem capSample_stored (s : State) (k : Fin 4) (forcedTick : Bool) (smp : CapSample) :
    (s.capSample k forcedTick smp).stored = s.stored := by
  unfold State.capSample
  extract_lets c inst
  split
  case h_1 =>
    split
    · simp
    · split <;> simp
  case h_2 =>
    split
    · rfl
    rename_i hit _ s1 _ s2 _ _ _
    have h2 : s2.stored = s.stored := by
      unfold s2
      split
      · simp [s1]
      · cases h : hit <;> simp [s1]
    rw [stored_ite, capFilled_stored, h2, ite_self]

@[simp] theorem forcedFlags_stored (s : State) (k : Fin 4) (smp : CapSample) :
    (s.forcedFlags k smp).stored = s.stored := by
  simp [State.forcedFlags]

@[simp] theorem capSetTick_stored (s : State) (k : Fin 4) (n : Nat) : (s.capSetTick k n).stored = s.stored := by
  simp [State.capSetTick]
@[simp] theorem execCaptureAssembly_leaves (s : State) : Leaves s (execCaptureAssembly s) := by simp [execCaptureAssembly]

@[simp] theorem execRecordClose_leaves (i : Byte) (s : State) : Leaves s (execRecordClose i s) := by
  unfold execRecordClose
  dsimp only
  split <;> simp

@[simp] theorem execCapForce_leaves (k : Fin 4) (s : State) : Leaves s (execCapForce k s) := by simp [execCapForce]

@[simp] theorem capCommit_stored (s : State) : s.capCommit.stored = s.stored := by
  refine foldl_stored (fun st k => ?_) s _
  simp only [stored_ite, modCapSet_stored, stored_mk, stored_fold, ite_self]
  split
  · rfl
  · split <;> simp

@[simp] theorem execReadoutGo_leaves (i : Byte) (s : State) : Leaves s (execReadoutGo i s) := by simp [execReadoutGo]

@[simp] theorem execReadoutDone_leaves (eccErr : Ecc) (t : DWord) (s : State) :
    Leaves s (execReadoutDone eccErr t s) := by
  unfold execReadoutDone
  dsimp only
  split
  · simp
  split <;> simp

@[simp] theorem execRecordRelease_leaves (i : Byte) (s : State) : Leaves s (execRecordRelease i s) := by
  simp [execRecordRelease]

/-! ### `Machine/Lanes.lean` -/

@[simp] theorem modLane_stored (s : State) (l : Fin 32) (f : Lane → Lane) : (s.modLane l f).stored = s.stored := by
  simp [State.modLane]
@[simp] theorem laneFault_stored (s : State) (l : Fin 32) (code : Nat) : (s.laneFault l code).stored = s.stored := by
  simp [State.laneFault]
@[simp] theorem laneGoto_stored (s : State) (l : Fin 32) (pc : Nat) : (s.laneGoto l pc).stored = s.stored := by
  simp [State.laneGoto]
@[simp] theorem laneStep_leaves (s : State) (l : Fin 32) (f : Lane → Lane) : Leaves s (s.laneStep l f) := by
  simp [State.laneStep]
@[simp] theorem laneInputs_stored (s : State) (l : Fin 32) : (s.laneInputs l).stored = s.stored := by
  simp [State.laneInputs]
@[simp] theorem execLanePass_leaves (l : Fin 32) (eccErr : Ecc) (s : State) : Leaves s (execLanePass l eccErr s) := by
  simp [execLanePass]
@[simp] theorem execLaneOverrun_leaves (l : Fin 32) (s : State) : Leaves s (execLaneOverrun l s) := by
  simp [execLaneOverrun]
@[simp] theorem execLaneStart_leaves (l : Fin 32) (s : State) : Leaves s (execLaneStart l s) := by simp [execLaneStart]
@[simp] theorem execLaneStop_leaves (l : Fin 32) (s : State) : Leaves s (execLaneStop l s) := by simp [execLaneStop]
@[simp] theorem execLanePatch_leaves (s : State) : Leaves s (execLanePatch s) := by simp [execLanePatch]
@[simp] theorem execTmpy_leaves (l : Fin 32) (ac : Fin 2) (t : TapOp) (s : State) : Leaves s (execTmpy l ac t s) := by
  simp [execTmpy]
@[simp] theorem execTmac_leaves (l : Fin 32) (ac : Fin 2) (t : TapOp) (s : State) : Leaves s (execTmac l ac t s) := by
  simp [execTmac]
@[simp] theorem execTmsu_leaves (l : Fin 32) (ac : Fin 2) (t : TapOp) (s : State) : Leaves s (execTmsu l ac t s) := by
  simp [execTmsu]
@[simp] theorem execLanePut_leaves (l : Fin 32) (ac : Fin 2) (m : MemOp) (sh : Fin 32) (s : State) :
    Leaves s (execLanePut l ac m sh s) := by
  simp [execLanePut]

@[simp] theorem execLaneGet_leaves (l : Fin 32) (ac : Fin 2) (m : MemOp) (sh : Fin 24) (s : State) :
    Leaves s (execLaneGet l ac m sh s) := by
  simp [execLaneGet]

@[simp] theorem execLaneAdd_leaves (l : Fin 32) (ac : Fin 2) (m : MemOp) (sh : Fin 24) (s : State) :
    Leaves s (execLaneAdd l ac m sh s) := by
  simp [execLaneAdd]

@[simp] theorem execIdx_leaves (l : Fin 32) (ac : Fin 2) (a : Fin 8) (sh : Fin 32) (s : State) :
    Leaves s (execIdx l ac a sh s) := by
  simp [execIdx]

@[simp] theorem execLaneClr_leaves (l : Fin 32) (ac : Fin 2) (s : State) : Leaves s (execLaneClr l ac s) := by
  simp [execLaneClr]
@[simp] theorem execLds_leaves (l : Fin 32) (m : MemOp) (k : Fin 4) (s : State) : Leaves s (execLds l m k s) := by
  simp [execLds]
@[simp] theorem execSeta_leaves (l : Fin 32) (r : Fin 8) (v : BitVec 11) (s : State) : Leaves s (execSeta l r v s) := by
  simp [execSeta]
@[simp] theorem execSetm_leaves (l : Fin 32) (r : Fin 8) (v : BitVec 12) (s : State) : Leaves s (execSetm l r v s) := by
  simp [execSetm]
@[simp] theorem execSetl_leaves (l : Fin 32) (r : Fin 8) (v : BitVec 12) (s : State) : Leaves s (execSetl l r v s) := by
  simp [execSetl]
@[simp] theorem execSets_leaves (l : Fin 32) (k : Fin 4) (v : BitVec 16) (s : State) : Leaves s (execSets l k v s) := by
  simp [execSets]
@[simp] theorem execRpt_leaves (l : Fin 32) (count len : BitVec 11) (s : State) : Leaves s (execRpt l count len s) := by
  simp [execRpt]
@[simp] theorem execLaneBr_leaves (l : Fin 32) (cond : Fin 5) (ac : Fin 2) (target : BitVec 11) (s : State) :
    Leaves s (execLaneBr l cond ac target s) := by
  simp [execLaneBr]

@[simp] theorem execLaneEnd_leaves (l : Fin 32) (s : State) : Leaves s (execLaneEnd l s) := by simp [execLaneEnd]

/-! ### `Machine/Control.lean` -/

@[simp] theorem modCasc_stored (s : State) (a : Fin 128) (f : Cascade → Cascade) :
    (s.modCasc a f).stored = s.stored := by
  simp [State.modCasc]

@[simp] theorem dynBook_stored (s : State) (a : Fin 128) : (s.dynBook a).stored = s.stored := by
  unfold State.dynBook
  dsimp only
  split <;> simp

@[simp] theorem dynNoted_stored (s : State) (a : Fin 128) : (s.dynNoted a).stored = s.stored := by
  unfold State.dynNoted
  split <;> simp

@[simp] theorem followChecks_stored (s : State) (a : Fin 128) : (s.followChecks a).stored = s.stored := by
  simp [State.followChecks]

@[simp] theorem holdCmd_stored (s : State) (a : Fin 128) : (s.holdCmd a).stored = s.stored := by
  unfold State.holdCmd
  dsimp only
  split <;> simp

@[simp] theorem execAxisCascade_leaves (a : Fin 128) (s : State) : Leaves s (execAxisCascade a s) := by
  simp [execAxisCascade]
@[simp] theorem execManualEnter_leaves (a : Fin 128) (s : State) : Leaves s (execManualEnter a s) := by
  simp [execManualEnter]
@[simp] theorem execBumplessTransfer_leaves (a : Fin 128) (s : State) : Leaves s (execBumplessTransfer a s) := by
  simp [execBumplessTransfer]

@[simp] theorem takeDue_stored (s : State) (off bit : Nat) : (s.takeDue off bit).2.stored = s.stored := by
  unfold State.takeDue
  dsimp only
  split <;> simp

@[simp] theorem execClrInt_leaves (a : Fin 128) (s : State) : Leaves s (execClrInt a s) := by simp [execClrInt]
@[simp] theorem execCtlClrFault_leaves (a : Fin 128) (s : State) : Leaves s (execCtlClrFault a s) := by
  simp [execCtlClrFault]

/-! ### `Machine/Lines.lean` -/

@[simp] theorem modLine_stored (s : State) (n : Fin 8) (f : Line → Line) : (s.modLine n f).stored = s.stored := by
  simp [State.modLine]
@[simp] theorem execLineEdge_leaves (n : Fin 8) (a b : BitVec 3) (sample : Nat) (s : State) :
    Leaves s (execLineEdge n a b sample s) := by
  simp [execLineEdge]

@[simp] theorem indexEvent_stored (s : State) (n : Fin 8) (t : DWord) : (s.indexEvent n t).stored = s.stored := by
  unfold State.indexEvent
  dsimp only
  split <;> simp

@[simp] theorem execLineIndex_leaves (n : Fin 8) (z : BitVec 3) (t : DWord) (s : State) :
    Leaves s (execLineIndex n z t s) := by
  simp [execLineIndex]

@[simp] theorem execLineLatch_leaves (n : Fin 8) (t : DWord) (s : State) : Leaves s (execLineLatch n t s) := by
  simp [execLineLatch]
@[simp] theorem execLineIdleLatch_leaves (s : State) : Leaves s (execLineIdleLatch s) := by simp [execLineIdleLatch]
@[simp] theorem execLineFault_leaves (n : Fin 8) (s : State) : Leaves s (execLineFault n s) := by simp [execLineFault]
@[simp] theorem execLinClrFault_leaves (n : Fin 8) (sample : Nat) (s : State) :
    Leaves s (execLinClrFault n sample s) := by
  simp [execLinClrFault]

@[simp] theorem execClrUncert_leaves (n : Fin 8) (s : State) : Leaves s (execClrUncert n s) := by simp [execClrUncert]
@[simp] theorem execClrQerr_leaves (n : Fin 8) (s : State) : Leaves s (execClrQerr n s) := by simp [execClrQerr]
@[simp] theorem execLinSiderealRead_leaves (path : Path) (t : DWord) (s : State) :
    Leaves s (execLinSiderealRead path t s) := by
  simp [execLinSiderealRead]

/-! ### `Machine/MerFrames.lean` -/

@[simp] theorem countDiscard_stored (s : State) (c : Channel) (f : SchedFrame) (d : Discard) :
    (s.countDiscard c f d).stored = s.stored := by
  unfold State.countDiscard
  dsimp only
  split <;> simp

@[simp] theorem receive_stored (s : State) (c : Channel) (f : SchedFrame) : (s.receive c f).2.stored = s.stored := by
  simp [State.receive]

/-! ### `Machine/Feedback.lean` -/

@[simp] theorem modFbk_stored (s : State) (a : Fin 128) (f : AxFbk → AxFbk) : (s.modFbk a f).stored = s.stored := by
  simp [State.modFbk]
@[simp] theorem modSsi_stored (s : State) (p : Fin 16) (f : SsiPort → SsiPort) : (s.modSsi p f).stored = s.stored := by
  simp [State.modSsi]
@[simp] theorem execSsiFrameStart_leaves (p : Fin 16) (ts : DWord) (high : Bool) (s : State) :
    Leaves s (execSsiFrameStart p ts high s) := by
  simp [execSsiFrameStart]

@[simp] theorem execSsiWord_leaves (p : Fin 16) (bits : List Bool) (td : Option Nat) (endLow : Bool) (s : State) :
    Leaves s (execSsiWord p bits td endLow s) := by
  unfold execSsiWord
  dsimp only
  split
  · simp
  split
  · simp
  split <;> simp

@[simp] theorem applyFbRec_stored (s : State) (a : Fin 128) (r : FbRec) (t0 : Nat) :
    (s.applyFbRec a r t0).stored = s.stored := by
  simp [State.applyFbRec]

@[simp] theorem execFeedbackFrame_leaves (ch : Channel) (f : SchedFrame) (t : DWord) (s : State) :
    Leaves s (execFeedbackFrame ch f t s) := by
  unfold execFeedbackFrame
  extract_lets s0 k b node nax nb iolen io t0
  have hk : k.2.stored = s.stored := receive_stored s0 ch f
  rw [leaves_next]
  refine spares_of_eq ?_
  split
  · rfl
  split
  · exact hk
  split
  · simp [hk]
  rename_i s1 s2 _ s3 s4 _ _ _ _
  refine iteInduction (motive := fun st : State => st.stored = s.stored) (fun _ => hk) (fun _ => ?_)
  have h1 : s1.stored = k.2.stored := rfl
  have h2 : s2.stored = k.2.stored := by
    unfold s2
    split <;> simp [h1]
  have h3 : s3.stored = s2.stored := by
    unfold s3
    split
    · exact foldl_stored (fun _ _ => by dsimp only; split <;> simp) _ _
    · rfl
  have h4 : s4.stored = s3.stored := foldl_stored (fun _ _ => by dsimp only; split <;> simp) _ _
  cases hio : io <;> simp [h4, h3, h2, hk]

@[simp] theorem execGatherEnd_leaves (s : State) : Leaves s (execGatherEnd s) := by
  unfold execGatherEnd
  dsimp only
  split <;> simp

@[simp] theorem execStandstillTimeout_leaves (src : EstSrc) (s : State) : Leaves s (execStandstillTimeout src s) := by
  unfold execStandstillTimeout
  dsimp only
  split
  · split <;> simp
  simp

@[simp] theorem axisEstimate_stored (s : State) (a : Fin 128) : (s.axisEstimate a).stored = s.stored := by
  simp [State.axisEstimate]

@[simp] theorem execExtrapolatePhase_leaves (s : State) : Leaves s (execExtrapolatePhase s) := by
  unfold execExtrapolatePhase
  rw [leaves_next]
  refine spares_of_eq ?_
  split
  · rfl
  · extract_lets s1 s2 s3
    have h1 : s1.stored = s.stored := foldl_stored (fun _ _ => by dsimp only; split <;> simp [modLine_stored]) _ _
    have h2 : s2.stored = s1.stored := foldl_stored (fun _ _ => by split <;> simp [axisEstimate_stored]) _ _
    have h3 : s3.stored = s2.stored := foldl_stored armTick_stored _ _
    refine (foldl_stored (fun st a => ?_) _ _).trans (h3.trans (h2.trans h1))
    split <;> simp [auxTick_stored, loadTick_stored]

@[simp] theorem execFbkTimeout_leaves (a : Fin 128) (s : State) : Leaves s (execFbkTimeout a s) := by
  simp [execFbkTimeout]

/-! ### `Machine/Meridian.lean` -/

@[simp] theorem modMer_stored (s : State) (f : Mer → Mer) : (s.modMer f).stored = s.stored := by simp [State.modMer]
@[simp] theorem modPort_stored (s : State) (c : Channel) (p : LPort) (f : MerPort → MerPort) :
    (s.modPort c p f).stored = s.stored := by
  simp [State.modPort]

@[simp] theorem sendLink_stored (s : State) (c : Channel) (p : LPort) (type scope : Byte) (payload : List Byte) :
    (s.sendLink c p type scope payload).stored = s.stored := by
  simp [State.sendLink]

@[simp] theorem sendColdstart_stored (s : State) : s.sendColdstart.stored = s.stored := by simp [State.sendColdstart]
@[simp] theorem sendEnum_stored (s : State) (c : Channel) (p : LPort) : (s.sendEnum c p).stored = s.stored := by
  simp [State.sendEnum]
@[simp] theorem sendEnums_stored (s : State) : s.sendEnums.stored = s.stored := by simp [State.sendEnums]
@[simp] theorem sendNodeAddrs_stored (s : State) : s.sendNodeAddrs.stored = s.stored := by simp [State.sendNodeAddrs]
@[simp] theorem portFall_stored (s : State) (c : Channel) (p : LPort) : (s.portFall c p).stored = s.stored := by
  simp [State.portFall]
@[simp] theorem execLinkDown_leaves (c : Channel) (p : LPort) (t : DWord) (s : State) :
    Leaves s (execLinkDown c p t s) := by
  simp [execLinkDown]

@[simp] theorem execTrainSend_leaves (c : Channel) (p : LPort) (s : State) : Leaves s (execTrainSend c p s) := by
  simp [execTrainSend]

@[simp] theorem execTrainReceive_leaves (c : Channel) (p : LPort) (s : State) : Leaves s (execTrainReceive c p s) := by
  unfold execTrainReceive
  split <;> simp

@[simp] theorem execLinkMeasure_leaves (c : Channel) (p : LPort) (s : State) : Leaves s (execLinkMeasure c p s) := by
  simp [execLinkMeasure]
@[simp] theorem execLinkReady_leaves (c : Channel) (p : LPort) (t : DWord) (s : State) :
    Leaves s (execLinkReady c p t s) := by
  simp [execLinkReady]

@[simp] theorem retrain_stored (s : State) (mask : BitVec 4) : (s.retrain mask).stored = s.stored := by
  simp [State.retrain]
@[simp] theorem execMerRetrain_leaves (mask : BitVec 4) (t : DWord) (s : State) : Leaves s (execMerRetrain mask t s) := by
  simp [execMerRetrain]
@[simp] theorem portdis_stored (s : State) (mask : BitVec 4) : (s.portdis mask).stored = s.stored := by
  simp [State.portdis]
@[simp] theorem execMerPortdis_leaves (mask : BitVec 4) (t : DWord) (s : State) : Leaves s (execMerPortdis mask t s) := by
  simp [execMerPortdis]

@[simp] theorem execFrameRepeat_leaves (c : Channel) (p : LPort) (f : MerFrame) (s : State) :
    Leaves s (execFrameRepeat c p f s) := by
  unfold execFrameRepeat
  dsimp only
  split <;> simp

@[simp] theorem contend_stored (s : State) (t : DWord) : (s.contend t).stored = s.stored := by simp [State.contend]

@[simp] theorem execColdstartListenEnd_leaves (t : DWord) (s : State) : Leaves s (execColdstartListenEnd t s) := by
  unfold execColdstartListenEnd
  split <;> simp

@[simp] theorem execColdstartReceive_leaves (c : Channel) (p : LPort) (f : LinkFrame) (t : DWord) (s : State) :
    Leaves s (execColdstartReceive c p f t s) := by
  unfold execColdstartReceive
  dsimp only
  split
  · simp
  split <;> simp

@[simp] theorem execColdstartWindowEnd_leaves (t : DWord) (asTime : Option DWord) (s : State) :
    Leaves s (execColdstartWindowEnd t asTime s) := by
  unfold execColdstartWindowEnd
  rw [leaves_next]
  refine spares_of_eq ?_
  split
  · refine iteInduction (motive := fun st : State => st.stored = s.stored) (fun _ => ?_) (fun _ => rfl)
    extract_lets coarse
    rw [sendNodeAddrs_stored, sendEnums_stored, modMer_stored]
    rw [stored_mk, stored_fold, crystal_stored]
  · rfl

@[simp] theorem execLodestarBeacon_leaves (t : DWord) (s : State) : Leaves s (execLodestarBeacon t s) := by
  simp [execLodestarBeacon]

@[simp] theorem execMerNoLodestar_leaves (t : DWord) (s : State) : Leaves s (execMerNoLodestar t s) := by
  unfold execMerNoLodestar
  split <;> simp

@[simp] theorem execDelayReqSend_leaves (c : Channel) (p : LPort) (t1 : DWord) (s : State) :
    Leaves s (execDelayReqSend c p t1 s) := by
  simp [execDelayReqSend]

@[simp] theorem execDelayReqReceive_leaves (c : Channel) (p : LPort) (f : LinkFrame) (t2 t3 : DWord) (s : State) :
    Leaves s (execDelayReqReceive c p f t2 t3 s) := by
  simp [execDelayReqReceive]

@[simp] theorem execDelayRespReceive_leaves (c : Channel) (p : LPort) (f : LinkFrame) (t4 : DWord) (s : State) :
    Leaves s (execDelayRespReceive c p f t4 s) := by
  unfold execDelayRespReceive
  rw [leaves_next]
  refine spares_of_eq ?_
  split
  · refine iteInduction (motive := fun st : State => st.stored = s.stored) (fun _ => ?_) (fun _ => rfl)
    exact modPort_stored _ _ _ _
  · rfl

@[simp] theorem steer_stored (s : State) (t : DWord) (asTime : Option DWord) : (s.steer t asTime).stored = s.stored := by
  unfold State.steer
  dsimp only
  split <;> simp

@[simp] theorem execSyncSend_leaves (t : DWord) (s0 : State) (asTime : Option DWord) :
    Leaves s0 (execSyncSend t s0 asTime) := by
  simp [execSyncSend]

@[simp] theorem execSyncReceive_leaves (c : Channel) (p : LPort) (f : SchedFrame) (t : DWord) (s : State) :
    Leaves s (execSyncReceive c p f t s) := by
  simp only [execSyncReceive, leaves_next, stored_ite, countDiscard_stored, raise_stored, modPort_stored, modMer_stored,
    stored_mk, stored_fold, ite_self, spares_refl]

@[simp] theorem execSyncDegraded_leaves (s : State) : Leaves s (execSyncDegraded s) := by simp [execSyncDegraded]
@[simp] theorem execSiderealHoldover_leaves (s : State) : Leaves s (execSiderealHoldover s) := by
  simp [execSiderealHoldover]
@[simp] theorem execSiderealLost_leaves (s : State) : Leaves s (execSiderealLost s) := by simp [execSiderealLost]
@[simp] theorem execSyncRelock_leaves (s : State) : Leaves s (execSyncRelock s) := by simp [execSyncRelock]
@[simp] theorem merBoundary_stored (s : State) : s.merBoundary.stored = s.stored := by simp [State.merBoundary]
@[simp] theorem execEnumReceive_leaves (c : Channel) (p : LPort) (f : LinkFrame) (t : DWord) (s : State) :
    Leaves s (execEnumReceive c p f t s) := by
  simp [execEnumReceive]

@[simp] theorem execCtrlReportReceive_leaves (c : Channel) (p : LPort) (f : LinkFrame) (t : DWord) (s : State) :
    Leaves s (execCtrlReportReceive c p f t s) := by
  simp [execCtrlReportReceive]

@[simp] theorem execControllerAssign_leaves (t : DWord) (s : State) : Leaves s (execControllerAssign t s) := by
  unfold execControllerAssign
  extract_lets s0 m due
  rw [leaves_next]
  refine spares_of_eq ?_
  split
  · rfl
  rename_i kept fresh pinned free r s1 s2 _
  have h1 : s1.stored = s.stored := foldl_stored (fun _ _ => by simp) s0 r.2
  have h2 : s2.stored = s1.stored := by
    refine foldl_stored (fun st x => ?_) s1 r.1
    split
    · refine (modMer_stored _ _).trans (foldl_stored (fun _ _ => ?_) st _)
      split <;> simp [sendLink_stored]
    · rfl
  exact h2.trans h1

@[simp] theorem execAssignReceive_leaves (c : Channel) (p : LPort) (f : LinkFrame) (t : DWord) (s : State) :
    Leaves s (execAssignReceive c p f t s) := by
  simp [execAssignReceive]

@[simp] theorem execNodeAddrReceive_leaves (uid : BitVec 48) (f : LinkFrame) (s : State) :
    Leaves s (execNodeAddrReceive uid f s) := by
  simp [execNodeAddrReceive]

@[simp] theorem execAddrAckReceive_leaves (c : Channel) (p : LPort) (f : LinkFrame) (t : DWord) (s : State) :
    Leaves s (execAddrAckReceive c p f t s) := by
  simp [execAddrAckReceive]

/-! ### `Machine/MerSchedule.lean` -/

/-- A fold that carries the state beside other data keeps what each of its steps keeps. -/
theorem foldl_snd_stored {α β : Type} {f : β × State → α → β × State} (h : ∀ x a, (f x a).2.stored = x.2.stored)
    (x : β × State) (l : List α) : (l.foldl f x).2.stored = x.2.stored := by
  induction l generalizing x with
  | nil => rfl
  | cons a l ih => rw [List.foldl_cons, ih, h]

@[simp] theorem execSetpointSend_leaves (ch : Channel) (s : State) : Leaves s (execSetpointSend ch s) := by
  unfold execSetpointSend
  rw [leaves_next]
  refine spares_of_eq ?_
  split
  · rfl
  · refine (foldl_snd_stored (fun x e => ?_) _ _)
    dsimp only
    split
    · exact foldl_stored (fun _ _ => by simp) _ _
    · rfl

@[simp] theorem execSetpointApply_leaves (recs : List SptRec) (s : State) : Leaves s (execSetpointApply recs s) := by
  simp [execSetpointApply]
@[simp] theorem execSetpointLoss_leaves (recs : List SptRec) (s : State) : Leaves s (execSetpointLoss recs s) := by
  simp [execSetpointLoss]
@[simp] theorem execEventFrame_leaves (ch : Channel) (f : SchedFrame) (t : DWord) (s : State) :
    Leaves s (execEventFrame ch f t s) := by
  simp [execEventFrame]

@[simp] theorem pushArb_stored (s : State) (ch : Channel) (f : ArbFrame) : (s.pushArb ch f).stored = s.stored := by
  simp [State.pushArb]

@[simp] theorem execSchedloadSend_leaves (node : BitVec 10) (ch : Channel) (s : State) :
    Leaves s (execSchedloadSend node ch s) := by
  unfold execSchedloadSend
  dsimp only
  split <;> simp

@[simp] theorem execSchedloadReceive_leaves (uid : BitVec 48) (ch : Channel) (f : SchedFrame) (s : State) :
    Leaves s (execSchedloadReceive uid ch f s) := by
  simp [execSchedloadReceive]

@[simp] theorem execSchedackReceive_leaves (ch : Channel) (f : SchedFrame) (t : DWord) (s : State) :
    Leaves s (execSchedackReceive ch f t s) := by
  simp [execSchedackReceive]

@[simp] theorem execMerSchedLoad_leaves (node : BitVec 10) (ch : Channel) (s : State) :
    Leaves s (execMerSchedLoad node ch s) := by
  unfold execMerSchedLoad
  split <;> simp

@[simp] theorem execArbitratingSend_leaves (ch : Channel) (seen : List (Nat × Nat)) (s : State) :
    Leaves s (execArbitratingSend ch seen s) := by
  simp [execArbitratingSend]

@[simp] theorem execMerArbLate_leaves (ch : Channel) (fid : BitVec 12) (s : State) :
    Leaves s (execMerArbLate ch fid s) := by
  simp [execMerArbLate]

@[simp] theorem execMerCrc_leaves (ch : Channel) (s : State) : Leaves s (execMerCrc ch s) := by simp [execMerCrc]
@[simp] theorem writeCp_stored (s : State) (k : Nat) (v : Word) : (s.writeCp k v).stored = s.stored := by
  simp [State.writeCp]
@[simp] theorem execMerCpWrite_leaves (k : Fin 16) (v : Word) (s : State) : Leaves s (execMerCpWrite k v s) := by
  simp [execMerCpWrite]
@[simp] theorem execMeridianCyclePoint_leaves (k : Fin 16) (s : State) : Leaves s (execMeridianCyclePoint k s) := by
  simp [execMeridianCyclePoint]

/-! ### `Machine/Ephemeris.lean` -/

@[simp] theorem streamGap_stored (s : State) (firstSeq : DWord) : (s.streamGap firstSeq).stored = s.stored := by
  simp [State.streamGap]
/-- An item that joins the stream: a keyframe among them is one that was there already. -/
theorem Stored.Spares.queueItem {x : Stored} {s : State} (h : x.Spares s.stored) {it : StreamItem}
    (hit : ∀ f, it = .key f → s.HasKey f) : x.Spares (s.queueItem it).stored := by
  unfold State.queueItem
  split_ifs
  · exact h
  · rwa [streamGap_stored]
  · refine h.modEph (hqueue := fun f hf => ?_)
    obtain hold | hnew := List.mem_append.mp hf
    · exact hasKey_queue hold rfl
    · exact hit f (List.mem_singleton.mp hnew).symm

theorem itemKey_marked {it : StreamItem} {f : Keyframe} (h : .key f = it.marked) : ∃ g, it = .key g ∧ f.state = g.state := by
  cases it with
  | block b => cases h
  | key g =>
    cases h
    exact ⟨g, rfl, rfl⟩

/-- Each keyframe that a change of the slots leaves has the state of the one that was there. -/
theorem hasKey_vmap {s : State} {g : Nat → KfSlot → KfSlot}
    (hg : ∀ n k f, slotKey (g n k) = some f → ∃ f', slotKey k = some f' ∧ f.state = f'.state) {i : Fin 2} {f : Keyframe}
    (hf : slotKey (vmap g s.eph.slots)[i] = some f) : s.HasKey f := by
  rw [Fin.getElem_fin, vmap_getElem] at hf
  obtain ⟨f', hold, hstate⟩ := hg _ _ f hf
  exact hasKey_slot i hold hstate

@[simp] theorem ephNote_spares {x : Stored} {s : State} (h : x.Spares s.stored) (err : Ecc) : x.Spares (s.ephNote err).stored := by
  unfold State.ephNote
  dsimp only
  split
  · exact h
  next it rest hq =>
    have hnote : ∀ k, x.Spares (s.eccNote k err).stored := fun k => by rwa [eccNote_stored]
    split_ifs
    · exact hnote _
    · rw [raise_stored]
      refine (hnote _).modEph (fun i f hf => Or.inl (hasKey_vmap ?_ hf)) fun f hf => ?_
      · rintro n (_ | k | k | k) f hf
        · cases hf
        · exact ⟨f, hf, rfl⟩
        all_goals
          dsimp only at hf
          split_ifs at hf
          all_goals
            cases hf
            exact ⟨k, rfl, rfl⟩
      · obtain hmark | hrest := List.mem_cons.mp hf
        · obtain ⟨g, rfl, hstate⟩ := itemKey_marked hmark
          exact hasKey_queue (by simp [hq]) hstate
        · exact hasKey_queue (by simp [hq, hrest]) rfl

/-- The item at the head leaves the queue. -/
theorem Stored.Spares.dequeue {x : Stored} {s : State} (h : x.Spares s.stored) {it : StreamItem} {rest : List StreamItem}
    (hq : s.eph.queue = it :: rest) : x.Spares (s.modEph fun e => { e with queue := rest }).stored :=
  h.modEph (hqueue := fun k hk => hasKey_queue (by rw [hq]; exact List.mem_cons_of_mem it hk) rfl)

@[simp] theorem execStreamCopy_leaves (s0 : State) (err : Ecc) : Leaves s0 (execStreamCopy s0 err) := by
  have hnote : s0.stored.Spares (if !s0.strEn || bitOf s0.host.susp.toNat 1 then s0 else s0.ephNote err).stored := by simp
  unfold execStreamCopy
  dsimp only
  rw [leaves_next]
  generalize (if !s0.strEn || bitOf s0.host.susp.toNat 1 then s0 else s0.ephNote err) = s at hnote ⊢
  split_ifs
  · exact hnote
  split
  · exact hnote
  next it rest hq =>
    have hrest := hnote.dequeue hq
    split_ifs
    · rwa [streamGap_stored]
    cases it with
    | block b =>
      rw [out_stored]
      refine hrest.modEph (hcopied := fun k hk => ?_)
      obtain hold | hnew := List.mem_append.mp hk
      · exact hasKey_copied hold
      · cases List.mem_singleton.mp hnew
    | key f =>
      rw [msix_stored, out_stored]
      refine hnote.modEph (f := fun e => { e with queue := rest, prod := _, copied := _ }) (hqueue := fun k hk => ?_)
        (hcopied := fun k hk => ?_)
      · exact hasKey_queue (by rw [hq]; exact List.mem_cons_of_mem _ hk) rfl
      · obtain hold | hnew := List.mem_append.mp hk
        · exact hasKey_copied hold
        · cases List.mem_singleton.mp hnew
          exact hasKey_queue (by rw [hq]; exact List.mem_cons_self) rfl

@[simp] theorem execStreamEnable_leaves (s : State) : Leaves s (execStreamEnable s) := by
  have hprod : ((((s.setReg 0x16004C 1).setReg 0x160054 0).modEph fun e => { e with prod := 0 }) : State).stored = s.stored := by
    rw [modEph_stored rfl rfl rfl, setReg_stored, setReg_stored]
  unfold execStreamEnable
  dsimp only
  rw [leaves_next]
  refine spares_of_eq ?_
  split
  · exact hprod
  split
  · rw [stored_ite, streamGap_stored, hprod, ite_self]
  · exact hprod

/-- Items leave the queue. -/
theorem Stored.Spares.unqueue {x : Stored} {s : State} (h : x.Spares s.stored) (p : StreamItem → Bool)
    (ring : List TickBlock) (wrapped : Bool) :
    x.Spares (s.modEph fun e => { e with ring := ring, wrapped := wrapped, queue := e.queue.filter p }).stored :=
  h.modEph (hqueue := fun _ hk => hasKey_queue (List.mem_filter.mp hk).1 rfl)

@[simp] theorem dropOldest_spares {x : Stored} {s : State} (h : x.Spares s.stored) : x.Spares s.dropOldest.stored := by
  unfold State.dropOldest
  dsimp only
  split
  · exact h
  next b _ =>
    have hun := h.unqueue (fun it => !it.isBlock b) (s.eph.ring.filter fun (y : TickBlock) => !y.same b) true
    split_ifs
    · rw [streamGap_stored]
      exact hun
    · exact hun

@[simp] theorem trimRing_spares (n : Nat) {x : Stored} {s : State} (h : x.Spares s.stored) : x.Spares (s.trimRing n).stored := by
  induction n generalizing s with
  | zero => exact h
  | succ n ih =>
    unfold State.trimRing
    split
    · exact h
    · exact ih (dropOldest_spares h)

@[simp] theorem checkShort_stored (s : State) : s.checkShort.stored = s.stored := by simp [State.checkShort]
theorem pinBlocks_stream (e : Eph) :
    e.pinBlocks.slots = e.slots ∧ e.pinBlocks.queue = e.queue ∧ e.pinBlocks.copied = e.copied := by
  unfold Eph.pinBlocks
  dsimp only
  split
  · exact ⟨rfl, rfl, rfl⟩
  · split <;> exact ⟨rfl, rfl, rfl⟩

@[simp] theorem closeBlock_spares {x : Stored} {s : State} (h : x.Spares s.stored) (alm : Almanac) :
    x.Spares (s.closeBlock alm).stored := by
  unfold State.closeBlock
  dsimp only
  split
  · exact h
  rw [checkShort_stored]
  refine trimRing_spares _ ?_
  rw [modEph_stored (pinBlocks_stream _).1 (pinBlocks_stream _).2.1 (pinBlocks_stream _).2.2]
  refine Stored.Spares.queueItem ?_ (fun _ hf => nomatch hf)
  rwa [modEph_stored rfl rfl rfl]

/-- The state of a held keyframe put in force: its memory was canonical and its queues bounded already. -/
theorem Stored.Spares.loadKey {x : Stored} {s : State} (h : x.Spares s.stored) {f : Keyframe} (hf : s.HasKey f) :
    x.Spares (s.loadKey f).stored := by
  obtain ⟨g, hg, hstate⟩ := hf
  refine h.trans ⟨fun ⟨⟨h1, _, h3⟩, hkeys⟩ => ⟨⟨h1, ?_, h3⟩, hkeys⟩, fun ⟨hq, hkeys⟩ => ⟨fun d => ?_, hkeys⟩⟩
  · change f.state.data.wf = true
    exact hstate ▸ hkeys g hg
  · have hown := hq 9
    have hkey := hkeys g hg d
    change (queuesOf (f.state.cores.set 9 (s.core 9)))[d].length ≤ 64
    rw [hstate]
    simp only [State.stored, queuesOf, Fin.getElem_fin, Vector.getElem_map, Vector.getElem_set] at hown hkey ⊢
    split
    · exact hown
    · exact hkey

theorem slotKey_set {slots : Vector KfSlot 2} {i j : Fin 2} {k : KfSlot} {f : Keyframe}
    (h : slotKey (slots.set i k)[j] = some f) : slotKey k = some f ∨ slotKey slots[j] = some f := by
  rw [Fin.getElem_fin, Vector.getElem_set] at h
  split at h
  · exact Or.inl h
  · exact Or.inr h

@[simp] theorem execKeyframeCapture_leaves (s : State) : Leaves s (execKeyframeCapture s) := by
  unfold execKeyframeCapture
  dsimp only
  rw [leaves_next]
  split_ifs
  case neg => rfl
  all_goals
    refine (spares_refl _).modEph (fun i f hf => ?_)
    obtain hnew | hold := slotKey_set hf
    · cases hnew
      exact Or.inr ⟨rfl, rfl⟩
    · exact Or.inl (hasKey_slot i hold rfl)

@[simp] theorem execKeyframeComplete_leaves (bytes : Nat) (s : State) : Leaves s (execKeyframeComplete bytes s) := by
  unfold execKeyframeComplete
  dsimp only
  rw [leaves_next]
  refine foldl_spares (fun st i => ?_) (spares_refl _) _
  split
  case h_2 => rfl
  next k hk =>
    split_ifs
    · rfl
    have hheld : slotKey st.eph.slots[i] = some k := by rw [hk]; rfl
    refine Stored.Spares.queueItem ((spares_refl _).modEph fun j f hf => Or.inl ?_) fun f hf => ?_
    · obtain hnew | hold := slotKey_set hf
      · cases hnew
        exact hasKey_slot i hheld rfl
      · exact hasKey_slot j hold rfl
    · cases hf
      exact hasKey_slot i (g := { k with bytes := bytes }) (by simp [State.modEph, slotKey]) rfl

@[simp] theorem execEphKfAbandon_leaves (t : DWord) (s : State) : Leaves s (execEphKfAbandon t s) := by
  unfold execEphKfAbandon
  rw [leaves_next]
  refine foldl_spares (fun st i => ?_) (spares_refl _) _
  split
  case h_2 => rfl
  rw [raise_stored]
  refine Stored.Spares.modEph (s := st.atTime t) (spares_refl _) fun j f hf => Or.inl ?_
  obtain hnew | hold := slotKey_set hf
  · cases hnew
  · exact hasKey_slot j hold rfl

@[simp] theorem pinFault_spares {x : Stored} {s : State} (h : x.Spares s.stored) (stamp : Nat) :
    x.Spares (s.pinFault stamp).stored := by
  unfold State.pinFault
  split
  · exact h
  split
  · simpa
  split
  · exact h
  next i _ =>
    split
    case h_2 => exact h
    next k hk =>
      have hpin := pinBlocks_stream { s.eph with
        slots := s.eph.slots.set i (.pinned k), pin := true, filling := true, trunc := false
        pinFrom := k.epoch, pinEnd := stamp + s.prof.postPin }
      refine h.modEph (fun j f hf => Or.inl ?_) (fun f hf => ?_) fun f hf => ?_
      · rw [hpin.1] at hf
        obtain hnew | hold := slotKey_set hf
        · cases hnew
          exact hasKey_slot i (by rw [hk]; rfl) rfl
        · exact hasKey_slot j hold rfl
      · rw [hpin.2.1] at hf
        exact hasKey_queue hf rfl
      · rw [hpin.2.2] at hf
        exact hasKey_copied hf

@[simp] theorem execPinComplete_leaves (s : State) : Leaves s (execPinComplete s) := by
  unfold execPinComplete
  rw [leaves_next]
  refine spares_of_eq (modEph_stored ?_ ?_ ?_)
  all_goals
    split_ifs
    · rfl
    · rfl

@[simp] theorem execPinRelease_leaves (s : State) : Leaves s (execPinRelease s) := by
  unfold execPinRelease
  rw [leaves_next]
  refine (spares_refl _).modEph (fun i f hf => Or.inl ?_) (fun f hf => ?_) fun f hf => ?_
  all_goals
    unfold Eph.release at hf
    split_ifs at hf
  · refine hasKey_vmap (fun n k f hk => ?_) hf
    cases k with
    | pinned y => exact ⟨y, rfl, congrArg Keyframe.state (Option.some.inj hk).symm⟩
    | _ => exact ⟨f, hk, rfl⟩
  · exact hasKey_slot i hf rfl
  · exact hasKey_queue hf rfl
  · exact hasKey_queue hf rfl
  · exact hasKey_copied hf
  · exact hasKey_copied hf

@[simp] theorem stopReplay_stored (s : State) (cause : Nat) : (s.stopReplay cause).stored = s.stored := by
  simp [State.stopReplay]

@[simp] theorem nextBlock_stored (s : State) (seq : DWord) (epoch : Nat) :
    (s.nextBlock seq epoch).stored = s.stored := by
  unfold State.nextBlock
  split <;> simp

@[simp] theorem execReplayStart_leaves (image : Nat) (revOk profOk resOk : Bool) (s : State) :
    Leaves s (execReplayStart image revOk profOk resOk s) := by
  unfold execReplayStart
  dsimp only
  rw [leaves_next]
  split
  · rfl
  iterate 4
    split
    · simp
  split
  · next k hk =>
    split
    · simp
    · rw [nextBlock_stored, modEph_stored rfl rfl rfl]
      exact (spares_refl _).loadKey (hasKey_copied (List.mem_of_getElem? hk))
  · simp

@[simp] theorem execReplayTick_leaves (s : State) : Leaves s (execReplayTick s) := by
  unfold execReplayTick
  dsimp only
  split
  · simp
  split
  · simp
  split
  · split
    · simp
    split
    · simp
    split <;> simp
  simp

/-! ### `Machine/HostIf.lean` -/

@[simp] theorem modRing_stored (s : State) (r : Fin 4) (f : Ring → Ring) : (s.modRing r f).stored = s.stored := by
  simp [State.modRing]
@[simp] theorem execRingDoorbell_leaves (r : Fin 4) (p : Word) (t : DWord) (s : State) :
    Leaves s (execRingDoorbell r p t s) := by
  simp [execRingDoorbell]

@[simp] theorem execRingFetch_leaves (r : Fin 4) (bytes : List Byte) (t : DWord) (s : State) :
    Leaves s (execRingFetch r bytes t s) := by
  simp [execRingFetch]

@[simp] theorem execPlantCommandDatagram_leaves (port : Fin 2) (dstPort : Nat) (srcIp : Word) (bytes : List Byte)
    (t : DWord) (s : State) : Leaves s (execPlantCommandDatagram port dstPort srcIp bytes t s) := by
  unfold execPlantCommandDatagram
  split <;> simp

@[simp] theorem postCq_stored (s : State) (r : CqRec) : (s.postCq r).stored = s.stored := by simp [State.postCq]

@[simp] theorem cqWrite_stored (n : Nat) (s : State) : (s.cqWrite n).stored = s.stored := by
  induction n generalizing s with
  | zero => rfl
  | succ n ih =>
    unfold State.cqWrite
    split
    · rfl
    · split <;> simp [ih]

@[simp] theorem cqFlush_stored (s : State) : s.cqFlush.stored = s.stored := by simp [State.cqFlush]
@[simp] theorem execCompletionPost_leaves (s : State) : Leaves s (execCompletionPost s) := by simp [execCompletionPost]

@[simp] theorem streamSkip_spares {x : Stored} {s : State} (h : x.Spares s.stored) : x.Spares s.streamSkip.stored := by
  unfold State.streamSkip
  split
  · exact h
  · rw [streamGap_stored]
    exact h.modEph (hqueue := fun _ hk => nomatch hk)

@[simp] theorem execDmaSuspend_leaves (e : Fin 12) (err : Nat) (t : DWord) (s : State) :
    Leaves s (execDmaSuspend e err t s) := by
  unfold execDmaSuspend
  dsimp only
  rw [leaves_next]
  split
  · rfl
  generalize hs1 : State.msix _ 7 = s1
  have h1 : s.stored.Spares s1.stored := by
    refine spares_of_eq ?_
    rw [← hs1, msix_stored, raise_stored, modHost_stored rfl, atTime_stored]
  split_ifs
  · exact h1
  · exact streamSkip_spares h1
  · rwa [msix_stored, modCap_stored]
  · exact h1
  · exact h1

@[simp] theorem execDmaResume_leaves (mask : BitVec 12) (s : State) : Leaves s (execDmaResume mask s) := by
  simp [execDmaResume]
@[simp] theorem execHostReset_leaves (linkDown : Bool) (t : DWord) (s : State) :
    Leaves s (execHostReset linkDown t s) := by
  simp [execHostReset]

@[simp] theorem sqTake_stored (s : State) (q : Fin 4) : (s.sqTake q).stored = s.stored := by simp [State.sqTake]
@[simp] theorem sqReceive_stored (s : State) (q : Fin 4) (port : Nat) (bytes : List Byte) (addr : DWord) :
    (s.sqReceive q port bytes addr).stored = s.stored := by
  simp [State.sqReceive]

@[simp] theorem sqSent_stored (s : State) (q : Fin 4) : (s.sqSent q).stored = s.stored := by simp [State.sqSent]
@[simp] theorem execPlantFrameReceive_leaves (port : Fin 2) (bytes : List Byte) (addr : DWord) (s : State) :
    Leaves s (execPlantFrameReceive port bytes addr s) := by
  simp [execPlantFrameReceive]

@[simp] theorem execPlantFrameTransmit_leaves (port : Fin 2) (bytes : List Byte) (_addr : DWord) (s : State) :
    Leaves s (execPlantFrameTransmit port bytes _addr s) := by
  simp [execPlantFrameTransmit]

@[simp] theorem execServiceFrameReceive_leaves (ch : Channel) (f : SchedFrame) (addr t : DWord) (s : State) :
    Leaves s (execServiceFrameReceive ch f addr t s) := by
  simp [execServiceFrameReceive]

@[simp] theorem execServiceTransmit_leaves (ch : Channel) (payload : List Byte) (_addr : DWord) (s : State) :
    Leaves s (execServiceTransmit ch payload _addr s) := by
  unfold execServiceTransmit
  dsimp only
  split
  · simp
  split
  · simp
  split
  · simp
  split <;> simp

@[simp] theorem flashGo_stored (s : State) (key : BitVec 16) (op size : Nat) :
    (s.flashGo key op size).stored = s.stored := by
  simp [State.flashGo]

@[simp] theorem execFlashRead_leaves (key : BitVec 16) (s : State) : Leaves s (execFlashRead key s) := by
  simp [execFlashRead]
@[simp] theorem execFlashProgram_leaves (key : BitVec 16) (s : State) : Leaves s (execFlashProgram key s) := by
  simp [execFlashProgram]
@[simp] theorem execFlashErase_leaves (key : BitVec 16) (s : State) : Leaves s (execFlashErase key s) := by
  simp [execFlashErase]

/-- The staging buffer of the flash takes in bytes. -/
theorem Stored.Spares.stage {x : Stored} {s : State} (h : x.Spares s.stored) (off : Nat) (bs : List Byte) :
    x.Spares (s.modHost fun f => { f with staging := f.staging.writeN off bs }).stored :=
  h.trans ⟨fun ⟨⟨h1, h2, h3, h4, h5⟩, hkeys⟩ => ⟨⟨h1, h2, h3, h4, Memory.wf_writeN bs off h5⟩, hkeys⟩, id⟩

@[simp] theorem execFlashDone_leaves (data : List Byte) (s : State) : Leaves s (execFlashDone data s) := by
  unfold execFlashDone
  dsimp only
  rw [leaves_next]
  split
  · rfl
  · split_ifs
    · exact Stored.Spares.stage (s := s.modHost fun h => { h with flOp := none }) (spares_refl _) 0 _
    · rfl

@[simp] theorem modDbg_stored (s : State) (f : Dbg → Dbg) : (s.modDbg f).stored = s.stored := by simp [State.modDbg]
@[simp] theorem newChal_stored (s : State) : s.newChal.stored = s.stored := by simp [State.newChal]
@[simp] theorem execDbgUnlockGo_leaves (keyOk sigOk : Bool) (t : DWord) (s : State) :
    Leaves s (execDbgUnlockGo keyOk sigOk t s) := by
  simp [execDbgUnlockGo]

@[simp] theorem execTapBypass_leaves (s : State) : Leaves s (execTapBypass s) := by simp [execTapBypass]
@[simp] theorem execTapIdcode_leaves (s : State) : Leaves s (execTapIdcode s) := by simp [execTapIdcode]
@[simp] theorem execTapDbgchal_leaves (k : Fin 8) (s : State) : Leaves s (execTapDbgchal k s) := by simp [execTapDbgchal]
@[simp] theorem execTapDbgunlock_leaves (k : Fin 33) (v : Word) (s : State) : Leaves s (execTapDbgunlock k v s) := by
  simp [execTapDbgunlock]

/-! ### `Machine/Clocks.lean` -/

@[simp] theorem modClk_stored (s : State) (f : Clk → Clk) : (s.modClk f).stored = s.stored := by simp [State.modClk]
@[simp] theorem execClkStop_leaves (d : Fin 9) (t : DWord) (s : State) : Leaves s (execClkStop d t s) := by
  simp [execClkStop]
@[simp] theorem execClkFreq_leaves (d : Fin 9) (t : DWord) (s : State) : Leaves s (execClkFreq d t s) := by
  simp [execClkFreq]
@[simp] theorem execVoltMon_leaves (t : DWord) (s : State) : Leaves s (execVoltMon t s) := by simp [execVoltMon]
@[simp] theorem execTempWarn_leaves (t : DWord) (s : State) : Leaves s (execTempWarn t s) := by simp [execTempWarn]
@[simp] theorem execTempMon_leaves (t : DWord) (s : State) : Leaves s (execTempMon t s) := by simp [execTempMon]
@[simp] theorem execClockSourceSwitch_leaves (d : Fin 3) (fallback : Bool) (s : State) :
    Leaves s (execClockSourceSwitch d fallback s) := by
  simp [execClockSourceSwitch]

@[simp] theorem execCrossingResync_leaves (dropped : Nat) (s : State) : Leaves s (execCrossingResync dropped s) := by
  simp [execCrossingResync]

/-! ### `Machine/Halo.lean` -/

@[simp] theorem modHalo_stored (s : State) (f : Halo → Halo) : (s.modHalo f).stored = s.stored := by simp [State.modHalo]
@[simp] theorem keepLatches_stored (s : State) : s.keepLatches.stored = s.stored := by simp [State.keepLatches]

@[simp] theorem grantZone_stored (s : State) (z : Nat) : (s.grantZone z).stored = s.stored := by
  unfold State.grantZone
  dsimp only
  split
  · rfl
  split
  · rfl
  split <;> simp

@[simp] theorem execHaloCompute_leaves (pairFail : Bool) (t : DWord) (s : State) :
    Leaves s (execHaloCompute pairFail t s) := by
  simp [execHaloCompute]

@[simp] theorem plausAxis_stored (s : State) (a : Fin 128) : (s.plausAxis a).stored = s.stored := by
  unfold State.plausAxis
  dsimp only
  split
  · rfl
  split <;> simp

@[simp] theorem execHaloPeriodStart_leaves (s : State) : Leaves s (execHaloPeriodStart s) := by simp [execHaloPeriodStart]
@[simp] theorem execEncPlaus_leaves (a : Fin 128) (t : DWord) (s : State) : Leaves s (execEncPlaus a t s) := by
  simp [execEncPlaus]
@[simp] theorem execHaloTickWindow_leaves (interval : Nat) (t : DWord) (s : State) :
    Leaves s (execHaloTickWindow interval t s) := by
  simp [execHaloTickWindow]

@[simp] theorem acceptPub_stored (s : State) (core kind : Nat) (recs : List (List Byte)) :
    (s.acceptPub core kind recs).stored = s.stored := by
  simp [State.acceptPub]

@[simp] theorem execHpubCheck_leaves (c : Fin 9) (t : DWord) (s : State) : Leaves s (execHpubCheck c t s) := by
  simp [execHpubCheck]
@[simp] theorem sendHalo_stored (s0 : State) (ch : Channel) (s : State) : (s0.sendHalo ch s).stored = s.stored := by
  simp [State.sendHalo]
@[simp] theorem execHaloFrameSend_leaves (t : DWord) (s : State) : Leaves s (execHaloFrameSend t s) := by
  simp [execHaloFrameSend]

@[simp] theorem haloCopy_stored (s : State) (ch : Channel) (cell part : Nat) (f : Option SchedFrame) :
    (s.haloCopy ch cell part f).2.stored = s.stored := by
  unfold State.haloCopy
  dsimp only
  split <;> simp

@[simp] theorem modNbr_stored (s : State) (c : Fin 16) (f : NbrRx → NbrRx) : (s.modNbr c f).stored = s.stored := by
  simp [State.modNbr]

@[simp] theorem execHaloFrameReceive_leaves (cell part : Fin 16) (copyA copyB : Option SchedFrame) (t : DWord)
    (s : State) : Leaves s (execHaloFrameReceive cell part copyA copyB t s) := by
  unfold execHaloFrameReceive
  dsimp only
  split
  · simp
  split <;> simp

@[simp] theorem execHaloPeriodAccept_leaves (cell : Fin 16) (t : DWord) (s : State) :
    Leaves s (execHaloPeriodAccept cell t s) := by
  unfold execHaloPeriodAccept
  dsimp only
  split <;> simp

@[simp] theorem execHaloCopyMissing_leaves (cell : Fin 16) (t : DWord) (s : State) :
    Leaves s (execHaloCopyMissing cell t s) := by
  simp [execHaloCopyMissing]

/-! ### `Machine/SafeComm.lean` -/

@[simp] theorem modConn_stored (s : State) (c : Fin 32) (f : Conn → Conn) : (s.modConn c f).stored = s.stored := by
  simp [State.modConn]

@[simp] theorem volRecord_stored (s : State) (c : Fin 32) (b : List Byte) : (s.volRecord c b).stored = s.stored := by
  unfold State.volRecord
  dsimp only
  split <;> simp

@[simp] theorem usePayload_stored (s : State) (c : Fin 32) (pay : List Byte) :
    (s.usePayload c pay).stored = s.stored := by
  simp [State.usePayload]

@[simp] theorem failSafe_stored (s : State) (c : Fin 32) : (s.failSafe c).stored = s.stored := by simp [State.failSafe]
@[simp] theorem failConn_stored (s : State) (c : Fin 32) (cause : Nat) : (s.failConn c cause).stored = s.stored := by
  simp [State.failConn]
@[simp] theorem connError_stored (s : State) (c : Fin 32) (cause : Nat) : (s.connError c cause).stored = s.stored := by
  simp [State.connError]
@[simp] theorem resync_stored (s : State) (c : Fin 32) (seq : BitVec 16) (age : Word) (pay : List Byte) :
    (s.resync c seq age pay).stored = s.stored := by
  simp [State.resync]

@[simp] theorem execTelegramReceive_leaves (bytes : List Byte) (srcIp : Word) (srcPort : Nat) (port : Fin 2) (rx : Word)
    (t : DWord) (s : State) : Leaves s (execTelegramReceive bytes srcIp srcPort port rx t s) := by
  unfold execTelegramReceive
  dsimp only
  split <;> simp

@[simp] theorem execSafeConnFail_leaves (c : Fin 32) (t : DWord) (s : State) : Leaves s (execSafeConnFail c t s) := by
  simp [execSafeConnFail]

@[simp] theorem execTelegramSend_leaves (k : Fin 8) (ts : Word) (payload : List Byte) (s : State) :
    Leaves s (execTelegramSend k ts payload s) := by
  unfold execTelegramSend
  dsimp only
  split <;> simp

@[simp] theorem execSafeTimeInvalid_leaves (port : Fin 2) (t : DWord) (s : State) :
    Leaves s (execSafeTimeInvalid port t s) := by
  simp [execSafeTimeInvalid]

@[simp] theorem execPlantTimeValid_leaves (port : Fin 2) (s : State) : Leaves s (execPlantTimeValid port s) := by
  simp [execPlantTimeValid]

/-! ### `Machine/Boot.lean` -/

@[simp] theorem modBoot_stored (s : State) (f : Boot → Boot) : (s.modBoot f).stored = s.stored := by simp [State.modBoot]
@[simp] theorem writeLastFault_stored (s : State) (cause : Nat) : (s.writeLastFault cause).stored = s.stored := by
  simp [State.writeLastFault]
/-- The keyframes that a warm reset leaves. -/
theorem warm_keys (e : Eph) {f : Keyframe} (h : f ∈ keyframesIn e.warm.slots e.warm.queue e.warm.copied) :
    f ∈ keyframesIn e.slots e.queue e.copied := by
  obtain ⟨i, hi⟩ | hq | hc := mem_keyframesIn.mp h
  · refine mem_keyframesIn.mpr (Or.inl ⟨i, ?_⟩)
    rw [Eph.warm, Fin.getElem_fin, vmap_getElem] at hi
    rw [Fin.getElem_fin]
    split at hi
    · cases hi
    · exact hi
  · cases hq
  · exact mem_keyframesIn.mpr (Or.inr (Or.inr hc))

@[simp] theorem afterReset_spares {x : Stored} {s : State} (h : x.Spares s.stored) (warm : Bool) (causes : Nat) (slot : Fin 4) :
    x.Spares (s.afterReset warm causes slot).stored := by
  have hkeys : ∀ f ∈ (s.afterReset warm causes slot).stored.2.2, f ∈ s.stored.2.2 := fun f hf => by
    rw [State.afterReset, newChal_stored] at hf
    cases warm with
    | true => exact warm_keys s.eph hf
    | false =>
      obtain ⟨i, hi⟩ | hq | hc := mem_keyframesIn.mp hf
      · have hempty : State.reset.eph.slots[i] = .empty := Vector.getElem_replicate ..
        cases (congrArg slotKey hempty).symm.trans hi
      · cases hq
      · exact mem_keyframesIn.mpr (Or.inr (Or.inr hc))
  refine h.trans ⟨fun ⟨_, hold⟩ => ⟨?_, fun f hf => hold f (hkeys f hf)⟩, fun ⟨_, hold⟩ => ⟨?_, fun f hf => hold f (hkeys f hf)⟩⟩
  · rw [State.afterReset, newChal_stored]
    exact ⟨rfl, rfl, rfl, rfl, rfl⟩
  · rw [State.afterReset, newChal_stored]
    intro c
    change (queuesOf (Vector.replicate 10 {}))[c].length ≤ 64
    simp [queuesOf]

@[simp] theorem execPowerOnReset_leaves (psel : Fin 4) (standby powerLoss aonLost : Bool) (s : State) :
    Leaves s (execPowerOnReset psel standby powerLoss aonLost s) := by
  simp [execPowerOnReset]

@[simp] theorem execWarmReset_leaves (pin dbg hold : Bool) (s : State) : Leaves s (execWarmReset pin dbg hold s) := by
  simp [execWarmReset]
@[simp] theorem execWarmResetRequest_leaves (key : BitVec 16) (s : State) : Leaves s (execWarmResetRequest key s) := by
  simp [execWarmResetRequest]
@[simp] theorem execScanEntry_leaves (s : State) : Leaves s (execScanEntry s) := by simp [execScanEntry]
@[simp] theorem postInterrupted_stored (s : State) (l : List (Nat × JEntry)) :
    (s.postInterrupted l).stored = s.stored := by
  simp [State.postInterrupted]

@[simp] theorem journalScan_stored (s : State) (corrupt : List Nat) : (s.journalScan corrupt).stored = s.stored := by
  simp [State.journalScan]

@[simp] theorem loadLane_stored (s : State) (e : Nat × Nat × Nat × Nat) : (s.loadLane e).stored = s.stored := by
  unfold State.loadLane
  split <;> simp

theorem loadImage_wf (l : List (Nat × Byte)) : (loadImage l).wf = true := by
  have hfold : ∀ m : Memory, m.wf = true → (l.foldl (fun m e => Memory.write m e.1 e.2) m).wf = true := by
    induction l with
    | nil => exact fun _ h => h
    | cons e l ih => exact fun m h => ih _ (Memory.wf_write h e.1 e.2)
  exact hfold [] rfl

@[simp] theorem loadProfile_spares {x : Stored} {s : State} (h : x.Spares s.stored) : x.Spares s.loadProfile.stored := by
  unfold State.loadProfile
  dsimp only
  rw [foldl_stored, foldl_stored loadLane_stored]
  · exact h.trans ⟨fun ⟨⟨_, _, _, h4⟩, hkeys⟩ =>
      ⟨⟨loadImage_wf _, loadImage_wf _, loadImage_wf _, h4⟩, hkeys⟩, id⟩
  · intro st i
    split_ifs <;> simp

@[simp] theorem startMeridian_spares {x : Stored} {s : State} (h : x.Spares s.stored) (t : DWord) :
    x.Spares (s.startMeridian t).stored :=
  Stored.Spares.setCore (s := State.modMer s _) (by rwa [modMer_stored]) fun _ => Nat.zero_le 64

@[simp] theorem tellReplay_stored (s : State) (c : Fin 9) (n : Nat) : (s.tellReplay c n).stored = s.stored := by
  simp [State.tellReplay]
@[simp] theorem execTickSequencerStart_leaves (t : DWord) (s : State) : Leaves s (execTickSequencerStart t s) := by
  simp [execTickSequencerStart]
@[simp] theorem execProfileSwitch_leaves (slot : Fin 4) (key : BitVec 16) (s : State) :
    Leaves s (execProfileSwitch slot key s) := by
  simp [execProfileSwitch]

@[simp] theorem refusePower_stored (s : State) : s.refusePower.stored = s.stored := by simp [State.refusePower]
@[simp] theorem execQuietRequest_leaves (s : State) : Leaves s (execQuietRequest s) := by simp [execQuietRequest]
@[simp] theorem execDawnRequest_leaves (s : State) : Leaves s (execDawnRequest s) := by simp [execDawnRequest]
@[simp] theorem execStandbyRequest_leaves (s : State) : Leaves s (execStandbyRequest s) := by simp [execStandbyRequest]
@[simp] theorem execWake_leaves (s : State) : Leaves s (execWake s) := by simp [execWake]
@[simp] theorem execVbatApply_leaves (s : State) : Leaves s (execVbatApply s) := by simp [execVbatApply]

@[simp] theorem execCoarseSiderealLoad_leaves (t : DWord) (s : State) : Leaves s (execCoarseSiderealLoad t s) := by
  unfold execCoarseSiderealLoad
  dsimp only
  rw [leaves_next]
  refine spares_of_eq ?_
  split_ifs
  · rw [stored_mk, stored_fold, crystal_stored]
  · exact crystal_stored s

/-! ### `Machine/Faults.lean` -/

@[simp] theorem reportOne_spares {x : Stored} {s : State} (h : x.Spares s.stored) (t : DWord) (r : FaultRep) :
    x.Spares (s.reportOne t r).stored := by
  unfold State.reportOne
  dsimp only
  split_ifs <;> simp [h]

@[simp] theorem pinDrained_spares {x : Stored} {s : State} (h : x.Spares s.stored) (old : State) (t : DWord) :
    x.Spares (old.pinDrained s t).stored :=
  foldl_spares (fun _ _ => pinFault_spares (spares_refl _) _) h _

@[simp] theorem execFaultReport_leaves (n : Nat) (t : DWord) (s : State) : Leaves s (execFaultReport n t s) := by
  unfold execFaultReport
  dsimp only
  rw [leaves_next]
  refine foldl_spares (fun _ r => reportOne_spares (spares_refl _) t r) ?_ _
  exact pinDrained_spares (by simp) s t

@[simp] theorem execFaultDequeue_leaves (s : State) : Leaves s (execFaultDequeue s) := by simp [execFaultDequeue]
@[simp] theorem execDuskRest_leaves (t : DWord) (s : State) : Leaves s (execDuskRest t s) := by simp [execDuskRest]

/-! ### `Machine/Boundary.lean` -/

@[simp] theorem safetyEvent_spares {x : Stored} {s : State} (h : x.Spares s.stored) : x.Spares s.safetyEvent.stored := by
  refine foldl_spares (fun _ c => ?_) h _
  split_ifs
  · rw [modCore_stored rfl]
    exact deliver_spares (spares_refl _) _ _ _
  · rfl

@[simp] theorem applyDusk_spares {x : Stored} {s : State} (h : x.Spares s.stored) (counts : Bool) :
    x.Spares (s.applyDusk counts).stored := by
  unfold State.applyDusk
  dsimp only
  split_ifs <;> simp [h]

@[simp] theorem applyHold_spares {x : Stored} {s : State} (h : x.Spares s.stored) : x.Spares s.applyHold.stored := by
  unfold State.applyHold
  dsimp only
  split_ifs <;> simp [h]

@[simp] theorem applySto_spares {x : Stored} {s : State} (h : x.Spares s.stored) : x.Spares s.applySto.stored := by
  unfold State.applySto
  dsimp only
  split_ifs <;> simp [h]

@[simp] theorem applyRun_spares {x : Stored} {s : State} (h : x.Spares s.stored) : x.Spares s.applyRun.stored := by
  unfold State.applyRun
  dsimp only
  split_ifs <;> simp [h]

@[simp] theorem applyLimits_stored (s : State) (limits seps : List Nat) :
    (s.applyLimits limits seps).stored = s.stored := by
  simp [State.applyLimits]

@[simp] theorem stepOne_spares {x : Stored} {s : State} (h : x.Spares s.stored) (i : GateItem) :
    x.Spares (s.stepOne i).stored := by
  unfold State.stepOne
  split <;> simp [h]

@[simp] theorem release_shadow_stored (x : Release) (off : Nat) (v : Word) :
    (x.shadow off v).st.stored = x.st.stored := rfl

/-- Shadow copies that take in several values keep the identity. -/
theorem foldl_release_shadow_stored (l : List (Nat × Word)) (x : Release) :
    (l.foldl (fun (y : Release) e => y.shadow e.1 e.2) x).st.stored = x.st.stored := by
  induction l generalizing x with
  | nil => rfl
  | cons e l ih => rw [List.foldl_cons, ih, release_shadow_stored]

@[simp] theorem release_one_spares {y : Stored} {x : Release} (h : y.Spares x.st.stored) (g : GateIn) (rest : List GateIn) :
    y.Spares (x.one g rest).st.stored := by
  unfold Release.one
  split
  · exact deliver_spares h _ _ _
  · exact spares_data h _ _
  · extract_lets st more
    split
    · exact h
    · refine deliver_spares ?_ _ _ _
      exact h
  · split
    · split <;> exact h
    · exact h
  · extract_lets mine x1 r
    change y.Spares r.1.stored
    unfold r
    rw [releaseGo_stored]
    exact h.trans (spares_of_eq (foldl_release_shadow_stored _ _))
  · exact h

@[simp] theorem release_all_spares {y : Stored} (l : List GateIn) {x : Release} (h : y.Spares x.st.stored) :
    y.Spares (Release.all x l).st.stored := by
  induction l generalizing x with
  | nil => exact h
  | cons g l ih => exact ih (release_one_spares h g l)

@[simp] theorem feedbackChange_stored (old s : State) : (old.feedbackChange s).stored = s.stored := by
  simp [State.feedbackChange]
@[simp] theorem settleAll_spares {x : Stored} {s : State} (h : x.Spares s.stored) : x.Spares s.settleAll.stored :=
  foldl_spares (fun _ _ => settleShared_spares (spares_refl _) _ _) h _
theorem queuesOf_vmap {g : Nat → Core → Core} (hg : ∀ n k, (g n k).evq = k.evq) (cores : Vector Core 10) :
    queuesOf (vmap g cores) = queuesOf cores := by
  refine Vector.ext fun i hi => ?_
  simp only [queuesOf, Vector.getElem_map, vmap_getElem, hg]

theorem newTick_evq (k : Core) (c runcyc : Nat) : (k.newTick c runcyc).evq = k.evq := by
  simp only [Core.newTick, core_evq_ite, freeze_evq, ite_self]

@[simp] theorem beginTick_spares {x : Stored} {s : State} (h : x.Spares s.stored) : x.Spares s.beginTick.stored := by
  unfold State.beginTick
  extract_lets s1 n outs solver host s2
  have hall : x.Spares s1.stored := settleAll_spares h
  clear_value s1
  have hcores : queuesOf (vmap (fun c k => if c < 9 then k.newTick c s1.runcyc else k) s1.cores) = queuesOf s1.cores :=
    queuesOf_vmap (fun n k => by simp only [core_evq_ite, newTick_evq, ite_self]) _
  have h2 : s2.stored = s1.stored := by
    unfold s2
    rw [stored_mk, hcores]
    rfl
  rw [stored_ite, merBoundary_stored, ite_self, h2]
  exact hall

@[simp] theorem crossPubs_stored (s : State) : s.crossPubs.stored = s.stored := by simp [State.crossPubs]

@[simp] theorem execTickBoundary_leaves (s : State) : Leaves s (execTickBoundary s) := by
  unfold execTickBoundary
  rw [leaves_next]
  iterate 3 refine iteInduction (motive := fun st : State => s.stored.Spares st.stored) (fun _ => spares_refl _) (fun _ => ?_)
  extract_lets s0 due _ s1 s2 r s3 s4 s5 s6 s7
  have h0 : s.stored.Spares s0.stored := beginTick_spares (spares_refl _)
  clear_value s0
  have h1 : s.stored.Spares s1.stored := h0
  have h2 : s.stored.Spares s2.stored :=
    foldl_spares (f := fun st (g : GateIn) => st.stepOne g.item) (fun _ _ => stepOne_spares (spares_refl _) _) h1 due
  clear_value s2
  have hr : s.stored.Spares r.st.stored := release_all_spares due h2
  clear_value r
  have h3 : s.stored.Spares s3.stored := by
    unfold s3
    split
    · exact hr
    · exact deliverCell_spares hr
  clear_value s3
  have h4 : s4.stored = s3.stored := by unfold s4; rw [feedbackChange_stored, step3_stored]
  clear_value s4
  have h5 : s5.stored = s4.stored := by
    unfold s5
    rw [foldl_stored]
    exact fun _ _ => rfl
  clear_value s5
  have h6 : s6.stored = s5.stored := by unfold s6; rw [capCommit_stored]
  clear_value s6
  have h7 : s7.stored = s6.stored := crossPubs_stored s6
  rw [h6, h5, h4] at h7
  clear_value s7
  exact h3.trans (spares_of_eq h7)

@[simp] theorem pushDone_stored (s : State) : s.pushDone.stored = s.stored := by
  unfold State.pushDone
  dsimp only
  split <;> simp

theorem publishArea_evq (k : Core) : k.publishArea.evq = k.evq := by
  unfold Core.publishArea
  split <;> rfl

@[simp] theorem execAlmanacPublish_leaves (s : State) : Leaves s (execAlmanacPublish s) := by
  have hcores : ({ s with cores := vmap (fun _ k => Core.publishArea k) s.cores } : State).stored = s.stored := by
    rw [stored_mk, queuesOf_vmap (fun _ k => publishArea_evq k), stored_fold]
  unfold execAlmanacPublish
  dsimp only
  rw [leaves_next]
  split
  · rfl
  refine closeBlock_spares (spares_of_eq ?_) _
  rw [← hcores, stored_mk, stored_fold, stored_ite, stored_mk, stored_fold, pushDone_stored, ite_self]

@[simp] theorem execAlmanacPush_leaves (s : State) (err : Ecc) : Leaves s (execAlmanacPush s err) := by
  simp [execAlmanacPush]

@[simp] theorem execJournalCommit_leaves (s : State) : Leaves s (execJournalCommit s) := by
  unfold execJournalCommit
  dsimp only
  rw [leaves_next]
  refine spares_of_eq ?_
  refine (foldl_stored (fun _ _ => ?_) _ _).trans ?_
  · split <;> simp
  · simp

@[simp] theorem execJdoneCommit_leaves (s : State) : Leaves s (execJdoneCommit s) := by
  unfold execJdoneCommit
  dsimp only
  rw [leaves_next]
  refine spares_of_eq ?_
  refine (foldl_stored (fun _ _ => ?_) _ _).trans ?_
  · split
    · split <;> simp
    rfl
  · simp

/-! ### `Machine/CoreFp.lean` -/

@[simp] theorem fpRR_leaves (s : State) (c : Fin 9) (cls : IssClass) (fd fa fb : Fin 32)
    (f : DWord → DWord → DWord × FFlags) : Leaves s (s.fpRR c cls fd fa fb f) := by
  simp [State.fpRR]

@[simp] theorem fpCmp_leaves (s : State) (c : Fin 9) (rd fa fb : Fin 32) (f : DWord → DWord → Bool × FFlags) :
    Leaves s (s.fpCmp c rd fa fb f) := by
  simp [State.fpCmp]

@[simp] theorem fpFma_leaves (s : State) (c : Fin 9) (np na : Bool) (fd fa fb fc : Fin 32) :
    Leaves s (s.fpFma c np na fd fa fb fc) := by
  simp [State.fpFma]

@[simp] theorem execFadd_leaves (c : Fin 9) (fd fa fb : Fin 32) (s : State) : Leaves s (execFadd c fd fa fb s) := by
  simp [execFadd]
@[simp] theorem execFsub_leaves (c : Fin 9) (fd fa fb : Fin 32) (s : State) : Leaves s (execFsub c fd fa fb s) := by
  simp [execFsub]
@[simp] theorem execFmul_leaves (c : Fin 9) (fd fa fb : Fin 32) (s : State) : Leaves s (execFmul c fd fa fb s) := by
  simp [execFmul]
@[simp] theorem execFdiv_leaves (c : Fin 9) (fd fa fb : Fin 32) (s : State) : Leaves s (execFdiv c fd fa fb s) := by
  simp [execFdiv]
@[simp] theorem execFmin_leaves (c : Fin 9) (fd fa fb : Fin 32) (s : State) : Leaves s (execFmin c fd fa fb s) := by
  simp [execFmin]
@[simp] theorem execFmax_leaves (c : Fin 9) (fd fa fb : Fin 32) (s : State) : Leaves s (execFmax c fd fa fb s) := by
  simp [execFmax]
@[simp] theorem execFsgnj_leaves (c : Fin 9) (fd fa fb : Fin 32) (s : State) : Leaves s (execFsgnj c fd fa fb s) := by
  simp [execFsgnj]
@[simp] theorem execFsgnjn_leaves (c : Fin 9) (fd fa fb : Fin 32) (s : State) : Leaves s (execFsgnjn c fd fa fb s) := by
  simp [execFsgnjn]
@[simp] theorem execFsgnjx_leaves (c : Fin 9) (fd fa fb : Fin 32) (s : State) : Leaves s (execFsgnjx c fd fa fb s) := by
  simp [execFsgnjx]
@[simp] theorem execFsqrt_leaves (c : Fin 9) (fd fa : Fin 32) (s : State) : Leaves s (execFsqrt c fd fa s) := by
  simp [execFsqrt]
@[simp] theorem execFeq_leaves (c : Fin 9) (rd fa fb : Fin 32) (s : State) : Leaves s (execFeq c rd fa fb s) := by
  simp [execFeq]
@[simp] theorem execFlt_leaves (c : Fin 9) (rd fa fb : Fin 32) (s : State) : Leaves s (execFlt c rd fa fb s) := by
  simp [execFlt]
@[simp] theorem execFle_leaves (c : Fin 9) (rd fa fb : Fin 32) (s : State) : Leaves s (execFle c rd fa fb s) := by
  simp [execFle]
@[simp] theorem execFclass_leaves (c : Fin 9) (rd fa : Fin 32) (s : State) : Leaves s (execFclass c rd fa s) := by
  simp [execFclass]
@[simp] theorem execFcvtDL_leaves (c : Fin 9) (fd ra : Fin 32) (s : State) : Leaves s (execFcvtDL c fd ra s) := by
  simp [execFcvtDL]
@[simp] theorem execFcvtLD_leaves (c : Fin 9) (rd fa : Fin 32) (s : State) : Leaves s (execFcvtLD c rd fa s) := by
  simp [execFcvtLD]
@[simp] theorem execFcvtLDN_leaves (c : Fin 9) (rd fa : Fin 32) (s : State) : Leaves s (execFcvtLDN c rd fa s) := by
  simp [execFcvtLDN]
@[simp] theorem execFmvGF_leaves (c : Fin 9) (rd fa : Fin 32) (s : State) : Leaves s (execFmvGF c rd fa s) := by
  simp [execFmvGF]
@[simp] theorem execFmvFG_leaves (c : Fin 9) (fd ra : Fin 32) (s : State) : Leaves s (execFmvFG c fd ra s) := by
  simp [execFmvFG]
@[simp] theorem execFmadd_leaves (c : Fin 9) (fd fa fb fc : Fin 32) (s : State) :
    Leaves s (execFmadd c fd fa fb fc s) := by
  simp [execFmadd]

@[simp] theorem execFmsub_leaves (c : Fin 9) (fd fa fb fc : Fin 32) (s : State) :
    Leaves s (execFmsub c fd fa fb fc s) := by
  simp [execFmsub]

@[simp] theorem execFnmsub_leaves (c : Fin 9) (fd fa fb fc : Fin 32) (s : State) :
    Leaves s (execFnmsub c fd fa fb fc s) := by
  simp [execFnmsub]

@[simp] theorem execFnmadd_leaves (c : Fin 9) (fd fa fb fc : Fin 32) (s : State) :
    Leaves s (execFnmadd c fd fa fb fc s) := by
  simp [execFnmadd]

/-! ### `Machine/CoreInt.lean` -/

@[simp] theorem intRR_leaves (s : State) (c : Fin 10) (cls : IssClass) (rd ra rb : Fin 32) (f : DWord → DWord → DWord) :
    Leaves s (s.intRR c cls rd ra rb f) := by
  simp [State.intRR]

@[simp] theorem intR_leaves (s : State) (c : Fin 10) (rd ra : Fin 32) (f : DWord → DWord) :
    Leaves s (s.intR c rd ra f) := by
  simp [State.intR]

@[simp] theorem intDiv_leaves (s : State) (c : Fin 10) (rd ra rb : Fin 32) (f : DWord → DWord → DWord × BitVec 2) :
    Leaves s (s.intDiv c rd ra rb f) := by
  simp [State.intDiv]

@[simp] theorem intShift_leaves (s : State) (c : Fin 10) (rd ra : Fin 32) (opx : Nat) (imm : BitVec 12)
    (f : DWord → Nat → DWord) : Leaves s (s.intShift c rd ra opx imm f) := by
  simp [State.intShift]

@[simp] theorem execAdd_leaves (c : Fin 10) (rd ra rb : Fin 32) (s : State) : Leaves s (execAdd c rd ra rb s) := by
  simp [execAdd]
@[simp] theorem execSub_leaves (c : Fin 10) (rd ra rb : Fin 32) (s : State) : Leaves s (execSub c rd ra rb s) := by
  simp [execSub]
@[simp] theorem execAndR_leaves (c : Fin 10) (rd ra rb : Fin 32) (s : State) : Leaves s (execAndR c rd ra rb s) := by
  simp [execAndR]
@[simp] theorem execOrR_leaves (c : Fin 10) (rd ra rb : Fin 32) (s : State) : Leaves s (execOrR c rd ra rb s) := by
  simp [execOrR]
@[simp] theorem execXorR_leaves (c : Fin 10) (rd ra rb : Fin 32) (s : State) : Leaves s (execXorR c rd ra rb s) := by
  simp [execXorR]
@[simp] theorem execSll_leaves (c : Fin 10) (rd ra rb : Fin 32) (s : State) : Leaves s (execSll c rd ra rb s) := by
  simp [execSll]
@[simp] theorem execSrl_leaves (c : Fin 10) (rd ra rb : Fin 32) (s : State) : Leaves s (execSrl c rd ra rb s) := by
  simp [execSrl]
@[simp] theorem execSra_leaves (c : Fin 10) (rd ra rb : Fin 32) (s : State) : Leaves s (execSra c rd ra rb s) := by
  simp [execSra]
@[simp] theorem execSlt_leaves (c : Fin 10) (rd ra rb : Fin 32) (s : State) : Leaves s (execSlt c rd ra rb s) := by
  simp [execSlt]
@[simp] theorem execSltu_leaves (c : Fin 10) (rd ra rb : Fin 32) (s : State) : Leaves s (execSltu c rd ra rb s) := by
  simp [execSltu]
@[simp] theorem execMin_leaves (c : Fin 10) (rd ra rb : Fin 32) (s : State) : Leaves s (execMin c rd ra rb s) := by
  simp [execMin]
@[simp] theorem execMax_leaves (c : Fin 10) (rd ra rb : Fin 32) (s : State) : Leaves s (execMax c rd ra rb s) := by
  simp [execMax]
@[simp] theorem execMinu_leaves (c : Fin 10) (rd ra rb : Fin 32) (s : State) : Leaves s (execMinu c rd ra rb s) := by
  simp [execMinu]
@[simp] theorem execMaxu_leaves (c : Fin 10) (rd ra rb : Fin 32) (s : State) : Leaves s (execMaxu c rd ra rb s) := by
  simp [execMaxu]
@[simp] theorem execClz_leaves (c : Fin 10) (rd ra : Fin 32) (s : State) : Leaves s (execClz c rd ra s) := by
  simp [execClz]
@[simp] theorem execPopc_leaves (c : Fin 10) (rd ra : Fin 32) (s : State) : Leaves s (execPopc c rd ra s) := by
  simp [execPopc]
@[simp] theorem execMul_leaves (c : Fin 10) (rd ra rb : Fin 32) (s : State) : Leaves s (execMul c rd ra rb s) := by
  simp [execMul]
@[simp] theorem execMulh_leaves (c : Fin 10) (rd ra rb : Fin 32) (s : State) : Leaves s (execMulh c rd ra rb s) := by
  simp [execMulh]
@[simp] theorem execMulhu_leaves (c : Fin 10) (rd ra rb : Fin 32) (s : State) : Leaves s (execMulhu c rd ra rb s) := by
  simp [execMulhu]
@[simp] theorem execDiv_leaves (c : Fin 10) (rd ra rb : Fin 32) (s : State) : Leaves s (execDiv c rd ra rb s) := by
  simp [execDiv]
@[simp] theorem execDivu_leaves (c : Fin 10) (rd ra rb : Fin 32) (s : State) : Leaves s (execDivu c rd ra rb s) := by
  simp [execDivu]
@[simp] theorem execRem_leaves (c : Fin 10) (rd ra rb : Fin 32) (s : State) : Leaves s (execRem c rd ra rb s) := by
  simp [execRem]
@[simp] theorem execRemu_leaves (c : Fin 10) (rd ra rb : Fin 32) (s : State) : Leaves s (execRemu c rd ra rb s) := by
  simp [execRemu]
@[simp] theorem execAddi_leaves (c : Fin 10) (rd ra : Fin 32) (imm : BitVec 12) (s : State) :
    Leaves s (execAddi c rd ra imm s) := by
  simp [execAddi]

@[simp] theorem execAndi_leaves (c : Fin 10) (rd ra : Fin 32) (imm : BitVec 12) (s : State) :
    Leaves s (execAndi c rd ra imm s) := by
  simp [execAndi]

@[simp] theorem execOri_leaves (c : Fin 10) (rd ra : Fin 32) (imm : BitVec 12) (s : State) :
    Leaves s (execOri c rd ra imm s) := by
  simp [execOri]

@[simp] theorem execXori_leaves (c : Fin 10) (rd ra : Fin 32) (imm : BitVec 12) (s : State) :
    Leaves s (execXori c rd ra imm s) := by
  simp [execXori]

@[simp] theorem execSlti_leaves (c : Fin 10) (rd ra : Fin 32) (imm : BitVec 12) (s : State) :
    Leaves s (execSlti c rd ra imm s) := by
  simp [execSlti]

@[simp] theorem execSltiu_leaves (c : Fin 10) (rd ra : Fin 32) (imm : BitVec 12) (s : State) :
    Leaves s (execSltiu c rd ra imm s) := by
  simp [execSltiu]

@[simp] theorem execSlli_leaves (c : Fin 10) (rd ra : Fin 32) (imm : BitVec 12) (s : State) :
    Leaves s (execSlli c rd ra imm s) := by
  simp [execSlli]

@[simp] theorem execSrli_leaves (c : Fin 10) (rd ra : Fin 32) (imm : BitVec 12) (s : State) :
    Leaves s (execSrli c rd ra imm s) := by
  simp [execSrli]

@[simp] theorem execSrai_leaves (c : Fin 10) (rd ra : Fin 32) (imm : BitVec 12) (s : State) :
    Leaves s (execSrai c rd ra imm s) := by
  simp [execSrai]

@[simp] theorem execLiw_leaves (c : Fin 10) (rd : Fin 32) (imm : BitVec 22) (s : State) :
    Leaves s (execLiw c rd imm s) := by
  simp [execLiw]

@[simp] theorem execLis_leaves (c : Fin 10) (rd : Fin 32) (imm : BitVec 22) (s : State) :
    Leaves s (execLis c rd imm s) := by
  simp [execLis]

/-! ### `Machine/Solver.lean` -/

@[simp] theorem execJob_leaves (c : Fin 9) (rd ra : Fin 32) (err : Ecc) (s : State) :
    Leaves s (execJob c rd ra err s) := by
  refine cell_leaves (fun s1 _ => ?_) _ _ _ _
  extract_lets a word raw fused
  refine iteInduction (fun _ => trivial) (fun _ => ?_)
  refine withBytes_spares (fun b => ?_) _ _ _ _
  dsimp only
  split
  · exact spares_refl s1.stored
  · split
    · exact spares_refl s1.stored
    · exact spares_of_eq ((request_stored _ _ _).trans (modCore_stored rfl))

theorem collect_stored {s : State} {c : Fin 9} {h : Word} {r : BitVec 16 × State} (hr : s.collect c h = some r) :
    r.2.stored = s.stored := by
  unfold State.collect at hr
  split at hr
  · simp at hr
  · obtain ⟨e, -, rfl⟩ := Option.map_eq_some_iff.mp hr
    rfl

theorem evalJob_stored {s : State} {c : Fin 9} {h deadline : DWord} {atIssue : Bool} {r : DWord × State}
    (hr : s.evalJob c h deadline atIssue = some r) : r.2.stored = s.stored := by
  unfold State.evalJob at hr
  dsimp only at hr
  split at hr
  · cases hr
    rfl
  split at hr
  case h_1 x hx =>
    cases hr
    exact collect_stored hx
  case h_2 =>
    split at hr
    · cases hr
      rfl
    split at hr
    · cases hr
      rfl
    · cases hr

@[simp] theorem execJwait_leaves (c : Fin 9) (rd ra rb : Fin 32) (s : State) : Leaves s (execJwait c rd ra rb s) := by
  refine cell_leaves (fun s1 _ => ?_) _ _ _ _
  dsimp only
  split
  · next hr => exact spares_of_eq (evalJob_stored hr)
  · simp

@[simp] theorem execJwaitWake_leaves (c : Fin 9) (s : State) : Leaves s (execJwaitWake c s) := by
  unfold execJwaitWake
  dsimp only
  rw [leaves_next]
  refine spares_of_eq ?_
  split
  · split
    · split
      · next hr => simpa using evalJob_stored hr
      · rfl
    · rfl
  · rfl

@[simp] theorem execJstat_leaves (c : Fin 9) (rd ra : Fin 32) (s : State) : Leaves s (execJstat c rd ra s) := by
  refine cell_leaves (fun s1 _ => ?_) _ _ _ _
  dsimp only
  split
  · next hr => exact spares_of_eq (collect_stored hr)
  · simp

@[simp] theorem execJcancel_leaves (c : Fin 9) (rd ra : Fin 32) (s : State) : Leaves s (execJcancel c rd ra s) := by
  simp [execJcancel]
@[simp] theorem execJobAdmit_leaves (s : State) : Leaves s (execJobAdmit s) := by simp [execJobAdmit]
@[simp] theorem execJobStart_leaves (s : State) : Leaves s (execJobStart s) := by simp [execJobStart]

@[simp] theorem stopJob_stored (s : State) (h : Word) (code : BitVec 16) (tick cyc : Nat) :
    (s.stopJob h code tick cyc).stored = s.stored := by
  unfold State.stopJob
  dsimp only
  split <;> simp

@[simp] theorem execJobEnd_leaves (handle : Word) (eccErr : Ecc) (s0 : State) :
    Leaves s0 (execJobEnd handle eccErr s0) := by
  unfold execJobEnd
  dsimp only
  split
  · simp
  split
  · simp
  split <;> simp

@[simp] theorem execJobExpire_leaves (handle : Word) (s : State) : Leaves s (execJobExpire handle s) := by
  simp [execJobExpire]
@[simp] theorem execJobCancelApply_leaves (s : State) : Leaves s (execJobCancelApply s) := by simp [execJobCancelApply]
@[simp] theorem deliverJob_spares {x : Stored} {s : State} (h : x.Spares s.stored) (j : Job) :
    x.Spares (s.deliverJob j).stored := by
  unfold State.deliverJob
  extract_lets base m1 m2 o solver
  have hm2 : s.data.wf = true → m2.wf = true := fun hdata => by
    refine Memory.wf_writeN _ _ ?_
    unfold m1
    split
    · exact Memory.wf_writeN _ _ hdata
    · exact hdata
  clear_value m2
  refine deliver_spares ?_ _ _ _
  exact h.withData hm2

@[simp] theorem execJobDelivery_leaves (s : State) : Leaves s (execJobDelivery s) := by
  unfold execJobDelivery
  dsimp only
  rw [leaves_next]
  refine foldl_spares (fun _ _ => deliverJob_spares (spares_refl _) _) ?_ _
  exact spares_refl s.stored

@[simp] theorem cleanUp_stored (s : State) (c : Fin 9) : (s.cleanUp c).stored = s.stored := by simp [State.cleanUp]
@[simp] theorem dropRun_stored (s : State) (c : Fin 9) : (s.dropRun c).stored = s.stored := by simp [State.dropRun]
@[simp] theorem tellNow_spares {x : Stored} {s : State} (h : x.Spares s.stored) (c : Fin 9) : x.Spares (s.tellNow c).stored := by
  unfold State.tellNow
  dsimp only
  split
  · exact h
  · refine deliver_spares ?_ _ _ _
    exact h

@[simp] theorem execCoreStart_leaves (c : Fin 9) (s : State) : Leaves s (execCoreStart c s) := by
  unfold execCoreStart
  dsimp only
  rw [leaves_next]
  have hdrop : s.stored.Spares (s.dropRun c).stored := spares_of_eq (dropRun_stored s c)
  split_ifs
  · exact tellNow_spares (hdrop.setCore fun h => (List.length_filter_le _ _).trans h) c
  · exact hdrop
  · rfl

@[simp] theorem execCoreStop_leaves (c : Fin 9) (s : State) : Leaves s (execCoreStop c s) := by
  unfold execCoreStop
  rw [leaves_next]
  split_ifs
  · rw [cleanUp_stored]
    exact (spares_of_eq (dropRun_stored s c)).setCore fun _ => Nat.zero_le 64
  · rfl

@[simp] theorem execHaltCleanup_leaves (c : Fin 9) (s : State) : Leaves s (execHaltCleanup c s) := by
  simp [execHaltCleanup]

/-! ### `Machine/Regs.lean` -/

@[simp] theorem stoppedError_stored (s : State) (p : Path) (write : Bool) :
    (s.stoppedError p write).stored = s.stored := by
  unfold State.stoppedError
  dsimp only
  split <;> simp

@[simp] theorem windowTrap_stored (s : State) (off : Nat) : (s.windowTrap off).stored = s.stored := by
  simp [State.windowTrap]

@[simp] theorem badAccess_stored (s : State) (p : Path) (off : Nat) (wrongSize write : Bool) :
    (s.badAccess p off wrongSize write).stored = s.stored := by
  have hcount : (s.modHost fun h => if wrongSize then { h with badSize := satAdd 65535 h.badSize 1 }
      else { h with unmapped := satAdd 65535 h.unmapped 1 }).stored = s.stored := by
    refine modHost_stored ?_
    split_ifs <;> rfl
  unfold State.badAccess
  dsimp only
  split <;> simp only [windowTrap_stored, stored_ite, out_stored, hcount, ite_self]

@[simp] theorem drawn_stored (s : State) (id : RegId) : (s.drawn id).stored = s.stored := by simp [State.drawn]

@[simp] theorem read4_stored (s : State) (p : Path) (off : Nat) (r : RegAt) : (s.read4 p off r).2.stored = s.stored := by
  unfold State.read4
  dsimp only
  split <;> simp

@[simp] theorem readBar0_stored (s : State) (p : Path) (off size : Nat) :
    (s.readBar0 p off size).2.stored = s.stored := by
  unfold State.readBar0
  dsimp only
  split
  · rfl
  split
  · simp
  split <;> simp

@[simp] theorem shadowWrite_stored (s : State) (p : Path) (off : Nat) (r : RegAt) (v : Nat) (t : DWord) :
    (s.shadowWrite p off r v t).stored = s.stored := by
  simp [State.shadowWrite]

@[simp] theorem commitWrite_stored (s : State) (p : Path) (b : CBlock) (v : Nat) (t : DWord) :
    (s.commitWrite p b v t).stored = s.stored := by
  simp [State.commitWrite]

@[simp] theorem setPlain_stored (s : State) (base : Nat) (r : RegAt) (v : Nat) :
    (s.setPlain base r v).stored = s.stored := by
  simp [State.setPlain]

@[simp] theorem setQueueCfg_stored (s : State) (base v : Nat) : (s.setQueueCfg base v).stored = s.stored := by
  simp [State.setQueueCfg]
@[simp] theorem writeMsix_stored (s : State) (base i v : Nat) : (s.writeMsix base i v).stored = s.stored := by
  unfold State.writeMsix
  dsimp only
  split_ifs
  · rw [out_stored, modHost_stored rfl, setReg_stored]
  · simp
  · simp

/-- What a write of a register runs spares what it would spare as a command. -/
@[simp] theorem ranFrom_spares {s : State} {o : Res} (h : Leaves s o) : s.stored.Spares (ranFrom s o).stored := by
  cases o with
  | next t => exact h t rfl
  | _ => rfl

@[simp] theorem writeGlb_spares (s : State) (base : Nat) (r : RegAt) (v : Nat) (t : DWord) :
    s.stored.Spares (s.writeGlb base r v t).stored := by
  unfold State.writeGlb
  dsimp only
  split
  · exact ranFrom_spares (execDmaResume_leaves _ s)
  · simp
  · exact ranFrom_spares (execRingDoorbell_leaves _ _ t s)
  · simp
  · simp
  · refine spares_of_eq ?_
    have hclear : (if bitOf v 3 then s.modHost fun h => { h with flRefused := false } else s).stored = s.stored := by
      rw [stored_ite, modHost_stored rfl, ite_self]
    split
    · split
      · rw [flashGo_stored, hclear]
      · rw [flashGo_stored, hclear]
      · rw [flashGo_stored, hclear]
      · exact hclear
    · rfl
  · simp
  · simp

@[simp] theorem writeClk_spares (s : State) (r : RegAt) (v : Nat) : s.stored.Spares (s.writeClk r v).stored := by
  unfold State.writeClk
  dsimp only
  split
  · simp
  · split
    · exact ranFrom_spares (execWarmResetRequest_leaves _ s)
    · rfl
  · split
    · exact ranFrom_spares (execProfileSwitch_leaves _ _ s)
    · rfl
  · simp
  · have hclear := modBoot_stored s fun b => { b with pwrRefused := b.pwrRefused && !bitOf v 4 }
    generalize (s.modBoot fun b => { b with pwrRefused := b.pwrRefused && !bitOf v 4 }) = s1 at hclear ⊢
    rw [← hclear]
    split
    · exact ranFrom_spares (execQuietRequest_leaves s1)
    · exact ranFrom_spares (execDawnRequest_leaves s1)
    · exact ranFrom_spares (execStandbyRequest_leaves s1)
    · rfl
  · rfl

@[simp] theorem writeStatus_stored (s : State) (r : RegAt) (v : Nat) : (s.writeStatus r v).stored = s.stored := by
  unfold State.writeStatus
  dsimp only
  split <;> simp

@[simp] theorem writeMer_stored (s : State) (base : Nat) (r : RegAt) (v : Nat) (t : DWord) :
    (s.writeMer base r v t).stored = s.stored := by
  unfold State.writeMer
  dsimp only
  split <;> simp

theorem release_spares (s : State) : s.stored.Spares (s.modEph Eph.release).stored := (leaves_next _ _).mp (execPinRelease_leaves s)

@[simp] theorem writeEph_spares (s : State) (base : Nat) (r : RegAt) (v : Nat) : s.stored.Spares (s.writeEph base r v).stored := by
  unfold State.writeEph
  dsimp only
  split
  · have h1 := setPlain_stored s base r v
    generalize s.setPlain base r v = s1 at h1 ⊢
    have h2 : s1.stored.Spares (if bitOf v 9 then ranFrom s1 (execRecordRelease (BitVec.ofNat 8 v) s1) else s1).stored := by
      split_ifs
      · exact ranFrom_spares (execRecordRelease_leaves _ s1)
      · rfl
    rw [← h1]
    split_ifs at h2 ⊢
    · exact h2.trans (ranFrom_spares (execReadoutGo_leaves _ _))
    · exact ranFrom_spares (execReadoutGo_leaves _ s1)
    · exact h2
    · rfl
  · simp
  · exact spares_of_eq (modEph_stored rfl rfl rfl)
  · split
    · exact release_spares s
    · rfl
  · split
    · have h1 : (s.setPlain base r v).draw.2.draw.2.stored = s.stored := by
        rw [draw_stored, draw_stored, setPlain_stored]
      rw [← h1]
      exact ranFrom_spares (execReplayStart_leaves _ _ _ _ _)
    · simp
  · split
    · exact ranFrom_spares (execStreamEnable_leaves s)
    · simp
  · simp

@[simp] theorem resetPort_spares (s : State) (p v : Nat) (t : DWord) : s.stored.Spares (s.resetPort p v t).stored := by
  unfold State.resetPort
  split
  · exact ranFrom_spares (execSafeTimeInvalid_leaves _ _ s)
  · rfl

@[simp] theorem writeSaf_spares (s : State) (base : Nat) (r : RegAt) (v : Nat) : s.stored.Spares (s.writeSaf base r v).stored := by
  unfold State.writeSaf
  split
  · split
    · exact ranFrom_spares (execMailboxGo_leaves s)
    · rfl
  · simp
  · simp

@[simp] theorem writeDbg_spares (s : State) (r : RegAt) (v : Nat) (t : DWord) : s.stored.Spares (s.writeDbg r v t).stored := by
  unfold State.writeDbg
  dsimp only
  split
  · exact ranFrom_spares (execTapDbgunlock_leaves _ _ s)
  · split
    · rw [← draw_stored s]
      exact ranFrom_spares (execDbgUnlockGo_leaves _ _ _ _)
    · rfl
  · rfl

@[simp] theorem writeFull_spares (s : State) (p : Path) (base : Nat) (r : RegAt) (v : Nat) (t : DWord) :
    s.stored.Spares (s.writeFull p base r v t).stored := by
  simp [State.writeFull]

@[simp] theorem write4_spares {x : Stored} {s : State} (h : x.Spares s.stored) (p : Path) (off : Nat) (r : RegAt) (v : Word)
    (t : DWord) : x.Spares (s.write4 p off r v t).stored := by
  refine h.trans ?_
  simp [State.write4]

@[simp] theorem writeBar0_spares (s : State) (p : Path) (off size : Nat) (v : DWord) (t : DWord) :
    s.stored.Spares (s.writeBar0 p off size v t).stored := by
  unfold State.writeBar0
  dsimp only
  split
  · rfl
  split
  · simp
  split <;> simp

@[simp] theorem guarded_spares {f : State → State} (hf : ∀ s : State, s.stored.Spares (f s).stored) {x : Stored} {s : State}
    (h : x.Spares s.stored) (p : Path) (write : Bool) (off size : Nat) : x.Spares (s.guarded p write off size f).stored :=
  h.trans (guarded_induction (fun t => s.stored.Spares t.stored) (spares_refl _) (hf s)
    (fun _ => spares_of_eq (badAccess_stored s _ _ _ _)) (spares_of_eq (windowTrap_stored s _))
    (spares_of_eq (stoppedError_stored s _ _)))

@[simp] theorem execRegisterWrite_leaves (path : Path) (off : BitVec 25) (v : Word) (t : DWord) (s : State) :
    Leaves s (execRegisterWrite path off v t s) := by
  simp [execRegisterWrite]

@[simp] theorem execShadowWrite_leaves (path : Path) (off : BitVec 25) (v : Word) (t : DWord) (s : State) :
    Leaves s (execShadowWrite path off v t s) := by
  unfold execShadowWrite
  split <;> simp

@[simp] theorem execCommitGo_leaves (b : CBlock) (v : Word) (t : DWord) (s : State) :
    Leaves s (execCommitGo b v t s) := by
  simp [execCommitGo]

@[simp] theorem execLowWordRead_leaves (path : Path) (off : BitVec 25) (s : State) :
    Leaves s (execLowWordRead path off s) := by
  simp [execLowWordRead]

@[simp] theorem execLowWordWrite_leaves (path : Path) (off : BitVec 25) (v : Word) (s : State) :
    Leaves s (execLowWordWrite path off v s) := by
  unfold execLowWordWrite
  split <;> simp

@[simp] theorem execHighWordWrite_leaves (path : Path) (off : BitVec 25) (v : Word) (t : DWord) (s : State) :
    Leaves s (execHighWordWrite path off v t s) := by
  unfold execHighWordWrite
  split <;> simp

@[simp] theorem execQwordAccess_leaves (path : Path) (off : BitVec 25) (w : Option DWord) (t : DWord) (s : State) :
    Leaves s (execQwordAccess path off w t s) := by
  unfold execQwordAccess
  cases w <;> simp

@[simp] theorem execUnmappedAccess_leaves (path : Path) (off : BitVec 25) (size : Nat) (isWrite : Bool) (s : State) :
    Leaves s (execUnmappedAccess path off size isWrite s) := by
  simp [execUnmappedAccess]

@[simp] theorem execBar2Write_leaves (off : BitVec 28) (bytes : List Byte) (s : State) :
    Leaves s (execBar2Write off bytes s) := by
  unfold execBar2Write
  dsimp only
  rw [leaves_next]
  split_ifs
  · rfl
  · exact spares_of_eq (modHost_stored rfl)
  · exact (spares_refl _).stage _ _
  · rfl
  · exact spares_data (spares_refl _) _ _
  · rfl

/-! ### `Machine/CoreMem.lean` -/

@[simp] theorem startShared_stored (s : State) (c : Fin 10) (cyc : Nat) (op : SharedOp) (addr : DWord) (off : Nat) :
    (s.startShared c cyc op addr off).stored = s.stored := by
  simp [State.startShared]

theorem region_noted {x : Stored} {s : State} (h : x.Spares s.stored) (k : Fin 8) (err : Ecc) : x.Spares (s.eccNote k err).stored := by
  rwa [eccNote_stored]

/-- A memory access that ends: its register and the issue bookkeeping. -/
theorem finish_stored (s : State) (c : Fin 10) (cyc : Nat) (op : SharedOp) (r : Option (CReg × DWord)) :
    (s.modCore c fun k => ((match r with | some (d, v) => k.wreg d v | none => k).pendMem op cyc).adv).stored = s.stored := by
  refine modCore_stored ?_
  cases r with
  | none => exact pendMem_evq _ op cyc
  | some v => exact (pendMem_evq _ op cyc).trans (wreg_evq _ v.1 v.2)

theorem noted_data_spares (s : State) (k : Fin 8) (err : Ecc) (off : Nat) (op : SharedOp) :
    s.stored.Spares { s.eccNote k err with data := (memEffect s.data off op).1 }.stored :=
  (region_noted (spares_refl _) k err).withData fun hm => memEffect_wf (by rwa [eccNote_data] at hm) off op

theorem noted_sdata_spares (s : State) (k : Fin 8) (err : Ecc) (off : Nat) (op : SharedOp) :
    s.stored.Spares { s.eccNote k err with sdata := (memEffect s.sdata off op).1 }.stored :=
  (region_noted (spares_refl _) k err).withSdata fun hm => memEffect_wf (by rwa [eccNote_sdata] at hm) off op

/-- An access puts no entry into a memory that a write of bytes does not. -/
@[simp] theorem access_spares (s : State) (c : Fin 10) (cyc : Nat) (a : DWord) (size : Nat) (op : SharedOp) (err : Ecc) :
    s.stored.Spares (s.access c cyc a size op err).stored := by
  unfold State.access
  extract_lets isLoad isAmo fin mem ecc
  have hfin : ∀ (s1 : State) r, s.stored.Spares s1.stored → s.stored.Spares (fin s1 r).stored :=
    fun s1 r h => h.trans (spares_of_eq (finish_stored s1 c cyc op r))
  have hexc : ∀ code, s.stored.Spares (s.except c cyc code a).stored := fun code => by simp
  have hecc : ∀ k, s.stored.Spares (ecc k).stored := fun k => by
    unfold ecc
    split_ifs <;> simp
  clear_value fin ecc
  split
  · exact hexc 3
  split
  · split
    · exact hexc 2
    split
    · exact hecc 0
    · exact hfin _ _ (region_noted (spares_refl _) _ _)
  · split
    · exact hecc 1
    · refine spares_of_eq ((modCore_stored rfl).trans ?_)
      rw [startShared_stored, eccNote_stored]
  · split
    · exact hecc 1
    · exact hfin _ _ (noted_data_spares s 1 err _ op)
  · split
    · exact hexc 2
    · split
      · exact hfin s _ (spares_refl _)
      · exact hfin s _ (spares_refl _)
  · split
    · exact hexc 2
    split
    · exact hecc 7
    · exact hfin _ _ (noted_sdata_spares s 7 err _ op)
  · split
    · exact hfin { s with free := s.free + 1 } _ (spares_refl s.stored)
    · exact hfin s _ (spares_refl _)
    · exact hexc 2
  · split
    · rw [except_stored, modHost_stored rfl]
    split
    · rw [except_stored, modHost_stored rfl]
    split
    · exact hexc 2
    · exact hfin _ _ (spares_of_eq (readBar0_stored s _ _ _))
    · exact hfin _ _ (spares_of_eq (stoppedError_stored s _ _))
    · exact hfin _ _ (writeBar0_spares s _ _ _ _ _)
    · exact hexc 2
  · exact hexc 2

@[simp] theorem loadG_leaves (s : State) (c : Fin 10) (rd ra : Fin 32) (imm : BitVec 12) (size : Nat) (signed : Bool)
    (err : Ecc) : Leaves s (s.loadG c rd ra imm size signed err) := by
  simp [State.loadG]

@[simp] theorem storeG_leaves (s : State) (c : Fin 10) (rs ra : Fin 32) (imm : BitVec 12) (size : Nat) (err : Ecc) :
    Leaves s (s.storeG c rs ra imm size err) := by
  simp [State.storeG]

@[simp] theorem amo_leaves (s : State) (c : Fin 9) (rd ra rb : Fin 32) (func : Nat) (err : Ecc) :
    Leaves s (s.amo c rd ra rb func err) := by
  simp [State.amo]

@[simp] theorem branch_leaves (s : State) (c : Fin 10) (ra rb : Fin 32) (imm : BitVec 12) (f : DWord → DWord → Bool) :
    Leaves s (s.branch c ra rb imm f) := by
  simp [State.branch]

@[simp] theorem execLb_leaves (c : Fin 10) (rd ra : Fin 32) (imm : BitVec 12) (err : Ecc) (s : State) :
    Leaves s (execLb c rd ra imm err s) := by
  simp [execLb]

@[simp] theorem execLbu_leaves (c : Fin 10) (rd ra : Fin 32) (imm : BitVec 12) (err : Ecc) (s : State) :
    Leaves s (execLbu c rd ra imm err s) := by
  simp [execLbu]

@[simp] theorem execLh_leaves (c : Fin 10) (rd ra : Fin 32) (imm : BitVec 12) (err : Ecc) (s : State) :
    Leaves s (execLh c rd ra imm err s) := by
  simp [execLh]

@[simp] theorem execLhu_leaves (c : Fin 10) (rd ra : Fin 32) (imm : BitVec 12) (err : Ecc) (s : State) :
    Leaves s (execLhu c rd ra imm err s) := by
  simp [execLhu]

@[simp] theorem execLw_leaves (c : Fin 10) (rd ra : Fin 32) (imm : BitVec 12) (err : Ecc) (s : State) :
    Leaves s (execLw c rd ra imm err s) := by
  simp [execLw]

@[simp] theorem execLwu_leaves (c : Fin 10) (rd ra : Fin 32) (imm : BitVec 12) (err : Ecc) (s : State) :
    Leaves s (execLwu c rd ra imm err s) := by
  simp [execLwu]

@[simp] theorem execLd_leaves (c : Fin 10) (rd ra : Fin 32) (imm : BitVec 12) (err : Ecc) (s : State) :
    Leaves s (execLd c rd ra imm err s) := by
  simp [execLd]

@[simp] theorem execFld_leaves (c : Fin 9) (fd ra : Fin 32) (imm : BitVec 12) (err : Ecc) (s : State) :
    Leaves s (execFld c fd ra imm err s) := by
  simp [execFld]

@[simp] theorem execSb_leaves (c : Fin 10) (rs ra : Fin 32) (imm : BitVec 12) (err : Ecc) (s : State) :
    Leaves s (execSb c rs ra imm err s) := by
  simp [execSb]

@[simp] theorem execSh_leaves (c : Fin 10) (rs ra : Fin 32) (imm : BitVec 12) (err : Ecc) (s : State) :
    Leaves s (execSh c rs ra imm err s) := by
  simp [execSh]

@[simp] theorem execSw_leaves (c : Fin 10) (rs ra : Fin 32) (imm : BitVec 12) (err : Ecc) (s : State) :
    Leaves s (execSw c rs ra imm err s) := by
  simp [execSw]

@[simp] theorem execSd_leaves (c : Fin 10) (rs ra : Fin 32) (imm : BitVec 12) (s : State) :
    Leaves s (execSd c rs ra imm s) := by
  simp [execSd]

@[simp] theorem execFsd_leaves (c : Fin 9) (fs ra : Fin 32) (imm : BitVec 12) (s : State) :
    Leaves s (execFsd c fs ra imm s) := by
  simp [execFsd]

@[simp] theorem execAmoswap_leaves (c : Fin 9) (rd ra rb : Fin 32) (err : Ecc) (s : State) :
    Leaves s (execAmoswap c rd ra rb err s) := by
  simp [execAmoswap]

@[simp] theorem execAmoadd_leaves (c : Fin 9) (rd ra rb : Fin 32) (err : Ecc) (s : State) :
    Leaves s (execAmoadd c rd ra rb err s) := by
  simp [execAmoadd]

@[simp] theorem execAmoand_leaves (c : Fin 9) (rd ra rb : Fin 32) (err : Ecc) (s : State) :
    Leaves s (execAmoand c rd ra rb err s) := by
  simp [execAmoand]

@[simp] theorem execAmoor_leaves (c : Fin 9) (rd ra rb : Fin 32) (err : Ecc) (s : State) :
    Leaves s (execAmoor c rd ra rb err s) := by
  simp [execAmoor]

@[simp] theorem execAmomax_leaves (c : Fin 9) (rd ra rb : Fin 32) (err : Ecc) (s : State) :
    Leaves s (execAmomax c rd ra rb err s) := by
  simp [execAmomax]

@[simp] theorem execAmomin_leaves (c : Fin 9) (rd ra rb : Fin 32) (err : Ecc) (s : State) :
    Leaves s (execAmomin c rd ra rb err s) := by
  simp [execAmomin]

@[simp] theorem execAmocas_leaves (c : Fin 9) (rd ra rb : Fin 32) (err : Ecc) (s : State) :
    Leaves s (execAmocas c rd ra rb err s) := by
  simp [execAmocas]

@[simp] theorem execBeq_leaves (c : Fin 10) (ra rb : Fin 32) (imm : BitVec 12) (s : State) :
    Leaves s (execBeq c ra rb imm s) := by
  simp [execBeq]

@[simp] theorem execBne_leaves (c : Fin 10) (ra rb : Fin 32) (imm : BitVec 12) (s : State) :
    Leaves s (execBne c ra rb imm s) := by
  simp [execBne]

@[simp] theorem execBlt_leaves (c : Fin 10) (ra rb : Fin 32) (imm : BitVec 12) (s : State) :
    Leaves s (execBlt c ra rb imm s) := by
  simp [execBlt]

@[simp] theorem execBge_leaves (c : Fin 10) (ra rb : Fin 32) (imm : BitVec 12) (s : State) :
    Leaves s (execBge c ra rb imm s) := by
  simp [execBge]

@[simp] theorem execBltu_leaves (c : Fin 10) (ra rb : Fin 32) (imm : BitVec 12) (s : State) :
    Leaves s (execBltu c ra rb imm s) := by
  simp [execBltu]

@[simp] theorem execBgeu_leaves (c : Fin 10) (ra rb : Fin 32) (imm : BitVec 12) (s : State) :
    Leaves s (execBgeu c ra rb imm s) := by
  simp [execBgeu]

@[simp] theorem execJal_leaves (c : Fin 10) (rd : Fin 32) (imm : BitVec 22) (s : State) :
    Leaves s (execJal c rd imm s) := by
  simp [execJal]

@[simp] theorem execJalr_leaves (c : Fin 10) (rd ra : Fin 32) (imm : BitVec 12) (s : State) :
    Leaves s (execJalr c rd ra imm s) := by
  simp [execJalr]

@[simp] theorem execSharedSlotAccess_leaves (c : Fin 9) (s : State) : Leaves s (execSharedSlotAccess c s) := by
  unfold execSharedSlotAccess
  split <;> simp

/-! ### `Machine/ProfileCheck.lean` -/

@[simp] theorem execBootStageComplete_leaves (cause : Nat) (det : Word) (corrupt : List Nat) (lockH : Bool) (t : DWord)
    (s : State) : Leaves s (execBootStageComplete cause det corrupt lockH t s) := by
  simp [execBootStageComplete]

/-! ### Every command -/

theorem exec_leaves (c : Instr) (s : State) : Leaves s (exec c s) := by
  cases c <;> simp [exec]

theorem step_leaves (s : State) : Leaves s (step s) := by
  unfold step
  split
  · simp
  next c rest _ => exact exec_leaves c { s with pending := rest }

end Sys2Proof.Machine

open Sys2Proof Sys2Proof.Machine

/-- Settles O26, by the relation `Leaves` between a state and the outcome of a step, proved command by command. -/
theorem memoriesStayCanonical : Obligations.MemoriesStayCanonical := fun s t h ht =>
  (memoriesCanonical_iff t).mpr ((step_leaves s t ht).1 ((memoriesCanonical_iff s).mp h))

/-- Settles O27, by the same relation. -/
theorem eventQueuesStayBounded : Obligations.EventQueuesStayBounded := fun s t h ht =>
  (queuesBounded_iff t).mpr ((step_leaves s t ht).2 ((queuesBounded_iff s).mp h))

end

section
/-! The integer instructions (R101–R103, R110): the values that the tables name, and the shapes of instruction. -/

namespace Sys2Proof.Machine

/-! ### Values -/

theorem boolWord_lt_toInt (a b : DWord) : boolWord (decide (a.toInt < b.toInt)) = if a.slt b then 1 else 0 := rfl

theorem boolWord_lt_toNat (a b : DWord) : boolWord (decide (a.toNat < b.toNat)) = if a.ult b then 1 else 0 := rfl

/-- The low six bits of a shift amount. -/
theorem shiftAmount (b : DWord) : b.toNat % 64 = (b.setWidth 6).toNat := (BitVec.toNat_setWidth 6 b).symm

/-- Which of two words is taken does not depend on how the comparison treats equal ones: they are the same word. -/
theorem ite_lt_eq_ite_le {α : Type} [LinearOrder α] {f : DWord → α} (hf : f.Injective) (a b : DWord) :
    (if f a < f b then a else b) = if f a ≤ f b then a else b := by
  obtain h | h | h := lt_trichotomy (f a) (f b)
  · rw [if_pos h, if_pos h.le]
  · rw [hf h, ite_self, ite_self]
  · rw [if_neg h.asymm, if_neg h.not_ge]

theorem ite_lt_eq_ite_le_swap {α : Type} [LinearOrder α] {f : DWord → α} (hf : f.Injective) (a b : DWord) :
    (if f a < f b then b else a) = if f a ≤ f b then b else a := by
  obtain h | h | h := lt_trichotomy (f a) (f b)
  · rw [if_pos h, if_pos h.le]
  · rw [hf h, ite_self, ite_self]
  · rw [if_neg h.asymm, if_neg h.not_ge]

theorem toInt_injective : Function.Injective (BitVec.toInt (n := 64)) := fun _ _ => BitVec.eq_of_toInt_eq

theorem toNat_injective : Function.Injective (BitVec.toNat (w := 64)) := fun _ _ => BitVec.eq_of_toNat_eq

theorem ite_sle {α : Type} (a b : DWord) (x y : α) : (if a.sle b then x else y) = if a.toInt ≤ b.toInt then x else y := by
  simp only [BitVec.sle_eq_decide, decide_eq_true_eq]

theorem ite_ule {α : Type} (a b : DWord) (x y : α) : (if a.ule b then x else y) = if a.toNat ≤ b.toNat then x else y := by
  simp only [BitVec.ule_eq_decide, decide_eq_true_eq]

theorem minS_eq (a b : DWord) : (if a.toInt < b.toInt then a else b) = if a.sle b then a else b :=
  (ite_lt_eq_ite_le toInt_injective a b).trans (ite_sle a b a b).symm

theorem maxS_eq (a b : DWord) : (if a.toInt < b.toInt then b else a) = if a.sle b then b else a :=
  (ite_lt_eq_ite_le_swap toInt_injective a b).trans (ite_sle a b b a).symm

theorem minU_eq (a b : DWord) : (if a.toNat < b.toNat then a else b) = if a.ule b then a else b :=
  (ite_lt_eq_ite_le toNat_injective a b).trans (ite_ule a b a b).symm

theorem maxU_eq (a b : DWord) : (if a.toNat < b.toNat then b else a) = if a.ule b then b else a :=
  (ite_lt_eq_ite_le_swap toNat_injective a b).trans (ite_ule a b b a).symm

theorem clzFrom_le (x : DWord) (n : Nat) : clzFrom x n ≤ n := by
  induction n with
  | zero => exact Nat.le_refl 0
  | succ n ih =>
    unfold clzFrom
    split <;> omega

/-- The bits above the first set bit of the low `n` are clear. -/
theorem clzFrom_clear (x : DWord) {n i : Nat} (h : i < clzFrom x n) : x.getLsbD (n - 1 - i) = false := by
  induction n generalizing i with
  | zero => exact absurd h (Nat.not_lt_zero i)
  | succ n ih =>
    unfold clzFrom at h
    split at h
    · exact absurd h (Nat.not_lt_zero i)
    next hbit =>
      cases i with
      | zero => simpa using hbit
      | succ i =>
        have := ih (i := i) (by omega)
        rwa [show n + 1 - 1 - (i + 1) = n - 1 - i by omega]

/-- Where the count ends before `n`, it ends at a set bit. -/
theorem clzFrom_set (x : DWord) {n : Nat} (h : clzFrom x n < n) : x.getLsbD (n - 1 - clzFrom x n) = true := by
  induction n with
  | zero => exact absurd h (Nat.not_lt_zero _)
  | succ n ih =>
    unfold clzFrom at h ⊢
    split at h
    next hbit => simp [hbit]
    next hbit =>
      have := ih (by omega)
      simp only [hbit]
      rwa [if_neg (by simp), show n + 1 - 1 - (1 + clzFrom x n) = n - 1 - clzFrom x n by omega]

theorem popFrom_eq (x : DWord) (n : Nat) : popFrom x n = ((List.range n).filter fun i => x.getLsbD i).length := by
  induction n with
  | zero => rfl
  | succ n ih =>
    rw [popFrom, ih, List.range_succ, List.filter_append, List.length_append]
    cases h : x.getLsbD n <;> simp [h, Nat.add_comm]

theorem divS_value (a b : DWord) : (divS a b).1 = if b = 0 then BitVec.allOnes 64 else a.sdiv b := by
  unfold divS
  split_ifs with hb hmin
  · rfl
  · rw [hmin.1, hmin.2]
    decide
  · exact BitVec.eq_of_toInt_eq (by rw [BitVec.toInt_ofInt, BitVec.toInt_sdiv])

theorem divS_flags (a b : DWord) :
    (divS a b).2 = if b = 0 then 1 else if a = BitVec.intMin 64 ∧ b = BitVec.allOnes 64 then 2 else 0 := by
  unfold divS
  split_ifs <;> rfl

theorem divU_value (a b : DWord) : (divU a b).1 = if b = 0 then BitVec.allOnes 64 else a / b := by
  unfold divU
  split_ifs
  · rfl
  · exact BitVec.eq_of_toNat_eq (by
      rw [BitVec.toNat_ofNat, BitVec.toNat_udiv, Nat.mod_eq_of_lt ((Nat.div_le_self _ _).trans_lt a.isLt)])

theorem remS_value (a b : DWord) : (remS a b).1 = if b = 0 then a else a.srem b := by
  unfold remS
  split_ifs
  · rfl
  · rw [← BitVec.toInt_srem, BitVec.ofInt_toInt]

theorem remU_value (a b : DWord) : (remU a b).1 = if b = 0 then a else a % b := by
  unfold remU
  split_ifs
  · rfl
  · exact BitVec.eq_of_toNat_eq (by
      rw [BitVec.toNat_ofNat, BitVec.toNat_umod, Nat.mod_eq_of_lt ((Nat.mod_le _ _).trans_lt a.isLt)])

/-! ### Shapes -/

theorem regRegResult_of_intRR {mk : Fin 10 → Fin 32 → Fin 32 → Fin 32 → Instr} {cls : IssClass} {f g : DWord → DWord → DWord}
    (hmk : ∀ c rd ra rb s, exec (mk c rd ra rb) s = s.intRR c cls rd ra rb f) (hfg : ∀ a b, f a b = g a b) :
    RegRegResult mk cls g := by
  intro s c rd ra rb h
  rw [hmk]
  simp only [← hfg]
  exact exec1_retires h fun k t => by simp only [retimed_rg, retimed_wg]

theorem regResult_of_intR {mk : Fin 10 → Fin 32 → Fin 32 → Instr} {f : DWord → DWord}
    (hmk : ∀ c rd ra s, exec (mk c rd ra) s = s.intR c rd ra f) : RegResult mk f := by
  intro s c rd ra h
  rw [hmk]
  exact exec1_retires h fun k t => by simp only [retimed_rg, retimed_wg]

theorem divResult_of_intDiv {mk : Fin 10 → Fin 32 → Fin 32 → Fin 32 → Instr} {f : DWord → DWord → DWord × BitVec 2}
    {v : DWord → DWord → DWord} {fl : DWord → DWord → BitVec 2}
    (hmk : ∀ c rd ra rb s, exec (mk c rd ra rb) s = s.intDiv c rd ra rb f) (hv : ∀ a b, (f a b).1 = v a b)
    (hfl : ∀ a b, (f a b).2 = fl a b) : DivResult mk v fl := by
  intro s c rd ra rb h
  rw [hmk]
  simp only [← hv, ← hfl]
  exact exec1_retires h fun k t => by simp only [retimed_rg, retimed_wg, retimed_orIF]

theorem regImmResult_of_intR {mk : Fin 10 → Fin 32 → Fin 32 → BitVec 12 → Instr} {f : DWord → BitVec 12 → DWord}
    (hmk : ∀ c rd ra imm s, exec (mk c rd ra imm) s = s.intR c rd ra fun a => f a imm) :
    RegImmResult mk (fun _ => True) f := by
  intro s c rd ra imm _ h
  rw [hmk]
  exact exec1_retires h fun k t => by simp only [retimed_rg, retimed_wg]

theorem regImmResult_of_intShift {mk : Fin 10 → Fin 32 → Fin 32 → BitVec 12 → Instr} {opx : Nat} {f : DWord → Nat → DWord}
    (hmk : ∀ c rd ra imm s, exec (mk c rd ra imm) s = s.intShift c rd ra opx imm f) :
    RegImmResult mk (fun i => i.toNat < 64) fun a i => f a i.toNat := by
  intro s c rd ra imm himm h
  obtain ⟨t, ht⟩ := execWith_of_mayRun (f := fun s1 cyc =>
    if imm.toNat < 64 then s1.modCore c fun k => (k.wg rd (f (k.rg ra) imm.toNat)).adv
    else s1.except c cyc 1 (wordI 1 rd.val ra.val opx imm.toNat)) h
  refine ⟨t, ?_⟩
  rw [hmk, State.intShift, ht, if_pos himm, modCore_setCore]
  simp only [retimed_rg, retimed_wg, retimed_adv]

/-- A shift by 64 or more is no instruction (R100). -/
theorem intShift_traps {s : State} {c : Fin 10} {rd ra : Fin 32} {imm : BitVec 12} (himm : 64 ≤ imm.toNat)
    (h : s.mayRun c .alu [.g ra] (dstG rd) = true) (opx : Nat) (f : DWord → Nat → DWord) :
    Traps s c (s.intShift c rd ra opx imm f) 1 (wordI 1 rd.val ra.val opx imm.toNat) := by
  obtain ⟨t, ht⟩ := execWith_of_mayRun (f := fun s1 cyc =>
    if imm.toNat < 64 then s1.modCore c fun k => (k.wg rd (f (k.rg ra) imm.toNat)).adv
    else s1.except c cyc 1 (wordI 1 rd.val ra.val opx imm.toNat)) h
  rw [State.intShift, ht, if_neg (Nat.not_lt.mpr himm)]
  exact traps_except s c t _ 1 _

end Sys2Proof.Machine

open Sys2Proof Sys2Proof.Machine

namespace Sys2Proof.Machine

theorem logicResults :
    RegRegResult .add .alu (fun a b => a + b) ∧ RegRegResult .sub .alu (fun a b => a - b)
    ∧ RegRegResult .andR .alu (fun a b => a &&& b) ∧ RegRegResult .orR .alu (fun a b => a ||| b)
    ∧ RegRegResult .xorR .alu (fun a b => a ^^^ b) :=
  ⟨regRegResult_of_intRR (f := fun a b => a + b) (fun _ _ _ _ _ => rfl) fun _ _ => rfl,
   regRegResult_of_intRR (f := fun a b => a - b) (fun _ _ _ _ _ => rfl) fun _ _ => rfl,
   regRegResult_of_intRR (f := fun a b => a &&& b) (fun _ _ _ _ _ => rfl) fun _ _ => rfl,
   regRegResult_of_intRR (f := fun a b => a ||| b) (fun _ _ _ _ _ => rfl) fun _ _ => rfl,
   regRegResult_of_intRR (f := fun a b => a ^^^ b) (fun _ _ _ _ _ => rfl) fun _ _ => rfl⟩

theorem shiftResults :
    RegRegResult .sll .alu (fun a b => a <<< (b.setWidth 6).toNat)
    ∧ RegRegResult .srl .alu (fun a b => a >>> (b.setWidth 6).toNat)
    ∧ RegRegResult .sra .alu (fun a b => a.sshiftRight (b.setWidth 6).toNat) :=
  ⟨regRegResult_of_intRR (f := fun a b => a <<< (b.toNat % 64))
      (fun _ _ _ _ _ => rfl) fun a b => congrArg (a <<< ·) (shiftAmount b),
   regRegResult_of_intRR (f := fun a b => a >>> (b.toNat % 64))
       (fun _ _ _ _ _ => rfl) fun a b => congrArg (a >>> ·) (shiftAmount b),
   regRegResult_of_intRR (f := fun a b => a.sshiftRight (b.toNat % 64))
       (fun _ _ _ _ _ => rfl) fun a b => congrArg a.sshiftRight (shiftAmount b)⟩

theorem compareResults :
    RegRegResult .slt .alu (fun a b => if a.slt b then 1 else 0) ∧ RegRegResult .sltu .alu (fun a b => if a.ult b then 1 else 0)
    ∧ RegRegResult .min .alu (fun a b => if a.sle b then a else b) ∧ RegRegResult .max .alu (fun a b => if a.sle b then b else a)
    ∧ RegRegResult .minu .alu (fun a b => if a.ule b then a else b)
    ∧ RegRegResult .maxu .alu (fun a b => if a.ule b then b else a) :=
  ⟨regRegResult_of_intRR (f := fun a b => boolWord (decide (a.toInt < b.toInt)))
      (fun _ _ _ _ _ => rfl) boolWord_lt_toInt,
   regRegResult_of_intRR (f := fun a b => boolWord (decide (a.toNat < b.toNat)))
       (fun _ _ _ _ _ => rfl) boolWord_lt_toNat,
   regRegResult_of_intRR (f := fun a b => if a.toInt < b.toInt then a else b) (fun _ _ _ _ _ => rfl) minS_eq,
   regRegResult_of_intRR (f := fun a b => if a.toInt < b.toInt then b else a) (fun _ _ _ _ _ => rfl) maxS_eq,
   regRegResult_of_intRR (f := fun a b => if a.toNat < b.toNat then a else b) (fun _ _ _ _ _ => rfl) minU_eq,
   regRegResult_of_intRR (f := fun a b => if a.toNat < b.toNat then b else a) (fun _ _ _ _ _ => rfl) maxU_eq⟩

theorem mulResults :
    RegRegResult .mul .mul (fun a b => a * b)
    ∧ RegRegResult .mulh .mul (fun a b => BitVec.ofInt 64 (a.toInt * b.toInt / 2 ^ 64))
    ∧ RegRegResult .mulhu .mul (fun a b => BitVec.ofNat 64 (a.toNat * b.toNat / 2 ^ 64)) :=
  ⟨regRegResult_of_intRR (f := fun a b => a * b) (fun _ _ _ _ _ => rfl) fun _ _ => rfl,
   regRegResult_of_intRR (f := fun a b => BitVec.ofInt 64 (a.toInt * b.toInt / 2 ^ 64))
       (fun _ _ _ _ _ => rfl) fun _ _ => rfl,
   regRegResult_of_intRR (f := fun a b => BitVec.ofNat 64 (a.toNat * b.toNat / 2 ^ 64))
       (fun _ _ _ _ _ => rfl) fun _ _ => rfl⟩

end Sys2Proof.Machine

/-- Settles O2: the instructions of two registers above, and the two counts. -/
theorem integerRegisterResults : Obligations.IntegerRegisterResults := by
  unfold Obligations.IntegerRegisterResults
  obtain ⟨hadd, hsub, hand, hor, hxor⟩ := logicResults
  obtain ⟨hsll, hsrl, hsra⟩ := shiftResults
  obtain ⟨hslt, hsltu, hmin, hmax, hminu, hmaxu⟩ := compareResults
  obtain ⟨hmul, hmulh, hmulhu⟩ := mulResults
  refine ⟨hadd, hsub, hand, hor, hxor, hsll, hsrl, hsra, hslt, hsltu, hmin, hmax, hminu, hmaxu, hmul, hmulh, hmulhu,
    ?clz, ?popc⟩
  case clz =>
    refine ⟨fun a => BitVec.ofNat 64 (clzFrom a 64), regResult_of_intR fun _ _ _ _ => rfl, fun a => ?_⟩
    have hle := clzFrom_le a 64
    rw [BitVec.toNat_ofNat, Nat.mod_eq_of_lt (by omega)]
    refine ⟨hle, fun i hi => ?_, fun hlt => ?_⟩
    · rw [BitVec.getMsbD, clzFrom_clear a hi, Bool.and_false]
    · rw [BitVec.getMsbD, clzFrom_set a hlt, decide_eq_true hlt, Bool.and_self]
  case popc =>
    refine ⟨fun a => BitVec.ofNat 64 (popFrom a 64), regResult_of_intR fun _ _ _ _ => rfl, fun a => ?_⟩
    have hle : popFrom a 64 ≤ 64 := by
      rw [popFrom_eq]
      exact (List.length_filter_le _ _).trans_eq List.length_range
    rw [BitVec.toNat_ofNat, Nat.mod_eq_of_lt (by omega), popFrom_eq]

/-- Settles O3. -/
theorem divisionResultsAndFlags : Obligations.DivisionResultsAndFlags :=
  ⟨divResult_of_intDiv (f := divS) (fun _ _ _ _ _ => rfl) divS_value divS_flags,
   divResult_of_intDiv (f := divU) (fun _ _ _ _ _ => rfl) divU_value fun _ _ => apply_ite Prod.snd _ _ _,
   divResult_of_intDiv (f := remS) (fun _ _ _ _ _ => rfl) remS_value fun _ _ => apply_ite Prod.snd _ _ _,
   divResult_of_intDiv (f := remU) (fun _ _ _ _ _ => rfl) remU_value fun _ _ => apply_ite Prod.snd _ _ _⟩

/-- Settles O4: the shapes with an immediate, and the shift amounts that are no instruction. -/
theorem immediateResults : Obligations.ImmediateResults := by
  unfold Obligations.ImmediateResults
  refine ⟨?addi, ?andi, ?ori, ?xori, ?slti, ?sltiu, ?slli, ?srli, ?srai, ?liw, ?lis, ?illegal⟩
  case addi => exact regImmResult_of_intR (f := fun a i => a + sext12 i) fun _ _ _ _ _ => rfl
  case andi => exact regImmResult_of_intR (f := fun a i => a &&& sext12 i) fun _ _ _ _ _ => rfl
  case ori => exact regImmResult_of_intR (f := fun a i => a ||| sext12 i) fun _ _ _ _ _ => rfl
  case xori => exact regImmResult_of_intR (f := fun a i => a ^^^ sext12 i) fun _ _ _ _ _ => rfl
  case slti => exact regImmResult_of_intR (f := fun a i => boolWord (decide (a.toInt < (sext12 i).toInt))) fun _ _ _ _ _ => rfl
  case sltiu => exact regImmResult_of_intR (f := fun a i => boolWord (decide (a.toNat < (sext12 i).toNat))) fun _ _ _ _ _ => rfl
  case slli => exact regImmResult_of_intShift (f := fun a n => a <<< n) fun _ _ _ _ _ => rfl
  case srli => exact regImmResult_of_intShift (f := fun a n => a >>> n) fun _ _ _ _ _ => rfl
  case srai => exact regImmResult_of_intShift (f := fun a n => a.sshiftRight n) fun _ _ _ _ _ => rfl
  case liw =>
    intro s c rd imm h
    change Retires s c (execLiw c rd imm s) _
    exact exec1_retires h fun k t => retimed_wg ..
  case lis =>
    intro s c rd imm h
    change Retires s c (execLis c rd imm s) _
    exact exec1_retires h fun k t => by simp only [retimed_rg, retimed_wg]
  case illegal =>
    exact fun s c rd ra imm himm h =>
      ⟨intShift_traps himm h 4 _, intShift_traps himm h 5 _, intShift_traps himm h 6 _⟩

end

section
/-! Branches and jumps (R81, R110, R113). -/

namespace Sys2Proof.Machine

/-- An instruction whose effect is on its core alone, and may itself take issue time. -/
theorem retires_execWith {s : State} {c : Fin 10} {cls : IssClass} {srcs : List CReg} {dst : Option CReg}
    (h : s.mayRun c cls srcs dst = true) {g f : Core → Core} (hg : ∀ k t, ∃ u, g (Core.retimed k t) = (f k).retimed u) :
    Retires s c (s.execWith c cls srcs dst fun s1 _ => s1.modCore c g) f := by
  obtain ⟨t, ht⟩ := execWith_of_mayRun (f := fun s1 _ => s1.modCore c g) h
  obtain ⟨u, hu⟩ := hg (s.core c) t
  exact ⟨u, by rw [ht, modCore_setCore, hu]⟩

theorem branchResult_of_branch {mk : Fin 10 → Fin 32 → Fin 32 → BitVec 12 → Instr} {f p : DWord → DWord → Bool}
    (hmk : ∀ c ra rb imm s, exec (mk c ra rb imm) s = s.branch c ra rb imm f) (hfp : ∀ a b, f a b = p a b) :
    BranchResult mk p := by
  intro s c ra rb imm h
  rw [hmk]
  refine retires_execWith h fun k t => ?_
  simp only [retimed_rg, hfp]
  split_ifs
  · exact ⟨_, idle_eq_retimed _ 1⟩
  · exact ⟨_, idle_eq_retimed _ 2⟩
  · exact ⟨t, retimed_adv k t⟩

theorem decide_le_toInt (a b : DWord) : decide (b.toInt ≤ a.toInt) = !a.slt b := by
  rw [BitVec.slt_eq_decide, ← decide_not, decide_eq_decide, not_lt]

theorem decide_le_toNat (a b : DWord) : decide (b.toNat ≤ a.toNat) = !a.ult b := by
  rw [BitVec.ult_eq_decide, ← decide_not, decide_eq_decide, not_lt]

/-- A word is a multiple of 4 exactly if its two low bits are clear. -/
theorem toNat_mod_four_eq_zero_iff (a : DWord) : a.toNat % 4 = 0 ↔ a.getLsbD 0 = false ∧ a.getLsbD 1 = false := by
  have h0 : a.getLsbD 0 = decide (a.toNat % 2 = 1) := by simp [BitVec.getLsbD, Nat.testBit_zero]
  have h1 : a.getLsbD 1 = decide (a.toNat / 2 % 2 = 1) := by simp [BitVec.getLsbD, Nat.testBit_succ, Nat.testBit_zero]
  rw [h0, h1]
  simp only [decide_eq_false_iff_not]
  omega

theorem goto_idle (k t : Core) (a : DWord) (n : Nat) :
    ∃ u, ({ k.retimed t with pc := a } : Core).idle n = (k.goto a).retimed u :=
  ⟨({ k.retimed t with pc := a } : Core).idle n, rfl⟩

theorem jal_retires {s : State} {c : Fin 10} {rd : Fin 32} (imm : BitVec 22) (h : s.mayRun c .jal [] (dstG rd) = true) :
    Retires s c (execJal c rd imm s) fun k => (k.wg rd (k.pc + 4)).goto (k.pc + 4 * imm.signExtend 64) :=
  retires_execWith h fun k t => by
    rw [retimed_wg]
    exact goto_idle _ t _ 1

theorem jalr_retires {s : State} {c : Fin 10} {rd ra : Fin 32} {imm : BitVec 12}
    (h : s.mayRun c .jalr [.g ra] (dstG rd) = true) (ha : ((s.core c).rg ra + imm.signExtend 64).toNat % 4 = 0) :
    Retires s c (execJalr c rd ra imm s)
      fun k => (k.wg rd (k.pc + 4)).goto ((s.core c).rg ra + imm.signExtend 64) := by
  obtain ⟨t, ht⟩ := execWith_of_mayRun (f := fun s1 cyc =>
    let target := (s1.core c).ea ra imm
    if target.toNat % 4 != 0 then s1.except c cyc 3 target
    else s1.modCore c fun k => { k.wg rd (k.pc + 4) with pc := target }.idle (if c.val = 9 then 1 else 2)) h
  unfold execJalr
  rw [ht]
  simp only [core_setCore, retimed_ea]
  rw [if_neg (by simpa [Core.ea, sext12] using ha), modCore_setCore, retimed_wg, retimed_pc]
  obtain ⟨u, hu⟩ := goto_idle ((s.core c).wg rd ((s.core c).pc + 4)) t ((s.core c).ea ra imm) (if c.val = 9 then 1 else 2)
  exact ⟨u, by rw [hu]; rfl⟩

theorem jalr_traps {s : State} {c : Fin 10} {rd ra : Fin 32} {imm : BitVec 12}
    (h : s.mayRun c .jalr [.g ra] (dstG rd) = true) (ha : ((s.core c).rg ra + imm.signExtend 64).toNat % 4 ≠ 0) :
    Traps s c (execJalr c rd ra imm s) 3 ((s.core c).rg ra + imm.signExtend 64) := by
  obtain ⟨t, ht⟩ := execWith_of_mayRun (f := fun s1 cyc =>
    let target := (s1.core c).ea ra imm
    if target.toNat % 4 != 0 then s1.except c cyc 3 target
    else s1.modCore c fun k => { k.wg rd (k.pc + 4) with pc := target }.idle (if c.val = 9 then 1 else 2)) h
  unfold execJalr
  rw [ht]
  simp only [core_setCore, retimed_ea]
  rw [if_pos (by simpa [Core.ea, sext12] using ha)]
  exact traps_except s c t _ 3 _

end Sys2Proof.Machine

open Sys2Proof Sys2Proof.Machine

/-- Settles O12: the branches are one shape, and JALR is decided by the two low bits of its target. -/
theorem branchAndJumpResults : Obligations.BranchAndJumpResults := by
  unfold Obligations.BranchAndJumpResults
  refine ⟨?beq, ?bne, ?blt, ?bge, ?bltu, ?bgeu, ?jal, ?jalr⟩
  case beq => exact branchResult_of_branch (fun _ _ _ _ _ => rfl) fun _ _ => rfl
  case bne => exact branchResult_of_branch (fun _ _ _ _ _ => rfl) fun _ _ => rfl
  case blt => exact branchResult_of_branch (fun _ _ _ _ _ => rfl) fun _ _ => rfl
  case bge => exact branchResult_of_branch (fun _ _ _ _ _ => rfl) decide_le_toInt
  case bltu => exact branchResult_of_branch (fun _ _ _ _ _ => rfl) fun _ _ => rfl
  case bgeu => exact branchResult_of_branch (fun _ _ _ _ _ => rfl) decide_le_toNat
  case jal => exact fun s c rd imm h => jal_retires imm h
  case jalr =>
    intro s c rd ra imm h
    dsimp only
    split_ifs with ha
    · exact jalr_retires h ((toNat_mod_four_eq_zero_iff _).mpr ha)
    · exact jalr_traps h fun h0 => ha ((toNat_mod_four_eq_zero_iff _).mp h0)

end

section
/-! The binary64 operations (R104–R106): what a NaN result is, when UF is set, and the compares and conversions. -/

namespace Sys2Proof.Machine

/-! ### Rounded results (R104) -/

/-- A result of the binary64 arithmetic as R104 fixes it: a NaN is the canonical one, and UF comes with NX. -/
def FpSound (r : DWord × FFlags) : Prop :=
  (f64IsNaN r.1 = true → r.1 = 0x7FF8000000000000) ∧ (r.2.getLsbD 1 = true → r.2.getLsbD 0 = true)

theorem fpSound_nan {fl : FFlags} (h : fl.getLsbD 1 = false) : FpSound (f64NaN, fl) :=
  ⟨fun _ => rfl, fun h1 => nomatch h1.symm.trans h⟩

theorem fpSound_number {x : DWord} {fl : FFlags} (hx : f64IsNaN x = false) (hfl : fl.getLsbD 1 = true → fl.getLsbD 0 = true) :
    FpSound (x, fl) := ⟨fun h => absurd h (by simp [hx]), hfl⟩

theorem f64IsNaN_inf (neg : Bool) : f64IsNaN (f64Inf neg) = false := by cases neg <;> rfl

theorem f64IsNaN_zero (neg : Bool) : f64IsNaN (f64Zero neg) = false := by cases neg <;> rfl

theorem fpSound_inf {fl : FFlags} (neg : Bool) (hfl : fl.getLsbD 1 = false) : FpSound (f64Inf neg, fl) :=
  fpSound_number (f64IsNaN_inf neg) fun h => nomatch h.symm.trans hfl

theorem fpSound_zero (neg : Bool) : FpSound (f64Zero neg, 0) := fpSound_number (f64IsNaN_zero neg) nofun

theorem f64SigFlag_uf (x y : DWord) : (f64SigFlag x y).getLsbD 1 = false := by
  unfold f64SigFlag
  split <;> rfl

/-- A magnitude below that of infinity, under a sign, is not a NaN. -/
theorem f64IsNaN_of_magnitude {mag : Nat} (h : mag < 2047 * 2 ^ 52) (neg : Bool) :
    f64IsNaN (BitVec.ofNat 64 ((if neg then 2 ^ 63 else 0) + mag)) = false := by
  have hexp : f64Exp (BitVec.ofNat 64 ((if neg then 2 ^ 63 else 0) + mag)) ≠ 2047 := by
    unfold f64Exp
    rw [BitVec.toNat_ofNat]
    cases neg <;> simp only [Bool.false_eq_true, if_false, if_true] <;> omega
  rw [f64IsNaN, beq_false_of_ne hexp, Bool.false_and]

theorem fpSound_round (neg : Bool) (m : Nat) (e : Int) : FpSound (f64Round neg m e) := by
  unfold f64Round
  extract_lets top unit r mag free tiny sgn
  split
  · exact fpSound_zero neg
  split
  · exact fpSound_inf neg rfl
  next hmag =>
    refine fpSound_number (f64IsNaN_of_magnitude (Nat.lt_of_not_le hmag) neg) ?_
    cases r.2 <;> cases tiny <;> decide

theorem fpSound_roundInt (zeroNeg : Bool) (v e : Int) : FpSound (f64RoundInt zeroNeg v e) := by
  unfold f64RoundInt
  split_ifs
  · exact fpSound_zero zeroNeg
  · exact fpSound_round ..

theorem fpSound_add (x y : DWord) : FpSound (f64Add x y) := by
  unfold f64Add
  split_ifs with hnan hx hxy hy
  · exact fpSound_nan (f64SigFlag_uf x y)
  · exact fpSound_nan rfl
  · exact fpSound_number (by simp_all) nofun
  · exact fpSound_number (by simp_all) nofun
  · exact fpSound_roundInt ..

theorem fpSound_sub (x y : DWord) : FpSound (f64Sub x y) := by
  unfold f64Sub
  split_ifs
  · exact fpSound_nan (f64SigFlag_uf x y)
  · exact fpSound_add ..

theorem fpSound_mul (x y : DWord) : FpSound (f64Mul x y) := by
  unfold f64Mul
  dsimp only
  split_ifs
  · exact fpSound_nan (f64SigFlag_uf x y)
  · exact fpSound_nan rfl
  · exact fpSound_inf _ rfl
  · exact fpSound_round ..

theorem fpSound_div (x y : DWord) : FpSound (f64Div x y) := by
  unfold f64Div
  dsimp only
  split_ifs
  · exact fpSound_nan (f64SigFlag_uf x y)
  · exact fpSound_nan rfl
  · exact fpSound_inf _ rfl
  · exact fpSound_zero _
  · exact fpSound_nan rfl
  · exact fpSound_inf _ rfl
  all_goals exact fpSound_round ..

theorem fpSound_sqrt (x : DWord) : FpSound (f64Sqrt x) := by
  unfold f64Sqrt
  dsimp only
  split
  · exact fpSound_nan (f64SigFlag_uf x x)
  next hnan =>
    split
    · exact fpSound_number (by simpa using hnan) nofun
    split
    · exact fpSound_nan rfl
    split
    · exact fpSound_number (by simpa using hnan) nofun
    · exact fpSound_round ..

theorem fpSound_fma (p q : Bool) (x y z : DWord) : FpSound (f64Fma p q x y z) := by
  unfold f64Fma
  extract_lets np na sig up u pr a
  split
  · exact fpSound_nan rfl
  split
  · refine fpSound_nan ?_
    unfold sig
    split <;> rfl
  split
  · split
    · exact fpSound_nan rfl
    · exact fpSound_inf _ rfl
  split
  · exact fpSound_inf _ rfl
  · exact fpSound_roundInt ..

theorem fpSound_ofInt (i : Int) : FpSound (f64OfInt i) := fpSound_roundInt ..

/-! ### Bytes written and read back (R108) -/

theorem Memory.read_writeN {m : Memory} (h : m.wf = true) (a : Nat) (bs : List Byte) (x : Nat) :
    (m.writeN a bs).read x = if hx : a ≤ x ∧ x - a < bs.length then bs[x - a]'hx.2 else m.read x := by
  induction bs generalizing m a with
  | nil =>
    rw [dif_neg fun hx => Nat.not_lt_zero _ hx.2]
    rfl
  | cons b bs ih =>
    rw [Memory.writeN, ih (Memory.wf_write h a b), Memory.read_write h]
    rcases lt_trichotomy x a with hlt | rfl | hgt
    · rw [dif_neg (by omega), if_neg (by omega), dif_neg (by omega)]
    · rw [dif_neg (by omega), if_pos rfl, dif_pos (by simp)]
      simp
    · obtain ⟨d, rfl⟩ : ∃ d, x = a + 1 + d := ⟨x - (a + 1), by omega⟩
      have hd : a + 1 + d - a = d + 1 := by omega
      simp only [hd, Nat.add_sub_cancel_left, List.length_cons, Nat.add_lt_add_iff_right, List.getElem_cons_succ,
        Nat.le_add_right, true_and, if_neg (show ¬a + 1 + d = a by omega), show a ≤ a + 1 + d by omega]

/-! ### Compares and classes (R105) -/

theorem not_nan_and (a b : DWord) (p : Bool) : (!(f64IsNaN a || f64IsNaN b) && p) = (!f64IsNaN a && !f64IsNaN b && p) := by
  rw [Bool.not_or]

theorem fpCompare_of_fpCmp {mk : Fin 9 → Fin 32 → Fin 32 → Fin 32 → Instr} {f : DWord → DWord → Bool × FFlags}
    {p : DWord → DWord → Bool} {fl : DWord → DWord → FFlags}
    (hmk : ∀ c rd fa fb s, exec (mk c rd fa fb) s = s.fpCmp c rd fa fb f) (hp : ∀ a b, (f a b).1 = p a b)
    (hfl : ∀ a b, (f a b).2 = fl a b) : FpCompare mk p fl := by
  intro s c rd fa fb h
  rw [hmk]
  simp only [← hp, ← hfl]
  exact exec1_retires h fun k t => congrArg (Core.orFF · _) (retimed_wg k t rd _)

theorem f64Neg_iff (a : DWord) : f64Neg a = decide (2 ^ 63 ≤ a.toNat) := BitVec.msb_eq_decide a

/-- Each value is in one class. -/
theorem f64Class_onehot (a : DWord) : ∃ i < 10, f64Class a = 1#64 <<< i := by
  unfold f64Class
  split_ifs
  · exact ⟨8, by decide, rfl⟩
  · exact ⟨9, by decide, rfl⟩
  · exact ⟨0, by decide, rfl⟩
  · exact ⟨7, by decide, rfl⟩
  · exact ⟨3, by decide, rfl⟩
  · exact ⟨4, by decide, rfl⟩
  · exact ⟨2, by decide, rfl⟩
  · exact ⟨5, by decide, rfl⟩
  · exact ⟨1, by decide, rfl⟩
  · exact ⟨6, by decide, rfl⟩

theorem f64Class_nan (a : DWord) :
    (f64Class a).getLsbD 9 = (f64IsNaN a && !f64IsSNaN a) ∧ (f64Class a).getLsbD 8 = f64IsSNaN a := by
  have hsig : f64IsSNaN a = (f64IsNaN a && decide (f64Frac a < 2 ^ 51)) := rfl
  unfold f64Class
  rw [hsig]
  cases f64IsNaN a with
  | true =>
    cases decide (f64Frac a < 2 ^ 51) <;> simp
  | false =>
    simp only [Bool.false_eq_true, if_false, Bool.false_and]
    split_ifs <;> exact ⟨rfl, rfl⟩

/-- A word is what its sign, exponent and fraction fields say. -/
theorem eq_iff_fields (a : DWord) (v : DWord) :
    a = v ↔ f64Neg a = f64Neg v ∧ f64Exp a = f64Exp v ∧ f64Frac a = f64Frac v := by
  rw [f64Neg_iff, f64Neg_iff, decide_eq_decide, ← BitVec.toNat_inj]
  unfold f64Exp f64Frac
  omega

theorem f64Class_infinite (a : DWord) :
    (f64Class a).getLsbD 0 = (a == 0xFFF0000000000000) ∧ (f64Class a).getLsbD 7 = (a == 0x7FF0000000000000) := by
  have hneg : (a == 0xFFF0000000000000) = (f64IsInf a && f64Neg a) := by
    rw [Bool.eq_iff_iff, beq_iff_eq, eq_iff_fields, show f64Neg 0xFFF0000000000000 = true by rfl,
      show f64Exp 0xFFF0000000000000 = 2047 by rfl, show f64Frac 0xFFF0000000000000 = 0 by rfl]
    simp [f64IsInf, and_comm]
  have hpos : (a == 0x7FF0000000000000) = (f64IsInf a && !f64Neg a) := by
    rw [Bool.eq_iff_iff, beq_iff_eq, eq_iff_fields, show f64Neg 0x7FF0000000000000 = false by rfl,
      show f64Exp 0x7FF0000000000000 = 2047 by rfl, show f64Frac 0x7FF0000000000000 = 0 by rfl]
    simp [f64IsInf, and_comm]
  have hnan : f64IsNaN a = true → f64IsInf a = false := fun h => by
    simp only [f64IsNaN, f64IsInf, Bool.and_eq_true, bne_iff_ne, ne_eq] at h ⊢
    simp [h.2]
  rw [hneg, hpos]
  unfold f64Class
  split_ifs <;> simp_all

theorem f64Class_zero (a : DWord) :
    (f64Class a).getLsbD 3 = (a == 0x8000000000000000) ∧ (f64Class a).getLsbD 4 = (a == 0) := by
  have hneg : (a == 0x8000000000000000) = (f64IsZero a && f64Neg a) := by
    rw [Bool.eq_iff_iff, beq_iff_eq, f64Neg_iff, ← BitVec.toNat_inj,
      show BitVec.toNat (0x8000000000000000 : DWord) = 2 ^ 63 by rfl]
    simp only [f64IsZero, Bool.and_eq_true, beq_iff_eq, decide_eq_true_eq]
    omega
  have hpos : (a == 0) = (f64IsZero a && !f64Neg a) := by
    rw [Bool.eq_iff_iff, beq_iff_eq, f64Neg_iff, ← BitVec.toNat_inj, show BitVec.toNat (0 : DWord) = 0 by rfl]
    simp only [f64IsZero, Bool.and_eq_true, beq_iff_eq, Bool.not_eq_true', decide_eq_false_iff_not]
    omega
  have hexp : f64Exp a = 2047 → f64IsZero a = false := fun h => by
    unfold f64Exp at h
    simp only [f64IsZero, beq_eq_false_iff_ne, ne_eq]
    omega
  have hnan : f64IsNaN a = true → f64IsZero a = false := fun h => hexp (by simp_all [f64IsNaN])
  have hinf : f64IsInf a = true → f64IsZero a = false := fun h => hexp (by simp_all [f64IsInf])
  rw [hneg, hpos]
  unfold f64Class
  split_ifs <;> simp_all

/-! ### Conversions (R106) -/

theorem fpToG_of_exec {mk : Fin 9 → Fin 32 → Fin 32 → Instr} {cls : IssClass} {f : DWord → DWord × FFlags}
    (hmk : ∀ c rd fa s, exec (mk c rd fa) s = s.exec1 c.castSucc cls [.f fa] (dstG rd) fun k =>
      (k.wg rd (f (k.rf fa)).1).orFF (f (k.rf fa)).2) :
    FpToG mk cls (fun a => (f a).1) fun a => (f a).2 := by
  intro s c rd fa h
  rw [hmk]
  exact exec1_retires h fun k t => by simp only [retimed_rf, retimed_wg, retimed_orFF]

theorem f64ToI64_nan {a : DWord} (h : f64IsNaN a = true) (near : Bool) : f64ToI64 near a = (0, 16) := if_pos h

theorem not_nan_of_inf {a : DWord} (h : f64IsInf a = true) : f64IsNaN a = false := by
  simp only [f64IsInf, Bool.and_eq_true, beq_iff_eq] at h
  simp [f64IsNaN, h.2]

theorem f64ToI64_inf {a : DWord} (h : f64IsInf a = true) (near : Bool) :
    f64ToI64 near a = (if a.getLsbD 63 then BitVec.intMin 64 else BitVec.intMax 64, 16) := by
  rw [f64ToI64, not_nan_of_inf h, h, ← f64Neg_eq_getLsbD]
  rfl

theorem f64ToI64_finite {a : DWord} (h : f64IsFinite a = true) (near : Bool) :
    f64ToI64 near a =
      if (f64ToIntExact near a).1 > 2 ^ 63 - 1 then (BitVec.intMax 64, 16)
      else if (f64ToIntExact near a).1 < -(2 ^ 63) then (BitVec.intMin 64, 16)
      else (BitVec.ofInt 64 (f64ToIntExact near a).1, if (f64ToIntExact near a).2 then 1 else 0) := by
  have hexp : f64Exp a ≠ 2047 := by simpa [f64IsFinite] using h
  rw [f64ToI64, if_neg (by simp [f64IsNaN, hexp]), if_neg (by simp [f64IsInf, hexp])]
  rfl

/-- What R106 says of a conversion to a 64-bit integer. -/
theorem f64ToI64_spec (near : Bool) (a : DWord) :
    (f64IsNaN a = true → (f64ToI64 near a).1 = 0 ∧ (f64ToI64 near a).2 = 16)
    ∧ (f64IsInf a = true →
        (f64ToI64 near a).1 = (if a.getLsbD 63 then BitVec.intMin 64 else BitVec.intMax 64) ∧ (f64ToI64 near a).2 = 16)
    ∧ (f64IsFinite a = true →
        let r := f64ToIntExact near a
        (r.1 > 2 ^ 63 - 1 → (f64ToI64 near a).1 = BitVec.intMax 64 ∧ (f64ToI64 near a).2 = 16)
        ∧ (r.1 < -(2 ^ 63) → (f64ToI64 near a).1 = BitVec.intMin 64 ∧ (f64ToI64 near a).2 = 16)
        ∧ (-(2 ^ 63) ≤ r.1 → r.1 ≤ 2 ^ 63 - 1 →
            (f64ToI64 near a).1.toInt = r.1 ∧ (f64ToI64 near a).2 = (if r.2 then 1 else 0))) := by
  refine ⟨fun h => ?_, fun h => ?_, fun h => ?_⟩
  · rw [f64ToI64_nan h]
    exact ⟨rfl, rfl⟩
  · rw [f64ToI64_inf h]
    exact ⟨rfl, rfl⟩
  · dsimp only
    rw [f64ToI64_finite h]
    refine ⟨fun hhi => ?_, fun hlo => ?_, fun hlo hhi => ?_⟩
    · rw [if_pos hhi]
      exact ⟨rfl, rfl⟩
    · rw [if_neg (by omega), if_pos hlo]
      exact ⟨rfl, rfl⟩
    · rw [if_neg (by omega), if_neg (by omega)]
      exact ⟨by rw [BitVec.toInt_ofInt, Int.bmod_eq_of_le (by omega) (by omega)], rfl⟩

theorem fcvtDL_retires {s : State} {c : Fin 9} {fd ra : Fin 32} (h : s.mayRun c.castSucc .fp [.g ra] (some (.f fd)) = true) :
    Retires s c.castSucc (execFcvtDL c fd ra s) fun k =>
      ((k.wf fd (f64OfInt (k.rg ra).toInt).1).orFF (f64OfInt (k.rg ra).toInt).2).adv :=
  exec1_retires h fun _ _ => rfl

theorem fmvGF_retires {s : State} {c : Fin 9} {rd fa : Fin 32} (h : s.mayRun c.castSucc .fpShort [.f fa] (dstG rd) = true) :
    Retires s c.castSucc (execFmvGF c rd fa s) fun k => (k.wg rd (k.rf fa)).adv :=
  exec1_retires h fun k t => retimed_wg k t rd _

theorem fmvFG_retires {s : State} {c : Fin 9} {fd ra : Fin 32}
    (h : s.mayRun c.castSucc .fpShort [.g ra] (some (.f fd)) = true) :
    Retires s c.castSucc (execFmvFG c fd ra s) fun k => (k.wf fd (k.rg ra)).adv :=
  exec1_retires h fun _ _ => rfl

end Sys2Proof.Machine

open Sys2Proof Sys2Proof.Machine

/-- Settles O7: each operation ends in a NaN, an infinity, a zero, an operand or one rounding; and bytes read back. -/
theorem floatingAndMemoryOperations : Obligations.FloatingAndMemoryOperations := by
  unfold Obligations.FloatingAndMemoryOperations
  refine ⟨fun x y z p q i => ?_, fun m a bs h => ⟨Memory.wf_writeN bs a h, fun i hi => ?_, fun x hx => ?_⟩⟩
  · have hadd := fpSound_add x y
    have hsub := fpSound_sub x y
    have hmul := fpSound_mul x y
    have hdiv := fpSound_div x y
    have hsqrt := fpSound_sqrt x
    have hfma := fpSound_fma p q x y z
    simp only [List.forall_mem_cons, List.not_mem_nil, IsEmpty.forall_iff, implies_true, and_true]
    exact ⟨⟨hadd.1, hsub.1, hmul.1, hdiv.1, hsqrt.1, hfma.1⟩,
      hadd.2, hsub.2, hmul.2, hdiv.2, hsqrt.2, hfma.2, (fpSound_ofInt i).2⟩
  · rw [Memory.read_writeN h, dif_pos (by omega)]
    simp
  · rw [Memory.read_writeN h, dif_neg (by omega)]

/-- Settles O6: the compares and conversions by their two shapes, the classes by the fields of a word. -/
theorem floatingCompareAndConvertResults : Obligations.FloatingCompareAndConvertResults := by
  unfold Obligations.FloatingCompareAndConvertResults
  refine ⟨?feq, ?flt, ?fle, ?fclass, ?fcvt, ?fcvtDL, ?fmvGF, ?fmvFG⟩
  case feq =>
    exact fpCompare_of_fpCmp (f := fun a b => (f64Eq a b, f64SigFlag a b))
      (fun _ _ _ _ _ => rfl) (fun a b => not_nan_and a b _) fun _ _ => rfl
  case flt =>
    exact fpCompare_of_fpCmp (f := fun a b => (f64Lt a b, if f64IsNaN a || f64IsNaN b then flagNV else 0))
      (fun _ _ _ _ _ => rfl) (fun a b => not_nan_and a b _) fun _ _ => rfl
  case fle =>
    exact fpCompare_of_fpCmp (f := fun a b => (f64Le a b, if f64IsNaN a || f64IsNaN b then flagNV else 0))
      (fun _ _ _ _ _ => rfl) (fun a b => not_nan_and a b _) fun _ _ => rfl
  case fclass =>
    refine ⟨f64Class, fun s c rd fa h => ?_, fun a => ?_⟩
    · change Retires s c.castSucc (execFclass c rd fa s) _
      exact exec1_retires h fun k t => by simp only [retimed_rf, retimed_wg]
    · obtain ⟨h0, h7⟩ := f64Class_infinite a
      obtain ⟨h3, h4⟩ := f64Class_zero a
      exact ⟨f64Class_onehot a, (f64Class_nan a).1, (f64Class_nan a).2, h0, h7, h3, h4⟩
  case fcvt =>
    refine fun near => ⟨fun a => (f64ToI64 near a).1, fun a => (f64ToI64 near a).2, ?_, f64ToI64_spec near⟩
    cases near with
    | true =>
      rw [if_pos rfl]
      exact fpToG_of_exec (f := f64ToI64 true) fun _ _ _ _ => rfl
    | false =>
      rw [if_neg Bool.false_ne_true]
      exact fpToG_of_exec (f := f64ToI64 false) fun _ _ _ _ => rfl
  case fcvtDL => exact fun s c fd ra h => fcvtDL_retires h
  case fmvGF => exact fun s c rd fa h => fmvGF_retires h
  case fmvFG => exact fun s c fd ra h => fmvFG_retires h

end

section
/-! The register files, the CSRs, the waits and the trap instructions of a core (R72, R88–R90, R95, R98, R111–R113). -/

namespace Sys2Proof.Machine

/-! ### Register files -/

theorem wg_zero (k : Core) (v : DWord) : k.wg 0 v = k := rfl

theorem wg_frame (k : Core) (i : Fin 32) (v : DWord) : ∃ g, k.wg i v = { k with g := g } := by
  unfold Core.wg
  split_ifs
  · exact ⟨k.g, rfl⟩
  · exact ⟨_, rfl⟩

theorem rg_wg_same (k : Core) {i : Fin 32} (h : i ≠ 0) (v : DWord) : (k.wg i v).rg i = v := by
  rw [rg_wg, if_neg h, if_pos rfl]

theorem rg_wg_ne (k : Core) {i j : Fin 32} (h : i ≠ j) (v : DWord) : (k.wg i v).rg j = k.rg j := by
  rw [rg_wg, if_neg h]
  split_ifs with hj
  · rw [hj, rg_zero]
  · rfl

/-! ### CSRs -/

theorem status_eq (k : Core) :
    k.status = (BitVec.ofBool k.intrap ++ BitVec.ofBool k.pie ++ BitVec.ofBool k.ie).setWidth 64 := by
  unfold Core.status
  cases k.intrap <;> cases k.pie <;> cases k.ie <;> rfl

theorem csrValue_cpt (s : State) (c : Fin 10) (i : Fin 4) (cyc : Nat) :
    s.csrValue c (0x040 + i.val) cyc = (s.core c).cpt[i] := by
  fin_cases i <;> simp [State.csrValue, Core.cptOf, nth]

theorem csrReadOnly_iff (n : Nat) :
    csrReadOnly n = true ↔ n ∈ [0x000, 0x002, 0x010, 0x011, 0x021, 0x023, 0x050, 0x060, 0x070] := List.contains_iff_mem

theorem castSucc_val_ne_nine (d : Fin 9) : d.castSucc.val ≠ 9 := by
  have := d.isLt
  simp only [Fin.val_castSucc]
  omega

/-- The CSRs that the planner cores have and the safety core has not. -/
theorem csrDefined_planner {n : Nat}
    (h : n ∈ [0x002, 0x011, 0x030, 0x040, 0x041, 0x042, 0x043, 0x044, 0x045, 0x050, 0x060]) :
    csrDefined 9 n = false ∧ ∀ d : Fin 9, csrDefined d.castSucc n = true := by
  unfold csrDefined
  simp only [castSucc_val_ne_nine, if_false]
  fin_cases h <;> decide

theorem csrDefined_flowsig : csrDefined 9 0x070 = true ∧ ∀ d : Fin 9, csrDefined d.castSucc 0x070 = false := by
  unfold csrDefined
  simp only [castSucc_val_ne_nine, if_false]
  decide

/-- Core c alone is written and read: nothing of the rest of the state is core-dependent in a CSR. -/
theorem csrValue_setCore_retimed (s : State) (c : Fin 10) (t : Core) {n : Nat} (h : n ≠ 0x060) (cyc : Nat) :
    (s.setCore c ((s.core c).retimed t)).csrValue c n cyc = s.csrValue c n cyc := by
  unfold State.csrValue
  rw [core_setCore]
  simp only [if_neg h]
  rfl

theorem csrr_runsAs {s : State} {c : Fin 10} {rd : Fin 32} {csr : BitVec 12} (h : s.mayRun c .sys [] (dstG rd) = true)
    (hdef : csrDefined c csr.toNat = true) :
    RunsAs s c (execCsrr c rd csr s) fun s1 =>
      s1.modCore c fun k => (k.wg rd (s1.csrValue c csr.toNat (s.issueCycle c .sys [] (dstG rd)))).adv := by
  obtain ⟨t, ht⟩ := execWith_of_mayRun (f := fun s1 cyc =>
    if !csrDefined c csr.toNat then s1.except c cyc 1 (wordI 0x0E rd.val 0 0 csr.toNat)
    else s1.modCore c fun k => (k.wg rd (s1.csrValue c csr.toNat cyc)).adv) h
  refine ⟨t, ?_⟩
  unfold execCsrr
  rw [ht, hdef]
  rfl

theorem csrr_traps {s : State} {c : Fin 10} {rd : Fin 32} {csr : BitVec 12} (h : s.mayRun c .sys [] (dstG rd) = true)
    (hdef : csrDefined c csr.toNat ≠ true) : Traps s c (execCsrr c rd csr s) 1 (wordI 0x0E rd.val 0 0 csr.toNat) := by
  obtain ⟨t, ht⟩ := execWith_of_mayRun (f := fun s1 cyc =>
    if !csrDefined c csr.toNat then s1.except c cyc 1 (wordI 0x0E rd.val 0 0 csr.toNat)
    else s1.modCore c fun k => (k.wg rd (s1.csrValue c csr.toNat cyc)).adv) h
  unfold execCsrr
  rw [ht, if_pos (by simpa using hdef)]
  exact traps_except s c t _ 1 _

/-- What CSRW, CSRS and CSRC do once they have issued. -/
def csrEffect (c : Fin 10) (rd ra : Fin 32) (n opx : Nat) (writes : Bool) (upd : DWord → DWord → DWord) (s : State) (cyc : Nat) :
    State :=
  let old := s.csrValue c n cyc
  let v := upd old ((s.core c).rg ra)
  let wr := writes && !csrReadOnly n
  if !csrDefined c n || (csrReadOnly n && ra != 0) then s.except c cyc 1 (wordI 0x0E rd.val ra.val opx n)
  else if wr && decide (0x040 ≤ n) && decide (n ≤ 0x043) && !s.cptLegal (v &&& cptMask) then
    s.except c cyc 1 (wordI 0x0E rd.val ra.val opx n)
  else
    let s2 := s.modCore c fun k => ((if wr then k.csrWrite n v else k).wg rd old).adv
    if wr then s2.takePending c cyc else s2

theorem csrOp_eq (s : State) (c : Fin 10) (rd ra : Fin 32) (csr : BitVec 12) (opx : Nat) (writes : Bool)
    (upd : DWord → DWord → DWord) :
    s.csrOp c rd ra csr opx writes upd =
      s.execWith c .sys [.g ra] (dstG rd) (csrEffect c rd ra csr.toNat opx writes upd) := rfl

section
variable {s : State} {c : Fin 10} {rd ra : Fin 32} {n opx cyc : Nat} {writes : Bool} {upd : DWord → DWord → DWord}

theorem csrEffect_undefined (h : csrDefined c n = false ∨ (csrReadOnly n = true ∧ ra ≠ 0)) :
    csrEffect c rd ra n opx writes upd s cyc = s.except c cyc 1 (wordI 0x0E rd.val ra.val opx n) :=
  if_pos (by simpa using h)

theorem csrEffect_badPoint (hdef : ¬(csrDefined c n = false ∨ (csrReadOnly n = true ∧ ra ≠ 0))) (hw : writes = true)
    (hro : csrReadOnly n = false) (hlo : 0x040 ≤ n) (hhi : n ≤ 0x043)
    (hbad : s.cptLegal (upd (s.csrValue c n cyc) ((s.core c).rg ra) &&& cptMask) = false) :
    csrEffect c rd ra n opx writes upd s cyc = s.except c cyc 1 (wordI 0x0E rd.val ra.val opx n) := by
  unfold csrEffect
  dsimp only
  rw [if_neg (by simpa using hdef), if_pos (by simp [hw, hro, hlo, hhi, hbad])]

theorem csrEffect_write (hdef : ¬(csrDefined c n = false ∨ (csrReadOnly n = true ∧ ra ≠ 0))) (hw : writes = true)
    (hro : csrReadOnly n = false) (hok : ¬(0x040 ≤ n ∧ n ≤ 0x043
      ∧ s.cptLegal (upd (s.csrValue c n cyc) ((s.core c).rg ra) &&& cptMask) = false)) :
    csrEffect c rd ra n opx writes upd s cyc =
      (s.modCore c fun k => ((k.csrWrite n (upd (s.csrValue c n cyc) ((s.core c).rg ra))).wg rd (s.csrValue c n cyc)).adv).takePending
        c cyc := by
  unfold csrEffect
  dsimp only
  rw [if_neg (by simpa using hdef), if_neg]
  · simp only [hw, hro, Bool.not_false, Bool.and_self, if_true]
  · simpa [hw, hro] using hok

theorem csrEffect_read (hdef : ¬(csrDefined c n = false ∨ (csrReadOnly n = true ∧ ra ≠ 0)))
    (hw : ¬(writes = true ∧ csrReadOnly n = false)) :
    csrEffect c rd ra n opx writes upd s cyc = s.modCore c fun k => (k.wg rd (s.csrValue c n cyc)).adv := by
  have hwr : (writes && !csrReadOnly n) = false := by
    rw [Bool.eq_false_iff]
    simpa using hw
  unfold csrEffect
  dsimp only
  rw [if_neg (by simpa using hdef)]
  simp only [hwr, Bool.false_and, Bool.false_eq_true, if_false]

end

theorem csrResult_of_csrOp {mk : Fin 10 → Fin 32 → Fin 32 → BitVec 12 → Instr} {opx : Nat} {writes : Fin 32 → Bool}
    {upd : DWord → DWord → DWord} (hmk : ∀ c rd ra csr s, exec (mk c rd ra csr) s = s.csrOp c rd ra csr opx (writes ra) upd) :
    CsrResult mk opx writes upd := by
  intro s c rd ra csr h
  obtain ⟨t, ht⟩ := execWith_of_mayRun (f := csrEffect c rd ra csr.toNat opx (writes ra) upd) h
  dsimp only
  rw [hmk, csrOp_eq, ht]
  have hold : ∀ m, 0x040 ≤ csr.toNat → csr.toNat ≤ 0x043 →
      (s.setCore c ((s.core c).retimed t)).csrValue c csr.toNat m = s.csrValue c csr.toNat m :=
    fun m hlo hhi => csrValue_setCore_retimed s c t (by omega) m
  split_ifs with hdef hwr hcpt
  · rw [csrEffect_undefined hdef]
    exact traps_except s c t _ 1 _
  · obtain ⟨hlo, hhi, hbad⟩ := hcpt
    rw [csrEffect_badPoint hdef hwr.1 hwr.2 hlo hhi]
    · exact traps_except s c t _ 1 _
    · rw [hold _ hlo hhi, core_setCore, retimed_rg]
      exact hbad
  · refine ⟨t, ?_⟩
    rw [csrEffect_write hdef hwr.1 hwr.2]
    · rfl
    · rintro ⟨hlo, hhi, hbad⟩
      rw [hold _ hlo hhi, core_setCore, retimed_rg] at hbad
      exact hcpt ⟨hlo, hhi, hbad⟩
  · exact ⟨t, congrArg Host.Outcome.next (csrEffect_read hdef hwr)⟩

end Sys2Proof.Machine

open Sys2Proof Sys2Proof.Machine

/-- Settles O1. -/
theorem coreRegisterFilesAndCsrs : Obligations.CoreRegisterFilesAndCsrs := by
  unfold Obligations.CoreRegisterFilesAndCsrs
  refine ⟨fun k i j v ff fi => ⟨rg_zero k, wg_zero k v, fun h => rg_wg_same k h v, fun h => rg_wg_ne k h v, ?_, fun h => ?_,
    wg_frame k i v, ⟨_, rfl⟩, rfl, rfl, rfl⟩, fun s c cyc v => ?_⟩
  · rw [rf_wf, if_pos rfl]
  · rw [rf_wf, if_neg h]
  · refine ⟨rfl, rfl, rfl, rfl, status_eq _, rfl, rfl, rfl, rfl, rfl, rfl, rfl, csrValue_cpt s c 0 cyc, csrValue_cpt s c 1 cyc,
      csrValue_cpt s c 2 cyc, csrValue_cpt s c 3 cyc, rfl, rfl, rfl, rfl, rfl, rfl, rfl, rfl, rfl, rfl, rfl, rfl, csrReadOnly_iff, fun n h => csrDefined_planner h, csrDefined_flowsig⟩

/-- Settles O13: the three forms that write are one operation. -/
theorem csrInstructionResults : Obligations.CsrInstructionResults := by
  unfold Obligations.CsrInstructionResults
  refine ⟨fun s c rd csr h => ?_, csrResult_of_csrOp (writes := fun _ => true) fun _ _ _ _ _ => rfl,
    csrResult_of_csrOp (writes := fun ra => ra != 0) fun _ _ _ _ _ => rfl,
    csrResult_of_csrOp (writes := fun ra => ra != 0) fun _ _ _ _ _ => rfl⟩
  split_ifs with hdef
  · exact csrr_runsAs h hdef
  · exact csrr_traps h hdef

end

section
/-! Waits, events, signals and traps (R84, R88–R90, R95, R111–R113). -/

namespace Sys2Proof.Machine

@[simp] theorem retimed_late (k t : Core) : (k.retimed t).late = k.late := (rfl)
@[simp] theorem retimed_evq (k t : Core) : (k.retimed t).evq = k.evq := (rfl)
@[simp] theorem retimed_intrap (k t : Core) : (k.retimed t).intrap = k.intrap := (rfl)

theorem waitResult_eq (late point : Bool) (k : Core) :
    waitResult late point k = BitVec.ofNat 64 ((if late then 2 ^ 63 else 0) + (if point then 2 ^ 62 else 0) + k.evq.length) := by
  cases late <;> cases point <;> rfl

theorem waitt_retires {s : State} {c : Fin 9} {rd : Fin 32} (h : s.mayRun c.castSucc .sys [] (dstG rd) = true) :
    Retires s c.castSucc (execWaitt c rd s)
      fun k => { k.adv with mode := .waiting, wait := some (.tick rd), waitFrom := s.epoch } := by
  obtain ⟨t, ht⟩ := execWith_of_mayRun
    (f := fun s1 _ => s1.modCore c.castSucc fun k => k.sleep s1.epoch (.tick rd)) h
  refine ⟨t, ?_⟩
  unfold execWaitt
  rw [ht, modCore_setCore]
  rfl

/-- What WAITP does once it has issued. -/
def waitpEffect (c : Fin 10) (rd : Fin 32) (s : State) : State :=
  s.modCore c fun k =>
    if k.late then ({ k with late := false }.wg rd (waitResult true false k)).adv
    else k.sleep (if c.val = 9 then s.halo.period.toNat else s.epoch) (.plan rd)

theorem execWaitp_eq (c : Fin 10) (rd : Fin 32) (s : State) :
    execWaitp c rd s = s.execWith c .sys [] (dstG rd) fun s1 _ => waitpEffect c rd s1 := rfl

theorem waitp_sleeps {s : State} {d : Fin 10} {rd : Fin 32} (h : s.mayRun d .sys [] (dstG rd) = true)
    (hlate : (s.core d).late = false) :
    Retires s d (execWaitp d rd s) fun k => { k.adv with
      mode := .waiting, wait := some (.plan rd), waitFrom := if d.val = 9 then s.halo.period.toNat else s.epoch } := by
  obtain ⟨t, ht⟩ := execWith_of_mayRun (f := fun s1 _ => waitpEffect d rd s1) h
  refine ⟨t, ?_⟩
  rw [execWaitp_eq, ht, waitpEffect, modCore_setCore, if_neg (by simpa using hlate)]
  rfl

theorem waitp_late {s : State} {d : Fin 10} {rd : Fin 32} (h : s.mayRun d .sys [] (dstG rd) = true)
    (hlate : (s.core d).late = true) :
    Retires s d (execWaitp d rd s) fun k =>
      ({ k with late := false }.wg rd (BitVec.ofNat 64 (2 ^ 63 + k.evq.length))).adv := by
  obtain ⟨t, ht⟩ := execWith_of_mayRun (f := fun s1 _ => waitpEffect d rd s1) h
  refine ⟨t, ?_⟩
  rw [execWaitp_eq, ht, waitpEffect, modCore_setCore, if_pos (by simpa using hlate), waitResult_eq]
  exact congrArg (fun k => Host.Outcome.next (s.setCore d (Core.adv k))) (retimed_wg { s.core d with late := false } t rd _)

/-- What WAITE does once it has issued. -/
def waiteEffect (c : Fin 9) (rd : Fin 32) (s : State) : State :=
  s.modCore c.castSucc fun k =>
    if k.evq.isEmpty then k.sleep s.epoch (.event rd) else (k.wg rd (waitResult false false k)).adv

theorem execWaite_eq (c : Fin 9) (rd : Fin 32) (s : State) :
    execWaite c rd s = s.execWith c.castSucc .sys [] (dstG rd) fun s1 _ => waiteEffect c rd s1 := rfl

theorem waite_sleeps {s : State} {c : Fin 9} {rd : Fin 32} (h : s.mayRun c.castSucc .sys [] (dstG rd) = true)
    (hq : (s.core c.castSucc).evq = []) :
    Retires s c.castSucc (execWaite c rd s)
      fun k => { k.adv with mode := .waiting, wait := some (.event rd), waitFrom := s.epoch } := by
  obtain ⟨t, ht⟩ := execWith_of_mayRun (f := fun s1 _ => waiteEffect c rd s1) h
  refine ⟨t, ?_⟩
  rw [execWaite_eq, ht, waiteEffect, modCore_setCore, if_pos (by simpa using hq)]
  rfl

theorem waite_returns {s : State} {c : Fin 9} {rd : Fin 32} (h : s.mayRun c.castSucc .sys [] (dstG rd) = true)
    (hq : (s.core c.castSucc).evq ≠ []) :
    Retires s c.castSucc (execWaite c rd s) fun k => (k.wg rd (BitVec.ofNat 64 k.evq.length)).adv := by
  obtain ⟨t, ht⟩ := execWith_of_mayRun (f := fun s1 _ => waiteEffect c rd s1) h
  refine ⟨t, ?_⟩
  rw [execWaite_eq, ht, waiteEffect, modCore_setCore, if_neg (by simpa using hq), waitResult_eq]
  simp only [Bool.false_eq_true, if_false, Nat.zero_add, retimed_wg, retimed_adv]
  rfl

/-- What POLL does to its core. -/
def pollEffect (rd : Fin 32) (k : Core) : Core :=
  match k.evq with
  | [] => k.wg rd 0
  | e :: q => { k with evq := q }.wg rd e.bits

theorem pollEffect_retimed (rd : Fin 32) (k t : Core) : pollEffect rd (k.retimed t) = (pollEffect rd k).retimed t := by
  unfold pollEffect
  rw [retimed_evq]
  cases k.evq with
  | nil => exact retimed_wg ..
  | cons e q => exact retimed_wg { k with evq := q } t rd e.bits

theorem poll_retires {s : State} {c : Fin 9} {rd : Fin 32} (h : s.mayRun c.castSucc .sys [] (dstG rd) = true) :
    Retires s c.castSucc (execPoll c rd s) fun k => (pollEffect rd k).adv :=
  exec1_retires (f := pollEffect rd) h (pollEffect_retimed rd)

theorem retires_congr {s : State} {c : Fin 10} {o : Res} {f g : Core → Core} (h : Retires s c o f)
    (hfg : f (s.core c) = g (s.core c)) : Retires s c o g := by
  obtain ⟨t, ht⟩ := h
  exact ⟨t, by rw [ht, hfg]⟩

theorem poll_removes {s : State} {c : Fin 9} {rd : Fin 32} {e : EvRec} {q : List EvRec}
    (h : s.mayRun c.castSucc .sys [] (dstG rd) = true) (hq : (s.core c.castSucc).evq = e :: q) :
    Retires s c.castSucc (execPoll c rd s) fun k =>
      ({ k with evq := q }.wg rd (e.cls ++ e.count ++ e.source ++ e.data)).adv :=
  retires_congr (poll_retires h) (by rw [pollEffect, hq]; rfl)

theorem poll_empty {s : State} {c : Fin 9} {rd : Fin 32} (h : s.mayRun c.castSucc .sys [] (dstG rd) = true)
    (hq : (s.core c.castSucc).evq = []) : Retires s c.castSucc (execPoll c rd s) fun k => (k.wg rd 0).adv :=
  retires_congr (poll_retires h) (by rw [pollEffect, hq])

/-! ### SIGNAL -/

/-- What SIGNAL does once it has issued. -/
def signalEffect (c : Fin 9) (ra : Fin 32) (imm : BitVec 12) (s : State) (cyc : Nat) : State :=
  if 16 ≤ imm.toNat then s.except c.castSucc cyc 1 (wordI 0x0E 0 ra.val 8 imm.toNat)
  else
    let v := ((s.core c.castSucc).rg ra).setWidth 32
    let s2 := s.modCore c.castSucc Core.adv
    if h : imm.toNat < 9 then { s2 with reqs := s2.reqs ++ [⟨c, s2.epoch, .signal ⟨imm.toNat, h⟩ v⟩] } else s2

theorem execSignal_eq (c : Fin 9) (ra : Fin 32) (imm : BitVec 12) (s : State) :
    execSignal c ra imm s = s.execWith c.castSucc .sys [.g ra] none (signalEffect c ra imm) := rfl

theorem signal_requests {s : State} {c : Fin 9} {ra : Fin 32} {imm : BitVec 12}
    (h : s.mayRun c.castSucc .sys [.g ra] none = true) (himm : imm.toNat < 9) :
    ∃ t : Core, execSignal c ra imm s = .next { s.setCore c.castSucc ((s.core c.castSucc).adv.retimed t) with
      reqs := s.reqs ++ [⟨c, s.epoch, .signal ⟨imm.toNat, himm⟩ (((s.core c.castSucc).rg ra).setWidth 32)⟩] } := by
  obtain ⟨t, ht⟩ := execWith_of_mayRun (f := signalEffect c ra imm) h
  refine ⟨t, ?_⟩
  rw [execSignal_eq, ht, signalEffect, if_neg (by omega)]
  dsimp only
  rw [dif_pos himm, core_setCore, modCore_setCore, retimed_rg]
  rfl

theorem signal_ignored {s : State} {c : Fin 9} {ra : Fin 32} {imm : BitVec 12}
    (h : s.mayRun c.castSucc .sys [.g ra] none = true) (hlo : 9 ≤ imm.toNat) (hhi : imm.toNat < 16) :
    Retires s c.castSucc (execSignal c ra imm s) Core.adv := by
  obtain ⟨t, ht⟩ := execWith_of_mayRun (f := signalEffect c ra imm) h
  refine ⟨t, ?_⟩
  rw [execSignal_eq, ht, signalEffect, if_neg (by omega)]
  dsimp only
  rw [dif_neg (by omega), modCore_setCore, retimed_adv]

theorem signal_traps {s : State} {c : Fin 9} {ra : Fin 32} {imm : BitVec 12}
    (h : s.mayRun c.castSucc .sys [.g ra] none = true) (himm : 16 ≤ imm.toNat) :
    Traps s c.castSucc (execSignal c ra imm s) 1 (wordI 0x0E 0 ra.val 8 imm.toNat) := by
  obtain ⟨t, ht⟩ := execWith_of_mayRun (f := signalEffect c ra imm) h
  rw [execSignal_eq, ht, signalEffect, if_pos himm]
  exact traps_except s c.castSucc t _ 1 _

/-! ### ERET and TRAP -/

/-- What ERET does once it has issued. -/
def eretEffect (c : Fin 10) (s : State) (cyc : Nat) : State :=
  if !(s.core c).intrap then s.except c cyc 1 (wordI 0x0E 0 0 9 0)
  else (s.modCore c fun k => k.returnTrap.idle (if c.val = 9 then 1 else 2)).takePending c cyc

theorem execEret_eq (c : Fin 10) (s : State) : execEret c s = s.execWith c .sys [] none (eretEffect c) := rfl

theorem eret_returns {s : State} {d : Fin 10} (h : s.mayRun d .sys [] none = true) (hin : (s.core d).intrap = true) :
    ∃ t : Core, execEret d s = .next ((s.setCore d (({ s.core d with
      ie := (s.core d).pie, intrap := false, pc := (s.core d).epc } : Core).retimed t)).takePending d (s.issueCycle d .sys [] none)) := by
  obtain ⟨t, ht⟩ := execWith_of_mayRun (f := eretEffect d) h
  refine ⟨((s.core d).retimed t).returnTrap.idle (if d.val = 9 then 1 else 2), ?_⟩
  rw [execEret_eq, ht, eretEffect, core_setCore, if_neg (by simpa using hin), modCore_setCore]
  rfl

theorem eret_traps {s : State} {d : Fin 10} (h : s.mayRun d .sys [] none = true) (hin : (s.core d).intrap = false) :
    Traps s d (execEret d s) 1 (wordI 0x0E 0 0 9 0) := by
  obtain ⟨t, ht⟩ := execWith_of_mayRun (f := eretEffect d) h
  rw [execEret_eq, ht, eretEffect, core_setCore, if_pos (by simpa using hin)]
  exact traps_except s d t _ 1 _

theorem eccNote_setCore (s : State) (c : Fin 10) (k : Core) (m : Fin 8) (e : Ecc) :
    (s.setCore c k).eccNote m e = (s.eccNote m e).setCore c k := by
  cases e <;> rfl

@[simp] theorem eccNote_core (s : State) (c : Fin 10) (m : Fin 8) (e : Ecc) : (s.eccNote m e).core c = s.core c := by
  cases e <;> rfl

theorem trap_traps {s : State} {d : Fin 10} {e : Ecc} (he : e ≠ .uncorr) (imm : BitVec 12)
    (h : s.mayRun d .sys [] none = true) :
    Traps (s.eccNote (if d.val = 9 then 7 else 0) e) d (execTrap d imm e s) 6 (imm.setWidth 64) := by
  obtain ⟨t, ht⟩ := execWith_of_mayRun
    (f := fun s1 cyc => (s1.eccNote (codeMemory d) e).except d cyc 6 (imm.setWidth 64)) h
  have htrap := traps_except (s.eccNote (codeMemory d) e) d t (s.issueCycle d .sys [] none) 6 (imm.setWidth 64)
  rw [eccNote_core, ← eccNote_setCore] at htrap
  have hrun : execTrap d imm e s = s.execWith d .sys [] none
      fun s1 cyc => (s1.eccNote (codeMemory d) e).except d cyc 6 (imm.setWidth 64) := if_neg (by simpa using he)
  rw [hrun, ht]
  exact htrap

/-- A core that halts keeps its PC, and its memory's counts stand as they were (R97). -/
theorem haltCore_core (s : State) (c : Fin 10) (cyc : Nat) :
    (s.haltCore c cyc).core c =
      { s.core c with mode := .halted, wait := none, cleanup := true, causeCopy := (s.core c).cause } := by
  unfold State.haltCore State.core
  dsimp only
  split_ifs <;> simp [State.core]

theorem haltCore_saf (s : State) (c : Fin 10) (cyc : Nat) : (s.haltCore c cyc).saf = s.saf := by
  unfold State.haltCore
  dsimp only
  split_ifs <;> rfl

theorem trap_uncorrected_planner {s : State} {c : Fin 9} (imm : BitVec 12) (h : s.canIssue c.castSucc = true) :
    ∃ t, execTrap c.castSucc imm .uncorr s = .next t ∧ (t.core c.castSucc).mode = .halted
      ∧ (t.core c.castSucc).pc = (s.core c.castSucc).pc ∧ t.saf.ecc = (s.eccUp 0).saf.ecc := by
  refine ⟨(s.eccUp 0).haltCore c.castSucc (s.core c.castSucc).cyc, ?_, ?_, ?_, ?_⟩
  · rw [execTrap, if_pos (beq_self_eq_true _), if_pos h, if_neg (castSucc_val_ne_nine c)]
  · rw [haltCore_core]
  · rw [haltCore_core]
    rfl
  · rw [haltCore_saf]

theorem trap_uncorrected_safety {s : State} (imm : BitVec 12) (h : s.canIssue 9 = true) :
    ∃ n, Traps { s.eccUp 7 with
        reports := s.reports ++ [⟨0x1806, 3, false, s.now, Config.faultDetail 0x1806 s.free⟩], free := n } 9
      (execTrap 9 imm .uncorr s) 4 (s.core 9).pc := by
  refine ⟨s.free + 1, ?_⟩
  rw [execTrap, if_pos (beq_self_eq_true _), if_pos h, if_pos (show (9 : Fin 10).val = 9 from rfl)]
  have htrap := traps_except ((s.eccUp 7).raise 0x1806 3) 9 (s.core 9) (s.core 9).cyc 4 (s.core 9).pc
  have hsame : ((s.eccUp 7).raise 0x1806 3).setCore 9 ((((s.eccUp 7).raise 0x1806 3).core 9).retimed (s.core 9)) =
      (s.eccUp 7).raise 0x1806 3 := setCore_core ((s.eccUp 7).raise 0x1806 3) 9
  rw [hsame] at htrap
  exact htrap

end Sys2Proof.Machine

open Sys2Proof Sys2Proof.Machine

/-- Settles O14. -/
theorem waitEventAndTrapResults : Obligations.WaitEventAndTrapResults := fun _ _ _ _ _ _ =>
  ⟨waitt_retires, waitp_sleeps, waitp_late, waite_sleeps, waite_returns, fun _ _ h hq => poll_removes h hq, poll_empty,
    fun himm h => signal_requests h himm, fun hlo hhi h => signal_ignored h hlo hhi, fun himm h => signal_traps h himm,
    eret_returns, eret_traps, fun _ he h => trap_traps he _ h, fun h => trap_uncorrected_planner _ h,
    fun h => trap_uncorrected_safety _ h⟩

end

section
/-! Cycle points: how one fires on a core that runs or sleeps, and how a pending one is taken (R91–R95). -/

namespace Sys2Proof.Machine

/-! ### What a trap leaves -/

@[simp] theorem haltCore_data (s : State) (c : Fin 10) (cyc : Nat) : (s.haltCore c cyc).data = s.data := by
  unfold State.haltCore
  dsimp only
  split_ifs <;> simp

@[simp] theorem takeTrap_data (s : State) (c : Fin 10) (cyc : Nat) (isInt : Bool) (code : Nat) (tval epc : DWord) :
    (s.takeTrap c cyc isInt code tval epc).data = s.data := by
  unfold State.takeTrap
  dsimp only
  split_ifs <;> simp

/-- A core that an interrupt takes in cycle `cyc` (R95). -/
def Core.interrupted (k : Core) (cyc i : Nat) (tval epc : DWord) : Core :=
  { k with
    cause := BitVec.ofNat 64 (2 ^ 63 + i), tval := tval, epc := epc, pie := k.ie, ie := false, intrap := true, pc := k.tvec,
    causeCopy := BitVec.ofNat 64 (2 ^ 63 + i), cyc := cyc + 3, pair := none, mode := .running, wait := none,
    budget := k.budget + (cyc + 3) - k.cyc }

/-- Where the core then halts, that shows in its mode and its clean-up alone. -/
theorem takeTrap_interrupts (s : State) (c : Fin 10) (cyc i : Nat) (tval epc : DWord) :
    ∃ m b, (s.takeTrap c cyc true i tval epc).core c = { (s.core c).interrupted cyc i tval epc with mode := m, cleanup := b } := by
  unfold State.takeTrap
  dsimp only
  simp only [Bool.not_true, Bool.and_false, Bool.false_eq_true, if_false, if_true, Bool.false_and, Bool.false_or,
    decide_eq_true_eq]
  split_ifs
  · exact ⟨.halted, true, by rw [haltCore_core, core_setCore]; rfl⟩
  · exact ⟨.running, (s.core c).cleanup, by rw [core_setCore]; rfl⟩

/-! ### Pending points -/

theorem lowestPoint_eq {b : BitVec 4} {i : Fin 4} (hi : b.getLsbD i.val = true) (hlow : ∀ j < i.val, b.getLsbD j = false) :
    lowestPoint b = some i.val := by
  unfold lowestPoint
  rw [List.find?_range_eq_some]
  exact ⟨hi, List.mem_range.mpr i.isLt, fun j hj => by simp [hlow j hj]⟩

theorem getLsbD_clearPoint (b : BitVec 4) (i : Nat) {j : Nat} (hj : j < 4) :
    (b &&& ~~~(BitVec.ofNat 4 (2 ^ i))).getLsbD j = (b.getLsbD j && decide (j ≠ i)) := by
  rw [BitVec.getLsbD_and, BitVec.getLsbD_not, BitVec.getLsbD_ofNat, Nat.testBit_two_pow]
  simp only [hj, decide_true, Bool.true_and, ne_eq, decide_not, eq_comm]

theorem takePending_of_none {s : State} {c : Fin 10} (h : (s.core c).ie = false ∨ (s.core c).cptPend = 0) (cyc : Nat) :
    s.takePending c cyc = s := by
  unfold State.takePending
  dsimp only
  split
  next hie hlow =>
    rcases h with h | h
    · cases h.symm.trans hie
    · rw [h] at hlow
      cases hlow
  next => rfl

theorem takePending_of_lowest {s : State} {c : Fin 10} {i : Nat} (hie : (s.core c).ie = true)
    (hlow : lowestPoint (s.core c).cptPend = some i) (cyc : Nat) :
    s.takePending c cyc =
      (s.modCore c fun k => { k with cptPend := k.cptPend &&& (~~~(BitVec.ofNat 4 (2 ^ i))) }).takePoint c cyc i := by
  unfold State.takePending
  dsimp only
  rw [hie, hlow]

theorem takePoint_core (s : State) (c : Fin 10) (cyc i : Nat) :
    ∃ m b tval, (s.takePoint c cyc i).core c = { (s.core c).interrupted cyc i tval (s.core c).pc with mode := m, cleanup := b } := by
  obtain ⟨m, b, h⟩ := takeTrap_interrupts { s with free := s.free + 1 } c cyc i (Config.freeVal s.free) (s.core c).pc
  exact ⟨m, b, Config.freeVal s.free, h⟩

theorem takePoint_data (s : State) (c : Fin 10) (cyc i : Nat) : (s.takePoint c cyc i).data = s.data := takeTrap_data ..

/-! ### A point that fires -/

/-- A point pends where it fires with IE = 0; one that pends already is missed (R92). -/
def Core.pendPoint (k : Core) (i : Fin 4) : Core :=
  { k with
    cptMiss := if k.cptPend.getLsbD i.val then k.cptMiss ||| BitVec.ofNat 4 (2 ^ i.val) else k.cptMiss
    cptPend := k.cptPend ||| BitVec.ofNat 4 (2 ^ i.val) }

theorem firePoint_of_masked {s : State} {c : Fin 10} (hie : (s.core c).ie = false) (i : Fin 4) (off : Nat) :
    s.firePoint c i off = s.setCore c ((s.core c).pendPoint i) := if_neg (by simp [hie])

theorem firePoint_of_enabled {s : State} {c : Fin 10} (hie : (s.core c).ie = true) (i : Fin 4) (off : Nat) :
    s.firePoint c i off = s.takePoint c (max off ((s.core c).cyc - 3)) i.val := if_pos hie

/-- The cycle a point fires in. -/
def pointCycle (v : DWord) : Nat := (v.setWidth 32).toNat

/-- The point fires on a core that is live and not frozen, enabled and selected by its EVERY. -/
structure PointFires (s : State) (c : Fin 9) (i : Fin 4) : Prop where
  running : s.running = true
  present : s.corePresent c.val = true
  frozen : (s.core c.castSucc).frozen = false
  enabled : ((s.core c.castSucc).cpt[i]).getLsbD 63 = true
  selected : ((s.core c.castSucc).cpt[i]).getLsbD 60 = false ∨ s.epoch % s.prof.planDiv = 0

theorem PointFires.on_running {s : State} {c : Fin 9} {i : Fin 4} (h : PointFires s c i)
    (hmode : (s.core c.castSucc).mode = .running) :
    execCyclePointFire c i s = .next (s.firePoint c.castSucc i (pointCycle ((s.core c.castSucc).cpt[i]))) := by
  obtain ⟨hrun, hpres, hfro, hen, hsel⟩ := h
  unfold execCyclePointFire
  dsimp only
  rw [if_neg]
  · rw [hmode]
    rfl
  · have hsel' : (!((s.core c.castSucc).cpt[i]).getLsbD 60 || s.epoch % s.prof.planDiv == 0) = true := by
      rw [Bool.or_eq_true, Bool.not_eq_true', beq_iff_eq]
      exact hsel
    simp only [State.coreLive, Fin.val_castSucc, hrun, hpres, hmode, hfro, hen, hsel']
    decide

/-- The core of a sleeper that a WAKE point runs again (R93). -/
def Core.pointWoken (k : Core) (w : Wait) (cyc : Nat) : Core :=
  match w with
  | .tick rd | .plan rd | .event rd => ({ k with mode := .running, wait := none, cyc := cyc } : Core).wg rd (waitResult false true k)
  | .line _ _ _ _ _ | .job _ _ _ => { k with mode := .running, wait := none, cyc := cyc }

/-- A point without WAKE is missed by a sleeper (R93). -/
def Core.missPoint (k : Core) (i : Fin 4) : Core :=
  { k with cptMiss := k.cptMiss ||| BitVec.ofNat 4 (2 ^ i.val) }

theorem PointFires.on_sleeping {s : State} {c : Fin 9} {i : Fin 4} {w : Wait} (h : PointFires s c i)
    (hmode : (s.core c.castSucc).mode = .waiting) (hwait : (s.core c.castSucc).wait = some w) :
    execCyclePointFire c i s = .next (
      if ((s.core c.castSucc).cpt[i]).getLsbD 62 then
        (s.setCore c.castSucc ((s.core c.castSucc).pointWoken w (pointCycle ((s.core c.castSucc).cpt[i])))).firePoint
          c.castSucc i (pointCycle ((s.core c.castSucc).cpt[i]))
      else s.setCore c.castSucc ((s.core c.castSucc).missPoint i)) := by
  obtain ⟨hrun, hpres, hfro, hen, hsel⟩ := h
  unfold execCyclePointFire
  dsimp only
  rw [if_neg]
  · rw [hmode, hwait]
    refine congrArg Host.Outcome.next (ite_congr rfl (fun _ => ?_) fun _ => rfl)
    refine congrArg (fun k => (s.setCore c.castSucc k).firePoint c.castSucc i _) ?_
    cases w
    · rfl
    · rfl
    · rfl
    · rfl
    · rfl
  · have hsel' : (!((s.core c.castSucc).cpt[i]).getLsbD 60 || s.epoch % s.prof.planDiv == 0) = true := by
      rw [Bool.or_eq_true, Bool.not_eq_true', beq_iff_eq]
      exact hsel
    simp only [State.coreLive, Fin.val_castSucc, hrun, hpres, hmode, hfro, hen, hsel']
    decide

theorem pointWoken_ie (k : Core) (w : Wait) (cyc : Nat) : (k.pointWoken w cyc).ie = k.ie := by
  cases w with
  | tick rd | plan rd | event rd =>
    obtain ⟨g, hg⟩ := wg_frame ({ k with mode := .running, wait := none, cyc := cyc } : Core) rd (waitResult false true k)
    rw [Core.pointWoken, hg]
  | line | job => rfl

end Sys2Proof.Machine

open Sys2Proof Sys2Proof.Machine

/-- Settles O15. -/
theorem cyclePointsFireAndPend : Obligations.CyclePointsFireAndPend := by
  unfold Obligations.CyclePointsFireAndPend
  refine ⟨fun s c i hrun hpres hmode hfro hen hsel => ⟨fun hie => ?masked, fun hie => ?taken⟩,
    fun s c cyc => ⟨fun h => takePending_of_none h cyc, fun i hie hi hlow => ?pending⟩⟩
  case masked =>
    refine (PointFires.on_running ⟨hrun, hpres, hfro, hen, hsel⟩ hmode).trans ?_
    rw [firePoint_of_masked hie]
    rfl
  case taken =>
    refine ⟨_, PointFires.on_running ⟨hrun, hpres, hfro, hen, hsel⟩ hmode, ?_⟩
    rw [firePoint_of_enabled hie]
    obtain ⟨m, b, tval, hcore⟩ := takePoint_core s c.castSucc
      (max (pointCycle ((s.core c.castSucc).cpt[i])) ((s.core c.castSucc).cyc - 3)) i.val
    rw [hcore, takePoint_data]
    exact ⟨rfl, rfl, rfl, rfl, hie, rfl, rfl, rfl, rfl⟩
  case pending =>
    rw [takePending_of_lowest hie (lowestPoint_eq hi hlow)]
    obtain ⟨m, b, tval, hcore⟩ := takePoint_core
      (s.modCore c fun k => { k with cptPend := k.cptPend &&& (~~~(BitVec.ofNat 4 (2 ^ i.val))) }) c cyc i.val
    dsimp only
    rw [hcore, State.modCore, core_setCore]
    refine ⟨rfl, rfl, rfl, rfl, hie, rfl, rfl, rfl, ?_, fun j hj hne => ?_⟩
    · refine (getLsbD_clearPoint _ _ i.isLt).trans ?_
      simp
    · refine (getLsbD_clearPoint _ _ hj).trans ?_
      simp [hne]

/-- Settles O16. -/
theorem sleepingCoreCyclePoints : Obligations.SleepingCoreCyclePoints := by
  intro s c i w c10 k hrun hpres hmode hwait hfro hen hsel
  have hfires := PointFires.on_sleeping (s := s) (c := c) (i := i) ⟨hrun, hpres, hfro, hen, hsel⟩ hmode hwait
  have hwoken : k.cpt[i].getLsbD 62 = true → k.ie = false → exec (.cyclePointFire c i) s =
      .next (s.setCore c10 ((k.pointWoken w (pointCycle k.cpt[i])).pendPoint i)) := fun hw hie => by
    refine hfires.trans ?_
    rw [if_pos hw, firePoint_of_masked (by rw [core_setCore, pointWoken_ie]; exact hie), core_setCore, setCore_setCore]
  refine ⟨fun hw => hfires.trans ?_, fun rd hw hie hwt => ⟨_, hwoken hw hie, ?_⟩, fun hw hie hwt => ⟨_, hwoken hw hie, ?_⟩⟩
  · rw [if_neg (by simpa using hw)]
    rfl
  · have hcore : k.pointWoken w (pointCycle k.cpt[i]) =
        ({ k with mode := .running, wait := none, cyc := pointCycle k.cpt[i] } : Core).wg rd (waitResult false true k) := by
      rcases hwt with rfl | rfl | rfl <;> rfl
    rw [hcore]
    generalize hk1 : ({ k with mode := .running, wait := none, cyc := pointCycle k.cpt[i] } : Core) = k1
    obtain ⟨g, hg⟩ := wg_frame k1 rd (waitResult false true k)
    have hrg : ∀ r, ((k1.wg rd (waitResult false true k)).pendPoint i).rg r = (k1.wg rd (waitResult false true k)).rg r :=
      fun _ => rfl
    have hkr : ∀ r, k1.rg r = k.rg r := fun r => by rw [← hk1]; rfl
    refine ⟨by rw [hg, ← hk1]; rfl, by rw [hg, ← hk1]; rfl, by rw [hg, ← hk1]; rfl, ?_, fun r hr => ?_, by rw [hg, ← hk1]; rfl⟩
    · rw [hrg, rg_wg, if_pos rfl, waitResult_eq]
      simp
    · rw [hrg, rg_wg_ne _ (Ne.symm hr), hkr]
  · cases w with
    | tick rd => exact absurd rfl (hwt rd).1
    | plan rd => exact absurd rfl (hwt rd).2.1
    | event rd => exact absurd rfl (hwt rd).2.2
    | line => exact ⟨rfl, rfl, rfl, rfl, rfl, rfl⟩
    | job => exact ⟨rfl, rfl, rfl, rfl, rfl, rfl⟩

end

section
/-! The waits that end at a boundary, the plan period and the signals (R84, R85, R88, R90, R113, R130, R134). -/

namespace Sys2Proof.Machine

/-! ### Wakes -/

theorem waitResult_plain (k : Core) : waitResult false false k = BitVec.ofNat 64 k.evq.length := by
  rw [waitResult_eq]
  simp

theorem wakeCore_of_some {s : State} {c : Fin 10} {rd : Fin 32} (h : s.wakeDue c = some rd) :
    s.wakeCore c = s.setCore c ((s.core c).wake s.epoch rd (BitVec.ofNat 64 (s.core c).evq.length)) := by
  unfold State.wakeCore
  rw [h, ← waitResult_plain]
  rfl

theorem wakeCore_of_none {s : State} {c : Fin 10} (h : s.wakeDue c = none) : s.wakeCore c = s := by
  unfold State.wakeCore
  rw [h]

/-- Whether the wait of a planner core ends at this boundary, and the register it writes (R88). -/
def State.waitEnds (s : State) (k : Core) : Wait → Option (Fin 32)
  | .tick rd => some rd
  | .plan rd => if s.epoch % s.prof.planDiv = 0 then some rd else none
  | .event rd => if k.evq.isEmpty then none else some rd
  | _ => none

theorem wakeDue_planner {s : State} {c : Fin 10} {w : Wait} (hc : c.val ≠ 9) (hmode : (s.core c).mode = .waiting)
    (hfrom : (s.core c).waitFrom < s.epoch) (hwait : (s.core c).wait = some w) :
    s.wakeDue c = s.waitEnds (s.core c) w := by
  unfold State.wakeDue
  dsimp only
  rw [if_neg hc, if_pos (by rw [hmode, decide_eq_true hfrom]; rfl), hwait]
  cases w <;> rfl

/-- The safety core is due when a Halo-period start marker has come since it slept (R113). -/
theorem wakeDue_safety {s : State} {rd : Fin 32} (hmode : (s.core 9).mode = .waiting)
    (hwait : (s.core 9).wait = some (.plan rd)) :
    s.wakeDue 9 = if (s.core 9).waitFrom != s.halo.period.toNat then some rd else none := by
  unfold State.wakeDue
  dsimp only
  rw [if_pos (show (9 : Fin 10).val = 9 from rfl), hmode, hwait]

/-- A WAITP that ends marks the boundary of the plan period (R84). -/
theorem wake_marked {k : Core} {r : Fin 32} (hw : k.wait = some (.plan r)) (epoch : Nat) (rd : Fin 32) (v : DWord) :
    k.wake epoch rd v = { k.wg rd v with mode := .running, wait := none, cyc := 0, wokeAt := some epoch } := by
  unfold Core.wake
  simp only [hw]

theorem wg_wokeAt (k : Core) (rd : Fin 32) (v : DWord) : (k.wg rd v).wokeAt = k.wokeAt := by
  obtain ⟨g, hg⟩ := wg_frame k rd v
  rw [hg]

theorem wg_pc (k : Core) (rd : Fin 32) (v : DWord) : (k.wg rd v).pc = k.pc := by
  obtain ⟨g, hg⟩ := wg_frame k rd v
  rw [hg]

/-- A wait other than WAITP ends without a mark of the plan period. -/
theorem wake_unmarked {k : Core} {w : Wait} (hw : k.wait = some w) (hplan : ∀ r, w ≠ .plan r) (epoch : Nat) (rd : Fin 32)
    (v : DWord) : k.wake epoch rd v = { k.wg rd v with mode := .running, wait := none, cyc := 0 } := by
  unfold Core.wake
  simp only [hw]
  cases w with
  | plan r => exact absurd rfl (hplan r)
  | tick | event | line | job => dsimp only; rw [← wg_wokeAt k rd v]

theorem endWait_eq {k : Core} {w : Wait} (hw : k.wait = some w) (hplan : ∀ r, w ≠ .plan r) (epoch : Nat) (rd : Fin 32)
    (v : DWord) : k.endWait epoch rd v = { k.wg rd v with mode := .running, wait := none, cyc := 0, pc := k.pc + 4 } := by
  unfold Core.endWait
  rw [wake_unmarked hw hplan, ← wg_pc k rd v]
  rfl

theorem waitWake_tick {s : State} {c : Fin 10} {rd : Fin 32} (hc : c.val ≠ 9) (hmode : (s.core c).mode = .waiting)
    (hfrom : (s.core c).waitFrom < s.epoch) (hwait : (s.core c).wait = some (.tick rd)) :
    s.wakeCore c = s.setCore c { (s.core c).wg rd (BitVec.ofNat 64 (s.core c).evq.length) with
      mode := .running, wait := none, cyc := 0 } := by
  rw [wakeCore_of_some (wakeDue_planner hc hmode hfrom hwait), wake_unmarked hwait (by simp)]

theorem waitWake_event {s : State} {c : Fin 10} {rd : Fin 32} (hc : c.val ≠ 9) (hmode : (s.core c).mode = .waiting)
    (hfrom : (s.core c).waitFrom < s.epoch) (hwait : (s.core c).wait = some (.event rd)) :
    s.wakeCore c = if (s.core c).evq.isEmpty then s
      else s.setCore c { (s.core c).wg rd (BitVec.ofNat 64 (s.core c).evq.length) with
        mode := .running, wait := none, cyc := 0 } := by
  have hdue := wakeDue_planner hc hmode hfrom hwait
  simp only [State.waitEnds] at hdue
  split
  next hq => exact wakeCore_of_none (by rw [hdue, if_pos hq])
  next hq => rw [wakeCore_of_some (by rw [hdue, if_neg hq]), wake_unmarked hwait (by simp)]

theorem waitWake_plan {s : State} {c : Fin 10} {rd : Fin 32} (hc : c.val ≠ 9) (hmode : (s.core c).mode = .waiting)
    (hfrom : (s.core c).waitFrom < s.epoch) (hwait : (s.core c).wait = some (.plan rd)) :
    s.wakeCore c = if s.epoch % s.prof.planDiv = 0 then
        s.setCore c { (s.core c).wg rd (BitVec.ofNat 64 (s.core c).evq.length) with
          mode := .running, wait := none, cyc := 0, wokeAt := some s.epoch }
      else s := by
  have hdue := wakeDue_planner hc hmode hfrom hwait
  simp only [State.waitEnds] at hdue
  split
  next hq => rw [wakeCore_of_some (by rw [hdue, if_pos hq]), wake_marked hwait]
  next hq => exact wakeCore_of_none (by rw [hdue, if_neg hq])

theorem waitWake_safety {s : State} {rd : Fin 32} (hmode : (s.core 9).mode = .waiting)
    (hwait : (s.core 9).wait = some (.plan rd)) :
    s.wakeCore 9 = if (s.core 9).waitFrom ≠ s.halo.period.toNat then
        s.setCore 9 { (s.core 9).wg rd (BitVec.ofNat 64 (s.core 9).evq.length) with
          mode := .running, wait := none, cyc := 0, wokeAt := some s.epoch }
      else s := by
  have hdue := wakeDue_safety hmode hwait
  split
  next hq => rw [wakeCore_of_some (by rw [hdue, if_pos (bne_iff_ne.mpr hq)]), wake_marked hwait]
  next hq => exact wakeCore_of_none (by rw [hdue, if_neg (fun h => hq (bne_iff_ne.mp h))])

theorem waitlWake_eq {s : State} {c : Fin 9} {rd : Fin 32} {n : Fin 8} {le : Bool} {target dl : DWord}
    (hmode : (s.core c.castSucc).mode = .waiting) (hfrom : (s.core c.castSucc).waitFrom < s.epoch)
    (hwait : (s.core c.castSucc).wait = some (.line rd n le target dl)) :
    execWaitlWake c s = .next (match s.evalLine c n.val le target dl false with
      | some v => s.setCore c.castSucc { (s.core c.castSucc).wg rd v with
          mode := .running, wait := none, cyc := 0, pc := (s.core c.castSucc).pc + 4 }
      | none => s) := by
  unfold execWaitlWake
  dsimp only
  rw [hmode]
  generalize hw : (s.core c.castSucc).wait = w at hwait
  subst hwait
  dsimp only
  rw [if_pos hfrom]
  cases s.evalLine c n.val le target dl false with
  | none => rfl
  | some v => exact congrArg (fun k => Host.Outcome.next (s.setCore c.castSucc k)) (endWait_eq hw (by simp) _ _ _)

/-- The evaluation of a job wait collects the outcome; no core changes (R134). -/
theorem collect_cores {s : State} {c : Fin 9} {h : Word} {r : BitVec 16 × State} (hc : s.collect c h = some r) :
    r.2.cores = s.cores := by
  unfold State.collect at hc
  split at hc
  · cases hc
  · obtain ⟨e, -, rfl⟩ := Option.map_eq_some_iff.mp hc
    rfl

theorem evalJob_cores {s : State} {c : Fin 9} {h dl : DWord} {b : Bool} {r : DWord × State}
    (he : s.evalJob c h dl b = some r) : r.2.cores = s.cores := by
  unfold State.evalJob at he
  dsimp only at he
  split at he
  · cases he
    rfl
  · split at he
    next q hq =>
      cases he
      exact collect_cores hq
    next =>
      split at he
      · cases he
        rfl
      · split at he <;> cases he
        rfl

theorem jwaitWake_eq {s : State} {c : Fin 9} {rd : Fin 32} {h dl : DWord}
    (hmode : (s.core c.castSucc).mode = .waiting) (hfrom : (s.core c.castSucc).waitFrom < s.epoch)
    (hwait : (s.core c.castSucc).wait = some (.job rd h dl)) :
    execJwaitWake c s = .next (match s.evalJob c h dl false with
      | some (v, t) => t.setCore c.castSucc { (s.core c.castSucc).wg rd v with
          mode := .running, wait := none, cyc := 0, pc := (s.core c.castSucc).pc + 4 }
      | none => s) := by
  unfold execJwaitWake
  dsimp only
  rw [hmode]
  generalize hw : (s.core c.castSucc).wait = w at hwait
  subst hwait
  dsimp only
  rw [if_pos hfrom]
  cases he : s.evalJob c h dl false with
  | none => rfl
  | some r =>
    obtain ⟨v, t⟩ := r
    have hcore : t.core c.castSucc = s.core c.castSucc := by
      rw [State.core, State.core, evalJob_cores he]
    have hmod : t.modCore c.castSucc (fun k => k.endWait s.epoch rd v) =
        t.setCore c.castSucc ((s.core c.castSucc).endWait s.epoch rd v) := by rw [State.modCore, hcore]
    exact congrArg Host.Outcome.next (hmod.trans (congrArg (t.setCore c.castSucc) (endWait_eq hw (by simp) _ _ _)))

/-! ### PLAN_PERIOD_START -/

/-- A core that was late, or not, when the plan period began, with its budget restarted (R83, R84). -/
def Core.restartBudget (k : Core) (epoch : Nat) : Core := { k.markLate epoch with budget := 0, overrun := false }

/-- Whether the core is a late waker: it runs or sleeps in another wait, and was neither woken nor started at this boundary. -/
def Core.lateWaker (k : Core) (epoch : Nat) : Bool :=
  let asleep : Bool := match k.wait with | some (.plan _) => true | _ => false
  let live : Bool := k.mode == .running || k.mode == .waiting
  live && !asleep && k.wokeAt != some epoch && k.startedAt != some epoch

theorem markLate_eq (k : Core) (epoch : Nat) :
    k.markLate epoch = if k.lateWaker epoch then { k with late := true, lateCnt := satAdd 255 k.lateCnt 1 } else k := rfl

theorem lateWaker_of_plan {k : Core} {rd : Fin 32} (hw : k.wait = some (.plan rd)) (epoch : Nat) :
    k.lateWaker epoch = false := by
  unfold Core.lateWaker
  rw [hw]
  simp

theorem lateWaker_of_other {k : Core} (hw : ∀ rd, k.wait ≠ some (.plan rd)) (epoch : Nat) :
    k.lateWaker epoch =
      ((k.mode == .running || k.mode == .waiting) && k.wokeAt != some epoch && k.startedAt != some epoch) := by
  unfold Core.lateWaker
  split
  next rd h => exact absurd h (hw rd)
  next => simp

theorem markLate_frame (k : Core) (epoch : Nat) :
    ∃ lateCnt, k.markLate epoch = { k with late := k.late || k.lateWaker epoch, lateCnt := lateCnt } := by
  rw [markLate_eq]
  cases k.lateWaker epoch with
  | true => exact ⟨_, by rw [Bool.or_true]; rfl⟩
  | false => exact ⟨_, by rw [Bool.or_false]; rfl⟩

theorem restartBudget_frame (k : Core) (epoch : Nat) :
    ∃ lateCnt, k.restartBudget epoch =
      { k with late := k.late || k.lateWaker epoch, lateCnt := lateCnt, budget := 0, overrun := false } := by
  obtain ⟨cnt, h⟩ := markLate_frame k epoch
  exact ⟨cnt, by rw [Core.restartBudget, h]⟩

theorem restartBudget_wait (k : Core) (epoch : Nat) : (k.restartBudget epoch).wait = k.wait := by
  obtain ⟨cnt, h⟩ := restartBudget_frame k epoch
  rw [h]

theorem modCore_eq (s : State) (c : Fin 10) (f : Core → Core) : s.modCore c f = s.setCore c (f (s.core c)) := rfl

/-- The plan period begins for one core. -/
def State.startPeriod (st : State) (c : Fin 9) : State :=
  if st.corePresent c.val then
    let st1 := st.modCore c.castSucc fun k => k.restartBudget st.epoch
    match (st1.core c.castSucc).wait with
    | some (.plan _) => st1.wakeCore c.castSucc
    | _ => st1
  else st

theorem planPeriodStart_eq {s : State} (hrun : s.running = true) (hper : s.epoch % s.prof.planDiv = 0) :
    exec .planPeriodStart s = .next ((List.finRange 9).foldl State.startPeriod s) := by
  show execPlanPeriodStart s = _
  unfold execPlanPeriodStart
  rw [if_pos (by rw [hrun, beq_iff_eq.mpr hper]; rfl)]
  rfl

theorem startPeriod_absent {s : State} {c : Fin 9} (h : s.corePresent c.val = false) : s.startPeriod c = s :=
  if_neg (by simp [h])

/-- A core in no WAITP has its budget restarted. -/
theorem startPeriod_other {s : State} {c : Fin 9} (hpres : s.corePresent c.val = true)
    (hwait : ∀ rd, (s.core c.castSucc).wait ≠ some (.plan rd)) :
    s.startPeriod c = s.setCore c.castSucc ((s.core c.castSucc).restartBudget s.epoch) := by
  unfold State.startPeriod
  rw [if_pos hpres]
  dsimp only
  rw [modCore_eq, core_setCore, restartBudget_wait]
  split
  next rd h => exact absurd h (hwait rd)
  next => rfl

/-- A core in WAITP is woken where its boundary has come. -/
theorem startPeriod_plan {s : State} {c : Fin 9} {rd : Fin 32} (hpres : s.corePresent c.val = true)
    (hwait : (s.core c.castSucc).wait = some (.plan rd)) :
    s.startPeriod c = (s.setCore c.castSucc ((s.core c.castSucc).restartBudget s.epoch)).wakeCore c.castSucc := by
  unfold State.startPeriod
  rw [if_pos hpres]
  dsimp only
  rw [modCore_eq, core_setCore, restartBudget_wait, hwait]

theorem wakeCore_setsCore (s : State) (c : Fin 10) : ∃ k, s.wakeCore c = s.setCore c k := by
  cases h : s.wakeDue c with
  | none => exact ⟨s.core c, by rw [wakeCore_of_none h, setCore_core]⟩
  | some rd => exact ⟨_, wakeCore_of_some h⟩

/-- The plan period changes no more than the core it begins for. -/
theorem startPeriod_setsCore (s : State) (c : Fin 9) : ∃ k, s.startPeriod c = s.setCore c.castSucc k := by
  by_cases hpres : s.corePresent c.val = true
  · by_cases hwait : ∃ rd, (s.core c.castSucc).wait = some (.plan rd)
    · obtain ⟨rd, hwait⟩ := hwait
      obtain ⟨k, hk⟩ := wakeCore_setsCore (s.setCore c.castSucc ((s.core c.castSucc).restartBudget s.epoch)) c.castSucc
      exact ⟨k, by rw [startPeriod_plan hpres hwait, hk, setCore_setCore]⟩
    · exact ⟨_, startPeriod_other hpres fun rd h => hwait ⟨rd, h⟩⟩
  · exact ⟨s.core c.castSucc, by rw [startPeriod_absent (Bool.eq_false_iff.mpr hpres), setCore_core]⟩

theorem startPeriod_onlyCores {s st : State} (h : ∃ ks, st = { s with cores := ks }) (c : Fin 9) :
    ∃ ks, st.startPeriod c = { s with cores := ks } := by
  obtain ⟨k, hk⟩ := startPeriod_setsCore st c
  obtain ⟨ks, rfl⟩ := h
  exact ⟨_, hk⟩

/-- Two states agree on all that the plan period asks for one core. -/
structure SamePeriod (s t : State) (c : Fin 9) : Prop where
  core : t.core c.castSucc = s.core c.castSucc
  epoch : t.epoch = s.epoch
  prof : t.prof = s.prof
  halo : t.halo = s.halo
  present : t.corePresent c.val = s.corePresent c.val

theorem SamePeriod.wakeDue {s t : State} {c : Fin 9} (h : SamePeriod s t c) : t.wakeDue c.castSucc = s.wakeDue c.castSucc := by
  obtain ⟨hcore, hep, hprof, hhalo, -⟩ := h
  unfold State.wakeDue
  rw [hcore, hep, hprof, hhalo]

theorem SamePeriod.wakeCore {s t : State} {c : Fin 9} (h : SamePeriod s t c) :
    (t.wakeCore c.castSucc).core c.castSucc = (s.wakeCore c.castSucc).core c.castSucc := by
  have hdue := h.wakeDue
  cases hs : s.wakeDue c.castSucc with
  | none => rw [wakeCore_of_none hs, wakeCore_of_none (hdue.trans hs), h.core]
  | some rd => rw [wakeCore_of_some hs, wakeCore_of_some (hdue.trans hs), core_setCore, core_setCore, h.core, h.epoch]

theorem SamePeriod.setCore {s t : State} {c : Fin 9} (h : SamePeriod s t c) (k : Core) :
    SamePeriod (s.setCore c.castSucc k) (t.setCore c.castSucc k) c :=
  ⟨by rw [core_setCore, core_setCore], h.epoch, h.prof, h.halo, h.present⟩

/-- What the plan period makes of a core depends on that core alone. -/
theorem SamePeriod.startPeriod {s t : State} {c : Fin 9} (h : SamePeriod s t c) :
    (t.startPeriod c).core c.castSucc = (s.startPeriod c).core c.castSucc := by
  by_cases hpres : s.corePresent c.val = true
  · by_cases hwait : ∃ rd, (s.core c.castSucc).wait = some (.plan rd)
    · obtain ⟨rd, hwait⟩ := hwait
      rw [startPeriod_plan hpres hwait, startPeriod_plan (h.present.trans hpres) (h.core ▸ hwait), h.core, h.epoch]
      exact (h.setCore _).wakeCore
    · have hother : ∀ rd, (s.core c.castSucc).wait ≠ some (.plan rd) := fun rd he => hwait ⟨rd, he⟩
      rw [startPeriod_other hpres hother, startPeriod_other (h.present.trans hpres) (h.core ▸ hother), core_setCore,
        core_setCore, h.core, h.epoch]
  · have habs := Bool.eq_false_iff.mpr hpres
    rw [startPeriod_absent habs, startPeriod_absent (h.present.trans habs), h.core]

theorem foldl_startPeriod (s : State) : ∃ ks, (List.finRange 9).foldl State.startPeriod s = { s with cores := ks } ∧
    ∀ c : Fin 9, ({ s with cores := ks } : State).core c.castSucc = (s.startPeriod c).core c.castSucc := by
  have hne : ∀ {a b : Fin 9}, a ≠ b → a.castSucc ≠ b.castSucc := fun h he => h (Fin.castSucc_injective 9 he)
  obtain ⟨⟨ks, hks⟩, hcore⟩ := foldl_finRange_each (f := State.startPeriod) (st := s)
    (I := fun st => ∃ ks, st = { s with cores := ks }) (Q := fun c st => st.core c.castSucc = s.core c.castSucc)
    (R := fun c st => st.core c.castSucc = (s.startPeriod c).core c.castSucc)
    (fun st a => (startPeriod_onlyCores · a))
    (fun st a hst hq => by
      obtain ⟨ks, rfl⟩ := hst
      exact SamePeriod.startPeriod ⟨hq, rfl, rfl, rfl, rfl⟩)
    (fun st a b hab _ hq => by
      obtain ⟨k, hk⟩ := startPeriod_setsCore st a
      rw [hk, core_setCore_ne _ (hne hab), hq])
    (fun st a b hab _ hr => by
      obtain ⟨k, hk⟩ := startPeriod_setsCore st a
      rw [hk, core_setCore_ne _ (hne hab), hr])
    ⟨s.cores, rfl⟩ fun _ => rfl
  exact ⟨ks, hks, fun c => hks ▸ hcore c⟩

/-- PLAN_PERIOD_START changes the cores alone, and each as the plan period that begins for it does. -/
theorem planPeriodStart_cores {s : State} (hrun : s.running = true) (hper : s.epoch % s.prof.planDiv = 0) :
    ∃ t, exec .planPeriodStart s = .next t ∧ t.data = s.data ∧ t.epoch = s.epoch ∧
      ∀ c : Fin 9, t.core c.castSucc = (s.startPeriod c).core c.castSucc := by
  obtain ⟨ks, hks, hcore⟩ := foldl_startPeriod s
  exact ⟨_, (planPeriodStart_eq hrun hper).trans (congrArg _ hks), rfl, rfl, hcore⟩

/-! ### SIGNAL_DELIVER -/

/-- An empty queue takes an event. -/
theorem enqueue_empty {k : Core} (h : k.evq = []) (e : EvRec) : k.enqueue e = ({ k with evq := [e] }, true) := by
  have hmerged : (if (e.cls.toNat == 1 || e.cls.toNat == 2 || e.cls.toNat == 3) = true then mergeInto e true k.evq else none) =
      none := by
    rw [h]
    split <;> rfl
  unfold Core.enqueue
  dsimp only
  rw [hmerged]
  dsimp only
  rw [h]
  simp [evInsert]

theorem deliver_empty {s : State} {c : Fin 9} (hpres : s.corePresent c.val = true) (hq : (s.core c.castSucc).evq = [])
    (e : EvRec) (rank : Nat) : s.deliver c e rank =
      s.setCore c.castSucc { s.core c.castSucc with evq := [{ e with tick := s.epoch, rank := rank }] } := by
  unfold State.deliver
  dsimp only
  rw [if_pos hpres, enqueue_empty hq]
  rfl

theorem deliverCell_nil {s : State} (h : s.cellEvs = []) : s.deliverCell = s := by
  unfold State.deliverCell
  simp only [h, List.filter_nil, List.foldl_nil]
  rw [← h]

/-- One request, sorted by its core, stays the one. -/
theorem flatMap_core_single (e : ReqEntry) : ((List.finRange 9).flatMap fun d => [e].filter fun e => e.core == d) = [e] := by
  obtain ⟨c, n, r⟩ := e
  fin_cases c <;> rfl

theorem signalDeliver_one {s : State} {c d : Fin 9} {e : Nat} {v : Word} (hreq : s.reqs = [⟨c, e, .signal d v⟩])
    (hdue : e < s.epoch) (hlive : s.coreLive d.castSucc = true) (hq : (s.core d.castSucc).evq = []) (hcell : s.cellEvs = []) :
    execSignalDeliver s = .next { s.setCore d.castSucc { s.core d.castSucc with
      evq := [{ cls := 4, count := 1, source := BitVec.ofNat 16 c.val, data := v, tick := s.epoch, rank := 1 }] } with reqs := [] } := by
  have hsig : ReqEntry.signalDue s ⟨c, e, .signal d v⟩ = true := by
    unfold ReqEntry.signalDue
    rw [decide_eq_true hdue]
    rfl
  have hpres : s.corePresent d.val = true := (Bool.and_eq_true_iff.mp hlive).1
  unfold execSignalDeliver
  dsimp only
  rw [hreq, List.filter_cons_of_pos hsig, List.filter_cons_of_neg (by rw [hsig]; decide), List.filter_nil, List.filter_nil,
    flatMap_core_single, List.foldl_cons, List.foldl_nil]
  dsimp only
  rw [if_pos (show State.coreLive { s with reqs := [] } d.castSucc = true from hlive),
    deliver_empty (s := { s with reqs := [] }) hpres hq, deliverCell_nil (by exact hcell)]
  have hv : BitVec.ofNat 32 v.toNat = v := (BitVec.ofNat_toNat 32 v).trans (BitVec.setWidth_eq v)
  rw [mkEv, hv]
  rfl

end Sys2Proof.Machine

open Sys2Proof Sys2Proof.Machine

/-- Settles O17. -/
theorem waitsEndAtTheirBoundary : Obligations.WaitsEndAtTheirBoundary := by
  refine ⟨fun s c rd w => ?waits, fun s c rd n le target dl hmode hfrom hwait => waitlWake_eq hmode hfrom hwait,
    fun s c rd h dl hmode hfrom hwait => jwaitWake_eq hmode hfrom hwait, fun s c hrun hper hpres => ?restarted,
    fun s c rd hrun hper hpres => ?woken, fun s c d e v hreq hdue hlive hq hcell => signalDeliver_one hreq hdue hlive hq hcell⟩
  case waits =>
    intro k woken hmode hwait
    refine ⟨fun hc hfrom => ?planner, fun hc hw => ?safety⟩
    case planner =>
      have hc' : c.val ≠ 9 := fun h => hc (Fin.ext h)
      exact ⟨fun hw => congrArg Host.Outcome.next (waitWake_tick hc' hmode hfrom (hw ▸ hwait)),
        fun hw => congrArg Host.Outcome.next (waitWake_event hc' hmode hfrom (hw ▸ hwait)),
        fun hw => congrArg Host.Outcome.next (waitWake_plan hc' hmode hfrom (hw ▸ hwait))⟩
    case safety =>
      subst hc
      exact congrArg Host.Outcome.next (waitWake_safety hmode (hw ▸ hwait))
  case restarted =>
    intro k hother
    obtain ⟨t, ht, hdata, hep, hcore⟩ := planPeriodStart_cores hrun hper
    obtain ⟨cnt, hk⟩ := restartBudget_frame k s.epoch
    have hc : t.core c.castSucc = k.restartBudget s.epoch := by
      rw [hcore, startPeriod_other hpres hother, core_setCore]
    refine ⟨t, ht, ?_⟩
    rw [hc, hk, ← lateWaker_of_other hother]
    exact ⟨rfl, rfl, rfl, rfl, rfl, rfl, hdata, hep⟩
  case woken =>
    intro k hwait hmode hfrom
    obtain ⟨t, ht, -, -, hcore⟩ := planPeriodStart_cores hrun hper
    have hwaits := restartBudget_wait k s.epoch
    obtain ⟨cnt, hk⟩ := restartBudget_frame k s.epoch
    rw [lateWaker_of_plan hwait, Bool.or_false] at hk
    have hc : t.core c.castSucc = (k.restartBudget s.epoch).wake s.epoch rd (BitVec.ofNat 64 k.evq.length) := by
      have hdue := wakeDue_planner (s := s.setCore c.castSucc (k.restartBudget s.epoch)) (c := c.castSucc)
        (castSucc_val_ne_nine c) (by rw [core_setCore, hk]; exact hmode) (by rw [core_setCore, hk]; exact hfrom)
        (by rw [core_setCore, hwaits]; exact hwait)
      rw [hcore, startPeriod_plan hpres hwait, wakeCore_of_some (hdue.trans (if_pos hper)), core_setCore, core_setCore, hk]
      rfl
    refine ⟨t, ht, ?_⟩
    rw [hc, wake_marked (hwaits.trans hwait), hk]
    generalize hk1 : ({ k with late := k.late, lateCnt := cnt, budget := 0, overrun := false } : Core) = k1
    obtain ⟨g, hg⟩ := wg_frame k1 rd (BitVec.ofNat 64 k.evq.length)
    have hrg : ∀ r, k1.rg r = k.rg r := fun r => by rw [← hk1]; rfl
    refine ⟨rfl, rfl, ?_, fun r hr => ?_, by rw [hg, ← hk1], by rw [hg, ← hk1]⟩
    · refine (rg_wg k1 rd rd _).trans ?_
      rw [if_pos rfl]
    · exact (rg_wg_ne k1 (Ne.symm hr) _).trans (hrg r)
end

section
/-! The freeze of a core, its budget, its start and stop, and the clean-up of a halted one (R79, R83, R117, R118, R142,
R145, R148, R340). -/

namespace Sys2Proof.Machine

/-! ### CORE_FREEZE and the scrub -/

theorem coreFreeze_freezes {s : State} {c : Fin 9} (hrun : s.running = true) (hlive : s.coreLive c.castSucc = true)
    (hfro : (s.core c.castSucc).frozen = false) :
    execCoreFreeze c s none = .next (s.setCore c.castSucc ((s.core c.castSucc).freeze s.runcyc)) := by
  unfold execCoreFreeze
  dsimp only
  rw [if_pos (by rw [hrun, hlive, hfro]; rfl)]
  rfl

/-- The state in which CORE_FREEZE leaves the cores, before the scrub. -/
def State.frozenCore (s : State) (c : Fin 9) : State :=
  if s.running && s.coreLive c.castSucc && !(s.core c.castSucc).frozen then s.modCore c.castSucc fun k => k.freeze s.runcyc else s

theorem frozenCore_setsCore (s : State) (c : Fin 9) : ∃ k, s.frozenCore c = s.setCore c.castSucc k := by
  unfold State.frozenCore
  split
  · exact ⟨_, rfl⟩
  · exact ⟨s.core c.castSucc, (setCore_core s _).symm⟩

/-- What the scrub counts before it raises a fault. -/
def State.scrubCount (s : State) (m : Fin 3) (e : Ecc) : State :=
  if m = 2 then s.solverNote e else s.eccNote ⟨m.val, by omega⟩ e

/-- What the scrub counts is counted as any check of a word is, and nothing else of the state moves but the solver's own count. -/
theorem scrubCount_frame (s : State) (m : Fin 3) (e : Ecc) :
    ∃ v, s.scrubCount m e = { s.eccNote ⟨m.val, by omega⟩ e with solver := v } := by
  unfold State.scrubCount
  split
  next h =>
    subst h
    exact ⟨_, rfl⟩
  next => exact ⟨s.solver, by cases e <;> rfl⟩

/-- The fault of an uncorrectable error that the scrub finds. -/
def scrubFault (m : Fin 3) : Nat := if m = 2 then 0x0801 else 0x0401

theorem scrub_corrected {s : State} {m : Fin 3} {e : Ecc} (he : e ≠ .uncorr) : s.scrub m e = s.scrubCount m e :=
  if_neg (by simpa using he)

theorem scrub_uncorrected (s : State) (m : Fin 3) : ∃ t hold, s.scrub m .uncorr =
    (s.scrubCount m .uncorr).raiseAt t (scrubFault m) 2 hold := by
  unfold State.scrub State.scrubCount scrubFault
  dsimp only
  rw [if_pos (beq_self_eq_true _)]
  by_cases h : m = 2
  · simp only [if_pos h]
    exact ⟨_, false, rfl⟩
  · simp only [if_neg h]
    exact ⟨_, true, rfl⟩

/-- The scrub counts, reports and changes nothing else. -/
theorem scrub_spec (s : State) (m : Fin 3) (e : Ecc) :
    (s.scrub m e).cores = s.cores ∧ (s.scrub m e).data = s.data ∧ (s.scrub m e).arms = s.arms
      ∧ (s.scrub m e).saf.ecc = (s.eccNote ⟨m.val, by omega⟩ e).saf.ecc
      ∧ (e ≠ .uncorr → (s.scrub m e).reports = s.reports)
      ∧ (e = .uncorr → ∃ r, (s.scrub m e).reports = s.reports ++ [r] ∧ r.code = (if m = 2 then 0x0801 else 0x0401) ∧ r.cls = 2) := by
  obtain ⟨v, hv⟩ := scrubCount_frame s m e
  by_cases he : e = .uncorr
  · subst he
    obtain ⟨t, hold, hs⟩ := scrub_uncorrected s m
    rw [hs, hv]
    exact ⟨rfl, rfl, rfl, rfl, fun h => absurd rfl h, fun _ => ⟨⟨scrubFault m, 2, hold, t, _⟩, rfl, rfl, rfl⟩⟩
  · rw [scrub_corrected he, hv]
    exact ⟨by simp, by simp, by simp, rfl, fun _ => by simp, fun h => absurd h he⟩

theorem coreFreeze_scrubs {s : State} (c : Fin 9) (m : Fin 3) (e : Ecc) (hrun : s.running = true) :
    execCoreFreeze c s (some (m, e)) = .next ((s.frozenCore c).scrub m e) := by
  unfold execCoreFreeze
  dsimp only
  rw [if_pos hrun]
  rfl

/-! ### BUDGET_OVERRUN -/

/-- A trap leaves what `Traps` says, whatever core it takes (R95, R97). -/
theorem traps_except_self (s : State) (c : Fin 10) (cyc code : Nat) (tval : DWord) :
    Traps s c (.next (s.except c cyc code tval)) (BitVec.ofNat 64 code) tval := by
  have h := traps_except s c (s.core c) cyc code tval
  have hsame : s.setCore c ((s.core c).retimed (s.core c)) = s := setCore_core s c
  rwa [hsame] at h

/-- The core whose budget runs out, before the trap. -/
def Core.overBudget (k : Core) (b : Nat) : Core :=
  { k with overrun := true, cyc := k.cyc + (b - k.budget), budget := max k.budget b }

theorem budgetOverrun_traps {s : State} {c : Fin 9} (hcan : s.canIssue c.castSucc = true)
    (hb : s.regN (0x40108 + 0x40 * c.val) ≠ 0) (hover : (s.core c.castSucc).overrun = false) :
    let b := s.regN (0x40108 + 0x40 * c.val)
    let k1 := (s.core c.castSucc).overBudget b
    let s1 := s.setCore c.castSucc k1
    Traps (s1.raiseAt (s1.coreTime k1.cyc) 0x0403 1) c.castSucc (execBudgetOverrun c s) 5 (BitVec.ofNat 64 b) := by
  intro b k1 s1
  have h := traps_except_self (s1.raiseAt (s1.coreTime k1.cyc) 0x0403 1) c.castSucc k1.cyc 5 (BitVec.ofNat 64 b)
  have hexec : execBudgetOverrun c s =
      .next ((s1.raiseAt (s1.coreTime (s1.core c.castSucc).cyc) 0x0403 1).except c.castSucc (s1.core c.castSucc).cyc 5
        (BitVec.ofNat 64 b)) := by
    unfold execBudgetOverrun
    dsimp only
    rw [if_pos (by rw [hcan, bne_iff_ne.mpr hb, hover]; rfl)]
    rfl
  rw [hexec, core_setCore]
  exact h

/-! ### CORE_START, CORE_STOP and HALT_CLEANUP -/

theorem tellNow_none {s : State} {c : Fin 9} (h : s.jrn.replay[c] = []) : s.tellNow c = s :=
  if_pos (by rw [h]; rfl)

theorem coreStart_starts {s : State} {c : Fin 9} (hw : s.runWritten c = some true) (hpres : s.corePresent c.val = true)
    (hmode : (s.core c.castSucc).mode = .stopped ∨ (s.core c.castSucc).mode = .halted) (hrep : s.jrn.replay[c] = []) :
    execCoreStart c s = .next ((s.dropRun c).setCore c.castSucc
      ((s.core c.castSucc).restart s.epoch (s.reg (0x40104 + 0x40 * c.val)))) := by
  unfold execCoreStart
  dsimp only
  have hm : ((s.core c.castSucc).mode == .stopped || (s.core c.castSucc).mode == .halted) = true := by
    rw [Bool.or_eq_true, beq_iff_eq, beq_iff_eq]
    exact hmode
  rw [if_pos (by rw [hw]; rfl), if_pos (by rw [hpres, hm]; rfl), tellNow_none (by exact hrep)]
  rfl

/-- The jobs of other cores are kept, those of the core that is cleaned up are dropped, and so are its requests (R148). -/
theorem cleanUp_spec (s : State) (c : Fin 9) :
    (s.cleanUp c).core c.castSucc = { s.core c.castSucc with cleanup := false }
      ∧ (∀ j ∈ (s.cleanUp c).solver.queue ++ (s.cleanUp c).solver.running ++ (s.cleanUp c).solver.ended, j.core ≠ c)
      ∧ (∀ e ∈ (s.cleanUp c).reqs, e.core = c →
          ∀ d j a m h, e.req ≠ .sega d ∧ e.req ≠ .job j ∧ e.req ≠ .auxq a m ∧ e.req ≠ .jcancel h)
      ∧ (s.cleanUp c).data = s.data ∧ (s.cleanUp c).arms = s.arms
      ∧ ∀ d, d ≠ c.castSucc → (s.cleanUp c).core d = s.core d := by
  refine ⟨core_setCore s _ _, fun j hj => ?jobs, fun e he hc d j a m h => ?reqs, rfl, rfl, fun d hd => core_setCore_ne s hd.symm _⟩
  case jobs =>
    have hkeep : ∀ l : List Job, j ∈ l.filter (fun j => j.core != c) → j.core ≠ c := fun l hl =>
      bne_iff_ne.mp (List.mem_filter.mp hl).2
    rcases List.mem_append.mp hj with hj | hj
    · rcases List.mem_append.mp hj with hj | hj
      · exact hkeep _ hj
      · exact hkeep _ hj
    · exact hkeep _ hj
  case reqs =>
    have hkeep := (List.mem_filter.mp he).2
    rw [hc, beq_self_eq_true, Bool.true_and, Bool.not_eq_true'] at hkeep
    refine ⟨fun hr => ?_, fun hr => ?_, fun hr => ?_, fun hr => ?_⟩
    all_goals
      rw [hr] at hkeep
      cases hkeep

theorem coreStop_cleans {s : State} {c : Fin 9} (hw : s.runWritten c = some false) :
    execCoreStop c s = .next (((s.dropRun c).setCore c.castSucc { s.core c.castSucc with
      mode := .stopped, wait := none, evq := [], shared := none }).cleanUp c) := by
  unfold execCoreStop
  rw [if_pos (by rw [hw]; rfl)]
  rfl

theorem haltCleanup_cleans {s : State} {c : Fin 9} (hmode : (s.core c.castSucc).mode = .halted)
    (hdue : (s.core c.castSucc).cleanup = true) : execHaltCleanup c s = .next (s.cleanUp c) := by
  unfold execHaltCleanup
  rw [if_pos (by rw [hmode, hdue]; rfl)]

end Sys2Proof.Machine

open Sys2Proof Sys2Proof.Machine

/-- Settles O18. -/
theorem budgetFreezeStartAndStop : Obligations.BudgetFreezeStartAndStop := by
  intro s c c10 k run budget
  refine ⟨fun hrun hlive hfro => (coreFreeze_freezes hrun hlive hfro).trans ?freeze, fun m e hrun => ?scrub,
    fun hcan hb hover => ?overrun, fun hw hpres hmode hrep => coreStart_starts hw hpres hmode hrep, fun cmd hcmd => ?cleaned⟩
  case freeze =>
    unfold Core.freeze
    simp only [beq_iff_eq]
    rfl
  case scrub =>
    obtain ⟨hcores, hdata, harms, hecc, hquiet, hraised⟩ := scrub_spec (s.frozenCore c) m e
    obtain ⟨k', hk⟩ := frozenCore_setsCore s c
    rw [hk] at hecc hquiet hraised
    refine ⟨_, s.frozenCore c, coreFreeze_scrubs c m e hrun, rfl, hcores, hdata, harms, ?_, hk ▸ hquiet, hk ▸ hraised⟩
    rw [hk, hecc, eccNote_setCore]
    rfl
  case overrun =>
    obtain ⟨t, rs, n, hexec, -⟩ := budgetOverrun_traps hcan hb hover
    refine ⟨_, hexec, ?_⟩
    have hcore : ∀ u : State, ∀ k', (u.setCore c10 k').core c10 = k' := fun u k' => core_setCore u c10 k'
    refine ⟨(congrArg Core.overrun (hcore _ _)).trans (congrArg Core.overrun (hcore s _)), congrArg Core.cause (hcore _ _), congrArg Core.tval (hcore _ _), ?_, ?_, ?_,
      rfl, rfl, fun d hd => ?_⟩
    · refine (congrArg Core.epc (hcore _ _)).trans ?_
      exact (congrArg Core.pc (hcore s _)).trans rfl
    · refine (congrArg Core.g (hcore _ _)).trans ?_
      exact (congrArg Core.g (hcore s _)).trans rfl
    · exact ⟨_, List.mem_append_left _ (List.mem_append_right _ (List.mem_singleton_self _)), rfl, rfl⟩
    · exact (core_setCore_ne _ hd.symm _).trans (core_setCore_ne s hd.symm _)
  case cleaned =>
    rcases hcmd with ⟨rfl, hw⟩ | ⟨rfl, hmode, hdue⟩
    · obtain ⟨hcore, hjobs, hreqs, hdata, harms, hne⟩ := cleanUp_spec ((s.dropRun c).setCore c10 { s.core c10 with
        mode := .stopped, wait := none, evq := [], shared := none }) c
      rw [core_setCore] at hcore
      refine ⟨_, coreStop_cleans hw, ?_⟩
      rw [hcore]
      exact ⟨rfl, fun _ => ⟨rfl, rfl⟩, rfl, hjobs, hreqs, hdata, harms, fun d hd => (hne d hd).trans (core_setCore_ne _ hd.symm _)⟩
    · obtain ⟨hcore, hjobs, hreqs, hdata, harms, hne⟩ := cleanUp_spec s c
      refine ⟨_, haltCleanup_cleans hmode hdue, ?_⟩
      rw [hcore]
      exact ⟨rfl, fun h => (nomatch h), rfl, hjobs, hreqs, hdata, harms, hne⟩
end

section
/-! Loads, stores and atomic instructions (R74–R78, R108, R109, R114). -/

namespace Sys2Proof.Machine

/-! ### Bytes and register values -/

/-- A word with one byte more below it. -/
theorem toNat_append_byte {m : Nat} (x : BitVec m) (b : Byte) : (x ++ b).toNat = b.toNat + 256 * x.toNat := by
  rw [BitVec.toNat_append, ← Nat.shiftLeft_add_eq_or_of_lt b.isLt, Nat.shiftLeft_eq]
  omega

theorem leBytes_byte (b : Byte) (w n : Nat) : leBytes (b.toNat + 256 * w) (n + 1) = b :: leBytes w n := by
  have hb := b.isLt
  rw [leBytes]
  congr 1
  · apply BitVec.eq_of_toNat_eq
    rw [BitVec.toNat_ofNat]
    omega
  · congr 1
    omega

theorem leVal_single (b : Byte) : leVal [b] = b.toNat := rfl

/-- Reading a number's bits as two's complement. -/
theorem sextTo_toNat {w : Nat} (hw : 0 < w) (x : BitVec w) : sextTo w x.toNat = x.toInt := by
  have hx := x.isLt
  have hpow : 2 ^ w = 2 * 2 ^ (w - 1) := by rw [← Nat.pow_succ', Nat.succ_eq_add_one, Nat.sub_one_add_one hw.ne']
  have hmod : ((x.toNat : Int) % 2 ^ w) = x.toNat := by
    rw [Int.emod_eq_of_lt (Int.natCast_nonneg _)]
    exact_mod_cast hx
  unfold sextTo
  dsimp only
  rw [hmod, BitVec.toInt_eq_toNat_cond]
  have hcast : ((2 : Int) ^ (w - 1)) = ((2 ^ (w - 1) : Nat) : Int) := by push_cast; rfl
  have hcast' : ((2 : Int) ^ w) = ((2 ^ w : Nat) : Int) := by push_cast; rfl
  rw [hcast, hcast']
  split <;> split <;> omega

theorem loadValue_signed {w : Nat} (n : Nat) (hw : 8 * n = w) (hpos : 0 < w) {bs : List Byte} {x : BitVec w} (h : leVal bs = x.toNat) :
    loadValue true n bs = x.signExtend 64 := by
  unfold loadValue
  rw [if_pos rfl, h, hw, sextTo_toNat hpos]
  rfl

theorem loadValue_unsigned {w : Nat} (n : Nat) {bs : List Byte} {x : BitVec w} (h : leVal bs = x.toNat) :
    loadValue false n bs = x.setWidth 64 := by
  unfold loadValue
  rw [if_neg (by decide), h, BitVec.ofInt_natCast, BitVec.ofNat_toNat]

theorem leVal_two (b0 b1 : Byte) : leVal [b0, b1] = (b1 ++ b0).toNat := by
  simp only [leVal, toNat_append_byte]
  omega

theorem leVal_four (b0 b1 b2 b3 : Byte) : leVal [b0, b1, b2, b3] = (b3 ++ b2 ++ b1 ++ b0).toNat := by
  simp only [leVal, toNat_append_byte]
  omega

theorem leVal_eight (b0 b1 b2 b3 b4 b5 b6 b7 : Byte) :
    leVal [b0, b1, b2, b3, b4, b5, b6, b7] = (b7 ++ b6 ++ b5 ++ b4 ++ b3 ++ b2 ++ b1 ++ b0).toNat := by
  simp only [leVal, toNat_append_byte]
  omega

theorem readSized_eq (m : Memory) (off n : Nat) (signed : Bool) : readSized m off n signed = loadValue signed n (m.readN off n) := rfl

/-! ### What an access does, by the place its address leads to -/

theorem pendMem_eq_retimed (k : Core) (op : SharedOp) (cyc : Nat) : k.pendMem op cyc = k.retimed (k.pendMem op cyc) := by
  unfold Core.pendMem
  cases op with
  | load d _ _ => dsimp only; split <;> rfl
  | amo d _ _ _ => dsimp only; split <;> rfl
  | store => rfl

/-- The core that an access that ends at once leaves: its register written, the PC moved on. -/
def Core.accessed (k : Core) (op : SharedOp) (cyc : Nat) (r : Option (CReg × DWord)) : Core :=
  ((match r with | some (d, v) => k.wreg d v | none => k).pendMem op cyc).adv

@[simp] theorem retimed_wreg (k t : Core) (d : CReg) (v : DWord) : (k.retimed t).wreg d v = (k.wreg d v).retimed t := by
  cases d with
  | g i => exact retimed_wg k t i v
  | f i => exact retimed_wf k t i v

/-- An access that ends at once and writes a register ends with the register written and the PC moved on. -/
theorem accessed_some (u : State) (c : Fin 10) (k t : Core) (op : SharedOp) (cyc : Nat) (d : CReg) (v : DWord) :
    ∃ t', ((u.setCore c (k.retimed t)).modCore c fun k => k.accessed op cyc (some (d, v))) =
      u.setCore c ((k.wreg d v).adv.retimed t') := by
  refine ⟨((k.wreg d v).retimed t).pendMem op cyc, ?_⟩
  rw [modCore_setCore]
  unfold Core.accessed
  dsimp only
  rw [retimed_wreg, pendMem_eq_retimed, retimed_adv, retimed_adv, retimed_retimed]
  rfl

/-- A store that ends at once ends with the PC moved on. -/
theorem accessed_none (u : State) (c : Fin 10) (k t : Core) (op : SharedOp) (cyc : Nat) :
    ∃ t', ((u.setCore c (k.retimed t)).modCore c fun k => k.accessed op cyc none) = u.setCore c (k.adv.retimed t') := by
  refine ⟨(k.retimed t).pendMem op cyc, ?_⟩
  rw [modCore_setCore]
  unfold Core.accessed
  dsimp only
  rw [pendMem_eq_retimed, retimed_adv, retimed_adv, retimed_retimed]
  rfl

/-- Whether the operation is a load. -/
def SharedOp.isLoad : SharedOp → Bool
  | .load _ _ _ => true
  | _ => false

/-- Whether the operation is an atomic. -/
def SharedOp.isAmo : SharedOp → Bool
  | .amo _ _ _ _ => true
  | _ => false

/-- The exception of a word with an uncorrectable error: counted, reported, taken (R78, R114, R115). -/
def State.eccTrap (s : State) (c : Fin 10) (cyc : Nat) (k : Fin 8) (a : DWord) : State :=
  if c.val = 9 then ((s.eccUp 7).raise 0x1806 3).except c cyc 4 a
  else ((s.eccUp k).raiseAt (s.coreTime cyc) 0x0401 2 true).except c cyc 4 a

section
variable {s : State} {c : Fin 10} {cyc : Nat} {a : DWord} {size off : Nat} {op : SharedOp} {err : Ecc}

theorem access_misaligned (h : a.toNat % size ≠ 0) : s.access c cyc a size op err = s.except c cyc 3 a :=
  if_pos (bne_iff_ne.mpr h)

/-- An aligned access does what the place its address leads to makes of it. -/
theorem access_aligned (h : a.toNat % size = 0) : ¬ (a.toNat % size != 0) = true := by simp [h]

theorem access_code (h : a.toNat % size = 0) (hreg : s.region c a.toNat = .code off) :
    s.access c cyc a size op err =
      if !op.isLoad then s.except c cyc 2 a
      else if err == .uncorr then s.eccTrap c cyc 0 a
      else (s.eccNote (if c.val = 9 then 7 else 0) err).modCore c fun k =>
        k.accessed op cyc (memEffect (if c.val = 9 then s.scode else s.code) off op).2 := by
  unfold State.access
  dsimp only
  rw [if_neg (access_aligned h), hreg]
  rfl

theorem access_code_load (h : a.toNat % size = 0) (hreg : s.region c a.toNat = .code off) (hop : op.isLoad = true) :
    s.access c cyc a size op err =
      if err == .uncorr then s.eccTrap c cyc 0 a
      else (s.eccNote (if c.val = 9 then 7 else 0) err).modCore c fun k =>
        k.accessed op cyc (memEffect (if c.val = 9 then s.scode else s.code) off op).2 :=
  (access_code h hreg).trans (if_neg (by simp [hop]))

theorem access_shared (h : a.toNat % size = 0) (hreg : s.region c a.toNat = .data off true) :
    s.access c cyc a size op err =
      if err == .uncorr then s.eccTrap c cyc 1 a
      else ((s.eccNote 1 err).startShared c cyc op a off).modCore c Core.adv := by
  unfold State.access
  dsimp only
  rw [if_neg (access_aligned h), hreg]
  rfl

theorem access_data (h : a.toNat % size = 0) (hreg : s.region c a.toNat = .data off false) :
    s.access c cyc a size op err =
      if err == .uncorr then s.eccTrap c cyc 1 a
      else ({ s.eccNote 1 err with data := (memEffect s.data off op).1 } : State).modCore c fun k =>
        k.accessed op cyc (memEffect s.data off op).2 := by
  unfold State.access
  dsimp only
  rw [if_neg (access_aligned h), hreg]
  rfl

theorem access_view_load {d : CReg} {n : Nat} {signed : Bool} (h : a.toNat % size = 0) (hreg : s.region c a.toNat = .view off) :
    s.access c cyc a size (.load d n signed) err =
      s.modCore c fun k => k.accessed (.load d n signed) cyc (some (d, loadValue signed n (viewBytes s.view off n))) := by
  unfold State.access
  dsimp only
  rw [if_neg (access_aligned h), hreg]
  rfl

theorem access_view_other (h : a.toNat % size = 0) (hreg : s.region c a.toNat = .view off) (hop : op.isLoad = false) :
    s.access c cyc a size op err = s.except c cyc 2 a := by
  unfold State.access
  dsimp only
  rw [if_neg (access_aligned h), hreg]
  exact if_pos (by rw [Bool.not_eq_true']; exact hop)

theorem access_sdata (h : a.toNat % size = 0) (hreg : s.region c a.toNat = .sdata off) :
    s.access c cyc a size op err =
      if op.isAmo then s.except c cyc 2 a
      else if err == .uncorr then s.eccTrap c cyc 7 a
      else ({ s.eccNote 7 err with sdata := (memEffect s.sdata off op).1 } : State).modCore c fun k =>
        k.accessed op cyc (memEffect s.sdata off op).2 := by
  unfold State.access
  dsimp only
  rw [if_neg (access_aligned h), hreg]
  rfl

theorem access_periph_load {d : CReg} {n : Nat} {signed : Bool} (h : a.toNat % size = 0) (hreg : s.region c a.toNat = .periph off) :
    s.access c cyc a size (.load d n signed) err =
      ({ s with free := s.free + 1 } : State).modCore c fun k =>
        k.accessed (.load d n signed) cyc (some (d, s.periphValue off n signed)) := by
  unfold State.access
  dsimp only
  rw [if_neg (access_aligned h), hreg]
  rfl

theorem access_periph_store {n : Nat} {v : DWord} (h : a.toNat % size = 0) (hreg : s.region c a.toNat = .periph off) :
    s.access c cyc a size (.store n v) err = s.modCore c fun k => k.accessed (.store n v) cyc none := by
  unfold State.access
  dsimp only
  rw [if_neg (access_aligned h), hreg]
  rfl

theorem access_nowhere (h : a.toNat % size = 0) (hreg : s.region c a.toNat = .nowhere) :
    s.access c cyc a size op err = s.except c cyc 2 a := by
  unfold State.access
  dsimp only
  rw [if_neg (access_aligned h), hreg]

end

/-! ### Loads and stores -/

section
variable {s : State} {c : Fin 10} {a : DWord} {size off : Nat} {op : SharedOp} {err : Ecc}

/-- An issued access to data SRAM, as the effect on the memory and then on the core. -/
theorem access_data_issued (t : Core) (cyc : Nat) (hal : a.toNat % size = 0) (hreg : s.region c a.toNat = .data off false)
    (herr : err ≠ .uncorr) : (s.setCore c ((s.core c).retimed t)).access c cyc a size op err =
      (({ s.eccNote 1 err with data := (memEffect s.data off op).1 } : State).setCore c ((s.core c).retimed t)).modCore c
        fun k => k.accessed op cyc (memEffect s.data off op).2 := by
  have hregion : (s.setCore c ((s.core c).retimed t)).region c a.toNat = .data off false := hreg
  rw [access_data hal hregion, if_neg (by simpa using herr), eccNote_setCore]
  rfl

theorem access_sdata_issued (t : Core) (cyc : Nat) (hal : a.toNat % size = 0) (hreg : s.region c a.toNat = .sdata off)
    (hop : op.isAmo = false) (herr : err ≠ .uncorr) : (s.setCore c ((s.core c).retimed t)).access c cyc a size op err =
      (({ s.eccNote 7 err with sdata := (memEffect s.sdata off op).1 } : State).setCore c ((s.core c).retimed t)).modCore c
        fun k => k.accessed op cyc (memEffect s.sdata off op).2 := by
  have hregion : (s.setCore c ((s.core c).retimed t)).region c a.toNat = .sdata off := hreg
  rw [access_sdata hal hregion, if_neg (by simpa using hop), if_neg (by simpa using herr), eccNote_setCore]
  rfl

end

theorem eccNote_data_self (s : State) (k : Fin 8) (e : Ecc) : ({ s.eccNote k e with data := s.data } : State) = s.eccNote k e := by
  cases e <;> rfl

theorem eccNote_sdata_self (s : State) (k : Fin 8) (e : Ecc) : ({ s.eccNote k e with sdata := s.sdata } : State) = s.eccNote k e := by
  cases e <;> rfl

/-- An access to the shared region waits in the memory unit (R76). -/
theorem access_waits {s : State} {c : Fin 10} {a : DWord} {size off : Nat} {err : Ecc} (t : Core) (cyc : Nat) (op : SharedOp)
    (hal : a.toNat % size = 0) (hreg : s.region c a.toNat = .data off true) (herr : err ≠ .uncorr) :
    ∃ (u : Core) (slot : Nat) (next : Bool), (s.setCore c ((s.core c).retimed t)).access c cyc a size op err =
      (s.eccNote 1 err).setCore c ({ s.core c with shared := some ⟨op, a, off, slot, next, (s.core c).pc⟩ }.adv.retimed u) := by
  have hregion : (s.setCore c ((s.core c).retimed t)).region c a.toNat = .data off true := hreg
  rw [access_shared hal hregion, if_neg (by simpa using herr)]
  unfold State.startShared
  extract_lets sl slot pend
  rw [eccNote_setCore, modCore_setCore, modCore_setCore]
  exact ⟨_, sl.1, sl.2, rfl⟩

theorem retires_eccNote {s : State} {c : Fin 10} {m : Fin 8} {err : Ecc} {o : Res} {f : Core → Core} {t : Core}
    (h : o = .next ((s.eccNote m err).setCore c ((f (s.core c)).retimed t))) : Retires (s.eccNote m err) c o f :=
  ⟨t, by rw [h, eccNote_core]⟩

theorem loadsAs_access (s : State) (c : Fin 10) (t : Core) (cyc : Nat) (a : DWord) (n : Nat) (signed : Bool) (err : Ecc) (d : CReg) :
    LoadsAs s c (.next ((s.setCore c ((s.core c).retimed t)).access c cyc a n (.load d n signed) err)) a n signed err d := by
  unfold LoadsAs
  dsimp only
  have hregion : (s.setCore c ((s.core c).retimed t)).region c a.toNat = s.region c a.toNat := rfl
  by_cases hal : a.toNat % n = 0
  · rw [if_neg (by simpa using hal)]
    cases hreg : s.region c a.toNat with
    | code off =>
      intro herr
      obtain ⟨u, hu⟩ := accessed_some (s.eccNote (if c.val = 9 then 7 else 0) err) c (s.core c) t (.load d n signed) cyc d
        (loadValue signed n ((if c.val = 9 then s.scode else s.code).readN off n))
      rw [access_code_load hal (hregion.trans hreg) rfl, if_neg (show ¬ (err == Ecc.uncorr) = true by simpa using herr), eccNote_setCore]
      exact retires_eccNote (congrArg Host.Outcome.next hu)
    | data off shared =>
      cases shared with
      | true =>
        intro herr
        obtain ⟨u, slot, next, hu⟩ := access_waits t cyc (.load d n signed) hal hreg herr
        exact ⟨u, slot, next, congrArg Host.Outcome.next hu⟩
      | false =>
        intro herr
        obtain ⟨u, hu⟩ := accessed_some (s.eccNote 1 err) c (s.core c) t (.load d n signed) cyc d (loadValue signed n (s.data.readN off n))
        rw [access_data_issued t cyc hal hreg herr, memEffect, eccNote_data_self]
        exact retires_eccNote (congrArg Host.Outcome.next hu)
    | view off =>
      obtain ⟨u, hu⟩ := accessed_some s c (s.core c) t (.load d n signed) cyc d (loadValue signed n (viewBytes s.view off n))
      exact ⟨u, congrArg Host.Outcome.next ((access_view_load hal (hregion.trans hreg)).trans hu)⟩
    | sdata off =>
      intro herr
      obtain ⟨u, hu⟩ := accessed_some (s.eccNote 7 err) c (s.core c) t (.load d n signed) cyc d (loadValue signed n (s.sdata.readN off n))
      rw [access_sdata_issued t cyc hal hreg rfl herr, memEffect, eccNote_sdata_self]
      exact retires_eccNote (congrArg Host.Outcome.next hu)
    | periph off =>
      obtain ⟨u, hu⟩ := accessed_some { s with free := s.free + 1 } c (s.core c) t (.load d n signed) cyc d
        ((s.setCore c ((s.core c).retimed t)).periphValue off n signed)
      exact ⟨u, t, congrArg Host.Outcome.next ((access_periph_load hal (hregion.trans hreg)).trans hu)⟩
    | bar0 off => trivial
    | nowhere =>
      rw [access_nowhere hal (hregion.trans hreg)]
      exact traps_except s c t cyc 2 a
  · rw [if_pos hal, access_misaligned hal]
    exact traps_except s c t cyc 3 a

theorem storesAs_access (s : State) (c : Fin 10) (t : Core) (cyc : Nat) (a : DWord) (n : Nat) (v : DWord) (err : Ecc) :
    StoresAs s c (.next ((s.setCore c ((s.core c).retimed t)).access c cyc a n (.store n v) err)) a n v err := by
  unfold StoresAs
  have hregion : (s.setCore c ((s.core c).retimed t)).region c a.toNat = s.region c a.toNat := rfl
  by_cases hal : a.toNat % n = 0
  · rw [if_neg (by simpa using hal)]
    cases hreg : s.region c a.toNat with
    | code off =>
      rw [access_code hal (hregion.trans hreg)]
      exact traps_except s c t cyc 2 a
    | data off shared =>
      cases shared with
      | true =>
        intro herr
        obtain ⟨u, slot, next, hu⟩ := access_waits t cyc (.store n v) hal hreg herr
        exact ⟨u, slot, next, congrArg Host.Outcome.next hu⟩
      | false =>
        intro herr
        obtain ⟨u, hu⟩ := accessed_none { s.eccNote 1 err with data := s.data.writeN off (leBytes v.toNat n) } c (s.core c) t
          (.store n v) cyc
        rw [access_data_issued t cyc hal hreg herr]
        exact ⟨u, congrArg Host.Outcome.next hu⟩
    | view off =>
      rw [access_view_other hal (hregion.trans hreg) rfl]
      exact traps_except s c t cyc 2 a
    | sdata off =>
      intro herr
      obtain ⟨u, hu⟩ := accessed_none { s.eccNote 7 err with sdata := s.sdata.writeN off (leBytes v.toNat n) } c (s.core c) t
        (.store n v) cyc
      rw [access_sdata_issued t cyc hal hreg rfl herr]
      exact ⟨u, congrArg Host.Outcome.next hu⟩
    | periph off =>
      obtain ⟨u, hu⟩ := accessed_none s c (s.core c) t (.store n v) cyc
      exact ⟨u, congrArg Host.Outcome.next ((access_periph_store hal (hregion.trans hreg)).trans hu)⟩
    | bar0 off => trivial
    | nowhere =>
      rw [access_nowhere hal (hregion.trans hreg)]
      exact traps_except s c t cyc 2 a
  · rw [if_pos hal, access_misaligned hal]
    exact traps_except s c t cyc 3 a

/-! ### The load and store instructions -/

/-- What a load does once it has issued. -/
def loadEffect (c : Fin 10) (ra : Fin 32) (imm : BitVec 12) (d : CReg) (n : Nat) (signed : Bool) (err : Ecc) (s : State)
    (cyc : Nat) : State :=
  s.access c cyc ((s.core c).ea ra imm) n (.load d n signed) err

/-- What a store does once it has issued: `v` gives the register it stores. -/
def storeEffect (c : Fin 10) (ra : Fin 32) (imm : BitVec 12) (v : Core → DWord) (n : Nat) (err : Ecc) (s : State) (cyc : Nat) :
    State :=
  s.access c cyc ((s.core c).ea ra imm) n (.store n (v (s.core c))) err

theorem load_loadsAs {s : State} {c : Fin 10} {ra : Fin 32} {imm : BitVec 12} {d : CReg} {dst : Option CReg} (n : Nat)
    (signed : Bool) (err : Ecc) (h : s.mayRun c .load [.g ra] dst = true) :
    LoadsAs s c (s.execWith c .load [.g ra] dst (loadEffect c ra imm d n signed err)) ((s.core c).rg ra + imm.signExtend 64) n
      signed err d := by
  obtain ⟨t, ht⟩ := execWith_of_mayRun (f := loadEffect c ra imm d n signed err) h
  rw [ht, loadEffect, core_setCore]
  exact loadsAs_access s c t _ _ n signed err d

theorem store_storesAs {s : State} {c : Fin 10} {ra : Fin 32} {imm : BitVec 12} {srcs : List CReg} {v : Core → DWord}
    (hv : ∀ k t : Core, v (k.retimed t) = v k) (n : Nat) (err : Ecc) (h : s.mayRun c .store srcs none = true) :
    StoresAs s c (s.execWith c .store srcs none (storeEffect c ra imm v n err)) ((s.core c).rg ra + imm.signExtend 64) n
      (v (s.core c)) err := by
  obtain ⟨t, ht⟩ := execWith_of_mayRun (f := storeEffect c ra imm v n err) h
  rw [ht, storeEffect, core_setCore, hv]
  exact storesAs_access s c t _ _ n _ err

theorem loadG_loadsAs {s : State} {c : Fin 10} {rd ra : Fin 32} {imm : BitVec 12} (n : Nat) (signed : Bool) (err : Ecc)
    (h : s.mayRun c .load [.g ra] (dstG rd) = true) :
    LoadsAs s c (s.loadG c rd ra imm n signed err) ((s.core c).rg ra + imm.signExtend 64) n signed err (.g rd) :=
  load_loadsAs n signed err h

theorem storeG_storesAs {s : State} {c : Fin 10} {rs ra : Fin 32} {imm : BitVec 12} (n : Nat) (err : Ecc)
    (h : s.mayRun c .store [.g ra, .g rs] none = true) :
    StoresAs s c (s.storeG c rs ra imm n err) ((s.core c).rg ra + imm.signExtend 64) n ((s.core c).rg rs) err :=
  store_storesAs (v := fun k => k.rg rs) (fun _ _ => rfl) n err h

theorem loadValue_bytes (b0 b1 b2 b3 b4 b5 b6 b7 : Byte) :
    loadValue true 1 [b0] = b0.signExtend 64 ∧ loadValue false 1 [b0] = b0.setWidth 64
    ∧ loadValue true 2 [b0, b1] = (b1 ++ b0).signExtend 64 ∧ loadValue false 2 [b0, b1] = (b1 ++ b0).setWidth 64
    ∧ loadValue true 4 [b0, b1, b2, b3] = (b3 ++ b2 ++ b1 ++ b0).signExtend 64
    ∧ loadValue false 4 [b0, b1, b2, b3] = (b3 ++ b2 ++ b1 ++ b0).setWidth 64
    ∧ loadValue false 8 [b0, b1, b2, b3, b4, b5, b6, b7] = b7 ++ b6 ++ b5 ++ b4 ++ b3 ++ b2 ++ b1 ++ b0 := by
  refine ⟨loadValue_signed 1 rfl (by decide) rfl, loadValue_unsigned 1 rfl,
    loadValue_signed 2 rfl (by decide) (leVal_two b0 b1), loadValue_unsigned 2 (leVal_two b0 b1),
    loadValue_signed 4 rfl (by decide) (leVal_four b0 b1 b2 b3), loadValue_unsigned 4 (leVal_four b0 b1 b2 b3), ?_⟩
  exact (loadValue_unsigned 8 (leVal_eight b0 b1 b2 b3 b4 b5 b6 b7)).trans (BitVec.setWidth_eq _)

theorem leBytes_zero (v : Nat) : leBytes v 0 = [] := rfl

theorem leBytes_word (b0 b1 b2 b3 b4 b5 b6 b7 : Byte) :
    leBytes (b7 ++ b6 ++ b5 ++ b4 ++ b3 ++ b2 ++ b1 ++ b0).toNat 8 = [b0, b1, b2, b3, b4, b5, b6, b7]
    ∧ leBytes (b7 ++ b6 ++ b5 ++ b4 ++ b3 ++ b2 ++ b1 ++ b0).toNat 4 = [b0, b1, b2, b3]
    ∧ leBytes (b7 ++ b6 ++ b5 ++ b4 ++ b3 ++ b2 ++ b1 ++ b0).toNat 2 = [b0, b1]
    ∧ leBytes (b7 ++ b6 ++ b5 ++ b4 ++ b3 ++ b2 ++ b1 ++ b0).toNat 1 = [b0] := by
  have htop : leBytes b7.toNat 1 = [b7] := leBytes_byte b7 0 0
  simp only [toNat_append_byte, leBytes_byte, leBytes_zero, htop, and_self]

end Sys2Proof.Machine

open Sys2Proof Sys2Proof.Machine

/-- Settles O9. -/
theorem littleEndianLoadValues : Obligations.LittleEndianLoadValues := by
  refine ⟨fun b0 b1 b2 b3 b4 b5 b6 b7 => ?bytes, fun _ _ _ _ _ e h => loadG_loadsAs 1 true e h,
    fun _ _ _ _ _ e h => loadG_loadsAs 1 false e h, fun _ _ _ _ _ e h => loadG_loadsAs 2 true e h,
    fun _ _ _ _ _ e h => loadG_loadsAs 2 false e h, fun _ _ _ _ _ e h => loadG_loadsAs 4 true e h,
    fun _ _ _ _ _ e h => loadG_loadsAs 4 false e h, fun _ _ _ _ _ e h => loadG_loadsAs 8 false e h,
    fun _ _ _ _ _ e h => load_loadsAs 8 false e h, fun _ _ _ _ _ e h => storeG_storesAs 1 e h,
    fun _ _ _ _ _ e h => storeG_storesAs 2 e h, fun _ _ _ _ _ e h => storeG_storesAs 4 e h,
    fun _ _ _ _ _ h => storeG_storesAs 8 .clean h,
    fun _ _ fs _ _ h => store_storesAs (v := fun k => k.rf fs) (fun _ _ => rfl) 8 .clean h⟩
  case bytes =>
    obtain ⟨h1, h2, h3, h4, h5, h6, h7⟩ := loadValue_bytes b0 b1 b2 b3 b4 b5 b6 b7
    exact ⟨h1, h2, h3, h4, h5, h6, h7, leBytes_word b0 b1 b2 b3 b4 b5 b6 b7⟩
end

section
/-! Atomic instructions, the shared slot, and the exception of an uncorrectable error (R76–R78, R109, R114, R115). -/

namespace Sys2Proof.Machine

/-! ### Atomic instructions -/

/-- Where an address of a planner core leads (R74, R75). -/
inductive PlannerPlace : Region → Prop
  | code (off : Nat) : PlannerPlace (.code off)
  | data (off : Nat) (shared : Bool) : PlannerPlace (.data off shared)
  | view (off : Nat) : PlannerPlace (.view off)
  | nowhere : PlannerPlace .nowhere

theorem region_planner (s : State) (c : Fin 9) (a : Nat) : PlannerPlace (s.region c.castSucc a) := by
  unfold State.region
  rw [if_neg (castSucc_val_ne_nine c)]
  dsimp only
  split_ifs
  · exact .code _
  · exact .data _ _
  · exact .data _ _
  · exact .view _
  · exact .nowhere

/-- What an atomic does once it has issued. -/
def amoEffect (c : Fin 9) (rd ra rb : Fin 32) (func : Nat) (err : Ecc) (s : State) (cyc : Nat) : State :=
  let k := s.core c.castSucc
  s.access c.castSucc cyc (k.rg ra) 8 (.amo rd func (k.rg rb) (k.rg rd)) err

theorem amo_eq (s : State) (c : Fin 9) (rd ra rb : Fin 32) (func : Nat) (err : Ecc) :
    s.amo c rd ra rb func err = s.execWith c.castSucc .atomic ([.g ra, .g rb] ++ (if func = 6 then [.g rd] else [])) (dstG rd)
      (amoEffect c rd ra rb func err) := rfl

theorem amo_atomicResult {mk : Fin 9 → Fin 32 → Fin 32 → Fin 32 → Ecc → Instr} {func : Nat}
    {f : DWord → DWord → DWord → DWord} (hmk : ∀ c rd ra rb err s, exec (mk c rd ra rb err) s = s.amo c rd ra rb func err)
    (hf : ∀ o v g, amoNew func o v g = f o v g) : AtomicResult mk func f := by
  intro s c rd ra rb err h k a o
  obtain ⟨t, ht⟩ := execWith_of_mayRun (f := amoEffect c rd ra rb func err) h
  have ho : o = .next ((s.setCore c.castSucc (k.retimed t)).access c.castSucc
      (s.issueCycle c.castSucc .atomic ([.g ra, .g rb] ++ (if func = 6 then [.g rd] else [])) (dstG rd)) a 8
      (.amo rd func (k.rg rb) (k.rg rd)) err) := by
    refine (hmk c rd ra rb err s).trans (ht.trans ?_)
    rw [amoEffect, core_setCore]
    rfl
  rw [ho]
  generalize s.issueCycle c.castSucc .atomic ([.g ra, .g rb] ++ (if func = 6 then [.g rd] else [])) (dstG rd) = cyc
  have hregion : (s.setCore c.castSucc (k.retimed t)).region c.castSucc a.toNat = s.region c.castSucc a.toNat := rfl
  by_cases hal : a.toNat % 8 = 0
  · rw [if_neg (by simpa using hal)]
    have hplace := region_planner s c a.toNat
    cases hreg : s.region c.castSucc a.toNat with
    | code off =>
      rw [access_code hal (hregion.trans hreg)]
      exact traps_except s c.castSucc t cyc 2 a
    | data off shared =>
      cases shared with
      | true =>
        intro herr
        obtain ⟨u, slot, next, hu⟩ := access_waits t cyc (.amo rd func (k.rg rb) (k.rg rd)) hal hreg herr
        exact ⟨u, slot, next, congrArg Host.Outcome.next hu⟩
      | false =>
        intro herr old
        obtain ⟨u, hu⟩ := accessed_some
          { s.eccNote 1 err with data := s.data.writeN off (leBytes (amoNew func old (k.rg rb) (k.rg rd)).toNat 8) } c.castSucc k t
          (.amo rd func (k.rg rb) (k.rg rd)) cyc (.g rd) old
        rw [access_data_issued t cyc hal hreg herr, ← hf]
        exact ⟨u, congrArg Host.Outcome.next hu⟩
    | view off =>
      rw [access_view_other hal (hregion.trans hreg) rfl]
      exact traps_except s c.castSucc t cyc 2 a
    | nowhere =>
      rw [access_nowhere hal (hregion.trans hreg)]
      exact traps_except s c.castSucc t cyc 2 a
    | sdata off | periph off | bar0 off =>
      rw [hreg] at hplace
      nomatch hplace
  · rw [if_pos hal, access_misaligned hal]
    exact traps_except s c.castSucc t cyc 3 a

theorem amoNew_max (o v g : DWord) : amoNew 4 o v g = if o.slt v then v else o := by
  simp [amoNew, BitVec.slt_eq_decide]

theorem amoNew_min (o v g : DWord) : amoNew 5 o v g = if v.slt o then v else o := by
  simp [amoNew, BitVec.slt_eq_decide]

/-! ### SHARED_SLOT_ACCESS -/

theorem sharedSlotAccess_performs {s : State} {c : Fin 9} {a : SharedAcc} (ha : (s.core c.castSucc).shared = some a)
    (hnext : a.nextTick = false) : execSharedSlotAccess c s = .next (s.doShared c.castSucc a) := by
  unfold execSharedSlotAccess
  rw [ha]
  dsimp only
  rw [if_neg (by simpa using hnext)]

/-- A waiting access in its slot: the memory takes its effect, the core its register, and the memory unit is empty (R77). -/
theorem doShared_eq_setCore (s : State) (c : Fin 10) (a : SharedAcc) :
    s.doShared c a = { s.setCore c (match (memEffect s.data a.off a.op).2 with
      | some (d, v) => ({ s.core c with shared := none } : Core).wreg d v
      | none => { s.core c with shared := none }) with data := (memEffect s.data a.off a.op).1 } := by
  unfold State.doShared
  cases a.op with
  | load d n signed => exact modCore_setCore s c { s.core c with shared := none } _
  | store n v => rfl
  | amo d func v cmp =>
    exact modCore_setCore { s with data := (memEffect s.data a.off (.amo d func v cmp)).1 } c { s.core c with shared := none } _

/-! ### An uncorrectable error -/

theorem eccTrap_issued (s : State) (c : Fin 10) (t : Core) (cyc : Nat) (k : Fin 8) (a : DWord) :
    Traps (if c.val = 9 then (s.eccUp 7).raise 0x1806 3 else (s.eccUp k).raiseAt (s.coreTime cyc) 0x0401 2 true) c
      (.next ((s.setCore c ((s.core c).retimed t)).eccTrap c cyc k a)) 4 a := by
  unfold State.eccTrap
  by_cases hc : c.val = 9
  · rw [if_pos hc, if_pos hc]
    exact traps_except ((s.eccUp 7).raise 0x1806 3) c t cyc 4 a
  · rw [if_neg hc, if_neg hc]
    exact traps_except ((s.eccUp k).raiseAt (s.coreTime cyc) 0x0401 2 true) c t cyc 4 a

theorem region_sdata {s : State} {c : Fin 10} {a off : Nat} (h : s.region c a = .sdata off) : c.val = 9 := by
  by_contra hc
  have hlt : c.val < 9 := by omega
  have hplace := region_planner s ⟨c.val, hlt⟩ a
  rw [show (⟨c.val, hlt⟩ : Fin 9).castSucc = c from rfl, h] at hplace
  nomatch hplace

/-- An operation on a word of data SRAM or of the safety core's data that has an uncorrectable error raises MEM_ECC. -/
theorem access_uncorrected {s : State} {c : Fin 10} {a : DWord} {size : Nat} {op : SharedOp} (t : Core) (cyc : Nat)
    (hal : a.toNat % size = 0) (hop : op.isAmo = true → c.val ≠ 9)
    (hreg : ∃ off sh, s.region c a.toNat = .data off sh ∨ s.region c a.toNat = .sdata off) :
    ∃ m : Fin 8, (c.val ≠ 9 → m = 1) ∧ (s.setCore c ((s.core c).retimed t)).access c cyc a size op .uncorr =
      (s.setCore c ((s.core c).retimed t)).eccTrap c cyc m a := by
  have hregion : (s.setCore c ((s.core c).retimed t)).region c a.toNat = s.region c a.toNat := rfl
  obtain ⟨off, sh, hreg | hreg⟩ := hreg
  · refine ⟨1, fun _ => rfl, ?_⟩
    cases sh with
    | true => rw [access_shared hal (hregion.trans hreg), if_pos (beq_self_eq_true _)]
    | false => rw [access_data hal (hregion.trans hreg), if_pos (beq_self_eq_true _)]
  · have hc : c.val = 9 := region_sdata hreg
    refine ⟨7, fun h => absurd hc h, ?_⟩
    have hamo : op.isAmo = false := Bool.eq_false_iff.mpr fun h => hop h hc
    rw [access_sdata hal (hregion.trans hreg), if_neg (by simpa using hamo), if_pos (beq_self_eq_true _)]

theorem access_code_uncorrected {s : State} {c : Fin 10} {a : DWord} {size off : Nat} {op : SharedOp} (t : Core) (cyc : Nat)
    (hal : a.toNat % size = 0) (hop : op.isLoad = true) (hreg : s.region c a.toNat = .code off) :
    (s.setCore c ((s.core c).retimed t)).access c cyc a size op .uncorr =
      (s.setCore c ((s.core c).retimed t)).eccTrap c cyc 0 a := by
  have hregion : (s.setCore c ((s.core c).retimed t)).region c a.toNat = .code off := hreg
  rw [access_code_load hal hregion hop, if_pos (beq_self_eq_true _)]

/-- The state in which the error is counted and reported, before the trap. -/
def State.eccReported (s : State) (c : Fin 10) (k : Fin 8) (t : DWord) : State :=
  if c.val = 9 then (s.eccUp 7).raise 0x1806 3 else (s.eccUp k).raiseAt t 0x0401 2 true

theorem eccReported_memory {s : State} {c : Fin 10} {m k : Fin 8} (h : c.val ≠ 9 → m = k) (t : DWord) :
    s.eccReported c m t = s.eccReported c k t := by
  unfold State.eccReported
  by_cases hc : c.val = 9
  · rw [if_pos hc, if_pos hc]
  · rw [h hc]

/-- An instruction whose access meets an uncorrectable error in data traps with MEM_ECC. -/
theorem uncorrected_traps {s : State} {c : Fin 10} {cls : IssClass} {srcs : List CReg} {dst : Option CReg}
    {f : State → Nat → State} {a : DWord} {size : Nat} {op : SharedOp} (h : s.mayRun c cls srcs dst = true)
    (hf : ∀ t cyc, f (s.setCore c ((s.core c).retimed t)) cyc =
      (s.setCore c ((s.core c).retimed t)).access c cyc a size op .uncorr)
    (hal : a.toNat % size = 0) (hop : op.isAmo = true → c.val ≠ 9)
    (hreg : ∃ off sh, s.region c a.toNat = .data off sh ∨ s.region c a.toNat = .sdata off) :
    ∃ t, Traps (s.eccReported c 1 t) c (s.execWith c cls srcs dst f) 4 a := by
  obtain ⟨t, ht⟩ := execWith_of_mayRun (f := f) h
  obtain ⟨m, hm, hacc⟩ := access_uncorrected t (s.issueCycle c cls srcs dst) hal hop hreg
  refine ⟨s.coreTime (s.issueCycle c cls srcs dst), ?_⟩
  rw [ht, hf, hacc, ← eccReported_memory hm]
  exact eccTrap_issued s c t _ m a

end Sys2Proof.Machine

open Sys2Proof Sys2Proof.Machine

/-- Settles O10. -/
theorem atomicResults : Obligations.AtomicResults :=
  ⟨amo_atomicResult (fun _ _ _ _ _ _ => rfl) fun _ _ _ => rfl, amo_atomicResult (fun _ _ _ _ _ _ => rfl) fun _ _ _ => rfl,
    amo_atomicResult (fun _ _ _ _ _ _ => rfl) fun _ _ _ => rfl, amo_atomicResult (fun _ _ _ _ _ _ => rfl) fun _ _ _ => rfl,
    amo_atomicResult (fun _ _ _ _ _ _ => rfl) amoNew_max, amo_atomicResult (fun _ _ _ _ _ _ => rfl) amoNew_min,
    amo_atomicResult (fun _ _ _ _ _ _ => rfl) fun _ _ _ => rfl, fun s c a ha hnext => by
      refine (sharedSlotAccess_performs ha hnext).trans (congrArg Host.Outcome.next ?_)
      rw [doShared_eq_setCore]
      cases a.op with
      | load d n signed => rfl
      | store n v => rfl
      | amo d func v cmp => rfl⟩

/-- Settles O11. -/
theorem uncorrectableErrorsTrap : Obligations.UncorrectableErrorsTrap := by
  intro s c rd ra imm a e held
  refine ⟨fun h hal hheld => ?load, fun h hal hcode => ?code, fun h hheld => ?store, fun d rb h hal hheld => ?atomic⟩
  case load =>
    exact uncorrected_traps (f := loadEffect c ra imm (.g rd) 4 true .uncorr) (op := .load (.g rd) 4 true) h
      (fun t cyc => by rw [loadEffect, core_setCore]; rfl) hal (by simp [SharedOp.isAmo]) hheld
  case code =>
    obtain ⟨off, hreg⟩ := hcode
    obtain ⟨t, ht⟩ := execWith_of_mayRun (f := loadEffect c ra imm (.g rd) 4 true .uncorr) h
    refine ⟨s.coreTime (s.issueCycle c .load [.g ra] (dstG rd)), ?_⟩
    have hexec : exec (.lw c rd ra imm .uncorr) s = _ := ht
    rw [hexec, loadEffect, core_setCore]
    have hacc := access_code_uncorrected (op := .load (.g rd) 4 true) t (s.issueCycle c .load [.g ra] (dstG rd)) hal rfl hreg
    refine (congrArg (fun u => Traps _ c (.next u) 4 a) hacc).mpr ?_
    exact eccTrap_issued s c t _ 0 a
  case store =>
    exact uncorrected_traps (f := storeEffect c ra imm (fun k => k.rg rd) 1 .uncorr) (op := .store 1 ((s.core c).rg rd)) h
      (fun t cyc => by rw [storeEffect, core_setCore]; rfl) (Nat.mod_one _) (by simp [SharedOp.isAmo]) hheld
  case atomic =>
    obtain ⟨off, sh, hreg⟩ := hheld
    exact uncorrected_traps (f := amoEffect d rd ra rb 1 .uncorr)
      (op := .amo rd 1 ((s.core d.castSucc).rg rb) ((s.core d.castSucc).rg rd)) h
      (fun t cyc => by rw [amoEffect, core_setCore]; rfl) hal (fun _ => castSucc_val_ne_nine d) ⟨off, sh, .inl hreg⟩
end

section
/-! Loads and stores of the safety core through its BAR0 window (R12, R114, R347, R491, R513). -/

namespace Sys2Proof.Machine

theorem region_window {s : State} {a off : Nat} (h : off < 0x2000000) (ha : a = 0x41000000 + off) : s.region 9 a = .bar0 off := by
  subst ha
  unfold State.region
  rw [if_pos (show (9 : Fin 10).val = 9 from rfl), if_neg (by omega), if_neg (by omega), if_neg (by omega), if_pos (by omega),
    Nat.add_sub_cancel_left]

section
variable {s : State} {c : Fin 10} {cyc : Nat} {a : DWord} {size off : Nat} {op : SharedOp} {err : Ecc}

/-- A window access of less than a word is counted and refused (R513). -/
theorem access_window_small (h : a.toNat % size = 0) (hreg : s.region c a.toNat = .bar0 off) (hsize : size < 4) :
    s.access c cyc a size op err =
      (s.modHost fun h => { h with badSize := satAdd 65535 h.badSize 1 }).except c cyc 2 a := by
  unfold State.access
  dsimp only
  rw [if_neg (access_aligned h), hreg]
  exact if_pos hsize

/-- A window access that reaches no register is counted and refused (R513). -/
theorem access_window_unmapped (h : a.toNat % size = 0) (hreg : s.region c a.toNat = .bar0 off) (hsize : ¬ size < 4)
    (hknown : bar0Known off size = false) : s.access c cyc a size op err =
      (s.modHost fun h => { h with unmapped := satAdd 65535 h.unmapped 1 }).except c cyc 2 a := by
  unfold State.access
  dsimp only
  rw [if_neg (access_aligned h), hreg]
  exact (if_neg hsize).trans (if_pos (by simp [hknown]))

theorem access_window_load {d : CReg} {n : Nat} {signed : Bool} (h : a.toNat % size = 0) (hreg : s.region c a.toNat = .bar0 off)
    (hsize : ¬ size < 4) (hknown : bar0Known off size = true) (hok : s.accKind .saf false off = .ok) :
    s.access c cyc a size (.load d n signed) err = (s.readBar0 .saf off n).2.modCore c fun k =>
      k.accessed (.load d n signed) cyc (some (d, loadValue signed n (leBytes (s.readBar0 .saf off n).1 n))) := by
  unfold State.access
  dsimp only
  rw [if_neg (access_aligned h), hreg]
  refine ((if_neg hsize).trans (if_neg (by simp [hknown]))).trans ?_
  rw [Bool.not_true, hok]
  rfl

theorem access_window_store {n : Nat} {v : DWord} (h : a.toNat % size = 0) (hreg : s.region c a.toNat = .bar0 off)
    (hsize : ¬ size < 4) (hknown : bar0Known off size = true) (hok : s.accKind .saf true off = .ok) :
    s.access c cyc a size (.store n v) err = (s.writeBar0 .saf off n v s.now).modCore c fun k =>
      k.accessed (.store n v) cyc none := by
  unfold State.access
  dsimp only
  rw [if_neg (access_aligned h), hreg]
  refine ((if_neg hsize).trans (if_neg (by simp [hknown]))).trans ?_
  rw [Bool.not_false, hok]
  rfl

/-- A store to a register whose clock domain is stopped is dropped, with its result in the mailbox (R491). -/
theorem access_window_stopped {n : Nat} {v : DWord} (h : a.toNat % size = 0) (hreg : s.region c a.toNat = .bar0 off)
    (hsize : ¬ size < 4) (hknown : bar0Known off size = true) (hstop : s.accKind .saf true off = .stopped) :
    s.access c cyc a size (.store n v) err = (s.stoppedError .saf true).modCore c fun k => k.accessed (.store n v) cyc none := by
  unfold State.access
  dsimp only
  rw [if_neg (access_aligned h), hreg]
  refine ((if_neg hsize).trans (if_neg (by simp [hknown]))).trans ?_
  rw [Bool.not_false, hstop]
  rfl

end

/-- A word that a window read returns, sign-extended (R108). -/
theorem loadValue_word (v : Nat) : loadValue true 4 (leBytes v 4) = (BitVec.ofNat 32 v).signExtend 64 :=
  loadValue_signed 4 rfl (by decide) (by rw [leVal_leBytes, BitVec.toNat_ofNat]; rfl)

/-- A core left by an access that ends at once keeps all but its issue bookkeeping, besides the register it writes. -/
theorem accessed_word (k : Core) (n : Nat) (signed : Bool) (cyc : Nat) (rd : Fin 32) (v : DWord) :
    ∃ u, k.accessed (.load (.g rd) n signed) cyc (some (.g rd, v)) = (k.wg rd v).adv.retimed u := by
  refine ⟨(k.wg rd v).pendMem (.load (.g rd) n signed) cyc, ?_⟩
  unfold Core.accessed
  dsimp only
  rw [pendMem_eq_retimed]
  rfl

/-- What the safety core's window makes of an access of less than a word. -/
def State.badSizeCounted (s : State) : State := { s with host := { s.host with badSize := min 65535 (s.host.badSize + 1) } }

def State.unmappedCounted (s : State) : State := { s with host := { s.host with unmapped := min 65535 (s.host.unmapped + 1) } }

theorem window_small_traps {s : State} {cls : IssClass} {srcs : List CReg} {dst : Option CReg} {f : State → Nat → State}
    {a : DWord} {size off : Nat} {op : SharedOp} {err : Ecc} (h : s.mayRun 9 cls srcs dst = true)
    (hf : ∀ t cyc, f (s.setCore 9 ((s.core 9).retimed t)) cyc = (s.setCore 9 ((s.core 9).retimed t)).access 9 cyc a size op err)
    (hal : a.toNat % size = 0) (hreg : s.region 9 a.toNat = .bar0 off) (hsize : size < 4) :
    Traps s.badSizeCounted 9 (s.execWith 9 cls srcs dst f) 2 a := by
  obtain ⟨t, ht⟩ := execWith_of_mayRun (f := f) h
  have hregion : (s.setCore 9 ((s.core 9).retimed t)).region 9 a.toNat = .bar0 off := hreg
  rw [ht, hf, access_window_small hal hregion hsize]
  exact traps_except s.badSizeCounted 9 t _ 2 a

theorem window_unmapped_traps {s : State} {cls : IssClass} {srcs : List CReg} {dst : Option CReg} {f : State → Nat → State}
    {a : DWord} {size off : Nat} {op : SharedOp} {err : Ecc} (h : s.mayRun 9 cls srcs dst = true)
    (hf : ∀ t cyc, f (s.setCore 9 ((s.core 9).retimed t)) cyc = (s.setCore 9 ((s.core 9).retimed t)).access 9 cyc a size op err)
    (hal : a.toNat % size = 0) (hreg : s.region 9 a.toNat = .bar0 off) (hsize : ¬ size < 4) (hknown : bar0Known off size = false) :
    Traps s.unmappedCounted 9 (s.execWith 9 cls srcs dst f) 2 a := by
  obtain ⟨t, ht⟩ := execWith_of_mayRun (f := f) h
  have hregion : (s.setCore 9 ((s.core 9).retimed t)).region 9 a.toNat = .bar0 off := hreg
  rw [ht, hf, access_window_unmapped hal hregion hsize hknown]
  exact traps_except s.unmappedCounted 9 t _ 2 a

theorem loadEffect_issued (s : State) (ra : Fin 32) (imm : BitVec 12) (d : CReg) (n : Nat) (signed : Bool) (err : Ecc) (t : Core)
    (cyc : Nat) : loadEffect 9 ra imm d n signed err (s.setCore 9 ((s.core 9).retimed t)) cyc =
      (s.setCore 9 ((s.core 9).retimed t)).access 9 cyc ((s.core 9).rg ra + imm.signExtend 64) n (.load d n signed) err := by
  rw [loadEffect, core_setCore]
  rfl

theorem storeEffect_issued (s : State) (ra rd : Fin 32) (imm : BitVec 12) (n : Nat) (err : Ecc) (t : Core) (cyc : Nat) :
    storeEffect 9 ra imm (fun k => k.rg rd) n err (s.setCore 9 ((s.core 9).retimed t)) cyc =
      (s.setCore 9 ((s.core 9).retimed t)).access 9 cyc ((s.core 9).rg ra + imm.signExtend 64) n (.store n ((s.core 9).rg rd)) err := by
  rw [storeEffect, core_setCore]
  rfl

section
variable {s : State} {rd ra : Fin 32} {imm : BitVec 12} {off : Nat} {e : Ecc}

theorem window_lw {a : DWord} (ha : a = (s.core 9).rg ra + imm.signExtend 64) (hal : a.toNat % 4 = 0)
    (hreg : s.region 9 a.toNat = .bar0 off) (h : s.mayRun 9 .load [.g ra] (dstG rd) = true) (hknown : bar0Known off 4 = true)
    (hok : s.accKind .saf false off = .ok) :
    ∃ t u : Core, let s1 := s.setCore 9 ((s.core 9).retimed t)
      exec (.lw 9 rd ra imm e) s = .next ((s1.readBar0 .saf off 4).2.modCore 9 fun k =>
        (k.wg rd ((BitVec.ofNat 32 (s1.readBar0 .saf off 4).1).signExtend 64)).adv.retimed u) := by
  subst ha
  obtain ⟨t, ht⟩ := execWith_of_mayRun (f := loadEffect 9 ra imm (.g rd) 4 true e) h
  have hregion : (s.setCore 9 ((s.core 9).retimed t)).region 9 ((s.core 9).rg ra + imm.signExtend 64).toNat = .bar0 off := hreg
  rw [loadEffect_issued, access_window_load hal hregion (by decide) hknown hok, loadValue_word] at ht
  obtain ⟨u, hu⟩ := accessed_word (((s.setCore 9 ((s.core 9).retimed t)).readBar0 .saf off 4).2.core 9) 4 true
    (s.issueCycle 9 .load [.g ra] (dstG rd)) rd
    ((BitVec.ofNat 32 ((s.setCore 9 ((s.core 9).retimed t)).readBar0 .saf off 4).1).signExtend 64)
  exact ⟨t, u, ht.trans (congrArg (fun k => Host.Outcome.next (State.setCore _ 9 k)) hu)⟩

theorem window_sw {a : DWord} (ha : a = (s.core 9).rg ra + imm.signExtend 64) (hal : a.toNat % 4 = 0)
    (hreg : s.region 9 a.toNat = .bar0 off) (h : s.mayRun 9 .store [.g ra, .g rd] none = true) (hknown : bar0Known off 4 = true)
    (hok : s.accKind .saf true off = .ok) :
    ∃ t u : Core, let s1 := s.setCore 9 ((s.core 9).retimed t)
      exec (.sw 9 rd ra imm e) s = .next ((s1.writeBar0 .saf off 4 ((s.core 9).rg rd) s1.now).modCore 9 fun k => k.adv.retimed u) := by
  subst ha
  obtain ⟨t, ht⟩ := execWith_of_mayRun (f := storeEffect 9 ra imm (fun k => k.rg rd) 4 e) h
  have hregion : (s.setCore 9 ((s.core 9).retimed t)).region 9 ((s.core 9).rg ra + imm.signExtend 64).toNat = .bar0 off := hreg
  rw [storeEffect_issued, access_window_store hal hregion (by decide) hknown hok] at ht
  exact ⟨t, State.core _ 9, ht⟩

theorem window_sw_stopped {a : DWord} (ha : a = (s.core 9).rg ra + imm.signExtend 64) (hal : a.toNat % 4 = 0)
    (hreg : s.region 9 a.toNat = .bar0 off) (h : s.mayRun 9 .store [.g ra, .g rd] none = true) (hknown : bar0Known off 4 = true)
    (hstop : s.accKind .saf true off = .stopped) :
    ∃ t : Core, exec (.sw 9 rd ra imm e) s = .next { s.setCore 9 ((s.core 9).adv.retimed t) with
      saf := { s.saf with mbx := { s.saf.mbx with result := 0xFFFE } } } := by
  subst ha
  obtain ⟨t, ht⟩ := execWith_of_mayRun (f := storeEffect 9 ra imm (fun k => k.rg rd) 4 e) h
  have hregion : (s.setCore 9 ((s.core 9).retimed t)).region 9 ((s.core 9).rg ra + imm.signExtend 64).toNat = .bar0 off := hreg
  rw [storeEffect_issued, access_window_stopped hal hregion (by decide) hknown hstop] at ht
  obtain ⟨u, hu⟩ := accessed_none (s.stoppedError .saf true) 9 (s.core 9) t (.store 4 ((s.core 9).rg rd))
    (s.issueCycle 9 .store [.g ra, .g rd] none)
  exact ⟨u, ht.trans (congrArg Host.Outcome.next hu)⟩

end

end Sys2Proof.Machine

open Sys2Proof Sys2Proof.Machine

/-- Settles O35. -/
theorem safetyCoreWindowAccesses : Obligations.SafetyCoreWindowAccesses := by
  intro s rd ra imm off e k a hoff ha
  have hreg : s.region 9 a.toNat = .bar0 off := region_window hoff ha
  have hword : off % 4 = 0 → a.toNat % 4 = 0 := by omega
  have hhalf : off % 2 = 0 → a.toNat % 2 = 0 := by omega
  have hload : ∀ (n : Nat) (signed : Bool) (t : Core) (cyc : Nat), loadEffect 9 ra imm (.g rd) n signed e (s.setCore 9 (k.retimed t)) cyc =
      (s.setCore 9 (k.retimed t)).access 9 cyc a n (.load (.g rd) n signed) e := fun n signed t cyc => loadEffect_issued ..
  have hstore : ∀ (n : Nat) (t : Core) (cyc : Nat), storeEffect 9 ra imm (fun k => k.rg rd) n e (s.setCore 9 (k.retimed t)) cyc =
      (s.setCore 9 (k.retimed t)).access 9 cyc a n (.store n (k.rg rd)) e := fun n t cyc => storeEffect_issued ..
  refine ⟨fun h hal hknown hok => window_lw rfl (hword hal) hreg h hknown hok,
    fun h hal hknown => window_unmapped_traps h (hload 4 true) (hword hal) hreg (by decide) hknown, fun h => ⟨?_, ?_, fun hal => ⟨?_, ?_⟩⟩,
    fun h => ⟨?_, fun hal => ?_, fun hal hknown => window_unmapped_traps h (hstore 4) (hword hal) hreg (by decide) hknown⟩,
    fun h hal hknown hok => window_sw rfl (hword hal) hreg h hknown hok,
    fun h hal hknown hstop => window_sw_stopped rfl (hword hal) hreg h hknown hstop⟩
  · exact window_small_traps h (hload 1 true) (Nat.mod_one _) hreg (by decide)
  · exact window_small_traps h (hload 1 false) (Nat.mod_one _) hreg (by decide)
  · exact window_small_traps h (hload 2 true) (hhalf hal) hreg (by decide)
  · exact window_small_traps h (hload 2 false) (hhalf hal) hreg (by decide)
  · exact window_small_traps h (hstore 1) (Nat.mod_one _) hreg (by decide)
  · exact window_small_traps h (hstore 2) (hhalf hal) hreg (by decide)
end

section
/-! Publication, host commands, the journal and the queries of a planner core (R86, R119, R120, R136–R143, R501). -/

namespace Sys2Proof.Machine

@[simp] theorem begun_jrn (s : State) (c : Fin 9) (t : Core) : (s.begun c t).jrn = s.jrn := (rfl)
@[simp] theorem begun_host (s : State) (c : Fin 9) (t : Core) : (s.begun c t).host = s.host := (rfl)
@[simp] theorem begun_route (s : State) (c : Fin 9) (t : Core) (cls source : Nat) :
    (s.begun c t).route cls source = s.route cls source := (rfl)
@[simp] theorem begun_replayLeft (s : State) (c : Fin 9) (t : Core) : (s.begun c t).replayLeft c = s.replayLeft c := (rfl)
@[simp] theorem begun_ownReqs (s : State) (c : Fin 9) (t : Core) (p : Req → Bool) :
    (s.begun c t).ownReqs c p = s.ownReqs c p := (rfl)
@[simp] theorem begun_outstanding (s : State) (c : Fin 9) (t : Core) (seq : Word) :
    (s.begun c t).outstanding c seq = s.outstanding c seq := (rfl)
@[simp] theorem begun_profItem (s : State) (c : Fin 9) (t : Core) (i : Nat) : (s.begun c t).profItem c i = s.profItem c i := (rfl)
@[simp] theorem begun_capVersion (s : State) (c : Fin 9) (t : Core) (i : Nat) : (s.begun c t).capVersion i = s.capVersion i := (rfl)
@[simp] theorem begun_pubcyc (s : State) (c : Fin 9) (t : Core) : (s.begun c t).pubcyc = s.pubcyc := (rfl)

theorem begun_setCore (s : State) (c : Fin 9) (k t : Core) :
    (s.setCore c.castSucc k).begun c t = s.setCore c.castSucc (k.retimed t) := by
  rw [State.begun, core_setCore, setCore_setCore]

/-- A change of the core that leaves the issue bookkeeping alone commutes with issuing. -/
theorem begun_modCore {f : Core → Core} (s : State) (c : Fin 9) (t : Core) (hf : ∀ k t, f (Core.retimed k t) = (f k).retimed t) :
    (s.begun c t).modCore c.castSucc f = (s.modCore c.castSucc f).begun c t := by
  rw [State.begun, modCore_setCore, hf, modCore_eq, begun_setCore]

/-- The state with another data SRAM and another host side. -/
def State.withData (s : State) (data : Memory) (host : HostIf) : State := { s with data := data, host := host }

theorem begun_withData (s : State) (c : Fin 9) (t : Core) (data : Memory) (host : HostIf) :
    (s.withData data host).begun c t = (s.begun c t).withData data host := rfl

theorem modCore_withData (s : State) (c : Fin 10) (f : Core → Core) (data : Memory) (host : HostIf) :
    (s.withData data host).modCore c f = (s.modCore c f).withData data host := rfl

/-- The state with another data SRAM and another journal. -/
def State.withJournal (s : State) (data : Memory) (jrn : Journal) : State := { s with data := data, jrn := jrn }

theorem begun_withJournal (s : State) (c : Fin 9) (t : Core) (data : Memory) (jrn : Journal) :
    (s.withJournal data jrn).begun c t = (s.begun c t).withJournal data jrn := rfl

/-- A cell instruction whose result depends on the cycle it issues in completes with what it answers in that cycle. -/
theorem cellDone_at_issue {s u : State} {c : Fin 9} {rd : Fin 32} {srcs : List CReg} {f : State → Nat → CellAns} {n : Nat} {v : DWord}
    (h : s.mayRun c.castSucc (.cell 1) srcs (dstG rd) = true)
    (hf : ∀ t, f (s.begun c t) (s.issueCycle c.castSucc (.cell 1) srcs (dstG rd)) = .done n v (u.begun c t)) :
    CellDone c rd (s.cell c rd srcs f) v u := by
  obtain ⟨t, ht⟩ := cell_of_mayRun (f := f) h
  have hcyc : s.cellCycle c rd srcs = s.issueCycle c.castSucc (.cell 1) srcs (dstG rd) := rfl
  rw [ht, hcyc, hf]
  refine ⟨(((u.core c.castSucc).retimed t).wg rd v).lengthen rd (s.cellCycle c rd srcs) n, ?_⟩
  simp only [State.begun, modCore_setCore, retimed_wg]
  rfl

theorem noting_clean (a : CellAns) : a.noting .clean = a := by
  cases a <;> rfl

theorem withBytes_clean {s : State} {c : Fin 9} {a len off : Nat} {f : List Byte → CellAns} (h : s.operand c a len .clean = .inr off) :
    s.withBytes c a len .clean f = f (s.data.readN off len) := by
  unfold State.withBytes
  rw [h]
  exact noting_clean _

theorem toNat_ofNat_small {n : Nat} (h : n ≤ 256) : (BitVec.ofNat 64 n).toNat = n := by
  rw [BitVec.toNat_ofNat]
  exact Nat.mod_eq_of_lt (by omega)

/-! ### HPUB and APUB -/

section
variable {s : State} {c : Fin 9} {rd ra rb : Fin 32} {func : BitVec 12} {off n : Nat}

/-- What HPUB does with the state it begins in. -/
def hpubBody (c : Fin 9) (rd ra rb : Fin 32) (func : BitVec 12) (err : Ecc) (s : State) (_ : Nat) : CellAns :=
  let f := func.toNat
  let n := (s.rgOf c rb).toNat
  let word := wordR 0x13 rd.val ra.val rb.val f
  if 2 ≤ f then .trap 1 word
  else if f = 0 && (armOf c).isNone then .trap 8 word
  else if 8 < n then .trap 9 word
  else
    let fin (recs : List (List Byte)) : CellAns := .done (2 + 4 * n) 0 (s.request c (.hpub f recs))
    if n = 0 then fin []
    else s.withBytes c (s.rgOf c ra).toNat (32 * n) err fun b =>
      fin ((List.range n).map fun i => bytesAt b (32 * i) 32)

theorem hpub_eq (err : Ecc) : exec (.hpub c rd ra rb func err) s = s.cell c rd [.g ra, .g rb] (hpubBody c rd ra rb func err) := rfl

/-- HPUB of an admitted kind on up to 8 records reaches its operand. -/
theorem hpubBody_of_admitted (hf : func.toNat < 2) (harm : func = 0 → c ≠ 8) (hn : n ≤ 8) {u : State} {err : Ecc} (cyc : Nat)
    (hb : (u.rgOf c rb).toNat = n) : hpubBody c rd ra rb func err u cyc =
      if n = 0 then .done 2 0 (u.request c (.hpub func.toNat []))
      else u.withBytes c (u.rgOf c ra).toNat (32 * n) err fun b =>
        .done (2 + 4 * n) 0 (u.request c (.hpub func.toNat ((List.range n).map fun i => bytesAt b (32 * i) 32))) := by
  have hrole : ¬ (decide (func.toNat = 0) && (armOf c).isNone) = true := by
    rw [Bool.and_eq_true, decide_eq_true_eq]
    rintro ⟨h0, hnone⟩
    obtain ⟨k, -, hk⟩ := armOf_of_ne (harm (BitVec.eq_of_toNat_eq h0))
    rw [hk] at hnone
    cases hnone
  unfold hpubBody
  dsimp only
  rw [hb, if_neg (by omega), if_neg hrole, if_neg (by omega)]
  by_cases h0 : n = 0
  · rw [if_pos h0, if_pos h0, h0]
  · rw [if_neg h0, if_neg h0]

variable (h : s.mayRun c.castSucc (.cell 1) [.g ra, .g rb] (dstG rd) = true) (hrb : (s.core c.castSucc).rg rb = BitVec.ofNat 64 n)
include h hrb

theorem hpub_publishes (hf : func.toNat < 2) (harm : func = 0 → c ≠ 8) (hpos : 1 ≤ n) (hn : n ≤ 8)
    (hop : s.operand c ((s.core c.castSucc).rg ra).toNat (32 * n) .clean = .inr off) :
    CellDone c rd (exec (.hpub c rd ra rb func .clean) s) 0 { s with reqs := s.reqs ++ [⟨c, s.epoch,
      .hpub func.toNat ((List.range n).map fun i => bytesAt (s.data.readN off (32 * n)) (32 * i) 32)⟩] } := by
  rw [hpub_eq]
  refine cellDone_of_done (n := 2 + 4 * n) h fun t cyc => ?_
  rw [hpubBody_of_admitted hf harm hn cyc (by rw [begun_rgOf, hrb, toNat_ofNat_small (by omega)]), if_neg (by omega), begun_rgOf,
    withBytes_clean (s := s.begun c t) hop]
  rfl

theorem hpub_publishes_none (hf : func.toNat < 2) (harm : func = 0 → c ≠ 8) (hn : n = 0) :
    CellDone c rd (exec (.hpub c rd ra rb func .clean) s) 0 { s with reqs := s.reqs ++ [⟨c, s.epoch, .hpub func.toNat []⟩] } := by
  rw [hpub_eq]
  refine cellDone_of_done (n := 2) h fun t cyc => ?_
  rw [hpubBody_of_admitted (n := n) hf harm (by omega) cyc (by rw [begun_rgOf, hrb, toNat_ofNat_small (by omega)]), if_pos hn]
  rfl

end

/-- What APUB does with the state it begins in. -/
def apubBody (c : Fin 9) (rd ra rb : Fin 32) (err : Ecc) (s : State) (cyc : Nat) : CellAns :=
  let n := (s.rgOf c rb).toNat
  let word := wordR 0x14 rd.val ra.val rb.val 0
  if n % 8 != 0 || n < 8 || 256 < n then .trap 9 word
  else s.withBytes c (s.rgOf c ra).toNat n err fun b =>
    .done (2 + n / 8) 0 (s.modCore c.castSucc fun k =>
      if cyc < s.pubcyc then { k with areaNow := some b } else { k with areaNext := some b })

/-- The program area of this tick's Almanac takes the bytes before PUBCYC, that of the next tick's from then on (R137). -/
def Core.published (k : Core) (now : Prop) [Decidable now] (b : List Byte) : Core :=
  if now then { k with areaNow := some b } else { k with areaNext := some b }

theorem published_retimed (k t : Core) (now : Prop) [Decidable now] (b : List Byte) :
    (k.retimed t).published now b = (k.published now b).retimed t := by
  unfold Core.published
  split <;> rfl

theorem apub_publishes {s : State} {c : Fin 9} {rd ra rb : Fin 32} {off n : Nat}
    (h : s.mayRun c.castSucc (.cell 1) [.g ra, .g rb] (dstG rd) = true) (hrb : (s.core c.castSucc).rg rb = BitVec.ofNat 64 n)
    (hmul : n % 8 = 0) (hpos : 8 ≤ n) (hn : n ≤ 256) (hop : s.operand c ((s.core c.castSucc).rg ra).toNat n .clean = .inr off) :
    CellDone c rd (exec (.apub c rd ra rb 0 .clean) s) 0 (s.setCore c.castSucc ((s.core c.castSucc).published
      (s.issueCycle c.castSucc (.cell 1) [.g ra, .g rb] (dstG rd) < s.pubcyc) (s.data.readN off n))) := by
  have hexec : exec (.apub c rd ra rb 0 .clean) s = s.cell c rd [.g ra, .g rb] (apubBody c rd ra rb .clean) := rfl
  rw [hexec]
  refine cellDone_at_issue (n := 2 + n / 8) h fun t => ?_
  have hb : ((s.begun c t).rgOf c rb).toNat = n := by rw [begun_rgOf, hrb, toNat_ofNat_small hn]
  unfold apubBody
  dsimp only
  rw [hb, if_neg (by simp; omega), begun_rgOf, withBytes_clean (s := s.begun c t) hop]
  refine congrArg (CellAns.done _ _) ?_
  refine (modCore_setCore s _ _ _).trans ?_
  refine (congrArg (s.setCore c.castSucc) (published_retimed _ t _ _)).trans ?_
  rw [begun_setCore]
  rfl

/-! ### RTAKE -/

/-- What RTAKE does with ring `r` and its operand at `off`. -/
def rtakeRing (c : Fin 9) (r : Fin 4) (off : Nat) (s : State) (cyc : Nat) : CellAns :=
  if s.replayLeft c != 0 then .done 10 (refuse 0xC (s.replayLeft c)) s
  else match s.host.rings[r].released with
    | [] => .done 10 (refuse 8 0) s
    | (idx, bytes) :: rest =>
      let s2 := { s with
        data := s.data.writeN off (bytesAt bytes 0 64)
        host := { s.host with rings := vmod s.host.rings r fun q => { q with
          released := rest, cons := q.cons + 1, late := if cyc < s.pubcyc then q.late else q.late + 1 } } }
      let s3 := s2.modCore c.castSucc fun k => { k with lastTake := some (BitVec.ofNat 8 r.val, idx) }
      .done 10 ((s3.host.rings[r].cons).setWidth 64) s3

/-- What RTAKE does with the state it begins in. -/
def rtakeBody (c : Fin 9) (rd ra rb : Fin 32) (s : State) (cyc : Nat) : CellAns :=
  let v := (s.rgOf c rb).toNat
  let r : Fin 4 := ⟨v % 4, Nat.mod_lt _ (by decide)⟩
  let word := wordR 0x15 rd.val ra.val rb.val 0
  if s.route 1 r.val != c then .trap 8 word
  else if 4 ≤ v then .trap 9 word
  else match s.operand c (s.rgOf c ra).toNat 64 .clean with
    | .inl e => .trap e.1 e.2
    | .inr off => rtakeRing c r off s cyc

section
variable {s : State} {c : Fin 9} {rd ra rb : Fin 32} {r : Fin 4} {off : Nat}

theorem rtake_eq : exec (.rtake c rd ra rb) s = s.cell c rd [.g ra, .g rb] (rtakeBody c rd ra rb) := rfl

/-- RTAKE of a ring routed to its core, with a good operand, comes to the ring. -/
theorem rtakeBody_of_routed (hrb : (s.core c.castSucc).rg rb = BitVec.ofNat 64 r.val) (hroute : s.route 1 r.val = c)
    (hop : s.operand c ((s.core c.castSucc).rg ra).toNat 64 .clean = .inr off) (t : Core) (cyc : Nat) :
    rtakeBody c rd ra rb (s.begun c t) cyc = rtakeRing c r off (s.begun c t) cyc := by
  have hr := r.isLt
  have hv : ((s.begun c t).rgOf c rb).toNat = r.val := by rw [begun_rgOf, hrb, toNat_ofNat_small (by omega)]
  unfold rtakeBody
  dsimp only
  simp only [hv, Nat.mod_eq_of_lt hr]
  rw [begun_route, hroute, if_neg (by simp), if_neg (by omega), begun_rgOf, begun_operand, hop]

/-- A ring with a released entry gives up the oldest. -/
def Ring.taken (q : Ring) (rest : List (Word × List Byte)) (early : Prop) [Decidable early] : Ring :=
  { q with released := rest, cons := q.cons + 1, late := if early then q.late else q.late + 1 }

theorem rtakeRing_replays (h : s.jrn.replay[c] ≠ []) (t : Core) (cyc : Nat) : rtakeRing c r off (s.begun c t) cyc =
    .done 10 (refusalWord (BitVec.ofNat 32 (s.jrn.replay[c]).length) 0xC) (s.begun c t) := by
  have hleft : (s.begun c t).replayLeft c = (s.jrn.replay[c]).length := rfl
  unfold rtakeRing
  rw [hleft, if_pos (bne_iff_ne.mpr fun h0 => h (List.length_eq_zero_iff.mp h0)), refuse_eq_refusalWord _ (by decide)]
  rfl

theorem rtakeRing_empty (h : s.jrn.replay[c] = []) (hq : s.host.rings[r].released = []) (t : Core) (cyc : Nat) :
    rtakeRing c r off (s.begun c t) cyc = .done 10 (refusalWord 0 8) (s.begun c t) := by
  have hleft : (s.begun c t).replayLeft c = (s.jrn.replay[c]).length := rfl
  unfold rtakeRing
  rw [hleft, h, if_neg (by simp), begun_host, hq, refuse_eq_refusalWord _ (by decide)]
  rfl

/-- The host side with ring `r` one entry further. -/
def HostIf.ringTaken (h : HostIf) (r : Fin 4) (rest : List (Word × List Byte)) (early : Prop) [Decidable early] : HostIf :=
  { h with rings := h.rings.set r (h.rings[r].taken rest early) }

/-- The state after a take: the entry in memory, the ring one further, and the core's last take noted (R138). -/
def State.taken (s : State) (c : Fin 9) (r : Fin 4) (off : Nat) (e : Word × List Byte) (rest : List (Word × List Byte)) (early : Prop)
    [Decidable early] : State :=
  (s.modCore c.castSucc fun k => { k with lastTake := some (BitVec.ofNat 8 r.val, e.1) }).withData
    (s.data.writeN off (bytesAt e.2 0 64)) (s.host.ringTaken r rest early)

theorem taken_cons (s : State) (c : Fin 9) (r : Fin 4) (off : Nat) (e : Word × List Byte) (rest : List (Word × List Byte))
    (early : Prop) [Decidable early] : (s.taken c r off e rest early).host.rings[r].cons = s.host.rings[r].cons + 1 :=
  congrArg Ring.cons (Vector.getElem_set_self _)

theorem begun_taken (s : State) (c : Fin 9) (t : Core) (r : Fin 4) (off : Nat) (e : Word × List Byte)
    (rest : List (Word × List Byte)) (early : Prop) [Decidable early] :
    (s.begun c t).taken c r off e rest early = (s.taken c r off e rest early).begun c t := by
  unfold State.taken
  rw [begun_withData, begun_data, begun_host]
  rw [begun_modCore (f := fun k => { k with lastTake := some (BitVec.ofNat 8 r.val, e.1) }) s c t fun _ _ => rfl]

theorem rtakeRing_takes {idx : Word} {bytes : List Byte} {rest : List (Word × List Byte)} (h : s.jrn.replay[c] = [])
    (hq : s.host.rings[r].released = (idx, bytes) :: rest) (t : Core) (cyc : Nat) : rtakeRing c r off (s.begun c t) cyc =
      .done 10 ((s.host.rings[r].cons + 1).setWidth 64) ((s.taken c r off (idx, bytes) rest (cyc < s.pubcyc)).begun c t) := by
  have hleft : (s.begun c t).replayLeft c = (s.jrn.replay[c]).length := rfl
  rw [← begun_taken, ← begun_host s c t, ← taken_cons (s.begun c t) c r off (idx, bytes) rest (cyc < s.pubcyc)]
  unfold rtakeRing
  rw [hleft, h, if_neg (by simp), begun_host, hq]
  dsimp only
  rw [State.taken, ← modCore_withData]
  rfl

end

/-! ### JREC, JDONE and JNEXT -/

/-- What JREC does with its command `b` and the flag `idem`. -/
def jrecBody (c : Fin 9) (idem : Bool) (b : List Byte) (s : State) : CellAns :=
  let waiting := s.ownReqs c Req.isJrec
  if 2048 ≤ s.jrn.entries.length + waiting then .done 10 (refuse 1 2048) s
  else
    let seq := s.jrn.next
    let lt := ((s.core c.castSucc).lastTake).getD (0xFF, 0)
    let s2 := { s with jrn := { s.jrn with next := seq + 1 } }
    .done 10 (seq.setWidth 64) (s2.request c (.jrec seq idem lt.1 lt.2 b))

section
variable {s : State} {c : Fin 9} {rd ra rb : Fin 32} {off : Nat} {idem : Bool}

theorem jrec_eq (err : Ecc) : exec (.jrec c rd ra rb err) s = s.cell c rd [.g ra, .g rb] fun s1 _ =>
    if 2 ≤ (s1.rgOf c rb).toNat then .trap 9 (wordR 0x15 rd.val ra.val rb.val 1)
    else s1.withBytes c (s1.rgOf c ra).toNat 64 err fun b => jrecBody c ((s1.rgOf c rb).toNat == 1) b s1 := rfl

variable (h : s.mayRun c.castSucc (.cell 1) [.g ra, .g rb] (dstG rd) = true)
include h

theorem jrec_done {n : Nat} {v : DWord} {u : State} (hrb : (s.core c.castSucc).rg rb = if idem then 1 else 0)
    (hop : s.operand c ((s.core c.castSucc).rg ra).toNat 64 .clean = .inr off)
    (hbody : ∀ t, jrecBody c idem (s.data.readN off 64) (s.begun c t) = .done n v (u.begun c t)) :
    CellDone c rd (exec (.jrec c rd ra rb .clean) s) v u := by
  rw [jrec_eq]
  refine cellDone_of_done (n := n) h fun t cyc => ?_
  have hidem : ((if idem then 1 else 0 : DWord)).toNat = if idem then 1 else 0 := by cases idem <;> rfl
  rw [begun_rgOf, hrb, hidem, if_neg (by split <;> decide), begun_rgOf, withBytes_clean (s := s.begun c t) hop, ← hbody t]
  cases idem <;> rfl

theorem jrec_full (hrb : (s.core c.castSucc).rg rb = if idem then 1 else 0)
    (hop : s.operand c ((s.core c.castSucc).rg ra).toNat 64 .clean = .inr off)
    (hfull : 2048 ≤ s.jrn.entries.length + s.ownReqs c Req.isJrec) :
    CellDone c rd (exec (.jrec c rd ra rb .clean) s) (refusalWord 2048 1) s :=
  jrec_done h hrb hop (n := 10) fun t => by
    unfold jrecBody
    dsimp only
    rw [begun_jrn, begun_ownReqs, if_pos hfull, refuse_eq_refusalWord _ (by decide)]
    rfl

theorem jrec_records (hrb : (s.core c.castSucc).rg rb = if idem then 1 else 0)
    (hop : s.operand c ((s.core c.castSucc).rg ra).toNat 64 .clean = .inr off)
    (hroom : s.jrn.entries.length + s.ownReqs c Req.isJrec < 2048) :
    let take := ((s.core c.castSucc).lastTake).getD (0xFF, 0)
    CellDone c rd (exec (.jrec c rd ra rb .clean) s) (s.jrn.next.setWidth 64)
      { s with jrn := { s.jrn with next := s.jrn.next + 1 },
               reqs := s.reqs ++ [⟨c, s.epoch, .jrec s.jrn.next idem take.1 take.2 (s.data.readN off 64)⟩] } :=
  jrec_done h hrb hop (n := 10) fun t => by
    unfold jrecBody
    dsimp only
    rw [begun_jrn, begun_ownReqs, if_neg (Nat.not_le.mpr hroom), begun_core]
    rfl

theorem jdone_completes (hout : s.outstanding c (((s.core c.castSucc).rg ra).setWidth 32) = true) :
    CellDone c rd (exec (.jdone c rd ra rb) s) 0 { s with reqs := s.reqs ++
      [⟨c, s.epoch, .jdone (((s.core c.castSucc).rg ra).setWidth 32) (((s.core c.castSucc).rg rb).setWidth 16)⟩] } := by
  show CellDone c rd (execJdone c rd ra rb s) 0 _
  unfold execJdone
  refine cellDone_of_done (n := 1) h fun t cyc => ?_
  dsimp only
  rw [begun_rgOf, begun_rgOf, begun_outstanding, if_pos hout]
  rfl

theorem jdone_unknown (hout : s.outstanding c (((s.core c.castSucc).rg ra).setWidth 32) = false) :
    CellDone c rd (exec (.jdone c rd ra rb) s) (refusalWord (((s.core c.castSucc).rg ra).setWidth 32) 7) s := by
  show CellDone c rd (execJdone c rd ra rb s) _ s
  unfold execJdone
  refine cellDone_of_done (n := 1) h fun t cyc => ?_
  dsimp only
  rw [begun_rgOf, begun_outstanding, if_neg (by simp [hout]), refuse_eq_refusalWord _ (by decide), BitVec.ofNat_toNat,
    BitVec.setWidth_eq]
  rfl

end

section
variable {s : State} {c : Fin 9} {rd ra : Fin 32} {off : Nat}

/-- What JNEXT does with its operand at `off`. -/
def jnextBody (c : Fin 9) (off : Nat) (s : State) : CellAns :=
  match s.jrn.replay[c] with
  | [] => .done 10 (refuse 8 0) s
  | seq :: rest =>
    let cmd := ((s.jrn.entries.find? fun e => e.2.seq == seq).map fun e => e.2.cmd).getD []
    .done 10 (BitVec.ofNat 64 (seq.toNat + 2 ^ 32)) { s with
      data := s.data.writeN off (bytesAt cmd 0 64)
      jrn := { s.jrn with replay := vmod s.jrn.replay c fun _ => rest } }

/-- The state after JNEXT: the replayed command in memory, and one entry less to replay (R142). -/
def State.replayed (s : State) (c : Fin 9) (off : Nat) (seq : Word) (rest : List Word) : State :=
  let cmd := ((s.jrn.entries.find? fun e => e.2.seq == seq).map fun e => e.2.cmd).getD []
  s.withJournal (s.data.writeN off (bytesAt cmd 0 64)) { s.jrn with replay := s.jrn.replay.set c rest }

theorem begun_replayed (s : State) (c : Fin 9) (off : Nat) (seq : Word) (rest : List Word) (t : Core) :
    (s.replayed c off seq rest).begun c t = (s.begun c t).replayed c off seq rest := by
  unfold State.replayed
  dsimp only
  rw [begun_withJournal, begun_data, begun_jrn]

theorem jnext_eq : exec (.jnext c rd ra) s = s.cell c rd [.g ra] fun s1 _ =>
    match s1.operand c (s1.rgOf c ra).toNat 64 .clean with
    | .inl e => .trap e.1 e.2
    | .inr off => jnextBody c off s1 := rfl

variable (h : s.mayRun c.castSucc (.cell 1) [.g ra] (dstG rd) = true)
  (hop : s.operand c ((s.core c.castSucc).rg ra).toNat 64 .clean = .inr off)
include h hop

theorem jnext_done {n : Nat} {v : DWord} {u : State} (hbody : ∀ t, jnextBody c off (s.begun c t) = .done n v (u.begun c t)) :
    CellDone c rd (exec (.jnext c rd ra) s) v u := by
  rw [jnext_eq]
  refine cellDone_of_done (n := n) h fun t cyc => ?_
  rw [begun_rgOf, begun_operand, hop]
  exact hbody t

theorem jnext_empty (hrep : s.jrn.replay[c] = []) : CellDone c rd (exec (.jnext c rd ra) s) (refusalWord 0 8) s :=
  jnext_done h hop (n := 10) fun t => by
    unfold jnextBody
    rw [begun_jrn, hrep, refuse_eq_refusalWord _ (by decide)]
    rfl

theorem jnext_takes {seq : Word} {rest : List Word} (hrep : s.jrn.replay[c] = seq :: rest) :
    CellDone c rd (exec (.jnext c rd ra) s) (BitVec.ofNat 64 (seq.toNat + 2 ^ 32)) (s.replayed c off seq rest) :=
  jnext_done h hop (n := 10) fun t => by
    unfold jnextBody
    rw [begun_jrn, hrep]
    exact congrArg (CellAns.done 10 _) (begun_replayed s c off seq rest t).symm

end

/-! ### PROFQ and CAPQ -/

theorem capVersion_eq (s : State) (id : Nat) :
    s.capVersion id = if 1 ≤ id ∧ id ≤ (if s.variant = .s8064 then 8 else 9) then 1 else 0 := by
  unfold State.capVersion State.is8064 bnat
  simp only [beq_iff_eq, Bool.and_eq_true, decide_eq_true_eq]

section
variable {s : State} {c : Fin 9} {rd : Fin 32} {imm : BitVec 12} (h : s.mayRun c.castSucc (.cell 1) [] (dstG rd) = true)
include h

theorem profq_defined {v : Nat} (hv : s.profItem c imm.toNat = some v) :
    CellDone c rd (exec (.profq c rd imm) s) (BitVec.ofNat 64 v) s := by
  show CellDone c rd (execProfq c rd imm s) _ s
  unfold execProfq
  refine cellDone_of_done (n := 1) h fun t cyc => ?_
  rw [begun_profItem, hv]

theorem profq_undefined (hv : s.profItem c imm.toNat = none) :
    Traps s c.castSucc (exec (.profq c rd imm) s) 1 (wordI 0x16 rd.val 0 0 imm.toNat) := by
  show Traps s c.castSucc (execProfq c rd imm s) 1 _
  unfold execProfq
  refine traps_of_trap (code := 1) h (by decide) fun t cyc => ?_
  rw [begun_profItem, hv]

theorem capq_known (himm : imm.toNat < 256) : CellDone c rd (exec (.capq c rd imm) s)
    (if 1 ≤ imm.toNat ∧ imm.toNat ≤ (if s.variant = .s8064 then 8 else 9) then 1 else 0) s := by
  show CellDone c rd (execCapq c rd imm s) _ s
  unfold execCapq
  refine cellDone_of_done (n := 1) h fun t cyc => ?_
  rw [if_neg (Nat.not_le.mpr himm), begun_capVersion]
  refine congrArg (CellAns.done 1 · _) ?_
  rw [capVersion_eq]
  exact apply_ite (BitVec.ofNat 64) _ _ _

theorem capq_unknown (himm : 256 ≤ imm.toNat) :
    Traps s c.castSucc (exec (.capq c rd imm) s) 1 (wordI 0x16 rd.val 0 1 imm.toNat) := by
  show Traps s c.castSucc (execCapq c rd imm s) 1 _
  unfold execCapq
  refine traps_of_trap (code := 1) h (by decide) fun t cyc => ?_
  rw [if_pos himm]

end

end Sys2Proof.Machine

open Sys2Proof Sys2Proof.Machine

/-- Settles O22. -/
theorem publicationAndJournalInstructionResults : Obligations.PublicationAndJournalInstructionResults := by
  refine ⟨fun s c rd ra rb func off n h hrb => ⟨fun hf harm hpos hn hop => hpub_publishes h hrb hf harm hpos hn hop,
      fun hf harm hn => hpub_publishes_none h hrb hf harm hn, fun hmul hpos hn hop => apub_publishes h hrb hmul hpos hn hop⟩,
    fun s c rd ra rb r off h hrb hroute hop => ?rtake,
    fun s c rd ra rb idem off h => ⟨fun hrb hop => ⟨jrec_full h hrb hop, jrec_records h hrb hop⟩, jdone_completes h,
      jdone_unknown h⟩,
    fun s c rd ra off h hop => ⟨jnext_empty h hop, fun seq rest hrep => jnext_takes h hop hrep⟩,
    fun s c rd imm h => ⟨fun v hv => profq_defined h hv, profq_undefined h, capq_known h, capq_unknown h⟩⟩
  case rtake =>
    show _ ∧ _ ∧ _
    rw [rtake_eq]
    refine ⟨fun hrep => ?_, fun hrep hq => ?_, fun idx bytes rest hrep hq => ?_⟩
    · refine cellDone_at_issue (n := 10) h fun t => ?_
      rw [rtakeBody_of_routed hrb hroute hop, rtakeRing_replays hrep]
    · refine cellDone_at_issue (n := 10) h fun t => ?_
      rw [rtakeBody_of_routed hrb hroute hop, rtakeRing_empty hrep hq]
    · refine cellDone_at_issue (u := s.taken c r off (idx, bytes) rest
        (s.issueCycle c.castSucc (.cell 1) [.g ra, .g rb] (dstG rd) < s.pubcyc)) (n := 10) h fun t => ?_
      rw [rtakeBody_of_routed hrb hroute hop, rtakeRing_takes hrep hq]
end

section
/-! How an event joins a queue, and the order in which the gate releases its inputs (R22, R23, R85, R87). -/

namespace Sys2Proof.Machine

/-! ### Merging -/

/-- A record that an event may merge into: of its class, and of its source where that counts. -/
def EvRec.takes (x e : EvRec) (same : Bool) : Prop := x.cls = e.cls ∧ (same = true → x.source = e.source)

theorem takes_iff (x e : EvRec) (same : Bool) :
    (x.cls == e.cls && (!same || x.source == e.source)) = true ↔ x.takes e same := by
  unfold EvRec.takes
  cases same <;> simp

theorem mergeInto_none_iff {e : EvRec} {same : Bool} {q : List EvRec} :
    mergeInto e same q = none ↔ ∀ x ∈ q, ¬ x.takes e same := by
  induction q with
  | nil => simp [mergeInto]
  | cons r q ih =>
    unfold mergeInto
    cases hm : mergeInto e same q with
    | some q' =>
      have hsome : ¬ ∀ x ∈ q, ¬ x.takes e same := fun h => by
        rw [ih.mpr h] at hm
        cases hm
      simp only [List.forall_mem_cons]
      exact ⟨fun h => (nomatch h), fun h => absurd h.2 hsome⟩
    | none =>
      simp only [List.forall_mem_cons, ← takes_iff]
      have hq := ih.mp hm
      simp only [← takes_iff] at hq
      by_cases hr : (r.cls == e.cls && (!same || r.source == e.source)) = true
      · rw [if_pos hr]
        exact ⟨fun h => (nomatch h), fun h => absurd hr h.1⟩
      · rw [if_neg hr]
        exact ⟨fun _ => ⟨hr, hq⟩, fun _ => rfl⟩

/-- A merge puts the data of the event into a record of its kind. -/
theorem mergeInto_some {e : EvRec} {same : Bool} {q q' : List EvRec} (h : mergeInto e same q = some q') :
    ∃ x ∈ q', x.takes e same ∧ x.data = e.data := by
  induction q generalizing q' with
  | nil => cases h
  | cons r q ih =>
    unfold mergeInto at h
    split at h
    next rs hrs =>
      cases h
      obtain ⟨x, hx, hxe⟩ := ih hrs
      exact ⟨x, List.mem_cons_of_mem _ hx, hxe⟩
    next =>
      split at h
      next hr =>
        cases h
        exact ⟨_, List.mem_cons_self, (takes_iff r e same).mp hr, rfl⟩
      next => cases h

theorem evInsert_mem (e : EvRec) (q : List EvRec) : e ∈ evInsert e q := by
  induction q with
  | nil => exact List.mem_singleton_self e
  | cons r q ih =>
    unfold evInsert
    split
    · exact List.mem_cons_of_mem _ ih
    · exact List.mem_cons_self

/-! ### How an event joins a queue -/

/-- A class that merges (R87). -/
def EvRec.mergeable (e : EvRec) : Prop := e.cls = 1 ∨ e.cls = 2 ∨ e.cls = 3

theorem mergeable_iff (e : EvRec) :
    (e.cls.toNat == 1 || e.cls.toNat == 2 || e.cls.toNat == 3) = true ↔ e.mergeable := by
  simp only [Bool.or_eq_true, beq_iff_eq, EvRec.mergeable, or_assoc, BitVec.toNat_eq]
  rfl

/-- The queue that an event merges into, if it does. -/
def Core.merged (k : Core) (e : EvRec) : Option (List EvRec) :=
  if e.cls.toNat == 1 || e.cls.toNat == 2 || e.cls.toNat == 3 then mergeInto e true k.evq else none

/-- The records that count against the 60 of the ordinary events. -/
def Core.ordinary (k : Core) : Nat := k.evq.length - min (k.evq.filter fun r => r.cls == 5).length 4

section
variable {k : Core} {e : EvRec} {q : List EvRec}

theorem merged_none_iff : k.merged e = none ↔ ¬ (e.mergeable ∧ ∃ x ∈ k.evq, x.cls = e.cls ∧ x.source = e.source) := by
  unfold Core.merged
  by_cases hm : (e.cls.toNat == 1 || e.cls.toNat == 2 || e.cls.toNat == 3) = true
  · rw [if_pos hm, mergeInto_none_iff]
    simp [EvRec.takes, (mergeable_iff e).mp hm]
  · rw [if_neg hm]
    simp [mt (mergeable_iff e).mpr hm]

theorem mergeInto_of_merged (h : k.merged e = some q) : mergeInto e true k.evq = some q := by
  unfold Core.merged at h
  split at h
  · exact h
  · cases h

theorem enqueue_merges (h : k.merged e = some q) : k.enqueue e = ({ k with evq := q }, true) := by
  have hm : (if (e.cls.toNat == 1 || e.cls.toNat == 2 || e.cls.toNat == 3) = true then mergeInto e true k.evq else none) = some q := h
  unfold Core.enqueue
  dsimp only
  rw [hm]

theorem enqueue_of_unmerged (h : k.merged e = none) : k.enqueue e =
    if e.cls.toNat == 5 then
      if k.evq.length < 64 then ({ k with evq := evInsert e k.evq }, true)
      else match mergeInto e false k.evq with
        | some q => ({ k with evq := q }, true)
        | none => (k, true)
    else if k.ordinary < 60 && k.evq.length < 64 then ({ k with evq := evInsert e k.evq }, true)
    else ({ k with evqOvf := true }, false) := by
  have hm : (if (e.cls.toNat == 1 || e.cls.toNat == 2 || e.cls.toNat == 3) = true then mergeInto e true k.evq else none) = none := h
  unfold Core.enqueue
  dsimp only
  rw [hm]
  rfl

theorem cls_five_iff : (e.cls.toNat == 5) = true ↔ e.cls = 5 := by
  rw [beq_iff_eq, BitVec.toNat_eq]
  rfl

theorem merged_of_five (h : e.cls = 5) : k.merged e = none :=
  merged_none_iff.mpr fun ⟨hm, _⟩ => by
    rw [EvRec.mergeable, h] at hm
    revert hm
    decide

theorem enqueue_five (h : e.cls = 5) (hlt : k.evq.length < 64) : k.enqueue e = ({ k with evq := evInsert e k.evq }, true) := by
  rw [enqueue_of_unmerged (merged_of_five h), if_pos (cls_five_iff.mpr h), if_pos hlt]

/-- A full queue merges a class 0x05 event into its newest record of that class. -/
theorem enqueue_five_full (h : e.cls = 5) (hfull : k.evq.length = 64) (hx : ∃ x ∈ k.evq, x.cls = 5) :
    ∃ q, mergeInto e false k.evq = some q ∧ k.enqueue e = ({ k with evq := q }, true) := by
  cases hm : mergeInto e false k.evq with
  | none =>
    obtain ⟨x, hmem, hcls⟩ := hx
    exact absurd ⟨hcls.trans h.symm, fun he => (nomatch he)⟩ (mergeInto_none_iff.mp hm x hmem)
  | some q =>
    refine ⟨q, rfl, ?_⟩
    rw [enqueue_of_unmerged (merged_of_five h), if_pos (cls_five_iff.mpr h), if_neg (by omega), hm]

theorem enqueue_ordinary (h5 : e.cls ≠ 5) (hm : k.merged e = none) (hroom : k.ordinary < 60) (hlt : k.evq.length < 64) :
    k.enqueue e = ({ k with evq := evInsert e k.evq }, true) := by
  rw [enqueue_of_unmerged hm, if_neg (mt cls_five_iff.mp h5), if_pos (by simp [hroom, hlt])]

theorem enqueue_discards (h5 : e.cls ≠ 5) (hm : k.merged e = none) (hfull : 60 ≤ k.ordinary ∨ k.evq.length = 64) :
    k.enqueue e = ({ k with evqOvf := true }, false) := by
  rw [enqueue_of_unmerged hm, if_neg (mt cls_five_iff.mp h5), if_neg]
  simp only [Bool.and_eq_true, decide_eq_true_eq]
  omega

theorem enqueue_frame (k : Core) (e : EvRec) :
    (k.enqueue e).1.g = k.g ∧ (k.enqueue e).1.pc = k.pc ∧ (k.enqueue e).1.mode = k.mode := by
  cases hm : k.merged e with
  | some q =>
    rw [enqueue_merges hm]
    exact ⟨rfl, rfl, rfl⟩
  | none =>
    rw [enqueue_of_unmerged hm]
    split
    · split
      · exact ⟨rfl, rfl, rfl⟩
      · split <;> exact ⟨rfl, rfl, rfl⟩
    · split <;> exact ⟨rfl, rfl, rfl⟩

end

/-! ### The release order of the gate -/

/-- The order of R23: by source, and by ring within the ring entries. -/
def KeyLe (a b : Nat × Nat) : Prop := a.1 < b.1 ∨ (a.1 = b.1 ∧ a.2 ≤ b.2)

theorem keyLe_iff (a b : Nat × Nat) : (decide (a.1 < b.1) || (a.1 == b.1 && decide (a.2 ≤ b.2))) = true ↔ KeyLe a b := by
  simp [KeyLe]

theorem KeyLe.trans {a b c : Nat × Nat} (h : KeyLe a b) (h' : KeyLe b c) : KeyLe a c := by
  unfold KeyLe at *
  omega

theorem KeyLe.total {a b : Nat × Nat} (h : ¬ KeyLe a b) : KeyLe b a := by
  unfold KeyLe at *
  omega

/-- The list is in release order. -/
def Released (l : List GateIn) : Prop := l.Pairwise fun a b => KeyLe a.key b.key

theorem gateInsert_behind {g x : GateIn} {xs : List GateIn} (h : KeyLe x.key g.key) :
    gateInsert g (x :: xs) = x :: gateInsert g xs := if_pos ((keyLe_iff _ _).mpr h)

theorem gateInsert_before {g x : GateIn} {xs : List GateIn} (h : ¬ KeyLe x.key g.key) :
    gateInsert g (x :: xs) = g :: x :: xs := if_neg (mt (keyLe_iff _ _).mp h)

theorem gateInsert_perm (g : GateIn) (l : List GateIn) : (gateInsert g l).Perm (g :: l) := by
  induction l with
  | nil => exact List.Perm.refl _
  | cons x xs ih =>
    by_cases h : KeyLe x.key g.key
    · rw [gateInsert_behind h]
      exact (ih.cons x).trans (List.Perm.swap g x xs)
    · rw [gateInsert_before h]

theorem gateInsert_released {g : GateIn} {l : List GateIn} (hl : Released l) : Released (gateInsert g l) := by
  induction l with
  | nil => exact List.pairwise_singleton _ _
  | cons x xs ih =>
    obtain ⟨hx, hxs⟩ := List.pairwise_cons.mp hl
    by_cases h : KeyLe x.key g.key
    · rw [gateInsert_behind h]
      refine List.pairwise_cons.mpr ⟨fun y hy => ?_, ih hxs⟩
      rcases List.mem_cons.mp ((gateInsert_perm g xs).mem_iff.mp hy) with rfl | hy
      · exact h
      · exact hx y hy
    · rw [gateInsert_before h]
      refine List.pairwise_cons.mpr ⟨fun y hy => ?_, hl⟩
      rcases List.mem_cons.mp hy with rfl | hy
      · exact KeyLe.total h
      · exact (KeyLe.total h).trans (hx y hy)

/-- An input joins those of its key last, and leaves the others where they are. -/
theorem gateInsert_filter {g : GateIn} {l : List GateIn} (hl : Released l) (k : Nat × Nat) :
    (gateInsert g l).filter (fun x => x.key == k) = l.filter (fun x => x.key == k) ++ [g].filter (fun x => x.key == k) := by
  induction l with
  | nil => rfl
  | cons x xs ih =>
    obtain ⟨hx, hxs⟩ := List.pairwise_cons.mp hl
    by_cases h : KeyLe x.key g.key
    · rw [gateInsert_behind h, List.filter_cons, List.filter_cons, ih hxs]
      split <;> rfl
    · rw [gateInsert_before h]
      by_cases hk : g.key = k
      · have hnone : (x :: xs).filter (fun y => y.key == k) = [] := by
          refine List.filter_eq_nil_iff.mpr fun y hy hyk => h ?_
          have hy' : y.key = g.key := (beq_iff_eq.mp hyk).trans hk.symm
          rcases List.mem_cons.mp hy with rfl | hy
          · exact hy' ▸ .inr ⟨rfl, le_refl _⟩
          · exact hy' ▸ hx y hy
        rw [List.filter_cons_of_pos (by simpa using hk), hnone, List.filter_cons_of_pos (by simpa using hk)]
        rfl
      · rw [List.filter_cons_of_neg (by simpa using hk), List.filter_cons_of_neg (a := g) (by simpa using hk), List.filter_nil,
          List.append_nil]

theorem foldl_gateInsert {l acc : List GateIn} (hacc : Released acc) :
    (l.foldl (fun r g => gateInsert g r) acc).Perm (acc ++ l) ∧ Released (l.foldl (fun r g => gateInsert g r) acc)
      ∧ ∀ k : Nat × Nat, (l.foldl (fun r g => gateInsert g r) acc).filter (fun g => g.key == k) =
          acc.filter (fun g => g.key == k) ++ l.filter (fun g => g.key == k) := by
  induction l generalizing acc with
  | nil => exact ⟨by simp, hacc, fun k => by simp⟩
  | cons g l ih =>
    obtain ⟨hperm, hsorted, hfilter⟩ := ih (gateInsert_released (g := g) hacc)
    refine ⟨hperm.trans ?_, hsorted, fun k => (hfilter k).trans ?_⟩
    · exact ((gateInsert_perm g acc).append_right l).trans List.perm_middle.symm
    · rw [gateInsert_filter hacc, List.append_assoc, ← List.filter_append]
      rfl

theorem key_src (g : GateIn) : g.key.1 = g.src := by
  unfold GateIn.key
  split <;> rfl

theorem KeyLe.src_le {a b : GateIn} (h : KeyLe a.key b.key) : a.src ≤ b.src := by
  unfold KeyLe at h
  rw [key_src, key_src] at h
  omega

end Sys2Proof.Machine

open Sys2Proof Sys2Proof.Machine

/-- Settles O28. -/
theorem eventsMergeAndGateReleasesInOrder : Obligations.EventsMergeAndGateReleasesInOrder := by
  refine ⟨fun k e hlen => ?events, fun l => ?gate⟩
  case events =>
    intro r merges fives
    refine ⟨enqueue_length e hlen, fun hm => ?merged, fun h5 hlt => ?five, fun h5 hfull hx => ?full,
      fun h5 hm hroom hlt => ?ordinary, fun h5 hm hfull => ?discarded, enqueue_frame k e⟩
    case merged =>
      cases hq : k.merged e with
      | none => exact absurd hm (merged_none_iff.mp hq)
      | some q =>
        have hr : r = ({ k with evq := q }, true) := enqueue_merges hq
        have hmerge := mergeInto_of_merged hq
        obtain ⟨x, hx, ⟨hcls, hsrc⟩, hdata⟩ := mergeInto_some hmerge
        rw [hr]
        exact ⟨rfl, mergeInto_length hmerge, x, hx, hcls, hsrc rfl, hdata⟩
    case five =>
      have hr : r = ({ k with evq := evInsert e k.evq }, true) := enqueue_five h5 hlt
      rw [hr]
      exact ⟨rfl, evInsert_mem e k.evq, evInsert_length e k.evq⟩
    case full =>
      obtain ⟨q, hmerge, henq⟩ := enqueue_five_full h5 hfull hx
      have hr : r = ({ k with evq := q }, true) := henq
      obtain ⟨x, hx, ⟨hcls, -⟩, hdata⟩ := mergeInto_some hmerge
      rw [hr]
      exact ⟨rfl, (mergeInto_length hmerge).trans hfull, x, hx, hcls.trans h5, hdata⟩
    case ordinary =>
      have hr : r = ({ k with evq := evInsert e k.evq }, true) := enqueue_ordinary h5 (merged_none_iff.mpr hm) hroom hlt
      rw [hr]
      exact ⟨rfl, evInsert_mem e k.evq, rfl⟩
    case discarded =>
      have hr : r = ({ k with evqOvf := true }, false) := enqueue_discards h5 (merged_none_iff.mpr hm) hfull
      rw [hr]
      exact ⟨rfl, rfl, rfl⟩
  case gate =>
    obtain ⟨hperm, hsorted, hfilter⟩ := foldl_gateInsert (l := l) (acc := []) List.Pairwise.nil
    exact ⟨hperm, hsorted.imp KeyLe.src_le, hfilter⟩
end

section
/-! Safe inputs and outputs, ESTOP, diagnostics, monitors, the flow signature and the mailbox (R116, R319, R336–R342, R347,
R490, R491). -/

namespace Sys2Proof.Machine

/-! ### Bits -/

theorem getLsbD_bitSet {w : Nat} (v : BitVec w) (i : Nat) (b : Bool) {j : Nat} (hj : j < w) :
    (bitSet v i b).getLsbD j = if j = i then b else v.getLsbD j := by
  unfold bitSet
  cases b with
  | true =>
    rw [if_pos rfl, BitVec.getLsbD_or, BitVec.getLsbD_ofNat, Nat.testBit_two_pow]
    by_cases h : j = i
    · simp [h, h ▸ hj]
    · simp [h, Ne.symm h]
  | false =>
    rw [if_neg (by decide), BitVec.getLsbD_and, BitVec.getLsbD_not, BitVec.getLsbD_ofNat, Nat.testBit_two_pow]
    by_cases h : j = i
    · simp [h, h ▸ hj]
    · simp [h, Ne.symm h, hj]

/-! ### Safe inputs -/

theorem safeInputChange_spec (s : State) (i : Fin 16) (v : Bool) :
    ∃ u : State, exec (.safeInputChange i v) s = .next u ∧ u.saf.sin = bitSet s.saf.sin i.val v
      ∧ s.SameCore u ∧ u.reports = s.reports
      ∧ (s.pairOf i.val = none → u.saf = { s.saf with sin := bitSet s.saf.sin i.val v })
      ∧ (∀ p : Nat, s.pairOf i.val = some p → u.saf.sinDisc =
          if ({ s with saf := { s.saf with sin := bitSet s.saf.sin i.val v } } : State).pairAgrees p then
            bitSet (bitSet s.saf.sinDisc p false) (p + 1) false else s.saf.sinDisc) := by
  let s1 : State := { s with saf := { s.saf with sin := bitSet s.saf.sin i.val v } }
  have hpair : s1.pairOf i.val = s.pairOf i.val := rfl
  have hsame : s.SameCore s1 := ⟨rfl, rfl, rfl, rfl, rfl, rfl, rfl, rfl⟩
  have hexec : exec (.safeInputChange i v) s = .next (match s1.pairOf i.val with
      | some p => if s1.pairAgrees p then s1.modSaf fun f => { f with sinDisc := bitSet (bitSet f.sinDisc p false) (p + 1) false } else s1
      | none => s1) := rfl
  rw [hexec, hpair]
  cases hp : s.pairOf i.val with
  | none => exact ⟨s1, rfl, rfl, hsame, rfl, fun _ => rfl, fun p h => nomatch h⟩
  | some p =>
    refine ⟨_, rfl, ?_⟩
    dsimp only
    by_cases hag : s1.pairAgrees p = true
    · rw [if_pos hag]
      refine ⟨rfl, hsame, rfl, fun h => (nomatch h), fun q hq => ?_⟩
      cases hq
      exact (if_pos hag).symm
    · rw [if_neg hag]
      refine ⟨rfl, hsame, rfl, fun h => (nomatch h), fun q hq => ?_⟩
      cases hq
      exact (if_neg hag).symm

theorem sinDisc_agrees {s : State} {i : Fin 16} {p : Nat} (t : DWord) (hp : s.pairOf i.val = some p) (hag : s.pairAgrees p = true) :
    execSinDisc i t s = .next s := by
  unfold execSinDisc
  rw [hp]
  exact congrArg Host.Outcome.next (if_pos hag)

theorem sinDisc_marks {s : State} {i : Fin 16} {p : Nat} (t : DWord) (hp : s.pairOf i.val = some p) (hag : s.pairAgrees p = false) :
    execSinDisc i t s = .next (((s.atTime t).modSaf fun f =>
      { f with sinDisc := bitSet (bitSet f.sinDisc p true) (p + 1) true }).raise 0x1813 2) := by
  unfold execSinDisc
  rw [hp]
  exact congrArg Host.Outcome.next (if_neg (by simp [hag]))

/-! ### TEST_PULSE -/

/-- Input `i` is tested with pulse `k` (R337). -/
def State.sinTested (s : State) (k : Fin 4) (i : Nat) : Bool := s.sinMode i == 2 && fld (s.sinCfg i) 6 5 == k.val

theorem sinTested_iff (s : State) (k : Fin 4) (i : Nat) :
    s.sinTested k i = true ↔ s.sinMode i = 2 ∧ fld (s.sinCfg i) 6 5 = k.val := by
  simp [State.sinTested]

/-- The test of one input. -/
def State.testInput (lows : BitVec 16) (k : Fin 4) (st : State) (i : Nat) : State :=
  if st.sinTested k i then
    let st1 := st.modSaf fun f => { f with sinTest := bitSet f.sinTest i (!lows.getLsbD i) }
    if lows.getLsbD i then st1 else st1.raise 0x1812 2
  else st

/-- Between s and t only test results changed, and faults were raised. -/
def State.OnlyTested (s t : State) : Prop :=
  ∃ v rs n, t = { s with saf := { s.saf with sinTest := v }, reports := s.reports ++ rs, free := n }

theorem onlyTested_refl (s : State) : s.OnlyTested s := ⟨s.saf.sinTest, [], s.free, by rw [List.append_nil]⟩

theorem State.OnlyTested.test {s t : State} (h : s.OnlyTested t) (lows : BitVec 16) (k : Fin 4) (i : Nat) :
    s.OnlyTested (t.testInput lows k i) := by
  obtain ⟨v, rs, n, rfl⟩ := h
  unfold State.testInput
  split
  · split
    · exact ⟨_, rs, n, rfl⟩
    · exact ⟨_, _, _, by unfold State.raise State.raiseAt State.modSaf; simp only [List.append_assoc]; rfl⟩
  · exact ⟨v, rs, n, rfl⟩

/-- What the test of an input leaves: its result, and its fault where it stays high. -/
structure InputTested (s : State) (lows : BitVec 16) (k : Fin 4) (i : Nat) (u : State) : Prop where
  tested : s.sinTested k i = true → u.saf.sinTest.getLsbD i = !lows.getLsbD i
  untested : s.sinTested k i = false → u.saf.sinTest.getLsbD i = s.saf.sinTest.getLsbD i
  raised : s.sinTested k i = true → lows.getLsbD i = false → ∃ r ∈ u.reports, r.code = 0x1812 ∧ r.cls = 2

section
variable {s t : State} {lows : BitVec 16} {k : Fin 4} {a b : Nat}

theorem testInput_untested (h : t.sinTested k a = false) : t.testInput lows k a = t := if_neg (by simp [h])

theorem testInput_sinTest (h : t.sinTested k a = true) :
    (t.testInput lows k a).saf.sinTest = bitSet t.saf.sinTest a (!lows.getLsbD a) := by
  unfold State.testInput
  rw [if_pos h]
  dsimp only
  split <;> rfl

theorem testInput_reports (t : State) (lows : BitVec 16) (k : Fin 4) (a : Nat) : ∃ l, (t.testInput lows k a).reports = t.reports ++ l := by
  obtain ⟨v, rs, n, h⟩ := (onlyTested_refl t).test lows k a
  exact ⟨rs, by rw [h]⟩

theorem testInput_raises (h : t.sinTested k a = true) (hlow : lows.getLsbD a = false) :
    ∃ r ∈ (t.testInput lows k a).reports, r.code = 0x1812 ∧ r.cls = 2 := by
  unfold State.testInput
  rw [if_pos h]
  dsimp only
  rw [if_neg (by rw [hlow]; decide)]
  exact ⟨_, List.mem_append_right _ (List.mem_singleton_self _), rfl, rfl⟩

theorem State.OnlyTested.sinTested (h : s.OnlyTested t) : t.sinTested k a = s.sinTested k a := by
  obtain ⟨v, rs, n, rfl⟩ := h
  rfl

/-- The test of an input does not touch the result of another. -/
theorem testInput_other (hne : a ≠ b) (hb : b < 16) :
    (t.testInput lows k a).saf.sinTest.getLsbD b = t.saf.sinTest.getLsbD b := by
  cases h : t.sinTested k a with
  | true => rw [testInput_sinTest h, getLsbD_bitSet _ _ _ hb, if_neg (Ne.symm hne)]
  | false => rw [testInput_untested h]

theorem inputTested_of_test (h : s.OnlyTested t) (ha : a < 16) (hsame : t.saf.sinTest.getLsbD a = s.saf.sinTest.getLsbD a) :
    InputTested s lows k a (t.testInput lows k a) := by
  have hst : t.sinTested k a = s.sinTested k a := h.sinTested
  refine ⟨fun ht => ?_, fun ht => ?_, fun ht hlow => testInput_raises (hst.trans ht) hlow⟩
  · rw [testInput_sinTest (hst.trans ht), getLsbD_bitSet _ _ _ ha, if_pos rfl]
  · rw [testInput_untested (hst.trans ht), hsame]

theorem InputTested.test (h : InputTested s lows k b t) (hne : a ≠ b) (hb : b < 16) :
    InputTested s lows k b (t.testInput lows k a) := by
  obtain ⟨ht, hu, hr⟩ := h
  obtain ⟨l, hl⟩ := testInput_reports t lows k a
  rw [← testInput_other (t := t) (lows := lows) (k := k) hne hb] at ht hu
  refine ⟨ht, hu, fun h1 h2 => ?_⟩
  obtain ⟨r, hmem, hrr⟩ := hr h1 h2
  exact ⟨r, hl ▸ List.mem_append_left l hmem, hrr⟩

/-- TEST_PULSE tests each input once. -/
theorem foldl_testInput (s : State) (lows : BitVec 16) (k : Fin 4) :
    s.OnlyTested ((List.range 16).foldl (State.testInput lows k) s) ∧
      ∀ i < 16, InputTested s lows k i ((List.range 16).foldl (State.testInput lows k) s) := by
  obtain ⟨honly, hin, -⟩ := foldl_each (f := State.testInput lows k) (I := s.OnlyTested) (l := List.range 16) (st := s)
    (Q := fun i st => i < 16 ∧ st.saf.sinTest.getLsbD i = s.saf.sinTest.getLsbD i)
    (R := fun i st => i < 16 ∧ InputTested s lows k i st)
    (fun st i h => h.test lows k i) (fun st i h hq => ⟨hq.1, inputTested_of_test h hq.1 hq.2⟩)
    (fun st a b hab _ hq => ⟨hq.1, (testInput_other hab hq.1).trans hq.2⟩)
    (fun st a b hab _ hr => ⟨hr.1, hr.2.test hab hr.1⟩)
    List.nodup_range (onlyTested_refl s) (fun i hi => ⟨List.mem_range.mp hi, rfl⟩)
  exact ⟨honly, fun i hi => (hin i (List.mem_range.mpr hi)).2⟩

end

/-- The test of the ESTOP contact of TP0 and TP1. -/
def State.testEstop (s : State) (k : Fin 4) (low : Bool) : State :=
  if 2 ≤ k.val then s
  else
    let s2 := s.modSaf fun f => { f with estTest := bitSet f.estTest k.val (!low) }
    if low then s2 else s2.raise 0x1811 3

theorem testPulse_eq (s : State) (k : Fin 4) (lows : BitVec 16) (low : Bool) (t : DWord) :
    exec (.testPulse k lows low t) s = .next (((List.range 16).foldl (State.testInput lows k) (s.atTime t)).testEstop k low) := rfl

/-- The contact's test keeps everything but its own result, and adds faults. -/
theorem testEstop_spec (s : State) (k : Fin 4) (low : Bool) :
    s.SameCore (s.testEstop k low) ∧ (s.testEstop k low).saf.sinTest = s.saf.sinTest
      ∧ (∃ l, (s.testEstop k low).reports = s.reports ++ l)
      ∧ (2 ≤ k.val → (s.testEstop k low).saf.estTest = s.saf.estTest)
      ∧ (k.val < 2 → (s.testEstop k low).saf.estTest = bitSet s.saf.estTest k.val (!low)
          ∧ (low = false → ∃ r ∈ (s.testEstop k low).reports, r.code = 0x1811 ∧ r.cls = 3)) := by
  by_cases hk : 2 ≤ k.val
  · have h : s.testEstop k low = s := if_pos hk
    rw [h]
    exact ⟨sameCore_refl s, rfl, ⟨[], (List.append_nil _).symm⟩, fun _ => rfl, fun hlt => absurd hk (by omega)⟩
  · cases low with
    | true =>
      have h : s.testEstop k true = s.modSaf fun f => { f with estTest := bitSet f.estTest k.val (!true) } := if_neg hk
      rw [h]
      exact ⟨⟨rfl, rfl, rfl, rfl, rfl, rfl, rfl, rfl⟩, rfl, ⟨[], (List.append_nil _).symm⟩, fun h2 => absurd h2 hk,
        fun _ => ⟨rfl, fun hf => nomatch hf⟩⟩
    | false =>
      have h : s.testEstop k false =
          (s.modSaf fun f => { f with estTest := bitSet f.estTest k.val (!false) }).raise 0x1811 3 := if_neg hk
      rw [h]
      exact ⟨⟨rfl, rfl, rfl, rfl, rfl, rfl, rfl, rfl⟩, rfl, ⟨_, rfl⟩, fun h2 => absurd h2 hk,
        fun _ => ⟨rfl, fun _ => ⟨_, List.mem_append_right _ (List.mem_singleton_self _), rfl, rfl⟩⟩⟩

theorem State.OnlyTested.sameCore {s t : State} (h : s.OnlyTested t) : s.SameCore t := by
  obtain ⟨v, rs, n, rfl⟩ := h
  exact ⟨rfl, rfl, rfl, rfl, rfl, rfl, rfl, rfl⟩

theorem State.OnlyTested.estTest {s t : State} (h : s.OnlyTested t) : t.saf.estTest = s.saf.estTest := by
  obtain ⟨v, rs, n, rfl⟩ := h
  rfl

theorem testPulse_spec (s : State) (k : Fin 4) (lows : BitVec 16) (low : Bool) (t : DWord) :
    let tested (i : Nat) : Prop := s.sinMode i = 2 ∧ fld (s.sinCfg i) 6 5 = k.val
    ∃ u : State, exec (.testPulse k lows low t) s = .next u ∧ s.SameCore u
      ∧ (∀ i : Nat, i < 16 → (tested i → u.saf.sinTest.getLsbD i = !lows.getLsbD i)
          ∧ (¬ tested i → u.saf.sinTest.getLsbD i = s.saf.sinTest.getLsbD i))
      ∧ ((∃ i : Nat, i < 16 ∧ tested i ∧ lows.getLsbD i = false) → ∃ r ∈ u.reports, r.code = 0x1812 ∧ r.cls = 2)
      ∧ (2 ≤ k.val → u.saf.estTest = s.saf.estTest)
      ∧ (k.val < 2 → u.saf.estTest = bitSet s.saf.estTest k.val (!low) ∧ (low = false → ∃ r ∈ u.reports, r.code = 0x1811 ∧ r.cls = 3)) := by
  intro tested
  obtain ⟨honly, hin⟩ := foldl_testInput (s.atTime t) lows k
  have hiff : ∀ i, (s.atTime t).sinTested k i = true ↔ tested i := sinTested_iff s k
  generalize hu1 : (List.range 16).foldl (State.testInput lows k) (s.atTime t) = u1 at honly hin
  obtain ⟨hsame, hsin, ⟨l, hl⟩, hest2, hest⟩ := testEstop_spec u1 k low
  have hest1 : u1.saf.estTest = s.saf.estTest := honly.estTest
  rw [hest1] at hest2 hest
  refine ⟨u1.testEstop k low, by rw [testPulse_eq, hu1], honly.sameCore.trans hsame, fun i hi => ?_, ?_, hest2, hest⟩
  · rw [hsin]
    exact ⟨fun ht => (hin i hi).tested ((hiff i).mpr ht), fun ht => (hin i hi).untested (Bool.eq_false_iff.mpr (mt (hiff i).mp ht))⟩
  · rintro ⟨i, hi, ht, hlow⟩
    obtain ⟨r, hmem, hr⟩ := (hin i hi).raised ((hiff i).mpr ht) hlow
    exact ⟨r, hl ▸ List.mem_append_left l hmem, hr⟩

/-! ### ESTOP and safe outputs -/

theorem estopChange_eq (s : State) (a b : Bool) (t : DWord) :
    let s1 : State := { s with now := t, saf := { s.saf with estA := a, estB := b } }
    exec (.estopChange a b t) s = .next (
      if a = false ∧ b = false ∧ (s.saf.estA = true ∨ s.saf.estB = true) then s1.raise 0x1810 2 else s1) := by
  intro s1
  have hexec : exec (.estopChange a b t) s =
      .next (if !a && !b && !(!s.saf.estA && !s.saf.estB) then s1.raise 0x1810 2 else s1) := rfl
  rw [hexec]
  refine congrArg Host.Outcome.next (if_congr ?_ rfl rfl)
  cases a <;> cases b <;> simp

theorem estopDisc_raises {s : State} (t : DWord) (h : s.saf.estA ≠ s.saf.estB) : OnlyRaises s (exec (.estopDisc t) s) t 0x1811 3 false :=
  congrArg Host.Outcome.next (if_pos (bne_iff_ne.mpr h))

theorem sout_bit (f : Saf) (k : Fin 8) : f.sout.getLsbD k.val = (f.soutReq.getLsbD k.val && !f.forced.getLsbD k.val) := by
  rw [Saf.sout, BitVec.getLsbD_and, BitVec.getLsbD_not]
  simp

theorem darkPulse_sends {s : State} {k : Fin 8} (h : s.saf.sout.getLsbD k.val = true) :
    exec (.darkPulse k) s = .next (s.out (.dark k)) := congrArg Host.Outcome.next (if_pos h)

/-! ### Diagnostics -/

theorem marchSegment_spec (s : State) (fail : Bool) (t : DWord) :
    ∃ u : State, exec (.marchSegment fail t) s = .next u ∧ u.saf.marchIdx = (s.saf.marchIdx + 1) % 768 ∧ u.saf.marchAt = t.toNat
      ∧ s.SameCore u ∧ (if fail then s.Raised u 0x1806 3 false ∧ u.saf.ecc[7].2 = satAdd 65535 s.saf.ecc[7].2 1
        else u.reports = s.reports ∧ u.saf.ecc = s.saf.ecc) := by
  cases fail with
  | true =>
    refine ⟨_, rfl, rfl, rfl, ⟨rfl, rfl, rfl, rfl, rfl, rfl, rfl, rfl⟩, ?_⟩
    rw [if_pos rfl]
    exact ⟨⟨_, rfl⟩, congrArg Prod.snd (Vector.getElem_set_self _)⟩
  | false => exact ⟨_, rfl, rfl, rfl, ⟨rfl, rfl, rfl, rfl, rfl, rfl, rfl, rfl⟩, rfl, rfl⟩

theorem haloChunk_spec (s : State) (fail : Bool) (t : DWord) :
    ∃ v : State, exec (.haloChunk fail t) s = .next v ∧ v.saf.chunkIdx = (s.saf.chunkIdx + 1) % 64 ∧ v.saf.chunkAt = t.toNat
      ∧ s.SameCore v ∧ (if fail then s.Raised v 0x1805 3 false ∧ v.saf.diagFail = true
        else v.reports = s.reports ∧ v.saf.diagFail = s.saf.diagFail) := by
  cases fail with
  | true => exact ⟨_, rfl, rfl, rfl, ⟨rfl, rfl, rfl, rfl, rfl, rfl, rfl, rfl⟩, ⟨_, rfl⟩, Bool.or_true _⟩
  | false => exact ⟨_, rfl, rfl, rfl, ⟨rfl, rfl, rfl, rfl, rfl, rfl, rfl, rfl⟩, rfl, Bool.or_false _⟩

theorem diagLate_early {s : State} {march : Bool} {t : DWord} (h : t.toNat < s.diagDue march + 2 * s.tHalo) :
    exec (.diagLate march t) s = .next s := congrArg Host.Outcome.next (if_neg (Nat.not_le.mpr h))

theorem diagLate_due {s : State} {march : Bool} {t : DWord} (h : s.diagDue march + 2 * s.tHalo ≤ t.toNat) :
    ∃ u : State, exec (.diagLate march t) s = .next u ∧ u.saf.diagLate = true ∧ s.Raised u 0x1804 2 false ∧ s.SameCore u := by
  refine ⟨_, congrArg Host.Outcome.next (if_pos h), ?_, ⟨_, rfl⟩, ⟨rfl, rfl, rfl, rfl, rfl, rfl, rfl, rfl⟩⟩
  cases march <;> rfl

/-! ### Monitors -/

theorem clkStop_spec {s : State} {d : Fin 9} (t : DWord) (hmask : s.monMasked d.val = false) (hstop : s.stopped d.val = false) :
    ∃ u : State, exec (.clkStop d t) s = .next u ∧ u.saf.stoDyn = false ∧ s.SameCore u
      ∧ u.reports = s.reports ++ [⟨0x0101, 3, false, t, BitVec.ofNat 32 d.val⟩]
      ∧ (if d.val = 3 then u.saf.wdog = false else u.saf.forced = 0xFF) := by
  have hexec : execClkStop d t s = _ := congrArg Host.Outcome.next (if_neg (by rw [hstop, hmask]; decide))
  refine ⟨_, hexec, ?_⟩
  by_cases hd : d.val = 3
  · rw [if_pos hd, if_pos hd]
    exact ⟨rfl, ⟨rfl, rfl, rfl, rfl, rfl, rfl, rfl, rfl⟩, rfl, rfl⟩
  · rw [if_neg hd, if_neg hd]
    exact ⟨rfl, ⟨rfl, rfl, rfl, rfl, rfl, rfl, rfl, rfl⟩, rfl, rfl⟩

theorem clkFreq_spec {s : State} {d : Fin 9} (t : DWord) (hmask : s.monMasked d.val = false) :
    ∃ u : State, exec (.clkFreq d t) s = .next u ∧ s.Raised u 0x0102 3 false ∧ u.saf = s.saf ∧ s.SameCore u :=
  ⟨_, congrArg Host.Outcome.next (if_neg (by simp [hmask])), ⟨_, rfl⟩, rfl, ⟨rfl, rfl, rfl, rfl, rfl, rfl, rfl, rfl⟩⟩

theorem flowdlExpire_raises {s : State} (t : DWord) (h : s.saf.flowDone = false) :
    OnlyRaises s (exec (.flowdlExpire t) s) t 0x1802 3 false := congrArg Host.Outcome.next (if_neg (by simp [h]))

/-! ### FLOWSIG -/

/-- What FLOWSIG does once it has issued. -/
def flowsigEffect (c : Fin 10) (imm : BitVec 12) (s : State) (cyc : Nat) : State :=
  if c.val != 9 then s.except c cyc 1 (wordI 0x0E 0 0 13 imm.toNat)
  else
    let s2 := s.modCore c Core.adv
    if imm = 0xFFF then s2.flowCheck
    else s2.modSaf fun f => { f with flowSig := crcFold f.flowSig (leBytes imm.toNat 2) }

theorem flowsig_eq (c : Fin 10) (imm : BitVec 12) (s : State) :
    exec (.flowsig c imm) s = s.execWith c .sys [] none (flowsigEffect c imm) := rfl

theorem flowsig_spec {s : State} {c : Fin 10} {imm : BitVec 12} (h : s.mayRun c .sys [] none = true) :
    if c.val ≠ 9 then Traps s c (exec (.flowsig c imm) s) 1 (wordI 0x0E 0 0 13 imm.toNat)
    else RunsAs s c (exec (.flowsig c imm) s) fun s1 =>
      if imm = 0xFFF then (s1.modCore c Core.adv).flowCheck
      else { s1.modCore c Core.adv with saf := { s.saf with flowSig := crcFold s.saf.flowSig (leBytes imm.toNat 2) } } := by
  obtain ⟨t, ht⟩ := execWith_of_mayRun (f := flowsigEffect c imm) h
  rw [flowsig_eq, ht]
  unfold flowsigEffect
  by_cases hc : c.val = 9
  · rw [if_neg (by simpa using hc), if_neg (by simpa using hc)]
    exact ⟨t, rfl⟩
  · rw [if_pos hc, if_pos (bne_iff_ne.mpr hc)]
    exact traps_except s c t _ 1 _

/-! ### The mailbox -/

theorem mailboxGo_takes {s : State} (h : s.saf.mbx.busy = false) :
    ∃ u : State, exec .mailboxGo s = .next u ∧ u.saf.mbx.busy = true ∧ u.saf.mbx.done = false
      ∧ u.saf.mbx.cmd = (s.reg 0x180200).setWidth 8 ∧ (∀ k : Nat, k < 4 → nth u.saf.mbx.args k 0 = s.reg (0x180204 + 4 * k)) ∧ s.SameCore u := by
  have hexec : exec .mailboxGo s = .next { s with saf := { s.saf with mbx := { s.saf.mbx with
      cmd := (s.reg 0x180200).setWidth 8, args := (List.range 4).map fun k => s.reg (0x180204 + 4 * k)
      busy := true, seen := false, done := false } } } := by
    show execMailboxGo s = _
    unfold execMailboxGo State.modSaf
    dsimp only
    rw [if_neg (by simp [h])]
  refine ⟨_, hexec, rfl, rfl, rfl, fun k hk => ?_, ⟨rfl, rfl, rfl, rfl, rfl, rfl, rfl, rfl⟩⟩
  interval_cases k <;> rfl

theorem mailboxGo_overruns {s : State} (h : s.saf.mbx.busy = true) :
    exec .mailboxGo s = .next { s with saf := { s.saf with mbx := { s.saf.mbx with ovr := true } } } := by
  show execMailboxGo s = _
  unfold execMailboxGo State.modSaf
  dsimp only
  rw [if_pos h]

theorem mbxHas_of_idle {s : State} (h : s.saf.mbx.busy = false ∨ s.saf.mbx.seen = false) (p : Nat → Bool) : s.mbxHas p = false := by
  unfold State.mbxHas
  rcases h with h | h <;> simp [h]

theorem mbxHas_of_seen {s : State} (hb : s.saf.mbx.busy = true) (hs : s.saf.mbx.seen = true) {p : Nat → Bool}
    (hp : p s.saf.mbx.cmd.toNat = true) : s.mbxHas p = true := by
  unfold State.mbxHas
  rw [hb, hs, hp]
  rfl

theorem mbx_idle {s : State} (t : DWord) (res : BitVec 16) (r0 r1 r2 r3 : Word) (i : Instr)
    (h : s.saf.mbx.busy = false ∨ s.saf.mbx.seen = false)
    (hi : i ∈ [Instr.mbxHostStop t, .mbxHoldEnd t, .mbxEcho, .mbxProgram res r0 r1 r2 r3, .mbxUnknown]) : exec i s = .next s := by
  have hno : ∀ (p : Nat → Bool) (u : State), (if s.mbxHas p then u else s) = s := fun p u => if_neg (by simp [mbxHas_of_idle h p])
  simp only [List.mem_cons, List.not_mem_nil, or_false] at hi
  rcases hi with rfl | rfl | rfl | rfl | rfl
  · exact congrArg Host.Outcome.next (hno _ _)
  · exact congrArg Host.Outcome.next (hno _ _)
  · exact congrArg Host.Outcome.next (hno _ _)
  · exact congrArg Host.Outcome.next (hno _ _)
  · exact congrArg Host.Outcome.next (hno _ _)

/-- A request of `s` that completes leaves registers, cores, data and arms, and is marked done (R347). -/
structure MbxCompleted (s u : State) : Prop where
  busy : u.saf.mbx.busy = false
  done : u.saf.mbx.done = true
  regs : u.regs = s.regs
  cores : u.cores = s.cores
  data : u.data = s.data
  arms : u.arms = s.arms

/-- What the completion of a request leaves of the safety side. -/
theorem mbxDone_saf (s : State) (result : BitVec 16) : (s.mbxDone result).saf =
    { s.saf with mbx := { s.saf.mbx with busy := false, seen := false, done := true, result := result } } := msix_saf _ _

theorem mbxCompleted_of_done {s u : State} (result : BitVec 16) (hregs : u.regs = s.regs) (hcores : u.cores = s.cores)
    (hdata : u.data = s.data) (harms : u.arms = s.arms) : MbxCompleted s (u.mbxDone result) := by
  refine ⟨by rw [mbxDone_saf], by rw [mbxDone_saf], ?_, ?_, ?_, ?_⟩
  · exact (msix_regs _ _).trans hregs
  · exact (msix_cores _ _).trans hcores
  · exact (msix_data _ _).trans hdata
  · exact (msix_arms _ _).trans harms

section
variable {s : State} (hb : s.saf.mbx.busy = true) (hs : s.saf.mbx.seen = true)
include hb hs

theorem mbxHostStop_completes (t : DWord) (hc : s.saf.mbx.cmd.toNat = 1) :
    ∃ u, exec (.mbxHostStop t) s = .next u ∧ MbxCompleted s u ∧ s.Raised u 0x1820 2 true := by
  refine ⟨_, congrArg Host.Outcome.next (if_pos (mbxHas_of_seen (p := (· == 1)) hb hs (beq_iff_eq.mpr hc))), mbxCompleted_of_done _ rfl rfl rfl rfl, ?_⟩
  exact ⟨Config.faultDetail 0x1820 s.free, by rw [State.mbxDoneFree, State.mbxDone, msix_reports, msix_now]; rfl⟩

theorem mbxHoldEnd_completes (t : DWord) (hc : s.saf.mbx.cmd.toNat = 2) (hcs : s.coreSafety = .hold) (hst : s.saf.state = .hold) :
    ∃ u, exec (.mbxHoldEnd t) s = .next u ∧ MbxCompleted s u ∧ s.Raised u 0x181A 0 false ∧ u.saf.finalRamp = true := by
  obtain ⟨gate, hend⟩ : ∃ gate, s.endHold t =
      { ((s.atTime t).raise 0x181A 0).modSaf fun f => { f with finalRamp := true, state := .dusk } with gate := gate } := by
    unfold State.endHold
    rw [if_pos (by rw [hcs, hst]; rfl)]
    unfold State.gateIn State.gatePush
    split
    · exact ⟨s.gate, rfl⟩
    · exact ⟨_, rfl⟩
  have hexec : exec (.mbxHoldEnd t) s = .next (s.endHold t).mbxDoneFree :=
    congrArg Host.Outcome.next (if_pos (mbxHas_of_seen (p := (· == 2)) hb hs (beq_iff_eq.mpr hc)))
  rw [hend] at hexec
  refine ⟨_, hexec, mbxCompleted_of_done _ rfl rfl rfl rfl, ?_, ?_⟩
  · exact ⟨Config.faultDetail 0x181A s.free, by rw [State.mbxDoneFree, State.mbxDone, msix_reports, msix_now]; rfl⟩
  · rw [State.mbxDoneFree, mbxDone_saf]
    rfl

theorem mbxEcho_completes (hc : s.saf.mbx.cmd.toNat = 3) :
    ∃ u, exec .mbxEcho s = .next u ∧ MbxCompleted s u ∧ u.saf.mbx.resp = s.saf.mbx.args := by
  refine ⟨_, congrArg Host.Outcome.next (if_pos (mbxHas_of_seen (p := (· == 3)) hb hs (beq_iff_eq.mpr hc))), mbxCompleted_of_done _ rfl rfl rfl rfl, ?_⟩
  rw [State.mbxDoneFree, mbxDone_saf]
  rfl

theorem mbxProgram_completes (res : BitVec 16) (r0 r1 r2 r3 : Word) (hc : 0x80 ≤ s.saf.mbx.cmd.toNat) :
    ∃ u, exec (.mbxProgram res r0 r1 r2 r3) s = .next u ∧ MbxCompleted s u ∧ u.saf.mbx.result = res ∧ u.saf.mbx.resp = [r0, r1, r2, r3] := by
  refine ⟨_, congrArg Host.Outcome.next (if_pos (mbxHas_of_seen hb hs (decide_eq_true hc))), mbxCompleted_of_done _ rfl rfl rfl rfl, ?_⟩
  rw [mbxDone_saf]
  exact ⟨rfl, rfl⟩

theorem mbxUnknown_completes (hc : s.saf.mbx.cmd.toNat = 0 ∨ (4 ≤ s.saf.mbx.cmd.toNat ∧ s.saf.mbx.cmd.toNat < 0x80)) :
    ∃ u, exec .mbxUnknown s = .next u ∧ MbxCompleted s u ∧ u.saf.mbx.result = 0xFFFF := by
  have hp : (s.saf.mbx.cmd.toNat == 0 || (decide (4 ≤ s.saf.mbx.cmd.toNat) && decide (s.saf.mbx.cmd.toNat < 0x80))) = true := by
    simpa using hc
  refine ⟨_, congrArg Host.Outcome.next (if_pos (mbxHas_of_seen hb hs hp)), mbxCompleted_of_done _ rfl rfl rfl rfl, ?_⟩
  rw [mbxDone_saf]

end

end Sys2Proof.Machine

open Sys2Proof Sys2Proof.Machine

/-- Settles O51, clause by clause; every answered request of the mailbox ends in `MbxCompleted`. -/
theorem safetyInputsOutputsAndMailbox : Obligations.SafetyInputsOutputsAndMailbox := by
  refine ⟨safeInputChange_spec, fun s i t p hp => ⟨sinDisc_agrees t hp, sinDisc_marks t hp⟩, testPulse_spec, estopChange_eq,
    fun s t h => estopDisc_raises t h, fun s v => ⟨_, rfl, rfl, fun k => sout_bit _ k⟩, fun s k h => darkPulse_sends h,
    fun s k rb t => rfl, fun s fail t => ?diagnostics, fun s march t => ⟨diagLate_early, diagLate_due⟩,
    fun s d t hmask => ⟨clkStop_spec t hmask, clkFreq_spec t hmask⟩, fun s t => ⟨rfl, rfl, rfl⟩, fun s t h => flowdlExpire_raises t h,
    fun s c imm h => flowsig_spec h, fun s h => mailboxGo_takes h, fun s h => mailboxGo_overruns h,
    fun s t res r0 r1 r2 r3 i h hi => mbx_idle t res r0 r1 r2 r3 i h hi, fun s t res r0 r1 r2 r3 hb hs => ?mailbox⟩
  case diagnostics =>
    obtain ⟨u, hu, hidx, hat, hsame, hfail⟩ := marchSegment_spec s fail t
    obtain ⟨v, hv⟩ := haloChunk_spec s fail t
    exact ⟨u, v, hu, hidx, hat, hsame, hfail, hv⟩
  case mailbox =>
    intro c done
    have hdone : ∀ (o : Res) (p : State → Prop), (∃ u, o = .next u ∧ MbxCompleted s u ∧ p u) → done o p := by
      rintro o p ⟨u, ho, ⟨hbusy, hdone, hregs, hcores, hdata, harms⟩, hp⟩
      exact ⟨u, ho, hbusy, hdone, hregs, hcores, hdata, harms, hp⟩
    exact ⟨fun hc => hdone _ _ (mbxHostStop_completes hb hs t hc),
      fun hc hcs hst => hdone _ _ (mbxHoldEnd_completes hb hs t hc hcs hst), fun hc => hdone _ _ (mbxEcho_completes hb hs hc),
      fun hc => hdone _ _ (mbxProgram_completes hb hs res r0 r1 r2 r3 hc), fun hc => hdone _ _ (mbxUnknown_completes hb hs hc)⟩
end

section
/-! Event and service frames, schedule loads, the arbitrating window, and cycle points (R85, R420, R426, R430, R433, R434,
R437–R439, R529). -/

namespace Sys2Proof.Machine

/-! ### Received frames -/

section
variable {s : State} {ch : Channel} {f : SchedFrame} {t : DWord}

/-- A frame that is discarded is counted and not kept. -/
theorem receive_discarded (h : (s.atTime t).frameDiscard ch f ≠ .none) :
    (s.atTime t).receive ch f = (false, (s.atTime t).countDiscard ch f ((s.atTime t).frameDiscard ch f)) :=
  Prod.ext (beq_eq_false_iff_ne.mpr h) rfl

/-- A frame that is kept changes nothing by itself. -/
theorem receive_kept (h : (s.atTime t).frameDiscard ch f = .none) : (s.atTime t).receive ch f = (true, s.atTime t) := by
  unfold State.receive
  rw [h]
  rfl

theorem eventFrame_discarded (h : (s.atTime t).frameDiscard ch f ≠ .none) :
    execEventFrame ch f t s = .next ((s.atTime t).countDiscard ch f ((s.atTime t).frameDiscard ch f)) := by
  have hr := receive_discarded h
  unfold State.atTime at hr
  unfold execEventFrame
  dsimp only
  rw [hr]
  rfl

theorem eventFrame_other (h : (s.atTime t).frameDiscard ch f = .none) (hf : f.cls ≠ 4 ∨ f.payload.length ≠ 4) :
    execEventFrame ch f t s = .next (s.atTime t) := by
  have hr := receive_kept h
  unfold State.atTime at hr
  unfold execEventFrame
  dsimp only
  rw [hr, if_neg]
  · rfl
  · simp only [Bool.true_and, Bool.and_eq_true, beq_iff_eq]
    exact fun ⟨hc, hl⟩ => hf.elim (fun h => h hc) fun h => h hl

/-- The gate source of a channel. -/
def chanSource (ch : Channel) : Nat := match ch with | .a => 2 | .b => 3

theorem chanSource_eq (ch : Channel) : chanSource ch = if ch = .a then 2 else 3 := by
  cases ch <;> rfl

theorem gateDomain_chanSource (ch : Channel) : gateDomain (chanSource ch) = if ch = .a then 5 else 6 := by
  cases ch <;> rfl

theorem eventFrame_gated (h : (s.atTime t).frameDiscard ch f = .none) (hc : f.cls = 4) (hl : f.payload.length = 4)
    (hrep : s.eph.replay = false) (hstop : s.stopped (if ch = .a then 5 else 6) = false) :
    execEventFrame ch f t s = .next { s.atTime t with gate := s.gate ++
      [⟨s.stampAt t, if ch = .a then 2 else 3, .event none (mkEv 2 f.src.toNat (valAt f.payload 0 4))⟩] } := by
  have hr := receive_kept h
  unfold State.atTime at hr
  unfold execEventFrame
  dsimp only
  rw [hr, if_pos (by rw [hc, hl]; rfl)]
  refine congrArg Host.Outcome.next ?_
  refine (gateIn_of_running (s := s.atTime t) (src := chanSource ch) hrep ?_).trans ?_
  · rw [gateDomain_chanSource]
    exact hstop
  · rw [chanSource_eq]
    rfl

/-! ### SERVICE_FRAME_RECEIVE -/

theorem serviceFrame_discarded {addr : DWord} (hrep : s.eph.replay = false) (h : (s.atTime t).frameDiscard ch f ≠ .none) :
    execServiceFrameReceive ch f addr t s = .next ((s.atTime t).countDiscard ch f ((s.atTime t).frameDiscard ch f)) := by
  unfold execServiceFrameReceive
  dsimp only
  rw [if_neg (by simp [hrep]), receive_discarded h]
  rfl

theorem serviceFrame_received {addr : DWord} (hrep : s.eph.replay = false) (h : (s.atTime t).frameDiscard ch f = .none)
    (haddr : s.mer.addr = some (valAt f.payload 0 2 % 1024)) (hc : f.cls = 5) (hlo : 1 ≤ valAt f.payload 2 1)
    (hhi : valAt f.payload 2 1 ≤ 15) :
    execServiceFrameReceive ch f addr t s = .next ((s.atTime t).sqReceive 2 (chanIdx ch).val f.payload addr) := by
  unfold execServiceFrameReceive
  dsimp only
  rw [if_neg (by simp [hrep]), receive_kept h, if_pos]
  rw [hc, haddr, decide_eq_true hlo, decide_eq_true hhi]
  simp

end

/-- The frame in its buffer, and the descriptor that names it (R529). -/
def State.sqFilled (s : State) (q : Fin 4) (port : Nat) (bytes : List Byte) (addr : DWord) : State :=
  ((s.out (.host addr (bytes.take 2048))).out (.host (BitVec.ofNat 64 (s.sqDesc q + 8))
    (leBytes (bytes.take 2048).length 2 ++ [BitVec.ofNat 8 port, if 2048 < bytes.length then 3 else 1]))).sqTake q

theorem sqReceive_ready {s : State} {q : Fin 4} {port : Nat} {bytes : List Byte} {addr : DWord} (h : s.sqReady q = true) :
    s.sqReceive q port bytes addr = (s.sqFilled q port bytes addr).msix 5 := if_pos h

theorem sqReceive_discards {s : State} {q : Fin 4} {port : Nat} {bytes : List Byte} {addr : DWord} (h : s.sqReady q = false) :
    s.sqReceive q port bytes addr = s.modHost fun h => { h with discards := vmod h.discards q fun n => satAdd 65535 n 1 } :=
  if_neg (by simp [h])

theorem msix_outbox (s : State) (v : Nat) : ∃ l, (s.msix v).outbox = s.outbox ++ l := by
  unfold State.msix
  split
  · exact ⟨[], (List.append_nil _).symm⟩
  · exact ⟨_, rfl⟩

theorem msix_discards (s : State) (v : Nat) : (s.msix v).host.discards = s.host.discards := by
  unfold State.msix
  split <;> rfl

theorem sqReceive_took (s : State) (q : Fin 4) (port : Nat) (bytes : List Byte) (addr t : DWord) :
    s.TookFrame ((s.atTime t).sqReceive q port bytes addr) q port bytes addr := by
  unfold State.TookFrame
  have hready : (s.atTime t).sqReady q = s.sqReady q := rfl
  cases h : s.sqReady q with
  | true =>
    rw [sqReceive_ready (hready.trans h)]
    refine ⟨fun _ => ⟨?_, ?_, ?_⟩, fun h' => (nomatch h'), msix_cores _ _, msix_data _ _, msix_gate _ _, msix_mer _ _, msix_reports _ _⟩
    · have hreg : ∀ off, (((s.atTime t).sqFilled q port bytes addr).msix 5).reg off = ((s.atTime t).sqFilled q port bytes addr).reg off :=
        fun off => congrArg (fun r => assoc (regReset off) r off) (msix_regs _ _)
      rw [hreg]
      exact (reg_setReg _ _ _ _).trans (if_pos rfl)
    · exact msix_discards _ _
    · obtain ⟨l, hl⟩ := msix_outbox ((s.atTime t).sqFilled q port bytes addr) 5
      refine ⟨l, hl.trans ?_⟩
      rw [State.sqFilled, List.length_take]
      show (s.outbox ++ [_] ++ [_]) ++ l = _
      rw [List.append_assoc, List.append_assoc]
      rfl
  | false =>
    rw [sqReceive_discards (hready.trans h)]
    exact ⟨fun h' => (nomatch h'), fun _ => ⟨rfl, rfl, Vector.getElem_set_self _⟩, rfl, rfl, rfl, rfl, rfl⟩

theorem sqReceive_now (s : State) (q : Fin 4) (port : Nat) (bytes : List Byte) (addr : DWord) :
    (s.sqReceive q port bytes addr).now = s.now := by
  cases h : s.sqReady q with
  | true =>
    rw [sqReceive_ready h, msix_now]
    rfl
  | false =>
    rw [sqReceive_discards h]
    rfl

theorem serviceFrame_took {s : State} {ch : Channel} {f : SchedFrame} {t addr : DWord} (hrep : s.eph.replay = false)
    (h : (s.atTime t).frameDiscard ch f = .none) (haddr : s.mer.addr = some (valAt f.payload 0 2 % 1024)) (hc : f.cls = 5)
    (hlo : 1 ≤ valAt f.payload 2 1) (hhi : valAt f.payload 2 1 ≤ 15) :
    ∃ u : State, execServiceFrameReceive ch f addr t s = .next u ∧ u.now = t
      ∧ s.TookFrame u 2 (chanIdx ch).val f.payload addr := by
  exact ⟨_, serviceFrame_received hrep h haddr hc hlo hhi, sqReceive_now (s.atTime t) _ _ _ _,
    sqReceive_took s 2 (chanIdx ch).val f.payload addr t⟩

/-! ### Schedule loads -/

theorem valAt_byte {a : List Byte} {k : Nat} (h : a.length = k) (x : Byte) (b : List Byte) : valAt (a ++ (x :: b)) k 1 = x.toNat := by
  rw [valAt, bytesAt_append_right h]
  rfl

/-- The payload of a schedule load (R430). -/
def loadPayload (node : Nat) (tag : Byte) (act : Nat) (rest : List Byte) : List Byte :=
  leBytes node 2 ++ [0x10, tag] ++ leBytes act 4 ++ rest

theorem loadPayload_node {node : Nat} (h : node < 65536) (tag : Byte) (act : Nat) (rest : List Byte) :
    valAt (loadPayload node tag act rest) 0 2 = node := by
  have := valAt_leBytes (a := []) rfl node 2 ([0x10, tag] ++ leBytes act 4 ++ rest)
  rw [loadPayload, List.append_assoc, List.append_assoc]
  rw [List.nil_append, List.append_assoc] at this
  exact this.trans (Nat.mod_eq_of_lt h)

theorem loadPayload_op (node : Nat) (tag : Byte) (act : Nat) (rest : List Byte) :
    valAt (loadPayload node tag act rest) 2 1 = 0x10 := by
  rw [loadPayload, List.append_assoc, List.append_assoc]
  exact valAt_byte (leBytes_length node 2) 0x10 _

theorem loadPayload_tag (node : Nat) (tag : Byte) (act : Nat) (rest : List Byte) :
    valAt (loadPayload node tag act rest) 3 1 = tag.toNat := by
  have happ : loadPayload node tag act rest = (leBytes node 2 ++ [0x10]) ++ (tag :: (leBytes act 4 ++ rest)) := by
    simp [loadPayload]
  rw [happ]
  exact valAt_byte (by simp) tag _

theorem loadPayload_act {act : Nat} (h : act < 2 ^ 32) (node : Nat) (tag : Byte) (rest : List Byte) :
    valAt (loadPayload node tag act rest) 4 4 = act := by
  rw [loadPayload, List.append_assoc]
  refine (valAt_leBytes (by simp) act 4 rest).trans (Nat.mod_eq_of_lt ?_)
  exact h

section
variable {s : State} {node : BitVec 10} {ch : Channel} {l : SchedLoad}

/-- The load that a controller sends or raises is the first of its node and channel. -/
def State.loadOf (s : State) (node : BitVec 10) (ch : Channel) : Option SchedLoad :=
  s.mer.loads.find? fun x => x.node == node.toNat && x.chB == (ch == .b)

theorem schedloadSend_done {slot : MEntry} (hl : s.loadOf node ch = some l) (hs : s.ownSlot ch = some slot)
    (h : l.acked = true ∨ 3 ≤ l.tries) : execSchedloadSend node ch s = .next s := by
  unfold State.loadOf at hl
  unfold execSchedloadSend
  rw [hl, hs]
  dsimp only
  rw [if_pos (by simpa using h)]

/-- The entries of a load: those of the node and the arbitrating window, at most 30. -/
def State.loadEntries (s : State) (node : BitVec 10) (ch : Channel) : List MEntry :=
  ((s.table ch).filter fun e => e.sender == node.toNat || e.kind == 1).take 30

/-- The matrix cycle at which a load takes effect. -/
def State.loadAct (s : State) : Nat := s.epoch / 64 + 3 + s.draw.1.toNat % 64

/-- The frame of a load. -/
def State.loadFrame (s : State) (node : BitVec 10) (ch : Channel) (l : SchedLoad) (slot : MEntry) : ArbFrame :=
  ⟨5, BitVec.ofNat 12 slot.fid, loadPayload node.toNat l.tag s.loadAct
    ([BitVec.ofNat 8 (s.loadEntries node ch).length, BitVec.ofNat 8 (chanIdx ch).val] ++ leBytes 0 2 ++
      (s.loadEntries node ch).flatMap fun e => leBytes e.bits 8), 0⟩

/-- One more try of a load. -/
def SchedLoad.tried (l x : SchedLoad) : SchedLoad := if x.node == l.node && x.chB == l.chB then { x with tries := x.tries + 1 } else x

theorem schedloadSend_queues {slot : MEntry} (hl : s.loadOf node ch = some l) (hs : s.ownSlot ch = some slot)
    (hack : l.acked = false) (htries : l.tries < 3) : execSchedloadSend node ch s =
      .next ((s.draw.2.pushArb ch (s.loadFrame node ch l slot)).modMer fun m => { m with loads := m.loads.map l.tried }) := by
  unfold State.loadOf at hl
  unfold execSchedloadSend
  rw [hl, hs]
  dsimp only
  rw [if_neg (by simp [hack, htries])]
  unfold State.loadFrame loadPayload State.loadEntries State.loadAct
  simp only [List.append_assoc]
  rfl

theorem loadAct_lt (h : s.epoch < 2 ^ 37) : s.loadAct < 2 ^ 32 := by
  have hd : s.draw.1.toNat % 64 < 64 := Nat.mod_lt _ (by decide)
  unfold State.loadAct
  omega

theorem schedloadSend_spec {slot : MEntry} (hl : s.loadOf node ch = some l) (hs : s.ownSlot ch = some slot)
    (hack : l.acked = false) (htries : l.tries < 3) (hep : s.epoch < 2 ^ 37) :
    ∃ (u : State) (x : ArbFrame), exec (.schedloadSend node ch) s = .next u ∧ s.SameCore u
      ∧ u.mer.arb[chanIdx ch] = s.mer.arb[chanIdx ch] ++ [x] ∧ x.cls = 5 ∧ x.fid = BitVec.ofNat 12 slot.fid ∧ x.waits = 0
      ∧ valAt x.payload 0 2 = node.toNat ∧ valAt x.payload 2 1 = 0x10 ∧ valAt x.payload 3 1 = l.tag.toNat
      ∧ s.epoch / 64 + 2 ≤ valAt x.payload 4 4
      ∧ u.mer.loads = s.mer.loads.map fun y => if y.node == l.node && y.chB == l.chB then { y with tries := y.tries + 1 } else y := by
  have hnode : node.toNat < 65536 := by
    have := node.isLt
    omega
  have hact : s.epoch / 64 + 2 ≤ s.loadAct := by
    unfold State.loadAct
    omega
  refine ⟨_, s.loadFrame node ch l slot, schedloadSend_queues hl hs hack htries, ⟨rfl, rfl, rfl, rfl, rfl, rfl, rfl, rfl⟩,
    Vector.getElem_set_self _, rfl, rfl, rfl, loadPayload_node hnode _ _ _, loadPayload_op _ _ _ _, loadPayload_tag _ _ _ _, ?_, rfl⟩
  exact hact.trans_eq (loadPayload_act (loadAct_lt hep) _ _ _).symm

/-! ### SCHEDLOAD_RECEIVE and SCHEDACK_RECEIVE -/

theorem bits_entryOf {v : Nat} (h : v < 2 ^ 64) : (entryOf v).bits = v := by
  unfold entryOf MEntry.bits fld
  dsimp only
  norm_num
  omega

theorem valAt_lt (b : List Byte) (off n : Nat) : valAt b off n < 256 ^ n := by
  have h : ∀ l : List Byte, leVal l < 256 ^ l.length := fun l => by
    induction l with
    | nil => decide
    | cons x xs ih =>
      have hx := x.isLt
      rw [leVal, List.length_cons, Nat.pow_succ']
      omega
  have := h (bytesAt b off n)
  rwa [bytesAt_length] at this

end

/-- The entries that a load carries. -/
def loadedEntries (b : List Byte) : List MEntry := (List.range (min 30 (valAt b 8 1))).map fun i => entryOf (valAt b (12 + 8 * i) 8)

theorem loadedEntries_length (b : List Byte) : (loadedEntries b).length = min 30 (valAt b 8 1) := by
  rw [loadedEntries, List.length_map, List.length_range]

theorem loadedEntries_bits (b : List Byte) {i : Nat} (hi : i < (loadedEntries b).length) :
    nth ((loadedEntries b).map MEntry.bits) i 0 = valAt b (12 + 8 * i) 8 := by
  rw [nth, List.getD_eq_getElem _ _ (by simpa using hi), List.getElem_map]
  unfold loadedEntries
  rw [List.getElem_map, List.getElem_range]
  exact bits_entryOf (valAt_lt _ _ _)

/-- A node stores a load of its own address, in place of the last of that channel. -/
def FabNode.loaded (n : FabNode) (uid : BitVec 48) (ch : Channel) (b : List Byte) : FabNode :=
  if n.uid == uid && n.addr == some (valAt b 0 2 % 1024) then
    { n with loads := n.loads.filter (fun l => l.1 != (ch == .b)) ++ [(ch == .b, valAt b 4 4, loadedEntries b)] }
  else n

section
variable {s : State} {uid : BitVec 48} {ch : Channel} {f : SchedFrame}

/-- A frame that is no good load (R420, R430). -/
def noLoad (f : SchedFrame) : Bool := f.abort || !SchedFrame.crcOk f || f.cls != 5 || valAt f.payload 2 1 != 0x10

theorem schedloadReceive_ignored (h : noLoad f = true) : execSchedloadReceive uid ch f s = .next s :=
  congrArg Host.Outcome.next (if_pos h)

theorem schedloadReceive_stored (h : noLoad f = false) : execSchedloadReceive uid ch f s =
    .next (s.modMer fun m => { m with nodes := m.nodes.map fun n => n.loaded uid ch f.payload }) :=
  congrArg Host.Outcome.next (if_neg (Bool.eq_false_iff.mp h))

theorem schedloadReceive_spec (h : noLoad f = false) {n : FabNode} (hn : n ∈ s.mer.nodes) (huid : n.uid = uid)
    (haddr : n.addr = some (valAt f.payload 0 2 % 1024)) :
    ∃ (u : State) (m : FabNode) (ents : List MEntry), exec (.schedloadReceive uid ch f) s = .next u ∧ s.SameCore u ∧ m ∈ u.mer.nodes
      ∧ m.uid = uid ∧ (decide (ch = .b), valAt f.payload 4 4, ents) ∈ m.loads ∧ ents.length = min 30 (valAt f.payload 8 1)
      ∧ ∀ i : Nat, i < ents.length → nth (ents.map MEntry.bits) i 0 = valAt f.payload (12 + 8 * i) 8 := by
  have hload : n.loaded uid ch f.payload = { n with
      loads := n.loads.filter (fun l => l.1 != (ch == .b)) ++ [(ch == .b, valAt f.payload 4 4, loadedEntries f.payload)] } :=
    if_pos (by simp [huid, haddr])
  refine ⟨_, n.loaded uid ch f.payload, loadedEntries f.payload, schedloadReceive_stored h, ⟨rfl, rfl, rfl, rfl, rfl, rfl, rfl, rfl⟩,
    List.mem_map_of_mem hn, ?_, ?_, loadedEntries_length _, fun i hi => loadedEntries_bits _ hi⟩
  · rw [hload]
    exact huid
  · rw [hload]
    refine List.mem_append_right _ (List.mem_singleton.mpr ?_)
    cases ch <;> rfl

end

section
variable {s : State} {ch : Channel} {f : SchedFrame} {t : DWord} {l : SchedLoad}

theorem schedackReceive_marks (h : (s.atTime t).frameDiscard ch f = .none) (hc : f.cls = 5) (hop : valAt f.payload 2 1 = 0x11)
    (haddr : s.mer.addr = some (valAt f.payload 0 2 % 1024)) (hl : s.mer.loads = [l]) :
    execSchedackReceive ch f t s = .next { s with now := t, mer := { s.mer with loads :=
      [if l.node = f.src.toNat ∧ l.tag.toNat = valAt f.payload 3 1 then { l with acked := true } else l] } } := by
  have hr := receive_kept h
  unfold State.atTime at hr
  unfold execSchedackReceive
  dsimp only
  rw [hr, if_pos (by rw [hc, hop, haddr]; simp)]
  unfold State.modMer
  dsimp only
  rw [hl, List.map_singleton]
  simp only [Bool.and_eq_true, beq_iff_eq]

end

/-! ### MER_SCHED_LOAD -/

section
variable {s : State} {node : BitVec 10} {ch : Channel} {l : SchedLoad}

theorem merSchedLoad_quiet (hl : s.loadOf node ch = some l) (h : l.tries < 3 ∨ l.acked = true ∨ l.raised = true) :
    execMerSchedLoad node ch s = .next s := by
  unfold State.loadOf at hl
  unfold execMerSchedLoad
  rw [hl]
  dsimp only
  rw [if_neg]
  simp only [Bool.and_eq_true, decide_eq_true_eq, Bool.not_eq_true']
  rintro ⟨⟨h3, hack⟩, hraised⟩
  rcases h with h | h | h
  · omega
  · exact absurd h (by simp [hack])
  · exact absurd h (by simp [hraised])

theorem merSchedLoad_raises (hl : s.loadOf node ch = some l) (h3 : 3 ≤ l.tries) (hack : l.acked = false) (hraised : l.raised = false) :
    ∃ u : State, exec (.merSchedLoad node ch) s = .next u ∧ s.SameCore u
      ∧ u.reports = s.reports ++ [⟨0x1015, 1, false, s.now, BitVec.ofNat 32 node.toNat⟩] ∧ ∃ x ∈ u.mer.loads, x = { l with raised := true } := by
  unfold State.loadOf at hl
  have hexec : execMerSchedLoad node ch s = .next ((s.modMer fun m => { m with loads := m.loads.map fun x =>
      if x.node == l.node && x.chB == l.chB then { x with raised := true } else x }).raise 0x1015 1 false
        (some (BitVec.ofNat 32 node.toNat))) := by
    unfold execMerSchedLoad
    rw [hl]
    dsimp only
    rw [if_pos (by simp [h3, hack, hraised])]
  refine ⟨_, hexec, ⟨rfl, rfl, rfl, rfl, rfl, rfl, rfl, rfl⟩, rfl, _, ?_, rfl⟩
  refine List.mem_map.mpr ⟨l, List.mem_of_find?_eq_some hl, ?_⟩
  rw [if_pos (by simp)]

end

/-! ### MER_ARB_LATE and MER_CRC -/

section
variable {s : State} {ch : Channel} {fid : BitVec 12}

theorem merArbLate_raises (h : ∃ f ∈ s.mer.arb[chanIdx ch], f.fid = fid ∧ f.waits = 64) : execMerArbLate ch fid s =
    .next { s with reports := s.reports ++ [⟨0x1014, 1, false, s.now, BitVec.ofNat 32 fid.toNat⟩] } := by
  unfold execMerArbLate
  rw [if_pos]
  · rfl
  · simpa using h

theorem merArbLate_quiet (h : ∀ f ∈ s.mer.arb[chanIdx ch], f.fid = fid → f.waits ≠ 64) : execMerArbLate ch fid s = .next s := by
  unfold execMerArbLate
  rw [if_neg]
  simpa using h

theorem merCrc_quiet (h : s.mers.crcCnt[chanIdx ch] < 16 ∨ s.mers.crcRaised[chanIdx ch] = true) : execMerCrc ch s = .next s := by
  unfold execMerCrc
  rw [if_neg]
  simp only [Bool.and_eq_true, decide_eq_true_eq, Bool.not_eq_true']
  rintro ⟨h16, hr⟩
  rcases h with h | h
  · omega
  · exact absurd h (by simp [hr])

theorem merCrc_raises (h : 16 ≤ s.mers.crcCnt[chanIdx ch]) (hr : s.mers.crcRaised[chanIdx ch] = false) :
    ∃ u : State, exec (.merCrc ch) s = .next u ∧ u.mers.crcRaised[chanIdx ch] = true ∧ s.Raised u 0x1012 1 false ∧ s.SameCore u := by
  refine ⟨_, congrArg Host.Outcome.next (if_pos (by rw [decide_eq_true h, hr]; rfl)), ?_, ⟨_, rfl⟩,
    ⟨rfl, rfl, rfl, rfl, rfl, rfl, rfl, rfl⟩⟩
  exact Vector.getElem_set_self _

end

/-! ### The arbitrating window -/

section
variable {s : State} {ch : Channel} {f : ArbFrame} {e : MEntry}

/-- The length of a minislot, in ns. -/
def State.minislot (s : State) : Nat := 8 * s.prof.msLen

/-- A frame that starts at `at0` is through, guard included, before the window ends (R433). -/
abbrev State.arbFits (s : State) (f : ArbFrame) (at0 : Nat) : Prop :=
  at0 + airtime f.payload.length + 8 * s.prof.guard ≤ 8 * s.prof.arbEnd

/-- The frame is sent in the minislot at `at0`: the window has the minislot, and the frame fits. -/
abbrev State.arbSends (s : State) (f : ArbFrame) (at0 : Nat) : Prop :=
  at0 + s.minislot ≤ 8 * s.prof.arbEnd ∧ s.arbFits f at0

/-- The controller has one own slot: entry `e`, for the one frame that waits. -/
structure OneSlot (s : State) (ch : Channel) (f : ArbFrame) (e : MEntry) : Prop where
  queue : s.mer.arb[chanIdx ch] = [f]
  positive : 0 < s.prof.msLen
  own : (s.table ch).filter (fun x => x.kind == 2 && some x.sender == s.mer.addr) = [e]
  fid : e.fid = f.fid.toNat

theorem OneSlot.ownAt (h : OneSlot s ch f e) (m : Nat) :
    (s.table ch).find? (fun x => x.kind == 2 && some x.sender == s.mer.addr && x.start == m) =
      if e.start = m then some e else none := by
  calc (s.table ch).find? (fun x => x.kind == 2 && some x.sender == s.mer.addr && x.start == m)
      = ((s.table ch).filter (fun x => x.kind == 2 && some x.sender == s.mer.addr)).find? (fun x => x.start == m) := by
        rw [List.find?_filter]
        simp only [Bool.and_eq_true, Bool.decide_and, Bool.decide_eq_true]
    _ = if e.start = m then some e else none := by
        rw [h.own, List.find?_singleton]
        simp only [beq_iff_eq]

theorem OneSlot.minislot_ne (h : OneSlot s ch f e) : ¬ 8 * s.prof.msLen = 0 := by
  have := h.positive
  omega

/-- A minislot of another passes without a frame. -/
theorem OneSlot.passes (h : OneSlot s ch f e) {m : Nat} (hm : e.start ≠ m) (fuel at0 : Nat) (sent : List (ArbFrame × Nat)) :
    arbLoop s ch [] (fuel + 1) at0 m sent =
      if 8 * s.prof.arbEnd < at0 + s.minislot then sent else arbLoop s ch [] fuel (at0 + s.minislot) (m + 1) sent := by
  rw [arbLoop]
  dsimp only
  rw [h.ownAt, if_neg hm]
  simp only [h.minislot_ne, decide_false, Bool.false_or, decide_eq_true_eq, List.find?_nil, Option.map_none]
  rfl

/-- In its own minislot the frame is sent where it fits. -/
theorem OneSlot.reaches (h : OneSlot s ch f e) (fuel at0 : Nat) (sent : List (ArbFrame × Nat)) :
    ∃ next, arbLoop s ch [] (fuel + 1) at0 e.start sent =
      if 8 * s.prof.arbEnd < at0 + s.minislot then sent
      else arbLoop s ch [] fuel next (e.start + 1) (if s.arbFits f at0 then sent ++ [(f, at0)] else sent) := by
  rw [arbLoop]
  dsimp only
  rw [h.ownAt, if_pos rfl, h.queue]
  have hready : [f].find? (fun x => x.fid.toNat == e.fid) = some f := by
    rw [List.find?_singleton, if_pos (beq_iff_eq.mpr h.fid.symm)]
  simp only [hready, h.minislot_ne, decide_false, Bool.false_or, decide_eq_true_eq]
  exact ⟨_, rfl⟩

/-- Past its own minislot the controller sends nothing more. -/
theorem OneSlot.past (h : OneSlot s ch f e) {m : Nat} (hm : e.start < m) (fuel at0 : Nat) (sent : List (ArbFrame × Nat)) :
    arbLoop s ch [] fuel at0 m sent = sent := by
  induction fuel generalizing at0 m with
  | zero => rfl
  | succ fuel ih =>
    rw [h.passes (by omega)]
    split
    · rfl
    · exact ih (by omega) _

/-- The frame is sent in the controller's own minislot, `d` minislots on, where it fits there. -/
theorem OneSlot.arbLoop_eq (h : OneSlot s ch f e) (d : Nat) {m fuel : Nat} (at0 : Nat) (hm : m + d = e.start) (hd : d < fuel) :
    arbLoop s ch [] fuel at0 m [] =
      if s.arbSends f (at0 + d * s.minislot) then [(f, at0 + d * s.minislot)] else [] := by
  obtain ⟨fuel, rfl⟩ := Nat.exists_eq_succ_of_ne_zero (Nat.ne_of_gt (Nat.zero_lt_of_lt hd))
  induction d generalizing m fuel at0 with
  | zero =>
    obtain rfl : m = e.start := hm
    obtain ⟨next, hn⟩ := h.reaches fuel at0 []
    rw [Nat.zero_mul, Nat.add_zero, hn]
    by_cases hend : 8 * s.prof.arbEnd < at0 + s.minislot
    · rw [if_pos hend, if_neg (fun hs : s.arbSends f at0 => absurd hs.1 (Nat.not_le.mpr hend))]
    · rw [if_neg hend, h.past (Nat.lt_succ_self _)]
      exact if_congr (and_iff_right (Nat.not_lt.mp hend)).symm rfl rfl
  | succ d ih =>
    have hnext : at0 + (d + 1) * s.minislot = at0 + s.minislot + d * s.minislot := by
      rw [Nat.succ_mul]
      omega
    rw [h.passes (by omega), hnext]
    split
    · next hend => exact (if_neg (fun hs => by have := hs.1; omega)).symm
    · obtain ⟨fuel, rfl⟩ := Nat.exists_eq_succ_of_ne_zero (show fuel ≠ 0 by omega)
      exact ih _ (by omega) fuel (by omega)

theorem arbitratingSend_maySend {seen : List (Nat × Nat)} (h : s.maySend = false) : execArbitratingSend ch seen s = .next s := by
  unfold execArbitratingSend
  rw [h]
  rfl

/-- Start of the controller's own minislot within the window, in ns of the tick. -/
def State.slotTime (s : State) (e : MEntry) : Nat := 8 * s.prof.arbStart + e.start * s.minislot

theorem OneSlot.sent_eq (h : OneSlot s ch f e) (hlt : e.start < 4096) :
    arbLoop s ch [] 4096 (8 * s.prof.arbStart) 0 [] = if s.arbSends f (s.slotTime e) then [(f, s.slotTime e)] else [] :=
  h.arbLoop_eq e.start _ (Nat.zero_add _) hlt

theorem OneSlot.send_fits (h : OneSlot s ch f e) (hlt : e.start < 4096) (hmay : s.maySend = true) (hs : s.arbSends f (s.slotTime e)) :
    ∃ u : State, execArbitratingSend ch [] s = .next u ∧ s.SameCore u
      ∧ u.outbox = s.outbox ++ [.sched ch (s.mkFrame f.cls f.fid (BitVec.ofNat 64 (s.t0 s.epoch + s.slotTime e)) f.payload)]
      ∧ u.mer.arb[chanIdx ch] = [] ∧ u.mers.sent = min 65535 (s.mers.sent + 1) ∧ u.mers.deferred = min 65535 s.mers.deferred := by
  unfold execArbitratingSend
  rw [hmay, h.sent_eq hlt, if_pos hs]
  dsimp only [List.foldl_cons, List.foldl_nil]
  rw [h.queue, List.erase_cons_head]
  exact ⟨_, rfl, ⟨rfl, rfl, rfl, rfl, rfl, rfl, rfl, rfl⟩, rfl, Vector.getElem_set_self _, rfl, rfl⟩

theorem OneSlot.send_defers (h : OneSlot s ch f e) (hlt : e.start < 4096) (hmay : s.maySend = true)
    (hs : ¬ s.arbSends f (s.slotTime e)) :
    ∃ u : State, execArbitratingSend ch [] s = .next u ∧ s.SameCore u ∧ u.outbox = s.outbox
      ∧ u.mer.arb[chanIdx ch] = [{ f with waits := f.waits + 1 }]
      ∧ u.mers.sent = min 65535 s.mers.sent ∧ u.mers.deferred = min 65535 (s.mers.deferred + 1) := by
  unfold execArbitratingSend
  rw [hmay, h.sent_eq hlt, if_neg hs]
  dsimp only [List.foldl_nil]
  rw [h.queue]
  exact ⟨_, rfl, ⟨rfl, rfl, rfl, rfl, rfl, rfl, rfl, rfl⟩, rfl, Vector.getElem_set_self _, rfl, rfl⟩

end

/-! ### Writes of a cycle point -/

theorem fld_lt (x hi lo : Nat) : fld x hi lo < 2 ^ (hi - lo + 1) := Nat.mod_lt _ (Nat.two_pow_pos _)

theorem extractLsb_toNat_eq_fld (w : Word) (hi lo : Nat) : (w.extractLsb hi lo).toNat = fld w.toNat hi lo := by
  rw [BitVec.extractLsb_toNat, Nat.shiftRight_eq_div_pow, fld]

/-- The word of a cycle point: EN `en`, REJ `rej`, and the fields kept of a write: vector and event, index and offset. -/
def cpWord (en rej a b c : Nat) : Word := BitVec.ofNat 32 (en * 2 ^ 31 + rej * 2 ^ 28 + a * 2 ^ 29 + b * 2 ^ 18 + c)

section
variable {en rej a b c : Nat} (hen : en < 2) (hrej : rej < 2) (ha : a < 4) (hb : b < 64) (hc : c < 2 ^ 18)
include hen hrej ha hb hc

theorem cpWord_toNat : (cpWord en rej a b c).toNat = en * 2 ^ 31 + rej * 2 ^ 28 + a * 2 ^ 29 + b * 2 ^ 18 + c := by
  rw [cpWord, BitVec.toNat_ofNat]
  omega

theorem cpWord_en : (cpWord en rej a b c).getLsbD 31 = (en == 1) := by
  have hbit : (cpWord en rej a b c).toNat / 2 ^ 31 % 2 = en := by
    rw [cpWord_toNat hen hrej ha hb hc]
    omega
  rw [← bitOf_toNat_eq_getLsbD, bitOf, hbit]

theorem cpWord_rej : (cpWord en rej a b c).getLsbD 28 = (rej == 1) := by
  have hbit : (cpWord en rej a b c).toNat / 2 ^ 28 % 2 = rej := by
    rw [cpWord_toNat hen hrej ha hb hc]
    omega
  rw [← bitOf_toNat_eq_getLsbD, bitOf, hbit]

theorem cpWord_fields : ((cpWord en rej a b c).extractLsb 17 0).toNat = c ∧ ((cpWord en rej a b c).extractLsb 23 18).toNat = b
    ∧ ((cpWord en rej a b c).extractLsb 30 29).toNat = a ∧ ((cpWord en rej a b c).extractLsb 27 24).toNat = 0 := by
  simp only [extractLsb_toNat_eq_fld, fld, cpWord_toNat hen hrej ha hb hc]
  refine ⟨?_, ?_, ?_, ?_⟩ <;> omega

end

/-- A write asks for a point that is too late in the tick (R437). -/
abbrev State.cpLate (s : State) (v : Word) : Prop := v.getLsbD 31 = true ∧ s.tTick < (v.extractLsb 17 0).toNat + 3000

/-- The word that a write of a cycle point leaves. -/
def State.cpStored (s : State) (v : Word) : Word :=
  cpWord (if s.cpLate v then 0 else bnat (v.getLsbD 31)) (if s.cpLate v then 1 else 0) (fld v.toNat 30 29) (fld v.toNat 23 18)
    (fld v.toNat 17 0)

theorem writeCp_eq (s : State) (k : Nat) (v : Word) : s.writeCp k v = s.setReg (cpOff k) (s.cpStored v) := by
  unfold State.writeCp State.cpStored cpWord
  dsimp only
  rw [bitOf_toNat_eq_getLsbD, ← extractLsb_toNat_eq_fld v 17 0]
  by_cases h : s.cpLate v
  · rw [if_pos h, if_pos h, if_pos (by rw [h.1, decide_eq_true h.2]; rfl)]
    simp
  · rw [if_neg h, if_neg h, if_neg (fun hb => h (by simpa only [Bool.and_eq_true, decide_eq_true_eq] using hb))]
    simp

section
variable {s : State} {v : Word}

theorem cpStored_fields : (s.cpStored v).extractLsb 17 0 = v.extractLsb 17 0 ∧ (s.cpStored v).extractLsb 23 18 = v.extractLsb 23 18
    ∧ (s.cpStored v).extractLsb 30 29 = v.extractLsb 30 29 ∧ (s.cpStored v).extractLsb 27 24 = 0 := by
  have hen : (if s.cpLate v then 0 else bnat (v.getLsbD 31)) < 2 := by
    unfold bnat
    split_ifs <;> decide
  have hrej : (if s.cpLate v then 1 else 0) < 2 := by split_ifs <;> decide
  obtain ⟨hoff, hvec, hev, hrest⟩ :=
    cpWord_fields hen hrej (fld_lt v.toNat 30 29) (fld_lt v.toNat 23 18) (fld_lt v.toNat 17 0)
  exact ⟨BitVec.eq_of_toNat_eq (hoff.trans (extractLsb_toNat_eq_fld v 17 0).symm),
    BitVec.eq_of_toNat_eq (hvec.trans (extractLsb_toNat_eq_fld v 23 18).symm),
    BitVec.eq_of_toNat_eq (hev.trans (extractLsb_toNat_eq_fld v 30 29).symm), BitVec.eq_of_toNat_eq hrest⟩

theorem cpStored_late (h : s.cpLate v) : (s.cpStored v).getLsbD 31 = false ∧ (s.cpStored v).getLsbD 28 = true := by
  unfold State.cpStored
  rw [if_pos h, if_pos h]
  exact ⟨cpWord_en (by decide) (by decide) (fld_lt _ _ _) (fld_lt _ _ _) (fld_lt _ _ _),
    cpWord_rej (by decide) (by decide) (fld_lt _ _ _) (fld_lt _ _ _) (fld_lt _ _ _)⟩

theorem cpStored_inTime (h : ¬ s.cpLate v) : (s.cpStored v).getLsbD 31 = v.getLsbD 31 ∧ (s.cpStored v).getLsbD 28 = false := by
  unfold State.cpStored
  rw [if_neg h, if_neg h]
  have hen : bnat (v.getLsbD 31) < 2 := by unfold bnat; split <;> decide
  have hbit : (bnat (v.getLsbD 31) == 1) = v.getLsbD 31 := by cases v.getLsbD 31 <;> rfl
  exact ⟨(cpWord_en hen (by decide) (fld_lt _ _ _) (fld_lt _ _ _) (fld_lt _ _ _)).trans hbit,
    cpWord_rej hen (by decide) (fld_lt _ _ _) (fld_lt _ _ _) (fld_lt _ _ _)⟩

end

theorem merCpWrite_spec (s : State) (k : Fin 16) (v : Word) :
    execMerCpWrite k v s = .next (s.setReg (cpOff k.val) (s.cpStored v)) :=
  congrArg Host.Outcome.next (writeCp_eq s k.val v)

/-! ### Cycle points that fire -/

section
variable {s : State} {k : Fin 16}

/-- The word of cycle point `k`. -/
def State.cp (s : State) (k : Fin 16) : Word := s.reg (cpOff k.val)

/-- The basic cycles of cycle point `k`. -/
def State.cpMask (s : State) (k : Fin 16) : DWord := s.reg (cpOff k.val + 12) ++ s.reg (cpOff k.val + 8)

theorem toNat_cpMask (s : State) (k : Fin 16) : s.regN (cpOff k.val + 8) + 2 ^ 32 * s.regN (cpOff k.val + 12) = (s.cpMask k).toNat := by
  rw [State.cpMask, BitVec.toNat_append, ← Nat.shiftLeft_add_eq_or_of_lt (s.reg (cpOff k.val + 8)).isLt, Nat.shiftLeft_eq]
  unfold State.regN
  omega

/-- Cycle point `k` is due: the sequencer runs, and the point is enabled in this basic cycle of a synchronised controller. -/
def State.cpDue (s : State) (k : Fin 16) : Bool :=
  s.running && (s.cp k).getLsbD 31 && (s.cpMask k).getLsbD (s.epoch % 64) && s.mer.sync != .unsync

/-- The instant of cycle point `k`. -/
def State.cpTime (s : State) (k : Fin 16) : DWord := BitVec.ofNat 64 (s.t0 s.epoch + ((s.cp k).extractLsb 17 0).toNat)

/-- Cycle point `k` sets its FIRED bit. -/
def State.cpFired (s : State) (k : Fin 16) : State :=
  { s with now := s.cpTime k, mers := { s.mers with fired := s.mers.fired ||| (1#16 <<< k.val) } }

/-- The event of cycle point `k` passes the gate where the point sends one. -/
def State.cpSent (s : State) (k : Fin 16) : State :=
  if (s.cp k).getLsbD 29 then (s.cpFired k).gateIn (s.cpTime k) 2 (.event none (mkEv 3 k.val (s.epoch / 64))) else s.cpFired k

theorem meridianCyclePoint_eq : execMeridianCyclePoint k s =
    .next (if s.cpDue k then if (s.cp k).getLsbD 30 then ((s.cpSent k).pulse 4 28).2.msix (fld (s.cp k).toNat 23 18) else s.cpSent k
      else s) := by
  unfold execMeridianCyclePoint State.cpDue State.cpSent State.cpFired State.cpTime
  dsimp only
  rw [toNat_cpMask, bitOf_toNat_eq_getLsbD, extractLsb_toNat_eq_fld]
  simp only [State.regN, bitOf_toNat_eq_getLsbD]
  rfl

theorem meridianCyclePoint_quiet
    (h : s.running = false ∨ (s.cp k).getLsbD 31 = false ∨ (s.cpMask k).getLsbD (s.epoch % 64) = false ∨ s.mer.sync = .unsync) :
    execMeridianCyclePoint k s = .next s := by
  have hdue : s.cpDue k = false := by
    unfold State.cpDue
    rcases h with h | h | h | h <;> rw [h]
    · rfl
    · rw [Bool.and_false]; rfl
    · rw [Bool.and_false]; rfl
    · exact Bool.and_false _
  rw [meridianCyclePoint_eq, hdue]
  rfl

/-- The gate takes the event of a point that sends one. -/
theorem cpSent_eq (hrep : s.eph.replay = false) (hclk : s.stopped 5 = false) : s.cpSent k = { s.cpFired k with gate := s.gate ++
    (if (s.cp k).getLsbD 29 = true then [⟨s.stampAt (s.cpTime k), 2, .event none (mkEv 3 k.val (s.epoch / 64))⟩] else []) } := by
  unfold State.cpSent
  split
  · exact gateIn_of_running (s := s.cpFired k) (src := 2) hrep hclk
  · rw [List.append_nil]
    rfl

/-- A pulse changes the crossing and the count of free values. -/
theorem pulse_eq (s : State) (b : Fin 6) (bound : Nat) : ∃ clk free, (s.pulse b bound).2 = { s with clk := clk, free := free } := by
  unfold State.pulse
  dsimp only
  split
  · split <;> exact ⟨_, _, rfl⟩
  · exact ⟨_, s.free, rfl⟩

theorem meridianCyclePoint_fires (hrun : s.running = true) (hen : (s.cp k).getLsbD 31 = true)
    (hmask : (s.cpMask k).getLsbD (s.epoch % 64) = true) (hsync : s.mer.sync ≠ .unsync) (hrep : s.eph.replay = false)
    (hclk : s.stopped 5 = false) :
    ∃ u : State, execMeridianCyclePoint k s = .next u ∧ u.now = s.cpTime k ∧ u.mers.fired = s.mers.fired ||| (1#16 <<< k.val)
      ∧ s.SameCore u
      ∧ u.gate = s.gate ++ (if (s.cp k).getLsbD 29 = true then
          [⟨s.stampAt (s.cpTime k), 2, .event none (mkEv 3 k.val (s.epoch / 64))⟩] else [])
      ∧ ((s.cp k).getLsbD 30 = false → u.outbox = s.outbox) := by
  have hdue : s.cpDue k = true := by
    unfold State.cpDue
    rw [hrun, hen, hmask, bne_iff_ne.mpr hsync]
    rfl
  rw [meridianCyclePoint_eq, if_pos hdue]
  split
  · next hvec =>
    obtain ⟨clk, free, hpulse⟩ := pulse_eq (s.cpSent k) 4 28
    obtain ⟨outbox, pba, hmsix⟩ := msix_eq ((s.cpSent k).pulse 4 28).2 (fld (s.cp k).toNat 23 18)
    rw [hmsix, hpulse, cpSent_eq hrep hclk]
    exact ⟨_, rfl, rfl, rfl, ⟨rfl, rfl, rfl, rfl, rfl, rfl, rfl, rfl⟩, rfl, fun hno => absurd hvec (by rw [hno]; decide)⟩
  · rw [cpSent_eq hrep hclk]
    exact ⟨_, rfl, rfl, rfl, ⟨rfl, rfl, rfl, rfl, rfl, rfl, rfl, rfl⟩, rfl, fun _ => rfl⟩

end

end Sys2Proof.Machine

open Sys2Proof Sys2Proof.Machine

/-- Settles O59, clause by clause; the arbitrating window by induction on the minislots before the own one. -/
theorem scheduleFramesAndCyclePointResults : Obligations.ScheduleFramesAndCyclePointResults := by
  refine ⟨fun s ch f t => ?received,
    fun s node ch l slot hl hs => ⟨schedloadSend_done hl hs, schedloadSend_spec hl hs⟩, fun s uid ch f => ?load,
    fun s ch f t l h hc hop haddr hl => schedackReceive_marks h hc hop haddr hl,
    fun s node ch l hl => ⟨merSchedLoad_quiet hl, merSchedLoad_raises hl⟩,
    fun s ch h seen => arbitratingSend_maySend h, fun s ch f e hmay hq hms hown hfid hlt => ?window,
    fun s ch fid => ⟨merArbLate_raises, merArbLate_quiet, merCrc_quiet, merCrc_raises⟩, fun s k v => ?write, fun s k => ?point⟩
  case received =>
    exact ⟨eventFrame_discarded, eventFrame_other, eventFrame_gated, fun addr hrep =>
      ⟨serviceFrame_discarded hrep, serviceFrame_took hrep⟩⟩
  case load =>
    exact ⟨schedloadReceive_ignored, fun h n hn huid haddr => schedloadReceive_spec h hn huid haddr⟩
  case window =>
    have h : OneSlot s ch f e := ⟨hq, hms, hown, hfid⟩
    intro ms at0 fits
    by_cases hs : s.arbSends f (s.slotTime e)
    · obtain ⟨u, hu, hcore, hsent⟩ := h.send_fits hlt hmay hs
      exact ⟨u, hu, hcore, fun _ => hsent, fun hno => absurd hs hno⟩
    · obtain ⟨u, hu, hcore, hkept⟩ := h.send_defers hlt hmay hs
      exact ⟨u, hu, hcore, fun hf => absurd hf hs, fun _ => hkept⟩
  case write =>
    exact ⟨_, s.cpStored v, merCpWrite_spec s k v, by rw [reg_setReg, if_pos rfl],
      fun off hoff => by rw [reg_setReg, if_neg hoff], rfl, rfl, cpStored_late, cpStored_inTime, cpStored_fields⟩
  case point =>
    exact ⟨meridianCyclePoint_quiet, meridianCyclePoint_fires⟩
end

section
/-! Auxiliary moves and line waits of a planner core (R120, R129 to R131, R183, R199). -/

namespace Sys2Proof.Machine

@[simp] theorem begun_epoch (s : State) (c : Fin 9) (t : Core) : (s.begun c t).epoch = s.epoch := (rfl)
@[simp] theorem begun_axisPresent (s : State) (c : Fin 9) (t : Core) (a : Nat) : (s.begun c t).axisPresent a = s.axisPresent a := (rfl)
@[simp] theorem begun_auxProf (s : State) (c : Fin 9) (t : Core) (a : Nat) : (s.begun c t).auxProf a = s.auxProf a := (rfl)
@[simp] theorem begun_prof (s : State) (c : Fin 9) (t : Core) : (s.begun c t).prof = s.prof := (rfl)
@[simp] theorem begun_viewLine (s : State) (c : Fin 9) (t : Core) (n : Nat) : (s.begun c t).viewLine n = s.viewLine n := (rfl)

/-- A cell instruction that answers sleep leaves its core as `g` makes it, with its PC still at the instruction (R130). -/
theorem retires_of_sleep {s : State} {c : Fin 9} {rd : Fin 32} {srcs : List CReg} {f : State → Nat → CellAns} {g : Core → Core}
    (h : s.mayRun c.castSucc (.cell 1) srcs (dstG rd) = true) (hg : ∀ k t, g (Core.retimed k t) = (g k).retimed t)
    (hf : ∀ t cyc, f (s.begun c t) cyc = .sleep ((s.begun c t).modCore c.castSucc g)) :
    Retires s c.castSucc (s.cell c rd srcs f) g := by
  obtain ⟨t, ht⟩ := cell_of_mayRun (f := f) h
  rw [ht, hf]
  dsimp only
  exact ⟨t, by rw [State.begun, modCore_setCore, hg]⟩

/-! ### AUXQ -/

/-- The moves that an auxiliary axis has queued or core `c` has asked for, STOPs left out (R129). -/
def State.auxQueued (s : State) (c : Fin 9) (ax : Fin 128) : Nat :=
  s.aux[ax].queue.length + s.ownReqs c fun r => match r with | .auxq a x => a == ax && !x.isStop | _ => false

@[simp] theorem begun_auxQueued (s : State) (c : Fin 9) (t : Core) (ax : Fin 128) :
    (s.begun c t).auxQueued c ax = s.auxQueued c ax := (rfl)

/-- What AUXQ does with the descriptor `m` of a move of axis `ax` (R129, R183). -/
def State.auxqBody (s : State) (c : Fin 9) (ax : Fin 128) (m : AuxMove) : CellAns :=
  if s.coreSafety != .run && !m.isStop then .done 6 (refuse 2 s.coreSafety.num) s
  else if (s.auxProf ax.val).isSome && !m.isStop && decide (8 ≤ s.auxQueued c ax) then .done 6 (refuse 1 8) s
  else if !(s.auxProf ax.val).isSome then .done 6 (refuse 3 0) s
  else match m.check with
    | some o => .done 6 (refuse 3 o) s
    | none =>
      if s.coreSafety != .run then .done 6 (BitVec.ofNat 64 (s.auxQueued c ax)) s
      else .done 6 (BitVec.ofNat 64 (s.auxQueued c ax + bnat (!m.isStop))) (s.request c (.auxq ax m))

theorem auxq_eq (s : State) (c : Fin 9) (rd ra rb : Fin 32) (err : Ecc) :
    exec (.auxq c rd ra rb err) s = s.cell c rd [.g ra, .g rb] fun s1 _ =>
      let v := (s1.rgOf c rb).toNat
      let ax : Fin 128 := ⟨v % 128, Nat.mod_lt _ (by decide)⟩
      if c != 8 then .trap 8 (wordR 0x10 rd.val ra.val rb.val 8)
      else if !s1.axisPresent ax.val then .trap 7 (wordR 0x10 rd.val ra.val rb.val 8)
      else if 128 ≤ v then .trap 9 (wordR 0x10 rd.val ra.val rb.val 8)
      else s1.withBytes c (s1.rgOf c ra).toNat 32 err fun b => s1.auxqBody c ax (auxOfBytes b) := rfl

theorem auxq_role {s : State} {c : Fin 9} {rd ra rb : Fin 32} {err : Ecc} (hc : c ≠ 8)
    (h : s.mayRun c.castSucc (.cell 1) [.g ra, .g rb] (dstG rd) = true) :
    Traps s c.castSucc (exec (.auxq c rd ra rb err) s) 8 (wordR 0x10 rd.val ra.val rb.val 8) := by
  rw [auxq_eq]
  refine traps_of_trap (code := 8) h (by decide) fun t cyc => ?_
  dsimp only
  rw [if_pos (bne_iff_ne.mpr hc)]

section
variable {s : State} {t : Core} {c : Fin 9} {ax : Fin 128} {m : AuxMove}

theorem auxqBody_dusk (hs : s.coreSafety ≠ .run) (hm : m.isStop = false) :
    (s.begun c t).auxqBody c ax m = .done 6 (refusalWord (BitVec.ofNat 32 s.coreSafety.num) 2) (s.begun c t) := by
  simp [State.auxqBody, hs, hm, refuse_eq_refusalWord]

theorem auxqBody_full (hs : s.coreSafety = .run) (hp : (s.auxProf ax.val).isSome = true) (hm : m.isStop = false)
    (hq : 8 ≤ s.auxQueued c ax) : (s.begun c t).auxqBody c ax m = .done 6 (refusalWord 8 1) (s.begun c t) := by
  simp [State.auxqBody, hs, hp, hm, hq, refuse_eq_refusalWord]

theorem auxqBody_other_axis (hs : s.coreSafety = .run) (hp : (s.auxProf ax.val).isSome = false) :
    (s.begun c t).auxqBody c ax m = .done 6 (refusalWord 0 3) (s.begun c t) := by
  simp [State.auxqBody, hs, hp, refuse_eq_refusalWord]

/-- A move that is not turned away for the safety state or a full queue comes to the check of its fields. -/
theorem auxqBody_checked (hs : s.coreSafety = .run ∨ m.isStop = true) (hp : (s.auxProf ax.val).isSome = true)
    (hq : m.isStop = true ∨ s.auxQueued c ax < 8) : (s.begun c t).auxqBody c ax m =
      match m.check with
      | some o => .done 6 (refuse 3 o) (s.begun c t)
      | none =>
        if s.coreSafety != .run then .done 6 (BitVec.ofNat 64 (s.auxQueued c ax)) (s.begun c t)
        else .done 6 (BitVec.ofNat 64 (s.auxQueued c ax + bnat (!m.isStop))) ((s.request c (.auxq ax m)).begun c t) := by
  have hdusk : ¬ ((s.coreSafety != .run && !m.isStop) = true) := by
    rcases hs with h | h <;> simp [h]
  have hfull : ¬ ((true && !m.isStop && decide (8 ≤ s.auxQueued c ax)) = true) := by
    rcases hq with h | h <;> simp [h]
  unfold State.auxqBody
  rw [begun_coreSafety, begun_auxProf, begun_auxQueued, hp, if_neg hdusk, if_neg hfull, if_neg (by decide), begun_request]

theorem auxqBody_invalid {o : Nat} (hs : s.coreSafety = .run) (hp : (s.auxProf ax.val).isSome = true)
    (hq : m.isStop = true ∨ s.auxQueued c ax < 8) (hm : m.check = some o) :
    (s.begun c t).auxqBody c ax m = .done 6 (refusalWord (BitVec.ofNat 32 o) 3) (s.begun c t) := by
  rw [auxqBody_checked (.inl hs) hp hq, hm]
  exact congrArg (CellAns.done 6 · _) (refuse_eq_refusalWord o (by decide))

theorem auxqBody_requested (hs : s.coreSafety = .run) (hp : (s.auxProf ax.val).isSome = true)
    (hq : m.isStop = true ∨ s.auxQueued c ax < 8) (hm : m.check = none) : (s.begun c t).auxqBody c ax m =
      .done 6 (BitVec.ofNat 64 (if m.isStop then s.auxQueued c ax else s.auxQueued c ax + 1))
        ((s.request c (.auxq ax m)).begun c t) := by
  rw [auxqBody_checked (.inl hs) hp hq, hm, hs]
  cases m.isStop <;> rfl

theorem auxqBody_stop_outside_run (hs : s.coreSafety ≠ .run) (hp : (s.auxProf ax.val).isSome = true) (hstop : m.isStop = true)
    (hm : m.check = none) :
    (s.begun c t).auxqBody c ax m = .done 6 (BitVec.ofNat 64 (s.auxQueued c ax)) (s.begun c t) := by
  rw [auxqBody_checked (.inr hstop) hp (.inl hstop), hm]
  exact if_pos (bne_iff_ne.mpr hs)

end

/-- AUXQ of the cell core on a present axis, with its descriptor in its partition, does what its body answers. -/
theorem auxq_done {s u : State} {rd ra rb : Fin 32} {off n : Nat} {ax : Fin 128} {v : DWord}
    (h : s.mayRun (8 : Fin 9).castSucc (.cell 1) [.g ra, .g rb] (dstG rd) = true)
    (hrb : (s.core (8 : Fin 9).castSucc).rg rb = BitVec.ofNat 64 ax.val) (hax : s.axisPresent ax.val = true)
    (hop : s.operand 8 ((s.core (8 : Fin 9).castSucc).rg ra).toNat 32 .clean = .inr off)
    (hbody : ∀ t, (s.begun 8 t).auxqBody 8 ax (auxOfBytes (s.data.readN off 32)) = .done n v (u.begun 8 t)) :
    CellDone 8 rd (exec (.auxq 8 rd ra rb .clean) s) v u := by
  rw [auxq_eq]
  refine cellDone_of_done (n := n) h fun t cyc => ?_
  have hlt := ax.isLt
  have hv : ((s.begun 8 t).rgOf 8 rb).toNat = ax.val := by rw [begun_rgOf, hrb, toNat_ofNat_small (by omega)]
  dsimp only
  simp only [hv, Nat.mod_eq_of_lt hlt, begun_axisPresent, hax]
  rw [if_neg (by decide), if_neg (by decide), if_neg (by omega), begun_rgOf, withBytes_clean (s := s.begun 8 t) hop]
  exact hbody t

/-! ### WAITL -/

/-- The count of the line record has reached `target` in the chosen direction (R130). -/
def LineRec.reached (r : LineRec) (le : Bool) (target : DWord) : Bool :=
  if le then r.count.sle target else target.sle r.count

/-- What WAITL and JWAIT leave of a core that sleeps in `w` from tick `epoch` on. -/
def Core.sleepsIn (k : Core) (w : Wait) (epoch : Nat) : Core := { k with mode := .waiting, wait := some w, waitFrom := epoch }

theorem sleepsIn_retimed (k t : Core) (w : Wait) (epoch : Nat) :
    (k.retimed t).sleepsIn w epoch = (k.sleepsIn w epoch).retimed t := (rfl)

section
variable {s : State} {c : Fin 9} {n : Nat} {le : Bool} {target dl : DWord}

/-- At issue no safety event of an earlier boundary ends a line wait (R130). -/
theorem evalLine_at_issue : s.evalLine c n le target dl true =
    if (s.viewLine n).status.getLsbD 2 then some (refuse 5 n)
    else if (s.viewLine n).reached le target then some ((s.viewLine n).uncert.setWidth 64)
    else if dl != 0 && decide (dl.toNat ≤ s.epoch) then some (refuse 4 s.epoch)
    else none := rfl

theorem begun_evalLine (t : Core) : (s.begun c t).evalLine c n le target dl true = s.evalLine c n le target dl true := by
  rw [evalLine_at_issue, evalLine_at_issue, begun_viewLine, begun_epoch]

theorem evalLine_fault (hf : (s.viewLine n).status.getLsbD 2 = true) :
    s.evalLine c n le target dl true = some (refusalWord (BitVec.ofNat 32 n) 5) := by
  rw [evalLine_at_issue, if_pos hf, refuse_eq_refusalWord _ (by decide)]
  rfl

variable (hf : (s.viewLine n).status.getLsbD 2 = false)
include hf

theorem evalLine_reached (hit : (s.viewLine n).reached le target = true) :
    s.evalLine c n le target dl true = some ((s.viewLine n).uncert.setWidth 64) := by
  rw [evalLine_at_issue, hf, hit]
  rfl

theorem evalLine_late (hit : (s.viewLine n).reached le target = false) (hlate : dl ≠ 0 ∧ dl.toNat ≤ s.epoch) :
    s.evalLine c n le target dl true = some (refusalWord (BitVec.ofNat 32 s.epoch) 4) := by
  rw [evalLine_at_issue, hf, hit, if_neg Bool.false_ne_true, if_neg Bool.false_ne_true, if_pos (by simpa using hlate),
    refuse_eq_refusalWord _ (by decide)]
  rfl

theorem evalLine_waits (hit : (s.viewLine n).reached le target = false) (hlate : ¬ (dl ≠ 0 ∧ dl.toNat ≤ s.epoch)) :
    s.evalLine c n le target dl true = none := by
  rw [evalLine_at_issue, hf, hit, if_neg Bool.false_ne_true, if_neg Bool.false_ne_true, if_neg (by simpa using hlate)]

end

/-- WAITL of an enabled line answers what its evaluation at issue gives. -/
theorem waitl_eq {s : State} {c : Fin 9} {rd ra rb : Fin 32} {func : BitVec 12} {n : Fin 8} {le : Bool}
    (hfunc : func.toNat = n.val + if le then 8 else 0) :
    exec (.waitl c rd ra rb func) s = s.cell c rd [.g ra, .g rb] fun s1 _ =>
      if !(s1.prof.lines.getD n.val {}).en then .trap 7 (wordR 0x11 rd.val ra.val rb.val func.toNat)
      else match s1.evalLine c n.val le (s1.rgOf c ra) (s1.rgOf c rb) true with
        | some v => .done 1 v s1
        | none => .sleep (s1.modCore c.castSucc fun k => k.sleepsIn (.line rd n le (s1.rgOf c ra) (s1.rgOf c rb)) s1.epoch) := by
  have hlt := n.isLt
  have hn : func.toNat % 8 = n.val := by cases le <;> simp at hfunc <;> omega
  have hle : (fld func.toNat 4 3 == 1) = le := by
    unfold fld
    cases le <;> simp at hfunc ⊢ <;> omega
  have hdef : ¬ 16 ≤ func.toNat := by cases le <;> simp at hfunc <;> omega
  show execWaitl c rd ra rb func s = _
  unfold execWaitl
  simp only [hn, hle, if_neg hdef, Fin.eta]
  rfl

section
variable {s : State} {c : Fin 9} {rd ra rb : Fin 32} {func : BitVec 12} {n : Fin 8} {le : Bool}
  (h : s.mayRun c.castSucc (.cell 1) [.g ra, .g rb] (dstG rd) = true) (hfunc : func.toNat = n.val + if le then 8 else 0)
  (hen : (s.prof.lines.getD n.val {}).en = true)
include h hfunc hen

theorem waitl_done {v : DWord}
    (hv : s.evalLine c n.val le ((s.core c.castSucc).rg ra) ((s.core c.castSucc).rg rb) true = some v) :
    CellDone c rd (exec (.waitl c rd ra rb func) s) v s := by
  rw [waitl_eq hfunc]
  refine cellDone_of_done (n := 1) h fun t cyc => ?_
  rw [begun_prof, hen, begun_rgOf, begun_rgOf, begun_evalLine, hv]
  rfl

theorem waitl_sleeps
    (hv : s.evalLine c n.val le ((s.core c.castSucc).rg ra) ((s.core c.castSucc).rg rb) true = none) :
    Retires s c.castSucc (exec (.waitl c rd ra rb func) s) fun k =>
      k.sleepsIn (.line rd n le ((s.core c.castSucc).rg ra) ((s.core c.castSucc).rg rb)) s.epoch := by
  rw [waitl_eq hfunc]
  refine retires_of_sleep h (fun k t => sleepsIn_retimed k t _ _) fun t cyc => ?_
  rw [begun_prof, hen, begun_rgOf, begun_rgOf, begun_evalLine, hv]
  rfl

end

end Sys2Proof.Machine

open Sys2Proof Sys2Proof.Machine

/-- Settles O20: AUXQ by what becomes of its descriptor, WAITL by its evaluation at issue. -/
theorem auxiliaryAndLineWaitResults : Obligations.AuxiliaryAndLineWaitResults := by
  unfold Obligations.AuxiliaryAndLineWaitResults
  refine ⟨?auxq, fun s c rd ra rb err hc h => auxq_role hc h, ?waitl⟩
  case auxq =>
    intro s rd ra rb off ax c k h hrb hax hop m queued o
    refine ⟨fun hs hp hm hq => ?_, fun hs hp hm hstop => ?_, fun hs hm => ?_, fun hs hp hm hq => ?_, fun hs hp => ?_,
      fun f hs hp hq hm => ?_⟩
    · exact auxq_done h hrb hax hop fun t => auxqBody_requested hs hp hq hm
    · exact auxq_done h hrb hax hop fun t => auxqBody_stop_outside_run hs hp hstop hm
    · exact auxq_done h hrb hax hop fun t => auxqBody_dusk hs hm
    · exact auxq_done h hrb hax hop fun t => auxqBody_full hs hp hm hq
    · exact auxq_done h hrb hax hop fun t => auxqBody_other_axis hs hp
    · exact auxq_done h hrb hax hop fun t => auxqBody_invalid hs hp hq hm
  case waitl =>
    intro s c rd ra rb func n le k r h hfunc hen hit late o
    refine ⟨fun hf => ?_, fun hf hhit => ?_, fun hf hhit hlate => ?_, fun hf hhit hlate => ?_⟩
    · exact waitl_done h hfunc hen (evalLine_fault hf)
    · exact waitl_done h hfunc hen (evalLine_reached hf hhit)
    · exact waitl_done h hfunc hen (evalLine_late hf hhit hlate)
    · exact waitl_sleeps h hfunc hen (evalLine_waits hf hhit hlate)

end

section
/-! The solver instructions of a planner core (R119, R120, R132, R134, R135, R215, R216). -/

namespace Sys2Proof.Machine

@[simp] theorem begun_heldJobs (s : State) (c : Fin 9) (t : Core) : (s.begun c t).heldJobs c = s.heldJobs c := (rfl)
@[simp] theorem begun_jobCheck (s : State) (c : Fin 9) (t : Core) (a : Nat) (d : JobDesc) :
    (s.begun c t).jobCheck c a d = s.jobCheck c a d := (rfl)
@[simp] theorem begun_jobTiles (s : State) (c : Fin 9) (t : Core) (d : JobDesc) :
    (s.begun c t).jobTiles c d = s.jobTiles c d := (rfl)
@[simp] theorem begun_jobOpen (s : State) (c : Fin 9) (t : Core) (h : Word) : (s.begun c t).jobOpen c h = s.jobOpen c h := (rfl)
@[simp] theorem begun_tilesPresent (s : State) (c : Fin 9) (t : Core) : (s.begun c t).tilesPresent = s.tilesPresent := (rfl)

theorem refuse_word {code : Nat} (w : Word) (hc : code < 256) : refuse code w.toNat = refusalWord w (BitVec.ofNat 8 code) := by
  rw [refuse_eq_refusalWord _ hc, BitVec.ofNat_toNat, BitVec.setWidth_eq]

/-! ### JOB -/

/-- The masks of a job descriptor name a fused-off tile or arm (R132). -/
def State.jobFused (s : State) (d : JobDesc) : Bool :=
  (List.range 4).any (fun t => d.tmask.getLsbD t && !s.tilesPresent.getLsbD t)
    || (List.range 8).any fun k => d.armMask.getLsbD k && !s.armPresent k

theorem jobFused_of_present {s : State} {d : JobDesc} (ht : ∀ i < 4, d.tmask.getLsbD i = true → s.tilesPresent.getLsbD i = true)
    (ha : ∀ i < 8, d.armMask.getLsbD i = true → s.armPresent i = true) : s.jobFused d = false := by
  simp only [State.jobFused, Bool.or_eq_false_iff, List.any_eq_false, List.mem_range, Bool.and_eq_true, Bool.not_eq_true',
    not_and, Bool.not_eq_false]
  exact ⟨ht, ha⟩

@[simp] theorem begun_jobFused (s : State) (c : Fin 9) (t : Core) (d : JobDesc) : (s.begun c t).jobFused d = s.jobFused d := (rfl)

/-- The handle of the next job of core `c`: its number in [31:28], its count below (R132). -/
def State.nextHandle (s : State) (c : Fin 9) : Word :=
  BitVec.ofNat 32 (c.val * 2 ^ 28 + (s.core c.castSucc).jobCount.toNat)

theorem begun_nextHandle (s : State) (c : Fin 9) (t : Core) : (s.begun c t).nextHandle c = s.nextHandle c := by
  rw [State.nextHandle, begun_core]
  rfl

/-- The next job of core `c`. -/
def State.nextJob (s : State) (c : Fin 9) (d : JobDesc) : Job :=
  { handle := s.nextHandle c, core := c, d := d, allowed := s.jobTiles c d }

theorem begun_nextJob (s : State) (c : Fin 9) (t : Core) (d : JobDesc) : (s.begun c t).nextJob c d = s.nextJob c d := by
  rw [State.nextJob, begun_nextHandle, begun_jobTiles]
  rfl

/-- A job submitted: its core has counted it, and it is requested for the next boundary (R122, R132). -/
def State.submit (s : State) (c : Fin 9) (j : Job) : State :=
  (s.modCore c.castSucc fun k => { k with jobCount := k.jobCount + 1 }).request c (.job j)

theorem begun_submit (s : State) (c : Fin 9) (t : Core) (j : Job) : (s.begun c t).submit c j = (s.submit c j).begun c t := by
  rw [State.submit, begun_modCore (f := fun k => { k with jobCount := k.jobCount + 1 }) s c t fun _ _ => rfl, begun_request]
  rfl

/-- What JOB does with the descriptor `d` at address `a` (R132, R215). -/
def State.jobBody (s : State) (c : Fin 9) (a : Nat) (d : JobDesc) : CellAns :=
  if 8 ≤ s.heldJobs c then .done 18 (refuse 1 8) s
  else match s.jobCheck c a d with
    | some o => .done 18 (refuse 3 o) s
    | none => .done 18 ((s.nextHandle c).setWidth 64) (s.submit c (s.nextJob c d))

theorem job_eq (s : State) (c : Fin 9) (rd ra : Fin 32) (err : Ecc) :
    exec (.job c rd ra err) s = s.cell c rd [.g ra] fun s1 _ =>
      let a := (s1.rgOf c ra).toNat
      let raw := match s1.operand c a 128 .clean with | .inr off => some (jobOfBytes (s1.data.readN off 128)) | .inl _ => none
      if (match raw with | some d => s1.jobFused d | none => false) then .trap 7 (wordR 0x12 rd.val ra.val 0 0)
      else s1.withBytes c a 128 err fun b => s1.jobBody c a (jobOfBytes b) := rfl

section
variable {s : State} {c : Fin 9} {rd ra : Fin 32} {off a : Nat} {d : JobDesc} {t : Core}

theorem jobBody_full (hfull : 8 ≤ s.heldJobs c) : (s.begun c t).jobBody c a d = .done 18 (refusalWord 8 1) (s.begun c t) := by
  rw [State.jobBody, begun_heldJobs, if_pos hfull, refuse_eq_refusalWord 8 (by decide)]
  rfl

theorem jobBody_invalid {o : Nat} (hroom : s.heldJobs c < 8) (hchk : s.jobCheck c a d = some o) :
    (s.begun c t).jobBody c a d = .done 18 (refusalWord (BitVec.ofNat 32 o) 3) (s.begun c t) := by
  rw [State.jobBody, begun_heldJobs, if_neg (Nat.not_le.mpr hroom), begun_jobCheck, hchk]
  exact congrArg (CellAns.done 18 · _) (refuse_eq_refusalWord o (by decide))

theorem jobBody_submitted (hroom : s.heldJobs c < 8) (hchk : s.jobCheck c a d = none) : (s.begun c t).jobBody c a d =
    .done 18 ((s.nextHandle c).setWidth 64) ((s.submit c (s.nextJob c d)).begun c t) := by
  rw [State.jobBody, begun_heldJobs, if_neg (Nat.not_le.mpr hroom), begun_jobCheck, hchk, begun_nextHandle, begun_nextJob, begun_submit]

/-- JOB with its descriptor in its partition, naming no fused-off resource, does what its body answers. -/
theorem job_done {n : Nat} {v : DWord} {u : State} (h : s.mayRun c.castSucc (.cell 1) [.g ra] (dstG rd) = true)
    (hop : s.operand c ((s.core c.castSucc).rg ra).toNat 128 .clean = .inr off)
    (hfused : s.jobFused (jobOfBytes (s.data.readN off 128)) = false)
    (hbody : ∀ t, (s.begun c t).jobBody c ((s.core c.castSucc).rg ra).toNat (jobOfBytes (s.data.readN off 128)) =
      .done n v (u.begun c t)) :
    CellDone c rd (exec (.job c rd ra .clean) s) v u := by
  rw [job_eq]
  refine cellDone_of_done (n := n) h fun t cyc => ?_
  dsimp only
  rw [begun_rgOf, begun_operand, hop]
  refine (if_neg ?_).trans ?_
  · rw [Bool.not_eq_true]
    exact hfused
  · rw [withBytes_clean (s := s.begun c t) hop]
    exact hbody t

end

/-! ### Results collected (R134) -/

/-- The state without a delivered result. -/
def State.dropDelivered (s : State) (e : Word × BitVec 16) : State :=
  { s with solver := { s.solver with delivered := s.solver.delivered.erase e } }

/-- The delivered result that core `c` holds under the handle `h`. -/
def State.deliveredTo (s : State) (c : Fin 9) (h : Word) : Option (Word × BitVec 16) :=
  if h.toNat / 2 ^ 28 != c.val then none else s.solver.delivered.find? fun e => e.1 == h

theorem collect_eq (s : State) (c : Fin 9) (h : Word) :
    s.collect c h = (s.deliveredTo c h).map fun e => (e.2, s.dropDelivered e) := by
  unfold State.collect State.deliveredTo
  split <;> rfl

/-- Collecting a result commutes with issuing. -/
theorem begun_collect (s : State) (c : Fin 9) (t : Core) (h : Word) :
    (s.begun c t).collect c h = (s.collect c h).map fun r => (r.1, r.2.begun c t) := by
  rw [collect_eq, collect_eq, Option.map_map]
  rfl

theorem begun_collect_some {s : State} {c : Fin 9} {t : Core} {h : Word} {r : BitVec 16 × State} (hr : s.collect c h = some r) :
    (s.begun c t).collect c h = some (r.1, r.2.begun c t) := by
  rw [begun_collect, hr]
  rfl

theorem begun_collect_none {s : State} {c : Fin 9} {t : Core} {h : Word} (hr : s.collect c h = none) :
    (s.begun c t).collect c h = none := by
  rw [begun_collect, hr]
  rfl

/-- The result collected is the first one under its handle, which alone is taken out. -/
theorem collect_delivered {s : State} {c : Fin 9} {h : Word} {code : BitVec 16} {pre post : List (Word × BitVec 16)}
    (hc : h.toNat / 2 ^ 28 = c.val) (hd : s.solver.delivered = pre ++ (h, code) :: post) (hpre : ∀ e ∈ pre, e.1 ≠ h) :
    s.collect c h = some (code, { s with solver := { s.solver with delivered := pre ++ post } }) := by
  have hfind : (pre ++ (h, code) :: post).find? (fun e => e.1 == h) = some (h, code) := by
    rw [List.find?_append, List.find?_eq_none.mpr fun e he => by simpa using hpre e he]
    simp
  have herase : (pre ++ (h, code) :: post).erase (h, code) = pre ++ post := by
    rw [List.erase_append_right _ fun hmem => hpre _ hmem rfl, List.erase_cons_head]
  rw [collect_eq, State.deliveredTo, if_neg (by rw [hc]; simp), hd, hfind, Option.map_some]
  unfold State.dropDelivered
  rw [hd, herase]

/-! ### JSTAT and JCANCEL -/

section
variable {s : State} {c : Fin 9} {rd ra : Fin 32} (h : s.mayRun c.castSucc (.cell 1) [.g ra] (dstG rd) = true)
include h

theorem jstat_collects {r : BitVec 16 × State} (hr : s.collect c (((s.core c.castSucc).rg ra).setWidth 32) = some r) :
    CellDone c rd (exec (.jstat c rd ra) s) (r.1.setWidth 64) r.2 := by
  show CellDone c rd (execJstat c rd ra s) _ _
  unfold execJstat
  refine cellDone_of_done (n := 1) h fun t cyc => ?_
  dsimp only
  rw [begun_rgOf, begun_collect_some hr]

theorem jstat_refused (hr : s.collect c (((s.core c.castSucc).rg ra).setWidth 32) = none) :
    CellDone c rd (exec (.jstat c rd ra) s) (refusalWord (((s.core c.castSucc).rg ra).setWidth 32)
      (if s.jobOpen c (((s.core c.castSucc).rg ra).setWidth 32) then 0xB else 7)) s := by
  show CellDone c rd (execJstat c rd ra s) _ _
  unfold execJstat
  refine cellDone_of_done (n := 1) h fun t cyc => ?_
  dsimp only
  rw [begun_rgOf, begun_collect_none hr, begun_jobOpen, refuse_word _ (by decide), refuse_word _ (by decide)]
  dsimp only
  split <;> rfl

theorem jcancel_requested (ho : s.jobOpen c (((s.core c.castSucc).rg ra).setWidth 32) = true) :
    CellDone c rd (exec (.jcancel c rd ra) s) 0
      { s with reqs := s.reqs ++ [⟨c, s.epoch, .jcancel (((s.core c.castSucc).rg ra).setWidth 32)⟩] } := by
  show CellDone c rd (execJcancel c rd ra s) _ (s.request c _)
  unfold execJcancel
  refine cellDone_of_done (n := 1) h fun t cyc => ?_
  dsimp only
  rw [begun_rgOf, begun_jobOpen, if_pos ho, begun_request]

theorem jcancel_unknown (ho : s.jobOpen c (((s.core c.castSucc).rg ra).setWidth 32) = false) :
    CellDone c rd (exec (.jcancel c rd ra) s) (refusalWord (((s.core c.castSucc).rg ra).setWidth 32) 7) s := by
  show CellDone c rd (execJcancel c rd ra s) _ _
  unfold execJcancel
  refine cellDone_of_done (n := 1) h fun t cyc => ?_
  dsimp only
  rw [begun_rgOf, begun_jobOpen, ho, if_neg Bool.false_ne_true, refuse_word _ (by decide)]
  rfl

end

/-! ### JWAIT -/

section
variable {s : State} {c : Fin 9} {h dl : DWord}

/-- At issue no safety event of an earlier boundary ends a job wait (R134). -/
theorem evalJob_at_issue : s.evalJob c h dl true =
    match s.collect c (h.setWidth 32) with
    | some r => some (r.1.setWidth 64, r.2)
    | none =>
      if !s.jobOpen c (h.setWidth 32) then some (refuse 7 (h.setWidth 32).toNat, s)
      else if dl != 0 && decide (dl.toNat ≤ s.epoch) then some (refuse 4 s.epoch, s)
      else none := rfl

theorem evalJob_collects {r : BitVec 16 × State} (hr : s.collect c (h.setWidth 32) = some r) :
    s.evalJob c h dl true = some (r.1.setWidth 64, r.2) := by
  rw [evalJob_at_issue, hr]

variable (hr : s.collect c (h.setWidth 32) = none)
include hr

theorem evalJob_unknown (ho : s.jobOpen c (h.setWidth 32) = false) :
    s.evalJob c h dl true = some (refusalWord (h.setWidth 32) 7, s) := by
  rw [evalJob_at_issue, hr, ho, refuse_word _ (by decide)]
  rfl

variable (ho : s.jobOpen c (h.setWidth 32) = true)
include ho

theorem evalJob_late (hlate : dl ≠ 0 ∧ dl.toNat ≤ s.epoch) :
    s.evalJob c h dl true = some (refusalWord (BitVec.ofNat 32 s.epoch) 4, s) := by
  rw [evalJob_at_issue, hr, ho]
  dsimp only
  rw [if_neg (by decide), if_pos (by simpa using hlate), refuse_eq_refusalWord _ (by decide)]
  rfl

theorem evalJob_waits (hlate : ¬ (dl ≠ 0 ∧ dl.toNat ≤ s.epoch)) : s.evalJob c h dl true = none := by
  rw [evalJob_at_issue, hr, ho]
  dsimp only
  rw [if_neg (by decide), if_neg (by simpa using hlate)]

end

/-- Evaluating a job wait commutes with issuing. -/
theorem begun_evalJob (s : State) (c : Fin 9) (t : Core) (h dl : DWord) :
    (s.begun c t).evalJob c h dl true = (s.evalJob c h dl true).map fun r => (r.1, r.2.begun c t) := by
  rw [evalJob_at_issue, evalJob_at_issue, begun_collect, begun_jobOpen, begun_epoch]
  cases s.collect c (h.setWidth 32) with
  | some r => rfl
  | none =>
    simp only [Option.map_none]
    split_ifs <;> rfl

section
variable {s : State} {c : Fin 9} {rd ra rb : Fin 32} (h : s.mayRun c.castSucc (.cell 1) [.g ra, .g rb] (dstG rd) = true)
include h

theorem jwait_done {v : DWord} {u : State}
    (hv : s.evalJob c ((s.core c.castSucc).rg ra) ((s.core c.castSucc).rg rb) true = some (v, u)) :
    CellDone c rd (exec (.jwait c rd ra rb) s) v u := by
  show CellDone c rd (execJwait c rd ra rb s) _ _
  unfold execJwait
  refine cellDone_of_done (n := 1) h fun t cyc => ?_
  dsimp only
  rw [begun_rgOf, begun_rgOf, begun_evalJob, hv]
  rfl

theorem jwait_sleeps
    (hv : s.evalJob c ((s.core c.castSucc).rg ra) ((s.core c.castSucc).rg rb) true = none) :
    Retires s c.castSucc (exec (.jwait c rd ra rb) s) fun k =>
      k.sleepsIn (.job rd ((s.core c.castSucc).rg ra) ((s.core c.castSucc).rg rb)) s.epoch := by
  show Retires s c.castSucc (execJwait c rd ra rb s) _
  unfold execJwait
  refine retires_of_sleep h (fun k t => sleepsIn_retimed k t _ _) fun t cyc => ?_
  dsimp only
  rw [begun_rgOf, begun_rgOf, begun_evalJob, hv]
  rfl

end

end Sys2Proof.Machine

open Sys2Proof Sys2Proof.Machine

/-- Settles O21: JOB by what becomes of its descriptor, the others by what the handle still names. -/
theorem solverInstructionResults : Obligations.SolverInstructionResults := by
  unfold Obligations.SolverInstructionResults
  refine ⟨?job, ?stat, ?wait, fun s c h code pre post => collect_delivered⟩
  case job =>
    intro s c rd ra off k a h hop d handle o htiles harms
    have hfused : s.jobFused d = false := jobFused_of_present htiles harms
    refine ⟨fun hfull => ?_, fun f hroom hchk => ?_, fun hroom hchk => ?_⟩
    · exact job_done h hop hfused fun t => jobBody_full hfull
    · exact job_done h hop hfused fun t => jobBody_invalid hroom hchk
    · exact job_done h hop hfused fun t => jobBody_submitted hroom hchk
  case stat =>
    intro s c rd ra hrun h
    refine ⟨fun r hr => jstat_collects hrun hr, fun hr ho => ?_, fun hr ho => ?_, jcancel_requested hrun, jcancel_unknown hrun⟩
    · simpa [h, ho] using jstat_refused hrun hr
    · simpa [h, ho] using jstat_refused hrun hr
  case wait =>
    intro s c rd ra rb hrun k h late o
    refine ⟨fun r hr => ?_, fun hr ho => ?_, fun hr ho hlate => ?_, fun hr ho hlate => ?_⟩
    · exact jwait_done hrun (evalJob_collects hr)
    · exact jwait_done hrun (evalJob_unknown hr ho)
    · exact jwait_done hrun (evalJob_late hr ho hlate)
    · exact jwait_sleeps hrun (evalJob_waits hr ho hlate)

end

section
/-! Ramp stops, and the ends of the handover term and of a timed dwell (R128, R162, R164, R165, R170, R172). -/

namespace Sys2Proof.Machine

/-! ### The arms that a ramp stop takes in -/

/-- The arms of `m` and those that a request names, if it is a STOP. -/
def addStop (m : BitVec 8) (e : ReqEntry) : BitVec 8 := match e.req with | .stop x => m ||| x | _ => m

/-- A request is a STOP that names arm `k`. -/
def ReqEntry.stops (e : ReqEntry) (k : Nat) : Prop := ∃ m : BitVec 8, e.req = .stop m ∧ m.getLsbD k = true

theorem addStop_getLsbD (m : BitVec 8) (e : ReqEntry) (k : Nat) :
    (addStop m e).getLsbD k = true ↔ m.getLsbD k = true ∨ e.stops k := by
  unfold addStop ReqEntry.stops
  cases e.req <;> simp

theorem foldl_addStop_getLsbD (l : List ReqEntry) (m : BitVec 8) (k : Nat) :
    (l.foldl addStop m).getLsbD k = true ↔ m.getLsbD k = true ∨ ∃ e ∈ l, e.stops k := by
  induction l generalizing m with
  | nil => simp
  | cons e l ih => rw [List.foldl_cons, ih, addStop_getLsbD, List.exists_mem_cons_iff, or_assoc]

/-- The STOPs that are due name arm `k`, or its MISSSTOP is due, and it has a profile (R128, R165). -/
def State.stopDue (s : State) (k : Fin 8) : Prop :=
  (s.armProf k.val).isSome = true ∧ (s.arms[k].missStop = true ∨ ∃ e ∈ s.dueReqs Req.isStop, e.stops k.val)

/-- The arms that the STOPs due name. -/
def State.dueStops (s : State) : BitVec 8 := (s.takeReqs Req.isStop).1.foldl addStop 0

/-- The test of RAMP_STOP_APPLY on an arm, where STOPs name the arms of `mask`. -/
def State.stopsArm (s : State) (mask : BitVec 8) (k : Fin 8) : Bool :=
  (s.armProf k.val).isSome && (mask.getLsbD k.val || (s.arms[k]).missStop)

theorem stopDue_iff (s : State) (k : Fin 8) : s.stopDue k ↔ s.stopsArm s.dueStops k = true := by
  rw [State.stopsArm, Bool.and_eq_true, Bool.or_eq_true, State.dueStops, foldl_addStop_getLsbD]
  simp [State.stopDue, State.takeReqs, mem_foldl_reqInsert, or_comm]

/-! ### RAMP_STOP_APPLY -/

/-- What a ramp stop leaves of an arm that starts one (R128, R168, R172). -/
def Arm.rampStopped (a : Arm) : Arm :=
  { a with staged := [], missStop := false, late := [], active := a.active.map fun x => { x with actDone := true }
           stopping := if a.stopped then a.stopping else .stop }

/-- Between s and t only arms changed, and faults were raised. -/
def State.OnlyArms (s t : State) : Prop := ∃ arms reports free, t = { s with arms := arms, reports := reports, free := free }

theorem rampStop_eq (s : State) (k : Fin 8) : ∃ reports free,
    s.rampStop k = { s with arms := s.arms.set k s.arms[k].rampStopped, reports := reports, free := free } := by
  obtain ⟨reports, free, h⟩ := withholdAll_eq s k
  refine ⟨reports, free, ?_⟩
  rw [State.rampStop, h]
  simp only [State.modArm, vmod, Fin.getElem_fin, Vector.getElem_set_self, Vector.set_set]
  rfl

theorem rampStop_arm (s : State) (k : Fin 8) : (s.rampStop k).arms[k] = s.arms[k].rampStopped := by
  obtain ⟨reports, free, h⟩ := rampStop_eq s k
  rw [h]
  exact Vector.getElem_set_self k.isLt

theorem rampStop_other {s : State} {k j : Fin 8} (hkj : k ≠ j) : (s.rampStop k).arms[j] = s.arms[j] := by
  obtain ⟨reports, free, h⟩ := rampStop_eq s k
  rw [h]
  exact Vector.getElem_set_ne k.isLt j.isLt fun h => hkj (Fin.ext h)

/-- One arm at RAMP_STOP_APPLY, where the due STOPs name the arms of `mask`. -/
def State.stopArm (mask : BitVec 8) (s : State) (k : Fin 8) : State :=
  if s.stopsArm mask k then s.rampStop k else s

theorem rampStopApply_eq (s : State) : exec .rampStopApply s = .next ((List.finRange 8).foldl
    (State.stopArm s.dueStops) (s.dropDue Req.isStop)) := rfl

section
variable {s st : State} {mask : BitVec 8} {a b : Fin 8}

theorem stopArm_onlyArms (h : s.OnlyArms st) : s.OnlyArms (st.stopArm mask a) := by
  obtain ⟨arms, reports, free, rfl⟩ := h
  unfold State.stopArm
  split
  · obtain ⟨reports', free', ht⟩ := rampStop_eq { s with arms := arms, reports := reports, free := free } a
    rw [ht]
    exact ⟨_, _, _, rfl⟩
  · exact ⟨_, _, _, rfl⟩

theorem stopArm_other (hab : a ≠ b) : (st.stopArm mask a).arms[b] = st.arms[b] := by
  unfold State.stopArm
  split
  · exact rampStop_other hab
  · rfl

/-- The arm itself starts its ramp stop exactly when it is named or its MISSSTOP is due. -/
theorem stopArm_self (h : s.OnlyArms st) (hst : st.arms[a] = s.arms[a]) : (st.stopArm mask a).arms[a] =
    if s.stopsArm mask a then s.arms[a].rampStopped else s.arms[a] := by
  have htest : st.stopsArm mask a = s.stopsArm mask a := by
    unfold State.stopsArm
    rw [hst]
    obtain ⟨arms, reports, free, rfl⟩ := h
    rfl
  unfold State.stopArm
  rw [htest]
  split
  · rw [rampStop_arm, hst]
  · exact hst

end

theorem rampStopApply_next (s : State) : ∃ t, exec .rampStopApply s = .next t ∧ (s.dropDue Req.isStop).OnlyArms t
    ∧ ∀ k : Fin 8, (¬ s.stopDue k → t.arms[k] = s.arms[k]) ∧ (s.stopDue k → t.arms[k] = s.arms[k].rampStopped) := by
  have hself : (s.dropDue Req.isStop).OnlyArms (s.dropDue Req.isStop) := ⟨_, _, _, rfl⟩
  obtain ⟨honly, harms⟩ := foldl_finRange_each (f := State.stopArm s.dueStops)
    (I := (s.dropDue Req.isStop).OnlyArms) (Q := fun k t => t.arms[k] = s.arms[k])
    (R := fun k t => t.arms[k] = if s.stopsArm s.dueStops k then s.arms[k].rampStopped else s.arms[k])
    (fun _ _ => stopArm_onlyArms) (fun _ _ => stopArm_self) (fun _ _ _ hab _ h => (stopArm_other hab).trans h)
    (fun _ _ _ hab _ h => (stopArm_other hab).trans h) hself fun _ => rfl
  refine ⟨_, rampStopApply_eq s, honly, fun k => ?_⟩
  rw [stopDue_iff, harms k]
  exact ⟨fun h => if_neg h, fun h => if_pos h⟩

/-! ### RAMP_STOP_REST, HANDOVER_END and DWELL_EXPIRE -/

section
variable {s : State} {k : Fin 8}

theorem rampStopRest_rests {x : ActSeg} {rest : List ActSeg} (hstop : s.arms[k].stopping = .stop)
    (hactive : s.arms[k].active = x :: rest) (hsigma : f64IsZero s.arms[k].sigma = true) (hhand : s.arms[k].handE = []) :
    exec (.rampStopRest k) s = .next { s with arms := s.arms.set k { s.arms[k] with
      lastSegId := x.d.segId, active := [], run := none, s := 0, sigma := 0, acc := 0, base := s.arms[k].cmd
      stopping := .no, stopped := true } } := by
  show execRampStopRest k s = _
  unfold execRampStopRest
  dsimp only
  rw [if_pos (by rw [hstop, hsigma, hhand]; rfl), State.modArm, vmod, hactive]

theorem rampStopRest_quiet (hstop : s.arms[k].stopping ≠ .stop) : exec (.rampStopRest k) s = .next s := by
  show execRampStopRest k s = _
  unfold execRampStopRest
  dsimp only
  rw [beq_eq_false_iff_ne.mpr hstop, if_neg (by simp)]

variable {x : ActSeg} {rest : List ActSeg} {run : RunSeg}

/-- DWELL_EXPIRE of an arm whose segment `x` runs settles the arm once the dwell is over, but in STO (R162). -/
theorem dwellExpire_eq (hactive : s.arms[k].active = x :: rest) (hrun : s.arms[k].run = some run) :
    exec (.dwellExpire k) s = .next (if s.dwellOver x.d run && s.coreSafety != .sto then s.settleArm k 65 else s) := by
  show execDwellExpire k s = _
  rw [execDwellExpire, hactive, hrun]

theorem dwellOver_iff (d : SegDesc) : s.dwellOver d run = true ↔
    d.timed = true ∧ d.dwellNs.toNat ≤ (s.epoch + 1 - run.nStart) * s.tTick := by
  rw [State.dwellOver, Bool.and_eq_true, decide_eq_true_iff]

theorem dwellExpires_iff {d : SegDesc} : (s.dwellOver d run && s.coreSafety != .sto) = true ↔
    d.timed = true ∧ d.dwellNs.toNat ≤ (s.epoch + 1 - run.nStart) * s.tTick ∧ s.coreSafety ≠ .sto := by
  rw [Bool.and_eq_true, dwellOver_iff, bne_iff_ne, and_assoc]

end

/-! ### The last segment of a plan, a timed dwell, retires (R162) -/

/-- The arm runs a segment with descriptor `d`, the last of its plan, from the point `q0` since tick `n`. -/
def Arm.RunsLast (a : Arm) (d : SegDesc) (q0 : List Int) (n : Nat) : Prop :=
  ∃ x run, a.active = [x] ∧ x.d = d ∧ a.run = some run ∧ run.q0 = q0 ∧ run.nStart = n

section
variable {s : State} {k : Fin 8} {a : Arm} {d e : SegDesc} {q0 : List Int} {n : Nat}

theorem runsLast_ite {t u : State} {p : Prop} [Decidable p] (ht : t.arms[k].RunsLast d q0 n) (hu : u.arms[k].RunsLast d q0 n) :
    (if p then t else u).arms[k].RunsLast d q0 n := by
  split <;> assumption

theorem headDone_runsLast (h : a.RunsLast d q0 n) : a.headDone.RunsLast d q0 n := by
  obtain ⟨x, run, hactive, hrest⟩ := h
  unfold Arm.headDone
  rw [hactive]
  exact ⟨{ x with actDone := true }, run, rfl, hrest⟩

theorem fixCurve_runsLast (h : a.RunsLast d q0 n) : a.fixCurve.RunsLast d q0 n := by
  have hkept := h
  obtain ⟨x, run, hactive, hd, hrun, hq, hn⟩ := h
  unfold Arm.fixCurve
  rw [hactive, hrun]
  dsimp only
  split
  · exact hkept
  · exact ⟨x, _, rfl, hd, rfl, hq, hn⟩

theorem modArm_runsLast {f : Arm → Arm} (h : (f s.arms[k]).RunsLast d q0 n) : (s.modArm k f).arms[k].RunsLast d q0 n := by
  have hself : (s.modArm k f).arms[k] = f s.arms[k] := Vector.getElem_set_self k.isLt
  rwa [hself]

theorem openGate_runsLast (h : s.arms[k].RunsLast d q0 n) : (s.openGate k).arms[k].RunsLast d q0 n := by
  unfold State.openGate
  extract_lets a
  split
  · next hr =>
    refine runsLast_ite (modArm_runsLast ?_) h
    obtain ⟨x, run, hactive, hd, hrun, hq, hn⟩ := h
    cases hrun.symm.trans hr
    exact ⟨x, _, hactive, hd, rfl, hq, hn⟩
  · exact h

/-- An action changes an auxiliary axis or the tool outputs, never the plan (R167). -/
theorem fireAction_runsLast (h : s.arms[k].RunsLast d q0 n) : (s.fireAction k e).arms[k].RunsLast d q0 n := by
  unfold State.fireAction
  exact runsLast_ite (runsLast_ite h h) (runsLast_ite (modArm_runsLast h) (runsLast_ite (modArm_runsLast h) h))

theorem windowAndAction_runsLast (h : s.arms[k].RunsLast d q0 n) (retiring : Bool) :
    (s.windowAndAction k retiring).arms[k].RunsLast d q0 n := by
  unfold State.windowAndAction
  extract_lets a
  split
  · next hr =>
    refine runsLast_ite h ?_
    extract_lets d' chk ok s1 due
    have h1 : s1.arms[k].RunsLast d q0 n := by
      refine runsLast_ite (modArm_runsLast ?_) h
      obtain ⟨x, run, hactive, hd, hrun, hq, hn⟩ := h
      cases hrun.symm.trans hr
      exact ⟨x, _, hactive, hd, rfl, hq, hn⟩
    have hdone : (s1.modArm k Arm.headDone).arms[k].RunsLast d q0 n := modArm_runsLast (headDone_runsLast h1)
    exact runsLast_ite h1 (runsLast_ite h1 (runsLast_ite (fireAction_runsLast hdone) hdone))
  · exact h

/-- An arm whose last segment retires is idle at the end point of that segment. -/
theorem retireHead_idle (h : s.arms[k].RunsLast d q0 n) :
    (s.retireHead k).arms[k].active = [] ∧ (s.retireHead k).arms[k].base = d.endPoint q0 := by
  obtain ⟨x, run, hactive, rfl, hrun, rfl, -⟩ := h
  unfold State.retireHead State.modArm vmod
  dsimp only
  rw [hactive, hrun]
  simp

/-- An idle arm has nothing to settle. -/
theorem settleArm_idle (h : s.arms[k].active = []) (fuel : Nat) : (s.settleArm k fuel).arms[k] = s.arms[k] := by
  cases fuel with
  | zero => rfl
  | succ fuel =>
    have hfix : (s.modArm k Arm.fixCurve).arms[k] = s.arms[k] := by
      refine (Vector.getElem_set_self k.isLt).trans ?_
      unfold Arm.fixCurve
      rw [h]
    have hgate : (s.modArm k Arm.fixCurve).openGate k = s.modArm k Arm.fixCurve := by
      unfold State.openGate
      dsimp only
      rw [hfix, h]
    unfold State.settleArm
    extract_lets s0 a stopping
    have hs0 : s0.arms[k] = s.arms[k] := (congrArg (fun t : State => t.arms[k]) hgate).trans hfix
    have hidle : a.active = [] := (congrArg Arm.active hs0).trans h
    rw [hidle]
    exact hs0

/-- A timed dwell that is over and ends the plan leaves its arm idle where the dwell stood (R162). -/
theorem settleArm_last_dwell (h : s.arms[k].RunsLast d q0 n) (htimed : d.timed = true)
    (hover : d.dwellNs.toNat ≤ (s.epoch + 1 - n) * s.tTick) (fuel : Nat) :
    (s.settleArm k (fuel + 1)).arms[k].active = [] ∧ (s.settleArm k (fuel + 1)).arms[k].base = d.endPoint q0 := by
  have hdwell : d.isDwell = true := ((Bool.and_eq_true _ _).mp htimed).1
  unfold State.settleArm
  extract_lets s0 a stopping
  have hgen : s.OnlyGenerators s0 := (modArm_onlyGenerators s k _).trans (openGate_onlyGenerators _ _)
  have h0 : s0.arms[k].RunsLast d q0 n := openGate_runsLast (modArm_runsLast (fixCurve_runsLast h))
  have hend (u : State) (hu : u.arms[k].RunsLast d q0 n) : (State.settleArm k fuel (u.retireHead k)).arms[k].active = []
      ∧ (State.settleArm k fuel (u.retireHead k)).arms[k].base = d.endPoint q0 := by
    rw [settleArm_idle (retireHead_idle hu).1]
    exact retireHead_idle hu
  have hkept := h0
  obtain ⟨x, run, hactive, rfl, hrun, -, rfl⟩ := h0
  have hdone : s0.dwellOver x.d run = true := by
    obtain ⟨arms, aux, reports, free, cellEvs, hs0⟩ := hgen
    rw [hs0]
    exact (dwellOver_iff (s := s) x.d).mpr ⟨htimed, hover⟩
  rw [show a.active = [x] from hactive, show a.run = some run from hrun]
  dsimp only
  rw [if_pos hdwell, if_pos htimed, hdone, if_pos rfl]
  exact hend _ (windowAndAction_runsLast hkept _)

end

end Sys2Proof.Machine

open Sys2Proof Sys2Proof.Machine

/-- Settles O38: RAMP_STOP_APPLY by dealing with each arm once, the others by the condition that each has; the end of a
plan in a timed dwell by what settling keeps of the arm until the dwell retires. -/
theorem stopAndSegmentEndResults : Obligations.StopAndSegmentEndResults := by
  unfold Obligations.StopAndSegmentEndResults
  refine ⟨?apply, fun s k x rest => rampStopRest_rests, fun s k => rampStopRest_quiet, fun s k => rfl, ?dwell, ?last⟩
  case apply =>
    intro s
    obtain ⟨t, ht, ⟨arms, reports, free, rfl⟩, harms⟩ := rampStopApply_next s
    exact ⟨_, ht, rfl, ⟨rfl, rfl, rfl, rfl, rfl, rfl, rfl, rfl⟩, rfl, harms⟩
  case dwell =>
    intro s k x rest run hactive hrun
    rw [dwellExpire_eq hactive hrun]
    refine ⟨fun htimed hover hs => ?_, fun h => ?_⟩
    · rw [if_pos (dwellExpires_iff.mpr ⟨htimed, hover, hs⟩)]
    · refine congrArg _ (if_neg fun hexp => ?_)
      obtain ⟨htimed, hover, hs⟩ := dwellExpires_iff.mp hexp
      rcases h with h | h | h
      · exact absurd hover (Nat.not_le.mpr h)
      · exact Bool.false_ne_true (h.symm.trans htimed)
      · exact hs h
  case last =>
    intro s k x run hactive hrun
    refine ⟨_, dwellExpire_eq hactive hrun, fun htimed hover hs => ?_⟩
    rw [if_pos (dwellExpires_iff.mpr ⟨htimed, hover, hs⟩)]
    exact settleArm_last_dwell ⟨x, run, hactive, rfl, hrun, rfl, rfl⟩ htimed hover 64

end

section
/-! The journal at the boundary: entries committed, and entries completed (R139, R473, R474, R524). -/

namespace Sys2Proof.Machine

/-- One JREC committed to the entry of index `i`, and outside a replay its number kept in the AON domain (R139, R473). -/
def State.commitJrec (s : State) (i : Nat) (x : JEntry) : State :=
  { s with
    jrn := { s.jrn with entries := assocSet s.jrn.entries i x, last := x.seq }
    aon := if s.eph.replay then s.aon else { s.aon with jseq := x.seq } }

section
variable {s : State} {c : Fin 9} {e i : Nat} {seq : Word}

/-- A single request that is due is the one taken. -/
theorem takeReqs_single {p : Req → Bool} {x : ReqEntry} (h : s.dueReqs p = [x]) : s.takeReqs p = ([x], s.dropDue p) := by
  rw [State.takeReqs, h]
  rfl

theorem journalCommit_one {ridx : Word} {idem : Bool} {ring : Byte} {b : List Byte}
    (h : s.dueReqs Req.isJrec = [⟨c, e, .jrec seq idem ring ridx b⟩]) (hfree : s.jrn.freeIdx = some i) :
    exec .journalCommit s =
      .next ((s.dropDue Req.isJrec).commitJrec i ⟨seq, idem, c, ring, ridx, s.epoch, bytesAt b 0 64⟩) := by
  have hfree : (s.dropDue Req.isJrec).jrn.freeIdx = some i := hfree
  show execJournalCommit s = _
  rw [execJournalCommit, takeReqs_single h]
  simp only [List.foldl_cons, List.foldl_nil, hfree]
  rfl

theorem postCq_room {r : CqRec} (h : s.host.backlog.length < 4096) :
    s.postCq r = { s with host := { s.host with backlog := s.host.backlog ++ [r] } } := by
  rw [State.postCq, if_pos h]
  rfl

theorem jdoneCommit_one {x : JEntry} {result : BitVec 16} (h : s.dueReqs Req.isJdone = [⟨c, e, .jdone seq result⟩])
    (hx : s.jrn.entries.find? (fun y => y.2.seq == seq) = some (i, x)) :
    exec .jdoneCommit s = .next (({ s.dropDue Req.isJdone with
      jrn := { s.jrn with entries := assocDel s.jrn.entries i } } : State).postCq (x.record result false)) := by
  have hx : (s.dropDue Req.isJdone).jrn.entries.find? (fun y => y.2.seq == seq) = some (i, x) := hx
  show execJdoneCommit s = _
  rw [execJdoneCommit, takeReqs_single h]
  simp only [List.foldl_cons, List.foldl_nil, hx]
  rfl

end

end Sys2Proof.Machine

open Sys2Proof Sys2Proof.Machine

/-- Settles O41. -/
theorem journalCommitResults : Obligations.JournalCommitResults := by
  unfold Obligations.JournalCommitResults
  exact ⟨fun s c e i seq ridx idem ring b => journalCommit_one, fun s c e i x seq result h hx hroom =>
    (jdoneCommit_one h hx).trans (congrArg Host.Outcome.next (postCq_room hroom))⟩

end

section
/-! The safety state and what changes it: rest, hold, STO, the watchdog, and the reset edge (R174, R200, R272, R313, R314,
R327–R333, R498). -/

namespace Sys2Proof.Machine

/-! ### What the gate leaves -/

theorem gateIn_saf (s : State) (t : DWord) (src : Nat) (i : GateItem) : (s.gateIn t src i).saf = s.saf := gatePush_saf _ _ _ _

theorem gateIn_sameCore (s : State) (t : DWord) (src : Nat) (i : GateItem) : s.SameCore (s.gateIn t src i) := by
  unfold State.gateIn State.gatePush
  split <;> exact sameCore_refl s

/-! ### DUSK_REST, DUSK_TIMEOUT and HOLD_END -/

theorem drainQueue_empty {s : State} (h : s.saf.queue = []) (n : Nat) : s.drainQueue n = s := by
  cases n with
  | zero => rfl
  | succ n => rw [State.drainQueue, h]

/-- With an empty queue there is nothing to pin. -/
theorem pinDrained_empty {old : State} (h : old.saf.queue = []) (s : State) (t : DWord) : old.pinDrained s t = s := by
  rw [State.pinDrained, h]
  rfl

section
variable {s : State} (hcore : s.coreSafety = .dusk) (hstate : s.saf.state = .dusk) (hdue : s.saf.stoDue = false)
include hcore hstate hdue

/-- In a Dusk ramp whose STO is not due, DUSK_REST and DUSK_TIMEOUT ask only for the rest. -/
theorem duskTest_eq (b : Bool) :
    (s.coreSafety == .dusk && s.saf.state == .dusk && !s.saf.stoDue && b) = b := by
  rw [hcore, hstate, hdue]
  rfl

theorem duskTimeout_raises (t : DWord) (hrest : s.atRest = false) : OnlyRaises s (exec (.duskTimeout t) s) t 0x1808 3 false :=
  congrArg Host.Outcome.next (if_pos (by rw [duskTest_eq hcore hstate hdue, hrest]; rfl))

theorem duskTimeout_rested (t : DWord) (hrest : s.atRest = true) : exec (.duskTimeout t) s = .next s :=
  congrArg Host.Outcome.next (if_neg (by rw [duskTest_eq hcore hstate hdue, hrest]; decide))

variable (hqueue : s.saf.queue = [])
include hqueue

theorem duskRest_moving (t : DWord) (hrest : s.atRest = false) : exec (.duskRest t) s = .next s := by
  have hstays : s.duskRest t = s := if_neg (by rw [duskTest_eq hcore hstate hdue, hrest]; decide)
  exact congrArg Host.Outcome.next ((pinDrained_empty hqueue _ t).trans hstays)

/-- At rest the hold begins where it is permitted, and STO follows where it is not. -/
theorem duskRest_rests (hreplay : s.eph.replay = false) (hrun : s.stopped 3 = false) (t : DWord) (hrest : s.atRest = true) :
    exec (.duskRest t) s = .next (if 0 < s.prof.tHoldS ∧ s.saf.noHold = false ∧ s.saf.finalRamp = false then { s with
        now := t, saf := { s.saf with react := none, state := .hold }, gate := s.gate ++ [⟨s.stampAt t, 1, .safety .hold⟩] }
      else { s with
        now := t, saf := { s.saf with react := none, stoDue := true }, gate := s.gate ++ [⟨s.stampAt t, 1, .safety .sto⟩] }) := by
  have hrests : exec (.duskRest t) s = .next (s.duskRest t) := congrArg Host.Outcome.next (pinDrained_empty hqueue _ t)
  have hdrain : (((s.atTime t).modSaf fun f => { f with react := none }).drainQueue 17)
      = (s.atTime t).modSaf fun f => { f with react := none } := by
    rw [drainQueue_empty]
    exact hqueue
  rw [hrests, State.duskRest, if_pos ((duskTest_eq hcore hstate hdue _).trans hrest), hdrain]
  refine congrArg Host.Outcome.next (if_congr ?_ ?_ ?_)
  · show (decide (0 < s.prof.tHoldS) && !s.saf.noHold && !s.saf.finalRamp) = true ↔ _
    simp [and_assoc]
  · exact gateIn_of_running hreplay hrun
  · exact gateIn_of_running hreplay hrun

end

theorem holdEnd_ramps {s : State} (t : DWord) (hcore : s.coreSafety = .hold) (hstate : s.saf.state = .hold)
    (hreplay : s.eph.replay = false) (hrun : s.stopped 3 = false) :
    ∃ u : State, exec (.holdEnd t) s = .next u ∧ u.saf = { s.saf with finalRamp := true, state := .dusk } ∧ s.Raised u 0x181A 0 false
      ∧ u.gate = s.gate ++ [⟨s.stampAt t, 1, .finalRamp⟩] ∧ s.SameCore u := by
  have hends : s.endHold t = { ((s.atTime t).raise 0x181A 0).modSaf fun f => { f with finalRamp := true, state := .dusk } with
      gate := s.gate ++ [⟨s.stampAt t, 1, .finalRamp⟩] } :=
    (if_pos (by rw [hcore, hstate]; rfl)).trans (gateIn_of_running hreplay hrun)
  exact ⟨_, congrArg Host.Outcome.next hends, rfl, ⟨_, rfl⟩, rfl, sameCore_refl s⟩

/-! ### STO_ENTRY -/

/-- One arm changed, once its unfired actions are withheld. -/
def State.withholdMod (f : Arm → Arm) (s : State) (k : Fin 8) : State := (s.withholdAll k).modArm k f

/-- The arm with its unfired actions withheld. -/
def Arm.withheld (a : Arm) : Arm := { a with active := a.active.map fun x => { x with actDone := true }, late := [] }

theorem withholdMod_eq (f : Arm → Arm) (s : State) (k : Fin 8) : ∃ reports free,
    s.withholdMod f k = { s with reports := reports, free := free, arms := s.arms.set k (f s.arms[k].withheld) } := by
  obtain ⟨reports, free, h⟩ := withholdAll_eq s k
  refine ⟨reports, free, ?_⟩
  rw [State.withholdMod, h]
  simp only [State.modArm, vmod, Fin.getElem_fin, Vector.getElem_set_self, Vector.set_set]
  rfl

theorem withholdMod_onlyArms (f : Arm → Arm) {s t : State} {k : Fin 8} (h : s.OnlyArms t) : s.OnlyArms (t.withholdMod f k) := by
  obtain ⟨arms, reports, free, rfl⟩ := h
  obtain ⟨reports', free', ht⟩ := withholdMod_eq f { s with arms := arms, reports := reports, free := free } k
  rw [ht]
  exact ⟨_, _, _, rfl⟩

theorem withholdMod_arm (f : Arm → Arm) (s : State) (k : Fin 8) : (s.withholdMod f k).arms[k] = f s.arms[k].withheld := by
  obtain ⟨reports, free, h⟩ := withholdMod_eq f s k
  rw [h]
  exact Vector.getElem_set_self k.isLt

theorem withholdMod_other (f : Arm → Arm) (s : State) {k j : Fin 8} (hkj : k ≠ j) : (s.withholdMod f k).arms[j] = s.arms[j] := by
  obtain ⟨reports, free, h⟩ := withholdMod_eq f s k
  rw [h]
  exact Vector.getElem_set_ne k.isLt j.isLt fun e => hkj (Fin.ext e)

/-- Every arm is changed once, and only arms change beside the faults raised. -/
theorem foldl_withholdMod (f : Arm → Arm) (s : State) : s.OnlyArms ((List.finRange 8).foldl (State.withholdMod f) s) ∧
    ∀ k : Fin 8, ((List.finRange 8).foldl (State.withholdMod f) s).arms[k] = f s.arms[k].withheld := by
  have hself : s.OnlyArms s := ⟨_, _, _, rfl⟩
  exact foldl_finRange_each (f := State.withholdMod f) (I := s.OnlyArms) (Q := fun k st => st.arms[k] = s.arms[k])
    (R := fun k st => st.arms[k] = f s.arms[k].withheld) (fun _ _ => withholdMod_onlyArms f)
    (fun st k _ h => (withholdMod_arm f st k).trans (by rw [h])) (fun st _ _ hkj _ h => (withholdMod_other f st hkj).trans h)
    (fun st _ _ hkj _ h => (withholdMod_other f st hkj).trans h) hself fun _ => rfl

/-- What STO leaves of the arm `a`: no plan and no path speed, its staged queue and its command as they were (R174). -/
structure Arm.EmptiedTo (a b : Arm) : Prop where
  active : b.active = []
  staged : b.staged = a.staged
  sigma : b.sigma = 0
  cmd : b.cmd = a.cmd

/-- The CORE side of STO entry: every plan is emptied, no auxiliary axis has a queue or moves, no channel emits, no axis is
in manual mode, and cores, data and the safety side are as they were (R174, R200, R272). -/
structure State.StoppedTo (s u : State) : Prop where
  arms : ∀ k : Fin 8, s.arms[k].EmptiedTo u.arms[k]
  aux : ∀ a : Fin 128, u.aux[a].queue = [] ∧ u.aux[a].v = 0 ∧ u.aux[a].icur = 0 ∧ u.mans[a] = false
  chans : ∀ c : Fin 16, u.chans[c].last = 0 ∧ u.chans[c].iref = 0
  cores : u.cores = s.cores
  data : u.data = s.data
  saf : u.saf = s.saf
  coreSafety : u.coreSafety = .sto

theorem stoCore_stops (s : State) : s.StoppedTo s.stoCore := by
  unfold State.stoCore
  extract_lets s1
  obtain ⟨⟨arms, reports, free, h1⟩, harms⟩ : s.OnlyArms s1 ∧ ∀ k : Fin 8, s1.arms[k] = _ := foldl_withholdMod _ s
  refine ⟨fun k => ?_, fun a => by simp, fun c => by simp, ?_, ?_, ?_, rfl⟩
  · show s.arms[k].EmptiedTo s1.arms[k]
    rw [harms k]
    exact ⟨rfl, rfl, rfl, rfl⟩
  all_goals rw [h1]

theorem stoEntry_eq {s : State} (t : DWord) (hstate : s.saf.state = .sto) (hcore : s.coreSafety = .sto) :
    exec (.stoEntry t) s = .next ((s.atTime t).modSaf Saf.enterSto).stoCore := by
  show execStoEntry t s = _
  unfold execStoEntry
  dsimp only
  rw [if_pos (beq_iff_eq.mpr hcore), if_pos (by rw [hstate]; simp)]

/-! ### RESET_EDGE -/

theorem resetEdge_spec (s : State) (released pressed : Nat) (t : DWord) :
    let p := s.prof.saf
    ∃ u : State, exec (.resetEdge released pressed t) s = .next u ∧ u.saf.rstPin = true ∧ u.saf.stuck = false ∧ s.SameCore u
      ∧ (pressed < p.tminMs * 1000 → u.saf.edge = s.saf.edge ∧ s.Raised u 0x1817 0 false)
      ∧ (p.tminMs * 1000 ≤ pressed → (p.tmaxMs * 1000 < pressed ∨ s.saf.stuck = true ∨ released < p.tminMs * 1000) →
          u.saf.edge = s.saf.edge ∧ u.reports = s.reports)
      ∧ (p.tminMs * 1000 ≤ pressed → pressed ≤ p.tmaxMs * 1000 → s.saf.stuck = false → p.tminMs * 1000 ≤ released →
          (s.boot.ready = true → u.saf.edge = true ∧ u.reports = s.reports)
          ∧ (s.boot.ready = false → u.saf.edge = s.saf.edge ∧ s.Raised u 0x1819 0 false)) := by
  intro p
  let s1 : State := (s.atTime t).modSaf fun f => { f with rstPin := true, stuck := false }
  have hexec : exec (.resetEdge released pressed t) s = .next (if pressed < p.tminMs * 1000 then s1.raise 0x1817 0
      else if p.tmaxMs * 1000 < pressed || s.saf.stuck || decide (released < p.tminMs * 1000) then s1
      else if !s.boot.ready then s1.raise 0x1819 0
      else s1.modSaf fun f => { f with edge := true }) := rfl
  have hnone : (p.tmaxMs * 1000 < pressed || s.saf.stuck || decide (released < p.tminMs * 1000)) = true ↔
      p.tmaxMs * 1000 < pressed ∨ s.saf.stuck = true ∨ released < p.tminMs * 1000 := by
    simp [or_assoc]
  by_cases hshort : pressed < p.tminMs * 1000
  · rw [if_pos hshort] at hexec
    exact ⟨_, hexec, rfl, rfl, sameCore_refl s, fun _ => ⟨rfl, ⟨_, rfl⟩⟩,
      fun h => absurd hshort (Nat.not_lt.mpr h), fun h => absurd hshort (Nat.not_lt.mpr h)⟩
  rw [if_neg hshort] at hexec
  by_cases hno : p.tmaxMs * 1000 < pressed ∨ s.saf.stuck = true ∨ released < p.tminMs * 1000
  · rw [if_pos (hnone.mpr hno)] at hexec
    refine ⟨_, hexec, rfl, rfl, sameCore_refl s, fun h => absurd h hshort, fun _ _ => ⟨rfl, rfl⟩,
      fun _ hmax hstuck hrel => ?_⟩
    rcases hno with h | h | h
    · exact absurd h (Nat.not_lt.mpr hmax)
    · exact Bool.noConfusion (h.symm.trans hstuck)
    · exact absurd h (Nat.not_lt.mpr hrel)
  rw [if_neg (mt hnone.mp hno)] at hexec
  cases hready : s.boot.ready with
  | true =>
    rw [hready] at hexec
    exact ⟨_, hexec, rfl, rfl, sameCore_refl s, fun h => absurd h hshort, fun _ h => absurd h hno,
      fun _ _ _ _ => ⟨fun _ => ⟨rfl, rfl⟩, fun h => (nomatch h)⟩⟩
  | false =>
    rw [hready] at hexec
    exact ⟨_, hexec, rfl, rfl, sameCore_refl s, fun h => absurd h hshort, fun _ h => absurd h hno,
      fun _ _ _ _ => ⟨fun h => (nomatch h), fun _ => ⟨rfl, ⟨_, rfl⟩⟩⟩⟩

/-! ### RESET_EDGE_EVALUATE -/

/-- The state once the edge has been looked at: it is used up. -/
def State.edgeUsed (s : State) (t : DWord) : State := { s with now := t, saf := { s.saf with edge := false } }

/-- What a good reset leaves of the safety side (R325, R333). -/
def Saf.restarted (f : Saf) : Saf :=
  { f with edge := false, queue := [], react := none, stoDyn := true, wdog := true, state := .run, noHold := false, finalRamp := false }

section
variable {s : State} (t : DWord)

theorem resetEdgeEvaluate_none (h : s.saf.edge = false) : exec (.resetEdgeEvaluate t) s = .next s :=
  congrArg Host.Outcome.next (if_pos (by rw [h]; rfl))

variable (hedge : s.saf.edge = true)
include hedge

theorem resetEdgeEvaluate_ignored (hstate : s.saf.state ≠ .sto) :
    exec (.resetEdgeEvaluate t) s = .next ((s.edgeUsed t).raise 0x1819 0) :=
  congrArg Host.Outcome.next ((if_neg (by rw [hedge]; decide)).trans (if_pos (bne_iff_ne.mpr hstate)))

variable (hstate : s.saf.state = .sto)
include hstate

/-- In STO the edge is judged by the blocking conditions. -/
theorem resetEdgeEvaluate_refused {d : Word} (hblock : s.blocking = some d) :
    exec (.resetEdgeEvaluate t) s = .next ((s.edgeUsed t).raise 0x1818 0 false (some d)) := by
  show execResetEdgeEvaluate t s = _
  unfold execResetEdgeEvaluate
  dsimp only
  rw [if_neg (by rw [hedge]; decide), if_neg (by rw [hstate]; decide), hblock]
  rfl

/-- A good reset also makes the Halo period that begins the first one and ends a debug scope 2 (R533), before run joins the
gate. -/
theorem resetEdgeEvaluate_restarts (hblock : s.blocking = none) : ∃ halo dbg,
    exec (.resetEdgeEvaluate t) s = .next (State.gateIn
      { s with now := t, saf := s.saf.restarted, halo := halo, dbg := dbg } t 1 (.safety .run)) := by
  show ∃ halo dbg, execResetEdgeEvaluate t s = _
  unfold execResetEdgeEvaluate
  dsimp only
  rw [if_neg (by rw [hedge]; decide), if_neg (by rw [hstate]; decide), hblock]
  dsimp only
  split <;> exact ⟨_, _, rfl⟩

end

theorem resetEdgeEvaluate_spec {s : State} (t : DWord) (hedge : s.saf.edge = true) :
    ∃ u : State, exec (.resetEdgeEvaluate t) s = .next u ∧ u.saf.edge = false ∧ s.SameCore u
      ∧ (s.saf.state ≠ .sto → u.saf.state = s.saf.state ∧ s.Raised u 0x1819 0 false)
      ∧ (∀ d : Word, s.saf.state = .sto → s.blocking = some d →
          u.saf.state = .sto ∧ u.gate = s.gate ∧ u.reports = s.reports ++ [⟨0x1818, 0, false, t, d⟩])
      ∧ (s.saf.state = .sto → s.blocking = none → u.saf.state = .run ∧ u.saf.stoDyn = true ∧ u.saf.wdog = true ∧ u.saf.queue = []
          ∧ u.saf.react = none ∧ u.saf.noHold = false ∧ (s.eph.replay = false → s.stopped 3 = false → u.gate = s.gate ++ [⟨s.stampAt t, 1, .safety .run⟩])) := by
  by_cases hstate : s.saf.state = .sto
  · cases hblock : s.blocking with
    | some d =>
      refine ⟨_, resetEdgeEvaluate_refused t hedge hstate hblock, rfl, sameCore_refl s,
        fun h => absurd hstate h, fun d' _ hd => ?_, fun _ h => (nomatch h)⟩
      cases hd
      exact ⟨hstate, rfl, rfl⟩
    | none =>
      obtain ⟨halo, dbg, hexec⟩ := resetEdgeEvaluate_restarts t hedge hstate hblock
      have hsaf := gateIn_saf { s with now := t, saf := s.saf.restarted, halo := halo, dbg := dbg } t 1 (.safety .run)
      refine ⟨_, hexec, by rw [hsaf]; rfl, gateIn_sameCore _ _ _ _, fun h => absurd hstate h, fun _ _ h => (nomatch h), fun _ _ => ?_⟩
      rw [hsaf]
      refine ⟨rfl, rfl, rfl, rfl, rfl, rfl, fun hreplay hrun => ?_⟩
      exact gatePush_gate_of_running hreplay hrun
  · exact ⟨_, resetEdgeEvaluate_ignored t hedge hstate, rfl, sameCore_refl s, fun _ => ⟨rfl, ⟨_, rfl⟩⟩,
      fun _ h => absurd h hstate, fun h => absurd h hstate⟩

end Sys2Proof.Machine

open Sys2Proof Sys2Proof.Machine

/-- Settles O50: the rest by the one test that a Dusk ramp leaves, STO entry by emptying each arm once, the reset edge by
the cases of a press, and its evaluation by the safety state and the blocking condition. -/
theorem safetyStateResults : Obligations.SafetyStateResults := by
  unfold Obligations.SafetyStateResults
  refine ⟨?rest, fun s t hcore hstate hdue => ⟨duskTimeout_raises hcore hstate hdue t, duskTimeout_rested hcore hstate hdue t⟩,
    fun s t => holdEnd_ramps t, ?entry, ?watchdog, ?delay, fun s t => rfl, resetEdge_spec, ?stuck,
    fun s t => ⟨resetEdgeEvaluate_none t, resetEdgeEvaluate_spec t⟩⟩
  case rest =>
    intro s t hcore hstate hdue hqueue hreplay hrun
    refine ⟨duskRest_moving hcore hstate hdue hqueue t, fun hrest => ?_⟩
    rw [duskRest_rests hcore hstate hdue hqueue hreplay hrun t hrest]
    exact ⟨fun h => congrArg Host.Outcome.next (if_pos h), fun h => congrArg Host.Outcome.next (if_neg h)⟩
  case entry =>
    intro s t hstate hcore
    obtain ⟨harms, haux, hchans, hcores, hdata, hsaf, hsto⟩ := stoCore_stops ((s.atTime t).modSaf Saf.enterSto)
    refine ⟨_, stoEntry_eq t hstate hcore, ?_, ?_, ?_, hsto, fun k => ?_, haux, hchans, hcores, hdata⟩
    · rw [hsaf]; rfl
    · rw [hsaf]; rfl
    · rw [hsaf]; rfl
    · obtain ⟨hactive, hstaged, hsigma, hcmd⟩ := harms k
      exact ⟨hactive, hstaged, hsigma, hcmd⟩
  case watchdog =>
    intro s since t
    refine ⟨fun hmin hmax => congrArg Host.Outcome.next (if_pos ⟨hmin, hmax⟩), fun hbad => congrArg Host.Outcome.next (if_neg ?_), rfl⟩
    omega
  case delay => exact fun s => congrArg Host.Outcome.next (if_congr beq_iff_eq rfl rfl)
  case stuck =>
    exact fun s t => ⟨fun h => congrArg Host.Outcome.next (if_pos h),
      fun h => congrArg Host.Outcome.next (if_neg (by rw [h]; decide))⟩

end

section
/-! Auxiliary axes: the append of moves, STOP descriptors, the end of a stop, the stall lock, and step batches (R184, R185,
R190 to R192, R195, R197 to R200). -/

namespace Sys2Proof.Machine

/-! ### One axis changed, and the events of the cell core -/

theorem aux_set_of_ne {v : Vector AuxGen 128} {a b : Fin 128} (h : b ≠ a) (g : AuxGen) : (v.set a g)[b] = v[b] :=
  Vector.getElem_set_ne a.isLt b.isLt fun e => h (Fin.ext e.symm)

theorem aux_set_self {v : Vector AuxGen 128} {a : Fin 128} {g : AuxGen} : (v.set a g)[a] = g :=
  Vector.getElem_set_self a.isLt

theorem modAux_modAux (s : State) (a : Fin 128) (f g : AuxGen → AuxGen) :
    (s.modAux a f).modAux a g = s.modAux a fun x => g (f x) := by
  simp only [State.modAux, vmod, Fin.getElem_fin, Vector.getElem_set_self, Vector.set_set]

/-- The event that tells the cell core OK for a STOP that discarded `n` moves (R185). -/
def State.stopOk (s : State) (a : Nat) (id : Word) (n : Nat) : Nat × Fin 9 × EvRec :=
  (s.epoch + 1, 8, mkEv 0x15 a (n * 256 + id.toNat % 65536 * 65536))

theorem auxEvent_ok (s : State) (a : Nat) (id : Word) (n : Nat) :
    s.auxEvent a id 0 n = { s with cellEvs := s.cellEvs ++ [s.stopOk a id n] } := by
  rw [State.auxEvent, Nat.zero_add]
  rfl

theorem foldl_auxEvent_ok (s : State) (a : Nat) (l : List (Word × Nat)) :
    l.foldl (fun st x => st.auxEvent a x.1 0 x.2) s =
      { s with cellEvs := s.cellEvs ++ l.map fun x => s.stopOk a x.1 x.2 } := by
  induction l generalizing s with
  | nil => simp
  | cons x l ih =>
    rw [List.foldl_cons, auxEvent_ok, ih, List.append_assoc]
    rfl

/-! ### A STOP descriptor (R197) -/

/-- The generator that a STOP leaves: its queue is empty and its speed is its own. -/
def AuxGen.emptied (g : AuxGen) : AuxGen := { g with queue := [], start := none, release := false }

/-- What a STOP asks of its axis to find it at rest. -/
def AuxGen.AtRest (g : AuxGen) : Prop := f64IsZero g.v = true ∧ f64IsZero g.aprev = true

/-- A STOP cancels the move in progress, and then finds its axis at rest or begins its ramp. -/
theorem auxStop_spec (s : State) (a : Fin 128) (m : AuxMove) : ∃ g evs,
    s.auxStop a m = { s with aux := s.aux.set a g, cellEvs := evs }
      ∧ g.queue = [] ∧ g.start = none ∧ g.v = s.aux[a].v
      ∧ (s.aux[a].AtRest → s.stopOk a.val m.moveId s.aux[a].queue.length ∈ evs)
      ∧ (¬ s.aux[a].AtRest → g.stopping = .stop ∧ g.stops = s.aux[a].stops ++ [(m.moveId, s.aux[a].queue.length)]) := by
  unfold State.auxStop
  extract_lets g n s1 s2
  obtain ⟨evs, hs1⟩ : ∃ evs, s1 = { s with cellEvs := evs } := by
    unfold s1
    split
    · exact ⟨_, rfl⟩
    · exact ⟨s.cellEvs, rfl⟩
  have hs2 : s2 = ({ s with cellEvs := evs } : State).modAux a AuxGen.emptied := congrArg (fun t => t.modAux a AuxGen.emptied) hs1
  by_cases hrest : g.AtRest
  · rw [if_pos (Bool.and_eq_true_iff.mpr hrest), auxEvent_ok, hs2]
    exact ⟨g.emptied, _, rfl, rfl, rfl, rfl, fun _ => List.mem_append_right _ (List.mem_singleton_self _), fun h => absurd hrest h⟩
  · rw [if_neg (mt Bool.and_eq_true_iff.mp hrest), hs2, modAux_modAux]
    exact ⟨{ g.emptied with stopping := .stop, stops := g.stops ++ [(m.moveId, n)] }, evs,
      rfl, rfl, rfl, rfl, fun h => absurd h hrest, fun _ => ⟨rfl, rfl⟩⟩

/-! ### AUXQ_APPLY with one descriptor waiting -/

/-- A move is appended to the queue of its axis, or the cell core is told the cause by which it fails (R184). -/
def State.auxAppend (s : State) (a : Fin 128) (p : AuxProf) (m : AuxMove) : State :=
  match auxCause p s.aux[a] m with
  | some x => s.auxEvent a.val m.moveId 0x09 x
  | none => s.modAux a fun g => { g with queue := g.queue ++ [m] }

/-- One waiting descriptor: a STOP acts in the first pass over the requests, a move in the second. -/
theorem auxqApply_one {s : State} {c : Fin 9} {e : Nat} {a : Fin 128} {m : AuxMove} {p : AuxProf}
    (hreq : s.dueReqs Req.isAuxq = [⟨c, e, .auxq a m⟩]) (hp : s.auxProf a.val = some p) : exec .auxqApply s = .next (
      let s1 := s.dropDue Req.isAuxq
      if s.coreSafety != .run then s1.auxEvent a.val m.moveId 0x02 0
      else if m.isStop then s1.auxStop a m
      else s1.auxAppend a p m) := by
  have hp1 : (s.dropDue Req.isAuxq).auxProf a.val = some p := hp
  show execAuxqApply s = _
  rw [execAuxqApply, takeReqs_single hreq]
  cases hstop : m.isStop with
  | true =>
    simp [hstop]
    rfl
  | false =>
    simp [hstop, hp1]
    rfl

/-! ### AUX_STOP_DONE (R197) -/

theorem auxStopDone_tells {s : State} {a : Fin 128} (hstop : s.aux[a].stopping = .stop) (hrest : s.aux[a].AtRest) :
    exec (.auxStopDone a) s = .next { s with
      aux := s.aux.set a { s.aux[a] with stops := [], stopping := if s.coreSafety == .dusk then .dusk else .no }
      cellEvs := s.cellEvs ++ s.aux[a].stops.map fun x => s.stopOk a.val x.1 x.2 } := by
  obtain ⟨hv, haprev⟩ := hrest
  refine congrArg Host.Outcome.next ((if_pos (by rw [hstop, hv, haprev]; rfl)).trans ?_)
  rw [foldl_auxEvent_ok]
  rfl

/-! ### AUX_STALL (R195, R198) -/

/-- The generator that the stall sentinel leaves: its stall lock is taken, and it ramps to rest. -/
def AuxGen.stalled (g : AuxGen) : AuxGen :=
  { g.emptied with
    stallDue := false, stallLock := true, relNow := false
    stopping := if g.stopping == .no then .stop else g.stopping }

theorem stalled_stopping (g : AuxGen) : g.stalled.stopping ≠ .no := by
  unfold AuxGen.stalled
  dsimp only
  split_ifs with h
  · decide
  · exact mt beq_iff_eq.mpr h

theorem auxStall_locks {s : State} {a : Fin 128} (hdue : s.aux[a].stallDue = true) : ∃ detail more free evs,
    exec (.auxStall a) s = .next { s with
      aux := s.aux.set a s.aux[a].stalled, reports := s.reports ++ ⟨0x0D02, 1, false, s.now, detail⟩ :: more
      free := free, cellEvs := evs } := by
  show ∃ detail more free evs, execAuxStall a s = _
  unfold execAuxStall
  extract_lets g s1 s2 s3
  obtain ⟨detail, more, free, hs2⟩ : ∃ detail more free,
      s2 = { s with reports := s.reports ++ ⟨0x0D02, 1, false, s.now, detail⟩ :: more, free := free } := by
    unfold s2
    split_ifs
    · exact ⟨_, _, _, congrArg (fun r => ({ s with reports := r, free := s.free + 2 } : State)) (List.append_assoc _ _ _)⟩
    · exact ⟨_, [], _, rfl⟩
  obtain ⟨evs, hs3⟩ : ∃ evs, s3 = { s2 with cellEvs := evs } := by
    unfold s3
    split_ifs
    · exact ⟨_, rfl⟩
    · exact ⟨s2.cellEvs, rfl⟩
  refine ⟨detail, more, free, evs, congrArg Host.Outcome.next ((if_neg (by rw [hdue]; decide)).trans ?_)⟩
  rw [hs3, hs2]
  rfl

/-! ### STEP_BATCH (R190 to R192, R200) -/

/-- One step channel put in place of another. -/
def State.setChan (s : State) (c : Fin 16) (x : StepChan) : State := { s with chans := s.chans.set c x }

theorem setChan_self (s : State) (c : Fin 16) (x : StepChan) : (s.setChan c x).chans[c] = x := Vector.getElem_set_self c.isLt

theorem setChan_of_ne (s : State) {c d : Fin 16} (h : d ≠ c) (x : StepChan) : (s.setChan c x).chans[d] = s.chans[d] :=
  Vector.getElem_set_ne c.isLt d.isLt fun e => h (Fin.ext e.symm)

/-- A channel that has taken a batch of `n` steps at current code `icur`; DIR turns where the sign changes. -/
def StepChan.taken (x : StepChan) (n : Int) (icur : Nat) : StepChan :=
  { x with
    last := n, iref := icur, dir := x.dir != (n != 0 && (decide (n < 0) != x.lastNeg))
    lastNeg := if n = 0 then x.lastNeg else decide (n < 0) }

/-- A batch without steps leaves DIR and the last sign. -/
theorem taken_zero (x : StepChan) (icur : Nat) : x.taken 0 icur = { x with last := 0, iref := icur } := by
  simp [StepChan.taken]

theorem taken_steps (x : StepChan) {n : Int} (h : n ≠ 0) (icur : Nat) : x.taken n icur =
    { x with last := n, iref := icur, dir := x.dir != (decide (n < 0) != x.lastNeg), lastNeg := decide (n < 0) } := by
  simp [StepChan.taken, h]

/-- The configuration word of a local step channel, AUX_CHCFGc. -/
def State.chanCfg (s : State) (c : Fin 16) : Word := s.reg (0xD0100 + c.val * 0x20)

/-- The rising edges of a batch of `n` steps on a channel (R190). -/
def State.batchRises (s : State) (c : Fin 16) (n : Int) : List Nat :=
  let cfg := (s.chanCfg c).toNat
  stepRises (s.tTick - 10 * fld cfg 15 8 - 10 * fld cfg 23 16) (fld cfg 15 8) n.natAbs

theorem length_batchRises (s : State) (c : Fin 16) (n : Int) : (s.batchRises c n).length = n.natAbs := by
  rw [State.batchRises, stepRises, List.length_map, List.length_range]

/-- The steps that a channel emits for a batch of `n` at DIR level `dir`, with the width and polarities of its configuration. -/
def State.stepsOut (s : State) (c : Fin 16) (n : Int) (dir : Bool) : Out :=
  .steps c n (dir != (s.chanCfg c).getLsbD 24) (s.batchRises c n) (4 * ((s.chanCfg c).setWidth 8).toNat) ((s.chanCfg c).getLsbD 25)

theorem fld_byte (w : Word) : fld w.toNat 7 0 = (w.setWidth 8).toNat := by
  rw [BitVec.toNat_setWidth, fld, Nat.pow_zero, Nat.div_one]

section
variable {s : State} {c : Fin 16} {p : AuxProf} (hc : s.chanAxis c.val = some p)
include hc

theorem stepBatch_sto (hs : s.coreSafety = .sto) :
    exec (.stepBatch c) s = .next (s.setChan c { s.chans[c] with last := 0, iref := 0 }) := by
  show execStepBatch c s = _
  rw [execStepBatch, hc]
  exact congrArg Host.Outcome.next (if_pos (beq_iff_eq.mpr hs))

/-- Outside STO a channel takes the batch of its axis, and emits its steps if it has any. -/
theorem stepBatch_takes (hs : s.coreSafety ≠ .sto) {n : Int} (hn : s.aux[p.ax].cmd0 - s.aux[p.ax].cmd1 = n) {x : StepChan}
    (hx : s.chans[c].taken n s.aux[p.ax].icur = x) :
    exec (.stepBatch c) s = .next (if n = 0 then s.setChan c x else (s.setChan c x).out (s.stepsOut c n x.dir)) := by
  have hdir := congrArg StepChan.dir (setChan_self s c x)
  subst hn hx
  show execStepBatch c s = _
  rw [execStepBatch, hc]
  refine congrArg Host.Outcome.next ((if_neg (mt beq_iff_eq.mp hs)).trans (if_congr Iff.rfl rfl ?_))
  rw [State.stepsOut, ← hdir, ← fld_byte, ← bitOf_toNat_eq_getLsbD, ← bitOf_toNat_eq_getLsbD]
  rfl

end

end Sys2Proof.Machine

open Sys2Proof Sys2Proof.Machine

/-- Settles O39: the append by the one pass that its descriptor belongs to, a STOP by what it leaves of its axis at rest
or in motion, the stall by the generator it leaves, and a step batch by what its channel takes. -/
theorem auxiliaryMoveResults : Obligations.AuxiliaryMoveResults := by
  unfold Obligations.AuxiliaryMoveResults
  refine ⟨?append, ?stopDone, ?stall, fun s a hdue => congrArg Host.Outcome.next (if_pos hdue), ?batch⟩
  case append =>
    intro s c e a m p hreq hp s1 g
    rw [auxqApply_one hreq hp]
    simp only [bne_iff_ne]
    split_ifs with hstop hrun
    · rfl
    · obtain ⟨g', evs, ht, hqueue, hstart, hv, hrests, hmoves⟩ := auxStop_spec s1 a m
      have hself : (s1.aux.set a g')[a] = g' := aux_set_self
      refine ⟨_, congrArg Host.Outcome.next ht, (congrArg AuxGen.queue hself).trans hqueue,
        (congrArg AuxGen.start hself).trans hstart, (congrArg AuxGen.v hself).trans hv,
        fun b hb => aux_set_of_ne hb g', rfl, rfl, rfl, hrests, fun hrest => ?_⟩
      obtain ⟨hstopping, hstops⟩ := hmoves hrest
      exact ⟨(congrArg AuxGen.stopping hself).trans hstopping, (congrArg AuxGen.stops hself).trans hstops⟩
    · rfl
    · rfl
  case stopDone =>
    intro s a hstop hv haprev
    exact ⟨_, auxStopDone_tells hstop ⟨hv, haprev⟩, rfl, rfl, rfl, rfl, rfl, rfl⟩
  case stall =>
    intro s a hdue
    obtain ⟨detail, more, free, evs, ht⟩ := auxStall_locks hdue
    have hself : (s.aux.set a s.aux[a].stalled)[a] = s.aux[a].stalled := aux_set_self
    refine ⟨_, ht, congrArg AuxGen.stallLock hself, congrArg AuxGen.stallDue hself, congrArg AuxGen.queue hself,
      congrArg AuxGen.start hself, ?_, ⟨_, List.mem_append_right _ List.mem_cons_self, rfl, rfl⟩,
      fun b hb => aux_set_of_ne hb _, rfl, rfl, rfl⟩
    exact fun hno => stalled_stopping _ ((congrArg AuxGen.stopping hself).symm.trans hno)
  case batch =>
    intro s c p hc
    by_cases hs : s.coreSafety = .sto
    · refine ⟨_, stepBatch_sto hc hs, rfl, rfl, rfl, fun d hd => setChan_of_ne s hd _, fun _ => ?_, fun h => absurd hs h⟩
      rw [setChan_self]
      exact ⟨rfl, rfl, rfl, rfl⟩
    · have ht := stepBatch_takes hc hs rfl rfl
      by_cases hn : s.aux[p.ax].cmd0 - s.aux[p.ax].cmd1 = 0
      · rw [if_pos hn, hn, taken_zero] at ht
        refine ⟨_, ht, rfl, rfl, rfl, fun d hd => setChan_of_ne s hd _, fun h => absurd h hs, fun _ => ?_⟩
        rw [setChan_self]
        exact ⟨hn.symm, rfl, fun _ => ⟨rfl, rfl, rfl⟩, fun h => absurd hn h⟩
      · rw [if_neg hn, taken_steps _ hn] at ht
        refine ⟨_, ht, rfl, rfl, rfl, fun d hd => setChan_of_ne s hd _, fun h => absurd h hs, fun _ => ?_⟩
        rw [out_chans, setChan_self]
        exact ⟨rfl, rfl, fun h => absurd h hn, fun _ => ⟨rfl, rfl, _, length_batchRises s c _, rfl⟩⟩

end

section
/-! The control engine: the axis cascade, manual mode, bumpless transfer and the one-shot clears (R252, R259, R260, R264,
R266, R269, R271, R272), and the setpoint records on the fabric (R424, R425, R432). -/

namespace Sys2Proof.Machine

/-! ### Saturated arithmetic (R259) -/

theorem clampInt_of_mem {lo hi x : Int} (hlo : lo ≤ x) (hhi : x ≤ hi) : clampInt lo hi x = x := by
  rw [clampInt, min_eq_right hhi, max_eq_right hlo]

theorem sat32_of_mem {x : Int} (hlo : -(2 ^ 31) ≤ x) (hhi : x < 2 ^ 31) : sat32 x = x := clampInt_of_mem hlo (by omega)

/-- Rounding takes back a shift: there is nothing to round. -/
theorem rndShift_mul_two_pow (d : Int) (n : Nat) : rndShift (d * 2 ^ n) n = d := by
  cases n with
  | zero => exact mul_one d
  | succ n =>
    have hpos : (0 : Int) < 2 ^ n := by positivity
    rw [rndShift, if_neg n.succ_ne_zero, Nat.add_sub_cancel, add_comm, Int.add_mul_ediv_right _ _ (by positivity),
      Int.ediv_eq_zero_of_lt hpos.le (by rw [pow_succ]; omega), zero_add]

/-- What fits 32 bits after a shift to the left fits them before it. -/
theorem sat32_of_mul_two_pow_mem {d : Int} {n : Nat} (hlo : -(2 ^ 31) ≤ d * 2 ^ n) (hhi : d * 2 ^ n < 2 ^ 31) : sat32 d = d := by
  have hone : (1 : Int) ≤ 2 ^ n := one_le_pow₀ (by decide)
  exact sat32_of_mem (by nlinarith) (by nlinarith)

/-! ### One tick of the cascade (R260)

With the switches of its inputs known, `runCascade` computes to the terms of R260; each lemma splits on the switches that
its hypotheses leave open. -/

/-- The setpoint of speed mode before its clamp, biquads off, with integrator `ip`. -/
def CascIn.speedSum (i : CascIn) (c : Cascade) (ip : Int) : Int := sat32 (sat32 (i.pp c + rnd ip (i.sh 19)) + i.vff)

/-- The speed reference of torque mode before its clamp. -/
def CascIn.speedRef (i : CascIn) (c : Cascade) : Int := sat32 (i.pp c + rnd c.ip (i.sh 19) + i.vff)

/-- The speed error of torque mode. -/
def CascIn.speedErr (i : CascIn) (c : Cascade) : Int := sat32 (clampInt (-i.vlim) i.vlim (i.speedRef c) - i.vfb)

/-- The setpoint of torque mode before its clamp, biquads off. -/
def CascIn.torqueSum (i : CascIn) (c : Cascade) : Int :=
  sat32 (sat32 (rnd (i.k 4 * i.speedErr c) (i.sh 4) + rnd c.iv (i.sh 20)) + i.tff + i.dob)

section
variable {i : CascIn} (c : Cascade)

/-- The part that both modes share: the error, and the fault as it was. -/
theorem runCascade_error (i : CascIn) :
    (runCascade i c .normal).ep = i.ep ∧ (runCascade i c .normal).epPrev = i.ep ∧ (runCascade i c .normal).fault = c.fault := by
  obtain ⟨k, sh, vlim, tlim, torque, vffen, bq1en, bq2en, cmd, act, vfb, vcmd, tff, tffSat, dob⟩ := i
  cases torque <;> exact ⟨rfl, rfl, rfl⟩

theorem runCascade_speed (ht : i.torque = false) (h1 : i.bq1en = false) (h2 : i.bq2en = false) :
    let r := runCascade i c .normal
    let y := i.speedSum c c.ip
    let u := clampInt (-i.vlim) i.vlim y
    r.u = u ∧ r.iv = c.iv ∧ r.ip = sat32 (c.ip + rnd (i.k 1 * i.ep) (i.sh 1) + rnd (i.k 3 * (u - y)) (i.sh 3)) := by
  obtain ⟨k, sh, vlim, tlim, torque, vffen, bq1en, bq2en, cmd, act, vfb, vcmd, tff, tffSat, dob⟩ := i
  cases ht
  cases h1
  cases h2
  cases vffen <;> exact ⟨rfl, rfl, rfl⟩

theorem runCascade_torque (ht : i.torque = true) (h1 : i.bq1en = false) (h2 : i.bq2en = false) :
    let r := runCascade i c .normal
    let vr := i.speedRef c
    let y := i.torqueSum c
    let u := clampInt (-i.tlim) i.tlim y
    r.u = u
      ∧ r.ip = sat32 (c.ip + rnd (i.k 1 * i.ep) (i.sh 1) + rnd (i.k 3 * (clampInt (-i.vlim) i.vlim vr - vr)) (i.sh 3))
      ∧ r.iv = sat32 (c.iv + rnd (i.k 5 * i.speedErr c) (i.sh 5) + rnd (i.k 6 * (u - y)) (i.sh 6)) := by
  obtain ⟨k, sh, vlim, tlim, torque, vffen, bq1en, bq2en, cmd, act, vfb, vcmd, tff, tffSat, dob⟩ := i
  cases ht
  cases h1
  cases h2
  cases vffen <;> exact ⟨rfl, rfl, rfl⟩

/-- The cascade of an axis under a manual setpoint, its checks suspended (R264). -/
def CascIn.held (i : CascIn) (c : Cascade) (man : Int) (out : Bool) : Cascade :=
  let r := runCascade i c (.hold man)
  (({ r with um := r.u } : Cascade).unchecked out).countSat

/-- Under a manual setpoint the output is that setpoint, clamped, and the integrators hold. -/
theorem held_spec (i : CascIn) (man : Int) (out : Bool) :
    let lim := if i.torque then i.tlim else i.vlim
    (i.held c man out).u = clampInt (-lim) lim man ∧ (i.held c man out).um = (i.held c man out).u
      ∧ (i.held c man out).ip = c.ip ∧ (i.held c man out).iv = c.iv := by
  obtain ⟨k, sh, vlim, tlim, torque, vffen, bq1en, bq2en, cmd, act, vfb, vcmd, tff, tffSat, dob⟩ := i
  cases torque <;> exact ⟨rfl, rfl, rfl, rfl⟩

/-- The integrator that the transfer presets in speed mode, before its saturation (R266). -/
def CascIn.presetIp (i : CascIn) (c : Cascade) (um : Int) : Int := (um - i.pp c - i.vff) * 2 ^ i.sh 19

theorem runCascade_preset (um : Int) (ht : i.torque = false) (h1 : i.bq1en = false) (h2 : i.bq2en = false) :
    let r := runCascade i c (.preset um)
    let x := sat32 (i.presetIp c um)
    r.ip = x ∧ r.u = clampInt (-i.vlim) i.vlim (i.speedSum c x) := by
  obtain ⟨k, sh, vlim, tlim, torque, vffen, bq1en, bq2en, cmd, act, vfb, vcmd, tff, tffSat, dob⟩ := i
  cases ht
  cases h1
  cases h2
  cases vffen <;> exact ⟨rfl, rfl⟩

/-- A preset that does not saturate makes the sum the manual setpoint. -/
theorem speedSum_presetIp {um : Int} (hlo : -(2 ^ 31) ≤ i.presetIp c um) (hhi : i.presetIp c um < 2 ^ 31)
    (hvlo : -(2 ^ 31) ≤ um - i.vff) (hvhi : um - i.vff < 2 ^ 31) (hum : sat32 um = um) :
    i.speedSum c (i.presetIp c um) = um := by
  have hrnd : rnd (i.presetIp c um) (i.sh 19) = um - i.pp c - i.vff := by
    rw [rnd, CascIn.presetIp, rndShift_mul_two_pow]
    exact sat32_of_mul_two_pow_mem hlo hhi
  have hsum : i.pp c + (um - i.pp c - i.vff) = um - i.vff := by omega
  rw [CascIn.speedSum, hrnd, hsum, sat32_of_mem hvlo hvhi, Int.sub_add_cancel, hum]

/-- Where the preset does not saturate and the speed limit admits the manual setpoint, the transfer is bumpless (R266). -/
theorem runCascade_preset_bumpless {um : Int} (ht : i.torque = false) (h1 : i.bq1en = false) (h2 : i.bq2en = false)
    (hlo : -(2 ^ 31) ≤ i.presetIp c um) (hhi : i.presetIp c um < 2 ^ 31) (hvlo : -(2 ^ 31) ≤ um - i.vff) (hvhi : um - i.vff < 2 ^ 31)
    (hlim : um.natAbs ≤ i.vlim) (hvlim : i.vlim < 2 ^ 31) :
    (runCascade i c (.preset um)).u = um ∧ (runCascade i c (.preset um)).ip = i.presetIp c um := by
  obtain ⟨hip, hu⟩ := runCascade_preset c um ht h1 h2
  rw [sat32_of_mem hlo hhi] at hip hu
  rw [speedSum_presetIp c hlo hhi hvlo hvhi (sat32_of_mem (by omega) (by omega))] at hu
  exact ⟨hu.trans (clampInt_of_mem (by omega) (by omega)), hip⟩

end

/-! ### One cascade changed -/

theorem cascs_set_self {v : Vector Cascade 128} {a : Fin 128} {c : Cascade} : (v.set a c)[a] = c := Vector.getElem_set_self a.isLt

theorem cascs_set_of_ne {v : Vector Cascade 128} {a b : Fin 128} (h : b ≠ a) (c : Cascade) : (v.set a c)[b] = v[b] :=
  Vector.getElem_set_ne a.isLt b.isLt fun e => h (Fin.ext e.symm)

/-- Between s and t nothing changed but the cascade of axis a, which t has as c, the status of the dynamics blocks and the
faults on their way. -/
def State.OnlyCascade (s : State) (a : Fin 128) (t : State) (c : Cascade) : Prop :=
  ∃ dyns reports free, t = { s with cascs := s.cascs.set a c, dyns := dyns, reports := reports, free := free }

section
variable {s t : State} {a b : Fin 128} {c : Cascade}

theorem State.OnlyCascade.refl (s : State) (a : Fin 128) : s.OnlyCascade a s s.cascs[a] :=
  ⟨_, _, _, by rw [Fin.getElem_fin, Vector.set_getElem_self]⟩

theorem State.OnlyCascade.modCasc (h : s.OnlyCascade a t c) (f : Cascade → Cascade) : s.OnlyCascade a (t.modCasc a f) (f c) := by
  obtain ⟨dyns, reports, free, rfl⟩ := h
  exact ⟨dyns, reports, free, by simp only [State.modCasc, vmod, Fin.getElem_fin, Vector.getElem_set_self, Vector.set_set]⟩

theorem State.OnlyCascade.raise_if (h : s.OnlyCascade a t c) (b : Bool) (code cls : Nat) :
    s.OnlyCascade a (if b then t.raise code cls else t) c := by
  obtain ⟨dyns, reports, free, rfl⟩ := h
  cases b with
  | true => exact ⟨dyns, _, _, rfl⟩
  | false => exact ⟨dyns, reports, free, rfl⟩

theorem State.OnlyCascade.self (h : s.OnlyCascade a t c) : t.cascs[a] = c := by
  obtain ⟨_, _, _, rfl⟩ := h
  exact cascs_set_self

theorem State.OnlyCascade.of_ne (h : s.OnlyCascade a t c) (hb : b ≠ a) : t.cascs[b] = s.cascs[b] := by
  obtain ⟨_, _, _, rfl⟩ := h
  exact cascs_set_of_ne hb c

theorem State.OnlyCascade.axisCmd (h : s.OnlyCascade a t c) : t.axisCmd a = s.axisCmd a := by
  obtain ⟨_, _, _, rfl⟩ := h
  rfl

theorem State.OnlyCascade.cascIn (h : s.OnlyCascade a t c) (cmd : Int) : t.cascIn a cmd = s.cascIn a cmd := by
  obtain ⟨_, _, _, rfl⟩ := h
  rfl

theorem State.OnlyCascade.frame (h : s.OnlyCascade a t c) :
    t.regs = s.regs ∧ t.arms = s.arms ∧ t.aux = s.aux ∧ t.lanes = s.lanes ∧ t.fbk = s.fbk ∧ t.mans = s.mans := by
  obtain ⟨_, _, _, rfl⟩ := h
  exact ⟨rfl, rfl, rfl, rfl, rfl, rfl⟩

theorem State.OnlyCascade.reg (h : s.OnlyCascade a t c) : t.reg = s.reg := by
  obtain ⟨_, _, _, rfl⟩ := h
  rfl

/-- The bookkeeping of a dynamics block marks in the cascade of the axis whether the block is in use (R256). -/
theorem dynBook_onlyCascade (s : State) (a : Fin 128) :
    ∃ dyn, s.OnlyCascade a (s.dynBook a) { s.cascs[a] with dyn := dyn } := by
  unfold State.dynBook
  split
  · extract_lets kk tffen valid fell late s1 s2
    have h1 : s.OnlyCascade a s1 s.cascs[a] := ⟨_, _, _, by rw [Fin.getElem_fin, Vector.set_getElem_self]⟩
    have h2 : s.OnlyCascade a s2 s.cascs[a] := h1.raise_if late _ _
    exact ⟨_, h2.modCasc _⟩
  · exact ⟨_, .refl s a⟩

/-- d has the states, the error and the output of c. -/
def Cascade.SameValues (c d : Cascade) : Prop := d.ep = c.ep ∧ d.epPrev = c.epPrev ∧ d.u = c.u ∧ d.ip = c.ip ∧ d.iv = c.iv

theorem Cascade.SameValues.refl (c : Cascade) : c.SameValues c := ⟨rfl, rfl, rfl, rfl, rfl⟩

theorem countSat_eq (c : Cascade) : ∃ n, c.countSat = { c with satCnt := n } := ⟨_, rfl⟩

/-- The checks of R269 latch the fault of an error outside FELIM, and leave the states of the cascade and its output. -/
theorem followChecks_onlyCascade (h : s.OnlyCascade a t c) : ∃ d, s.OnlyCascade a (t.followChecks a) d ∧ c.SameValues d
    ∧ d.fault = (c.fault || decide (fld (s.regN (ctlBase a.val + 0x18)) 30 0 < c.ep.natAbs)) := by
  unfold State.followChecks State.regN
  rw [h.self, h.reg]
  extract_lets c' fw fl warn s1 exceeds s2 out s3
  have h3 : s.OnlyCascade a s3 c := ((h.raise_if _ _ _).raise_if _ _ _).raise_if _ _ _
  exact ⟨_, h3.modCasc _, .refl c, rfl⟩

end

/-! ### The axis's slot outside manual mode -/

/-- The slot of an axis outside STO and manual mode: the bookkeeping, the cascade, and its checks. -/
def State.cascadeTick (s : State) (a : Fin 128) (mode : Cascade → CascMode) : State :=
  let s1 := s.dynBook a
  (s1.modCasc a fun c => (runCascade (s1.cascIn a (s1.axisCmd a).1) c (mode c)).countSat).followChecks a

/-- The cascade that the tick computes before its checks, whose dynamics block is in use or not. -/
def State.tickCascade (s : State) (a : Fin 128) (mode : Cascade → CascMode) (dyn : Bool) : Cascade :=
  runCascade (s.cascIn a (s.axisCmd a).1) { s.cascs[a] with dyn := dyn } (mode { s.cascs[a] with dyn := dyn })

/-- A tick leaves the values of R260 on its inputs, and latches the fault. -/
theorem cascadeTick_spec (s : State) (a : Fin 128) (mode : Cascade → CascMode) : ∃ dyn d, s.OnlyCascade a (s.cascadeTick a mode) d
    ∧ (s.tickCascade a mode dyn).SameValues d
    ∧ d.fault = ((s.tickCascade a mode dyn).fault
        || decide (fld (s.regN (ctlBase a.val + 0x18)) 30 0 < (s.tickCascade a mode dyn).ep.natAbs)) := by
  obtain ⟨dyn, hbook⟩ := dynBook_onlyCascade s a
  obtain ⟨d, htick, hvals, hfault⟩ := followChecks_onlyCascade (hbook.modCasc fun c =>
    (runCascade (s.cascIn a (s.axisCmd a).1) c (mode c)).countSat)
  obtain ⟨n, hcount⟩ := countSat_eq (s.tickCascade a mode dyn)
  rw [State.tickCascade] at hcount
  rw [hcount] at hvals hfault
  refine ⟨dyn, d, ?_, hvals, hfault⟩
  dsimp only [State.cascadeTick]
  rw [hbook.axisCmd, hbook.cascIn]
  exact htick

/-! ### AXIS_CASCADE -/

section
variable {s : State} {a : Fin 128}

theorem axisCascade_stopped (hclk : s.stopped 2 = true) : exec (.axisCascade a) s = .next s := by
  show execAxisCascade a s = _
  rw [execAxisCascade, hclk, Bool.or_true]
  rfl

theorem bumplessTransfer_stopped (hclk : s.stopped 2 = true) : exec (.bumplessTransfer a) s = .next s := by
  show execBumplessTransfer a s = _
  rw [execBumplessTransfer, hclk, Bool.not_true, Bool.and_false]
  rfl

section
variable (hpart : s.axisPresent a.val = true) (hruns : s.runsCascade a.val = true) (hclk : s.stopped 2 = false)
include hpart hruns hclk

theorem axisCascade_sto (hsto : s.coreSafety = .sto) : exec (.axisCascade a) s = .next
    ((s.dynNoted a).modCasc a fun c => ({ c with
      ip := 0, iv := 0, epPrev := 0, bq1 := {}, bq2 := {}, u := 0, ep := 0, sat := false, dyn := false } : Cascade).unchecked
        (s.outOfTravel a)) := by
  show execAxisCascade a s = _
  rw [execAxisCascade, hpart, hruns, hclk, hsto]
  rfl

/-- The slot of an axis under its manual setpoint (R264). -/
def State.manualTick (s : State) (a : Fin 128) : State :=
  let s1 := (s.holdCmd a).dynBook a
  s1.modCasc a fun c => (s1.cascIn a (s1.axisAct a)).held c (s1.reg (ctlBase a.val + 8)).toInt (s1.outOfTravel a)

theorem axisCascade_manual (hsto : s.coreSafety ≠ .sto) (hman : s.mans[a] = true) (hreg : s.manReg a.val = true) :
    exec (.axisCascade a) s = .next (s.manualTick a) := by
  show execAxisCascade a s = _
  rw [execAxisCascade, State.switching, hpart, hruns, hclk, hman, hreg, beq_false_of_ne hsto]
  rfl

theorem axisCascade_normal (hsto : s.coreSafety ≠ .sto) (hman : s.mans[a] = false) :
    exec (.axisCascade a) s = .next (s.cascadeTick a fun _ => .normal) := by
  show execAxisCascade a s = _
  rw [execAxisCascade, State.switching, hpart, hruns, hclk, hman, beq_false_of_ne hsto]
  rfl

end

/-- In STO only the validity of the dynamics block of the axis's arm is noted. -/
theorem dynNoted_eq (s : State) (a : Fin 128) :
    ∃ d, (∀ k : Fin 8, d[k] = { s.dyns[k] with valid := d[k].valid }) ∧ s.dynNoted a = { s with dyns := d } := by
  unfold State.dynNoted
  split
  · refine ⟨_, fun k => ?_, rfl⟩
    rw [vmod, Fin.getElem_fin, Vector.getElem_set]
    split
    · next hk => rw [← Fin.ext hk]
    · rfl
  · exact ⟨s.dyns, fun _ => rfl, rfl⟩

/-! ### Manual mode (R264, R266) -/

theorem holdCmd_eq (s : State) (a : Fin 128) : ∃ arms aux, s.holdCmd a = { s with arms := arms, aux := aux } := by
  unfold State.holdCmd
  extract_lets act
  split <;> exact ⟨_, _, rfl⟩

/-- A manual tick leaves the clamped manual setpoint as the output, and the integrators as they were. -/
theorem manualTick_spec (s : State) (a : Fin 128) :
    let lim : Int := if bitOf (s.ctlCfg a.val) 0 then fld (s.regN (ctlBase a.val + 0x10)) 30 0 else fld (s.regN (ctlBase a.val + 0xC)) 30 0
    ∃ arms aux c, ({ s with arms := arms, aux := aux } : State).OnlyCascade a (s.manualTick a) c
      ∧ c.u = clampInt (-lim) lim (s.reg (ctlBase a.val + 8)).toInt ∧ c.um = c.u ∧ c.ip = s.cascs[a].ip ∧ c.iv = s.cascs[a].iv := by
  intro lim
  obtain ⟨arms, aux, hhold⟩ := holdCmd_eq s a
  unfold State.manualTick
  rw [hhold]
  extract_lets s1
  obtain ⟨dyn, hbook⟩ := dynBook_onlyCascade { s with arms := arms, aux := aux } a
  obtain ⟨hu, hum, hip, hiv⟩ := held_spec { s.cascs[a] with dyn := dyn } (s1.cascIn a (s1.axisAct a))
    (s1.reg (ctlBase a.val + 8)).toInt (s1.outOfTravel a)
  have hi : s1.cascIn a (s1.axisAct a) = _ := hbook.cascIn _
  have hreg : s1.reg = s.reg := hbook.reg
  refine ⟨arms, aux, _, hbook.modCasc _, hu.trans ?_, hum, hip, hiv⟩
  rw [hreg, hi]
  rfl

theorem bumplessTransfer_switching (hman : s.mans[a] = true) (hreg : s.manReg a.val = false) (hsto : s.coreSafety ≠ .sto)
    (hclk : s.stopped 2 = false) : exec (.bumplessTransfer a) s =
      .next (({ s with mans := s.mans.set a false } : State).cascadeTick a fun c => .preset c.um) := by
  show execBumplessTransfer a s = _
  rw [execBumplessTransfer, State.switching, hman, hreg, hclk, bne_iff_ne.mpr hsto]
  rfl

end

/-! ### The one-shot clears of CTL_AXCTRLa (R260, R269) -/

/-- A committed clear takes its bit away and acts on the cascade of its axis; without the bit it does nothing. -/
theorem committedCascadeClear_eq (s : State) (a : Fin 128) (bit : Nat) (f : Cascade → Cascade) :
    let t := s.takeDue (ctlBase a.val + 4) bit
    (if t.1 then t.2.modCasc a f else t.2) =
      if bitOf (assoc 0 s.due (ctlBase a.val + 4)).toNat bit = true then
        { t.2 with cascs := s.cascs.set a (f s.cascs[a]) }
      else s := by
  cases h : bitOf (assoc 0 s.due (ctlBase a.val + 4)).toNat bit with
  | false => rw [takeDue_none h]; rfl
  | true =>
    obtain ⟨due, ht⟩ := takeDue_waiting h
    rw [ht]
    rfl

/-! ### Setpoint records (R424, R425, R432) -/

/-- Records that fit one frame make one. -/
theorem chunks_of_length_le {α : Type} {n fuel : Nat} {l : List α} (hne : l ≠ []) (hlen : l.length ≤ n) :
    chunks n (fuel + 2) l = [l] := by
  obtain ⟨x, xs, rfl⟩ := List.exists_cons_of_ne_nil hne
  rw [chunks]
  · rw [List.take_of_length_le hlen, List.drop_of_length_le hlen]
    rfl
  · exact hne

theorem setpointSend_idle {s : State} (ch : Channel) (h : s.running = false ∨ s.maySend = false) :
    exec (.setpointSend ch) s = .next s := by
  show execSetpointSend ch s = _
  unfold execSetpointSend
  rcases h with h | h
  · rw [h]; rfl
  · rw [h, Bool.and_false]; rfl

theorem setpointSend_one {s : State} {ch : Channel} {e : MEntry} (hrun : s.running = true) (hmay : s.maySend = true)
    (hent : s.sptEntries ch (s.epoch % 64) = [e]) (hne : s.setpointRecs ch ≠ []) (hlen : (s.setpointRecs ch).length ≤ 31)
    (hfit : windowNeed s.prof.guard [8 + 8 * (s.setpointRecs ch).length] ≤ 8 * e.len) :
    exec (.setpointSend ch) s = .next (s.out (.sched ch (s.mkFrame 2 (BitVec.ofNat 12 e.fid)
      (BitVec.ofNat 64 (s.epoch * s.tTick + 8 * e.start))
      ([BitVec.ofNat 8 (s.setpointRecs ch).length] ++ [0, 0, 0, 0, 0, 0, 0] ++ (s.setpointRecs ch).flatMap SptRec.bytes)))) := by
  show execSetpointSend ch s = _
  unfold execSetpointSend
  rw [hrun, hmay, hent, chunks_of_length_le hne hlen]
  simp only [List.foldl_cons, List.foldl_nil, List.take_succ_cons, List.take_nil, List.map_cons, List.map_nil, hfit]
  rfl

theorem lose_key (v : NodeVal) : v.lose.dest = v.dest ∧ v.lose.kind = v.kind ∧ v.lose.index = v.index := by
  unfold NodeVal.lose
  extract_lets w
  split_ifs <;> exact ⟨rfl, rfl, rfl⟩

/-- A record that does not arrive at a node which holds one value, that of the record (R425). -/
theorem setpointLoss_one {s : State} {r : SptRec} {v : NodeVal} (hv : s.mer.vals = [v]) (hd : v.dest = r.dest) (hk : v.kind = r.kind)
    (hi : v.index = r.index) : exec (.setpointLoss [r]) s = .next (s.modMer fun m => { m with
      vals := [v.lose]
      lostNodes := if decide (2 ≤ v.lose.miss) && !m.lostNodes.contains r.dest then r.dest :: m.lostNodes else m.lostNodes }) := by
  obtain ⟨hld, hlk, hli⟩ := lose_key v
  show execSetpointLoss [r] s = _
  unfold execSetpointLoss State.modMer
  simp only [List.foldl_cons, List.foldl_nil, hv, List.any_cons, List.any_nil, List.map_cons, List.map_nil, hld, hlk, hli, hd, hk, hi,
    beq_self_eq_true, Bool.and_self, Bool.or_false, if_true, Bool.true_and]

theorem lose_first {v : NodeVal} (h : v.miss = 0) : v.lose = { v with miss := 1 } := by
  unfold NodeVal.lose
  rw [h]
  rfl

theorem lose_again {v : NodeVal} (h : 1 ≤ v.miss) : v.lose = { v with
    miss := v.miss + 1, value := if v.kind = 0 ∨ v.kind = 1 ∨ v.kind = 3 then 0 else v.value
    holdCur := v.holdCur || v.kind == 4 } := by
  unfold NodeVal.lose
  extract_lets w
  rw [if_neg (show ¬ w.miss < 2 from Nat.not_lt.mpr (Nat.succ_le_succ h))]
  simp only [Bool.or_eq_true, beq_iff_eq, or_assoc]
  split_ifs with hzero hcur
  · have hno : (v.kind == 4) = false := by rcases hzero with h0 | h0 | h0 <;> rw [h0] <;> rfl
    rw [hno, Bool.or_false]
  · rw [hcur, beq_self_eq_true, Bool.or_true]
  · rw [beq_false_of_ne hcur, Bool.or_false]

/-- A node whose record is missed again is among the lost ones, once. -/
theorem mem_lostNodes (l : List (BitVec 10)) (x : BitVec 10) : x ∈ if !l.contains x then x :: l else l := by
  cases h : l.contains x with
  | false => exact List.mem_cons_self
  | true => exact List.contains_iff_mem.mp h

end Sys2Proof.Machine

open Sys2Proof Sys2Proof.Machine

/-- Settles O46: the cascade by the tick of its axis in each mode, the transfer by the preset that the rounding takes back,
and the setpoint records by the one frame that is sent and the one value that is lost. -/
theorem controlAndSetpointResults : Obligations.ControlAndSetpointResults := by
  unfold Obligations.ControlAndSetpointResults
  refine ⟨?normal, ?sto, fun s a hclk => ⟨axisCascade_stopped hclk, bumplessTransfer_stopped hclk⟩, ?manual, ?enter, ?transfer,
    fun s a => congrArg Host.Outcome.next (committedCascadeClear_eq s a 2 _),
    fun s a => congrArg Host.Outcome.next (committedCascadeClear_eq s a 1 _),
    fun s ch => setpointSend_idle ch, fun s ch e hrun hmay hent => setpointSend_one hrun hmay hent,
    fun s r => ⟨_, rfl, rfl, rfl, rfl⟩, ?loss⟩
  case normal =>
    intro s a hpart hruns hclk hsto hman i c h1 h2
    obtain ⟨dyn, d, hd, ⟨hep, hprev, hu, hip, hiv⟩, hfault⟩ := cascadeTick_spec s a fun _ => .normal
    obtain ⟨hregs, harms, haux, hlanes, -, -⟩ := hd.frame
    obtain ⟨hrep, hrprev, hrfault⟩ := runCascade_error { c with dyn := dyn } i
    refine ⟨_, axisCascade_normal hpart hruns hclk hsto hman, hregs, harms, haux, hlanes, fun b => hd.of_ne, ?_⟩
    rw [hd.self]
    refine ⟨hep.trans hrep, hprev.trans hrprev, hfault.trans (congrArg₂ _ hrfault (by rw [State.tickCascade, hrep])),
      fun ht => ?_, fun ht => ?_⟩
    · obtain ⟨hru, hriv, hrip⟩ := runCascade_speed { c with dyn := dyn } ht h1 h2
      exact ⟨hu.trans hru, hiv.trans hriv, hip.trans hrip⟩
    · obtain ⟨hru, hrip, hriv⟩ := runCascade_torque { c with dyn := dyn } ht h1 h2
      exact ⟨hu.trans hru, hip.trans hrip, hiv.trans hriv⟩
  case sto =>
    intro s a hpart hruns hclk hsto
    obtain ⟨d, hd, hnoted⟩ := dynNoted_eq s a
    refine ⟨d, hd, ?_⟩
    rw [axisCascade_sto hpart hruns hclk hsto, hnoted]
    rfl
  case manual =>
    intro s a hpart hruns hclk hsto hman hreg lim
    obtain ⟨arms, aux, c, hc, hu, hum, hip, hiv⟩ := manualTick_spec s a
    refine ⟨_, axisCascade_manual hpart hruns hclk hsto hman hreg, ?_⟩
    obtain ⟨hregs, -, -, hlanes, hfbk, -⟩ := hc.frame
    rw [hc.self]
    exact ⟨hu, hum, hip, hiv, hregs, fun b => hc.of_ne, hlanes, hfbk⟩
  case enter =>
    exact fun s a => congrArg Host.Outcome.next (if_congr (by simp only [Bool.and_eq_true, beq_iff_eq, and_assoc]) rfl rfl)
  case transfer =>
    intro s a hman hreg hsto hclk i c x h1 h2 ht hlo hhi hum hvlo hvhi
    obtain ⟨dyn, d, hd, ⟨-, -, hu, hip, -⟩, -⟩ := cascadeTick_spec { s with mans := s.mans.set a false } a fun c => .preset c.um
    obtain ⟨hru, hrip⟩ := runCascade_preset_bumpless { c with dyn := dyn } ht h1 h2 hlo hhi hvlo hvhi hum
      (Int.ofNat_lt.mpr (fld_lt _ 30 0))
    obtain ⟨hregs, harms, haux, -, -, hmans⟩ := hd.frame
    refine ⟨_, bumplessTransfer_switching hman hreg hsto hclk, ?_, ?_, hmans, fun b => hd.of_ne, hregs, harms, haux⟩
    · exact (congrArg Cascade.u hd.self).trans (hu.trans hru)
    · exact (congrArg Cascade.ip hd.self).trans (hip.trans hrip)
  case loss =>
    intro s r v hv hd hk hi
    refine ⟨_, setpointLoss_one hv hd hk hi, rfl, rfl, fun h => ?_, fun h => ?_⟩
    · rw [lose_first h]
      exact ⟨rfl, rfl⟩
    · rw [lose_again h]
      have hmiss : decide (2 ≤ v.miss + 1) = true := decide_eq_true (Nat.succ_le_succ h)
      refine ⟨?_, rfl⟩
      rw [modMer_mer, hmiss]
      exact mem_lostNodes _ _

end
